-- ==== Sys2Proof/Word.lean ====
section
/-!
DEFINITION. The word types of the KE-2048 and their plainest arithmetic: bytes and 16-bit words of a pan
(spec/02_tretan8_processor.md R24), and the little-endian pairing of R6.
-/
namespace Sys2Proof

/-- One byte of a pan, of device DRAM or of host memory. -/
abbrev Byte := BitVec 8

/-- A 16-bit register or address of a pan (R24). -/
abbrev Word := BitVec 16

/-- The low byte of a word. -/
def Word.lo (w : Word) : Byte := w.setWidth 8

/-- The high byte of a word. -/
def Word.hi (w : Word) : Byte := (w >>> 8).setWidth 8

/-- The word whose high and low bytes are given (R27: 16-bit operands are little-endian). -/
def Word.ofBytes (hi lo : Byte) : Word := hi ++ lo

/-- The word whose 16 bits extend the sign of a byte (forms #s, r and [P+d] of R27). -/
def Word.ofSigned (b : Byte) : Word := b.signExtend 16

/-- The word whose low byte is given and whose high byte is 0 (index registers are unsigned, R27). -/
def Word.ofUnsigned (b : Byte) : Word := b.setWidth 16

@[simp] theorem Word.lo_ofBytes (h l : Byte) : Word.lo (Word.ofBytes h l) = l := by
  unfold Word.lo Word.ofBytes
  exact BitVec.setWidth_append_eq_right

@[simp] theorem Word.hi_ofBytes (h l : Byte) : Word.hi (Word.ofBytes h l) = h := by
  unfold Word.hi Word.ofBytes
  apply BitVec.eq_of_getLsbD_eq
  intro i hi
  have e : (8 + i) - 8 = i := by omega
  have n : ¬ (8 + i < 8) := by omega
  have g := BitVec.getLsbD_append (x := h) (y := l) (i := 8 + i)
  rw [if_neg n, e] at g
  simpa [hi] using g

end Sys2Proof
end

