-- ==== Sys2Proof/Syntax.lean ====
section
/-!
DEFINITION. The commands of the KE-2048: one constructor per row of spec/opcode_table.json, with the row's operands.
A row that names a processor instruction carries the pan and, where the opcode map gives several, the operand form; the
operand bytes are the ones the pan fetches (R28). A row that names a host command carries the command packet (R355).
-/
namespace Sys2Proof

/-- A pan's number, 0 to 2,047. -/
abbrev PanNo := Nat

/-- A ring's number, 0 to 16,383 (R335). -/
abbrev RingNo := Nat

/-- The operand forms of R27 and the register and memory targets of the opcode map (R32). -/
inductive Mode where
  | implied | imm | imm16 | simm | dir | dirX | abs | absX | absY
  | indP | indQ | incP | incQ | indPX | indPd | acc | memInd | memIndX | rel
  deriving DecidableEq, Repr

/-- The registers `PUSH` and `POP` name (R32). -/
inductive StackReg where
  | a | b | f | p | x | q | y
  deriving DecidableEq, Repr

/-- A host command as the control core takes it from CMD ring `ring`: FLAGS, PLEN, TAG, TXID, TARGET and the 52
parameter bytes 12 to 63 of the packet (R355). The opcode is the constructor that carries the packet. -/
structure Packet where
  ring   : RingNo
  flags  : Byte
  plen   : Byte
  tag    : Word
  txid   : Word
  target : BitVec 32
  params : List Byte
  deriving DecidableEq, Repr

/-- The commands of the device. -/
inductive Instr where
  /-- Adds the operand to A and sets N, V, H, Z and C. (R33) -/
  | add (p : PanNo) (m : Mode)
  /-- Adds the operand and C to A and sets N, V, H, Z and C. (R33) -/
  | adc (p : PanNo) (m : Mode)
  /-- Subtracts the operand from A, with C meaning no borrow. (R33) -/
  | sub (p : PanNo) (m : Mode)
  /-- Subtracts the operand and the borrow from A. (R33) -/
  | sbc (p : PanNo) (m : Mode)
  /-- Forms A AND the operand and sets N and Z. (R33) -/
  | and (p : PanNo) (m : Mode)
  /-- Forms A OR the operand and sets N and Z. (R33) -/
  | or (p : PanNo) (m : Mode)
  /-- Forms A XOR the operand and sets N and Z. (R33) -/
  | xor (p : PanNo) (m : Mode)
  /-- Compares A with the operand and sets flags only. (R33) -/
  | cmp (p : PanNo) (m : Mode)
  /-- Compares X with the operand. (R33) -/
  | cpx (p : PanNo) (m : Mode)
  /-- Compares Y with the operand. (R33) -/
  | cpy (p : PanNo) (m : Mode)
  /-- Compares P with a 16-bit immediate. (R33) -/
  | cpp (p : PanNo)
  /-- Compares Q with a 16-bit immediate. (R33) -/
  | cpq (p : PanNo)
  /-- Loads A from the operand in any of its forms, post-incrementing P or Q where the form says so. (R33) -/
  | lda (p : PanNo) (m : Mode)
  /-- Stores A to memory in any of its forms. (R33) -/
  | sta (p : PanNo) (m : Mode)
  /-- Loads B. (R33) -/
  | ldb (p : PanNo) (m : Mode)
  /-- Stores B. (R33) -/
  | stb (p : PanNo) (m : Mode)
  /-- Loads X. (R33) -/
  | ldx (p : PanNo) (m : Mode)
  /-- Stores X. (R33) -/
  | stx (p : PanNo) (m : Mode)
  /-- Loads Y. (R33) -/
  | ldy (p : PanNo) (m : Mode)
  /-- Stores Y. (R33) -/
  | sty (p : PanNo) (m : Mode)
  /-- Loads the repeat count K. (R33) -/
  | ldk (p : PanNo) (m : Mode)
  /-- Loads 16-bit P. (R33) -/
  | ldp (p : PanNo) (m : Mode)
  /-- Stores 16-bit P, low byte first. (R33) -/
  | stp (p : PanNo) (m : Mode)
  /-- Loads 16-bit Q. (R33) -/
  | ldq (p : PanNo) (m : Mode)
  /-- Stores 16-bit Q. (R33) -/
  | stq (p : PanNo) (m : Mode)
  /-- Loads the stack pointer S. (R33) -/
  | lds (p : PanNo)
  /-- Copies the byte at P to Q and increments both. (R37) -/
  | mvb (p : PanNo)
  /-- Increments memory or A modulo 256 with one read and one write (R31). (R33) -/
  | inc (p : PanNo) (m : Mode)
  /-- Decrements memory or A modulo 256. (R33) -/
  | dec (p : PanNo) (m : Mode)
  /-- Shifts memory or A left, bit 7 to C. (R33) -/
  | asl (p : PanNo) (m : Mode)
  /-- Shifts memory or A right, bit 0 to C. (R33) -/
  | lsr (p : PanNo) (m : Mode)
  /-- Rotates memory or A left through C. (R33) -/
  | rol (p : PanNo) (m : Mode)
  /-- Rotates memory or A right through C. (R33) -/
  | ror (p : PanNo) (m : Mode)
  /-- Tests memory, setting N and Z and clearing V and C. (R33) -/
  | tst (p : PanNo) (m : Mode)
  /-- Tests A AND memory, copying M bits 7 and 6 to N and V. (R33) -/
  | bit (p : PanNo) (m : Mode)
  /-- Negates A. (R33) -/
  | negA (p : PanNo)
  /-- Complements A. (R33) -/
  | notA (p : PanNo)
  /-- Increments X. (R33) -/
  | inx (p : PanNo)
  /-- Decrements X. (R33) -/
  | dex (p : PanNo)
  /-- Increments Y. (R33) -/
  | iny (p : PanNo)
  /-- Decrements Y. (R33) -/
  | dey (p : PanNo)
  /-- Increments P modulo 65,536, setting Z. (R33) -/
  | inp (p : PanNo)
  /-- Decrements P. (R33) -/
  | dep (p : PanNo)
  /-- Increments Q. (R33) -/
  | inq (p : PanNo)
  /-- Decrements Q. (R33) -/
  | deq (p : PanNo)
  /-- Copies A to B. (R33) -/
  | tab (p : PanNo)
  /-- Copies B to A. (R33) -/
  | tba (p : PanNo)
  /-- Copies A to X. (R33) -/
  | tax (p : PanNo)
  /-- Copies X to A. (R33) -/
  | txa (p : PanNo)
  /-- Copies A to Y. (R33) -/
  | tay (p : PanNo)
  /-- Copies Y to A. (R33) -/
  | tya (p : PanNo)
  /-- Copies A to K. (R33) -/
  | tak (p : PanNo)
  /-- Copies K to A. (R33) -/
  | tka (p : PanNo)
  /-- Exchanges A and B. (R33) -/
  | swab (p : PanNo)
  /-- Copies P to Q. (R33) -/
  | tpq (p : PanNo)
  /-- Copies Q to P. (R33) -/
  | tqp (p : PanNo)
  /-- Copies S to P. (R33) -/
  | tsp (p : PanNo)
  /-- Copies P to S. (R33) -/
  | tps (p : PanNo)
  /-- Adds A to P. (R33) -/
  | adpa (p : PanNo)
  /-- Adds a sign-extended byte to P. (R33) -/
  | leap (p : PanNo)
  /-- Adds a sign-extended byte to Q. (R33) -/
  | leaq (p : PanNo)
  /-- Decimal-adjusts A after a BCD addition. (R34) -/
  | daa (p : PanNo)
  /-- Spends one pan-cycle and does nothing. (R33) -/
  | nop (p : PanNo)
  /-- Always branches. (R35) -/
  | bra (p : PanNo)
  /-- Branches when Z = 1. (R35) -/
  | beq (p : PanNo)
  /-- Branches when Z = 0. (R35) -/
  | bne (p : PanNo)
  /-- Branches when C = 1. (R35) -/
  | bcs (p : PanNo)
  /-- Branches when C = 0. (R35) -/
  | bcc (p : PanNo)
  /-- Branches when N = 1. (R35) -/
  | bmi (p : PanNo)
  /-- Branches when N = 0. (R35) -/
  | bpl (p : PanNo)
  /-- Branches when V = 1. (R35) -/
  | bvs (p : PanNo)
  /-- Branches when V = 0. (R35) -/
  | bvc (p : PanNo)
  /-- Branches when C = 1 and Z = 0. (R35) -/
  | bhi (p : PanNo)
  /-- Branches when C = 0 or Z = 1. (R35) -/
  | bls (p : PanNo)
  /-- Branches when N = V. (R35) -/
  | bge (p : PanNo)
  /-- Branches when N differs from V. (R35) -/
  | blt (p : PanNo)
  /-- Branches when Z = 0 and N = V. (R35) -/
  | bgt (p : PanNo)
  /-- Branches when Z = 1 or N differs from V. (R35) -/
  | ble (p : PanNo)
  /-- Decrements X and branches while X is not 0. (R35) -/
  | djnz (p : PanNo)
  /-- Jumps to an absolute, indirect, indexed indirect or P target. (R28) -/
  | jmp (p : PanNo) (m : Mode)
  /-- Pushes the return address and jumps. (R36) -/
  | call (p : PanNo) (m : Mode)
  /-- Pops PC. (R36) -/
  | ret (p : PanNo)
  /-- Pops PC and then F, restoring the IRQ mask. (R45) -/
  | rti (p : PanNo)
  /-- Pushes an 8-bit or 16-bit register. (R36) -/
  | push (p : PanNo) (r : StackReg)
  /-- Pops an 8-bit or 16-bit register; only POP F changes the flags. (R36) -/
  | pop (p : PanNo) (r : StackReg)
  /-- Clears C. (R33) -/
  | clc (p : PanNo)
  /-- Sets C. (R33) -/
  | sec (p : PanNo)
  /-- Clears I, allowing IRQ from the next instruction's sampling point. (R40) -/
  | cli (p : PanNo)
  /-- Sets I. (R40) -/
  | sei (p : PanNo)
  /-- Clears V. (R33) -/
  | clv (p : PanNo)
  /-- Fetches and then idles pan-cycle by pan-cycle until an interrupt request is sampled. (R38) -/
  | wai (p : PanNo)
  /-- An idle WAI samples a request and either enters the interrupt or, with I = 1, ends without taking it. (R38) -/
  | waiWake (p : PanNo)
  /-- Executes the following target instruction K times, or skips it when K = 0. (R46) -/
  | rep (p : PanNo)
  /-- The fetch of an undefined opcode faults the pan, with no architectural effect. (R60) -/
  | illegalOp (p : PanNo)
  /-- Pushes F and the return address, sets I and vectors through $FFFA. (R44) -/
  | brk (p : PanNo)
  /-- Multiplies A by B unsigned; the product arrives later. (R49) -/
  | mul (p : PanNo)
  /-- Multiplies A by B signed; the product arrives later. (R49) -/
  | muls (p : PanNo)
  /-- The product reaches MH:ML 6 pan-cycles after the multiply's final pan-cycle. (R49) -/
  | mulDeliver (p : PanNo)
  /-- Issues an unsigned 16 by 16 multiply to the coprocessor. (R51) -/
  | mu16 (p : PanNo)
  /-- Issues a signed 16 by 16 multiply. (R51) -/
  | ms16 (p : PanNo)
  /-- Issues an unsigned divide of P by Q. (R52) -/
  | divu (p : PanNo)
  /-- Issues a signed divide of P by Q. (R52) -/
  | divs (p : PanNo)
  /-- Issues an integer square root of Q:P. (R51) -/
  | sq32 (p : PanNo)
  /-- Issues an integer square root of P. (R51) -/
  | sq16 (p : PanNo)
  /-- Issues a signed 48-bit multiply-accumulate. (R52) -/
  | mac (p : PanNo)
  /-- Issues a clear of the coprocessor results and flags. (R51) -/
  | cpcl (p : PanNo)
  /-- The results are written L pan-cycles after issue, BUSY clears and source 19 is raised. (R51) -/
  | coprocessorDone (p : PanNo)
  /-- HC0 to HC7 post a host-call request, or are refused in a real-time mode while a call is outstanding. (R56) -/
  | hostCall (p : PanNo) (n : Fin 8)
  /-- The control core takes an answered HCALL ring entry, discarding it if it is stale or mismatched. (R343) -/
  | hcallReply (ring : RingNo)
  /-- A reply is applied at its placement pan-cycle, or at the end of a synchronous wait. (R56) -/
  | hcallReplyApply (p : PanNo)
  /-- A host-call deadline expires and the call ends with TMO. (R57) -/
  | hcallTimeout (p : PanNo)
  /-- A waiting host-call request is written once an HCALL ring has room or is created. (R341) -/
  | hcallRequestWrite (ring : RingNo)
  /-- A sampled IRQ pushes F and PC, sets I and vectors through $FFFC. (R43) -/
  | irqEntry (p : PanNo)
  /-- A sampled NMI edge pushes F and PC and vectors through $FFF8. (R43) -/
  | nmiEntry (p : PanNo)
  /-- A read of IC_CLAIM returns the locked source or the legacy winner and pushes it onto the priority stack. (R155) -/
  | icClaimRead (p : PanNo)
  /-- A write of IC_COMPLETE pops the stack in native mode or removes the entry in legacy mode. (R157) -/
  | icCompleteWrite (p : PanNo) (v : Byte)
  /-- A write of IC_CTL.SOFT = 1 raises source 30. (R151) -/
  | icSoft (p : PanNo) (v : Byte)
  /-- A group's hold-off count reaches 0 and its sources become eligible again. (R161) -/
  | icHoldoffExpiry (p : PanNo) (g : Fin 4)
  /-- A write of ROMBANK_H loads the whole bank mapping from it and the holding byte. (R65) -/
  | rombankHWrite (p : PanNo) (v : Byte)
  /-- A write to any register without a row of its own, W1C clears and holding-byte writes included, takes effect at the end of its pan-cycle. (R29) -/
  | registerWrite (p : PanNo) (a : Word) (v : Byte)
  /-- A read of FRAME_COUNT_0 latches the upper bytes. (R70) -/
  | frameCountRead (p : PanNo)
  /-- A read of FLIP_TIME_0 latches the upper bytes. (R70) -/
  | flipTimeRead (p : PanNo)
  /-- A read of PAN_TAG_L latches the high byte. (R70) -/
  | panTagRead (p : PanNo)
  /-- DMAn_CTL.START loads REM, clears HALF and FULL, sets BUSY and arms the channel, or sets ERR for a bad setting. (R79) -/
  | dmaStart (p : PanNo) (n : Fin 4) (v : Byte)
  /-- DMAn_CTL.STOP lets the current byte finish, then clears BUSY and REM. (R79) -/
  | dmaStop (p : PanNo) (n : Fin 4) (v : Byte)
  /-- A pending unit steals two pan-cycles per byte until it ends. (R80) -/
  | dmaUnitTransfer (p : PanNo) (n : Fin 4)
  /-- HALF sets when half of LEN has moved, raising source 12 + n if enabled. (R81) -/
  | dmaHalf (p : PanNo) (n : Fin 4)
  /-- FULL sets when REM reaches 0, clears BUSY and may raise source 12 + n and mark a movie buffer ready. (R81) -/
  | dmaFull (p : PanNo) (n : Fin 4)
  /-- A write of CRC_DATA folds its byte into CTX. (R87) -/
  | crcDataWrite (p : PanNo) (v : Byte)
  /-- A write of CRC_CTL selects the algorithm and loads its initial value. (R85) -/
  | crcCtlWrite (p : PanNo) (v : Byte)
  /-- CRC_CMD.INIT loads the initial value into CTX. (R85) -/
  | crcInit (p : PanNo)
  /-- CRC_CMD.START begins a block read, stealing free pan-cycles. (R88) -/
  | crcStart (p : PanNo)
  /-- The last block byte is read, BUSY clears, DONE sets and source 21 may be raised. (R88) -/
  | crcDone (p : PanNo)
  /-- A read of CRC_RES_0 latches the upper result bytes. (R85) -/
  | crcResRead (p : PanNo)
  /-- A read of INn_BTN_L latches offsets 1 to 6 of the slot. (R90) -/
  | inputSlotRead (p : PanNo) (k : Fin 16)
  /-- A read of INn_STAT clears NEW, CHG and LATE. (R91) -/
  | inputStatRead (p : PanNo) (k : Fin 16)
  /-- An input record is applied at its placement pan-cycle and raises source 17. (R90) -/
  | inputPlacement (p : PanNo)
  /-- An attach is applied at its placement pan-cycle, setting ATT and CHG and raising source 18. (R92) -/
  | attachPlacement (p : PanNo)
  /-- A detach is applied, clearing ATT and the slot values and raising source 18. (R92) -/
  | detachPlacement (p : PanNo)
  /-- A mailbox message or NMI command reaches its placement pan-cycle and is queued or delivered. (R95) -/
  | mailboxPlacement (p : PanNo)
  /-- The oldest queued message loads MB_IN, sets INFULL, raises source 31 and may raise NMI. (R95) -/
  | mailboxDelivery (p : PanNo)
  /-- MB_CTL.INACK clears INFULL and delivers any waiting message. (R95) -/
  | mbInack (p : PanNo)
  /-- MB_CTL.SEND increments MB_OUT_SEQ and posts a mailbox-send event. (R97) -/
  | mbSend (p : PanNo)
  /-- A PAN_MOVIE placement sets ready bits and applies its media commit. (R129) -/
  | moviePlacement (p : PanNo)
  /-- A game write setting an MV_READY bit marks a buffer ready and raises source 22. (R129) -/
  | mvReadyWrite (p : PanNo) (v : Byte)
  /-- A write of FRAME_COMMIT.ARM arms a copy of the shadows. (R105) -/
  | frameCommit (p : PanNo) (v : Byte)
  /-- At the latch pan-cycle an armed copy moves all shadows into force, counts the frame and raises FLIP. (R106) -/
  | frameLatch (p : PanNo)
  /-- At pan-cycle 0 of each line the rake samples VRAM, OAM and media and evaluates sprites. (R109) -/
  | fetchPoint (p : PanNo)
  /-- Two colliding sprites record a collision and raise source 6. (R121) -/
  | spriteCollision (p : PanNo) (x : Nat)
  /-- A read of SPR_STAT waits for the rake and clears OVF and COLL. (R122) -/
  | sprStatRead (p : PanNo)
  /-- Source 1 is raised at pan-cycle 0 of line VACTIVE. (R110) -/
  | vblank (p : PanNo)
  /-- Source 3 is raised at pan-cycle HACTIVE/2 of every line. (R110) -/
  | hblank (p : PanNo)
  /-- The beam reaches the compare position and source 2 is raised. (R112) -/
  | lineCmp (p : PanNo)
  /-- A read of BEAM_0 latches the rest of the beam position. (R111) -/
  | beamRead (p : PanNo)
  /-- A frame ends by line count or ELASTIC blank-end rule, with snapshot, hash and frame-end actions. (R101) -/
  | frameEnd (p : PanNo)
  /-- A raster table channel reads and writes one entry at its pan-cycle, raising source 7 at the last entry. (R132) -/
  | rasterTableEntry (p : PanNo) (n : Fin 4)
  /-- The prescale count expires, or a selected event occurs, and the counter advances by one. (R138) -/
  | timerTick (p : PanNo) (n : Fin 4)
  /-- The counter reaches the compare value: MATCH sets, source 8 + n is raised and self and linked actions apply. (R140) -/
  | timerMatch (p : PanNo) (n : Fin 4)
  /-- The counter wraps from $FFFF to $0000, setting OVF and optionally raising source 8 + n. (R142) -/
  | timerOverflow (p : PanNo) (n : Fin 4)
  /-- A write of TMn_CAPSRC.CAPNOW captures at once. (R147) -/
  | timerCapnow (p : PanNo) (n : Fin 4) (v : Byte)
  /-- A write of TMn_CNT_H loads the counter. (R137) -/
  | timerCntHWrite (p : PanNo) (n : Fin 4) (v : Byte)
  /-- A write of TMn_CMP_H loads the compare value. (R137) -/
  | timerCmpHWrite (p : PanNo) (n : Fin 4) (v : Byte)
  /-- A write of TMn_CTL starts or stops the timer and resets the prescale count when CLK or PRE changes. (R138) -/
  | timerCtlWrite (p : PanNo) (n : Fin 4) (v : Byte)
  /-- A read of TMn_CAPL latches the high byte and clears CAP_NEW. (R148) -/
  | timerCaplRead (p : PanNo) (n : Fin 4)
  /-- Every 16 pan-cycles each voice advances its phase and the mixer forms a stereo value. (R162) -/
  | soundTick (p : PanNo)
  /-- Every PER × 256 ticks the voice volume moves one step. (R168) -/
  | envelopeStep (p : PanNo) (k : Fin 7)
  /-- Every PER × 512 ticks a pulse voice's FREQ moves toward SLIM. (R169) -/
  | sweepStep (p : PanNo) (k : Fin 2)
  /-- A phase carry on N0 shifts the LFSR. (R166) -/
  | lfsrShift (p : PanNo)
  /-- Vv_CTL.KEYON resets the phase, LFSR and envelope and sweep counts. (R167) -/
  | voiceKeyon (p : PanNo) (k : Fin 7) (v : Byte)
  /-- A write of Vv_ENV resets the envelope tick count. (R168) -/
  | voiceEnvWrite (p : PanNo) (k : Fin 7) (v : Byte)
  /-- A write of Vv_SWEEP resets the sweep tick count. (R169) -/
  | voiceSweepWrite (p : PanNo) (k : Fin 7) (v : Byte)
  /-- The resampler's remainder expires and one 48 kHz output sample is emitted. (R175) -/
  | resamplerEmit (p : PanNo)
  /-- A write of S0_CTL enables or disables S0, taking or releasing TM3 and channel 3 under timer pacing. (R171) -/
  | s0CtlWrite (p : PanNo) (v : Byte)
  /-- A write of S0_DATA pushes a byte, or sets OVR when the FIFO is full. (R172) -/
  | s0DataWrite (p : PanNo) (v : Byte)
  /-- A phase carry or TM3 pacing match pops one FIFO byte, possibly setting UNDR or ending playback. (R172) -/
  | s0Pop (p : PanNo)
  /-- With LEVEL at 8 or below and channel 3 idle, a refill unit becomes pending. (R173) -/
  | s0Refill (p : PanNo)
  /-- The scheduler reads a pan's image into a free slot of its home bay, evicting a free-run pan if needed. (R184) -/
  | swapIn (p : PanNo) (k : Fin 32)
  /-- A pan's dirty grains are written back and it leaves its slot. (R184) -/
  | swapOut (p : PanNo)
  /-- A boiler starts a real-time pan's burst, fixing the input cutoff. (R190) -/
  | burstStart (p : PanNo) (k : Fin 4)
  /-- A burst finishes; a frame ending after its E is late and its records may be skipped. (R191) -/
  | burstEnd (p : PanNo)
  /-- A free boiler starts a run of a free-run pan in round-robin order. (R194) -/
  | freeRunStart (p : PanNo) (k : Fin 4)
  /-- A free-run run ends after 20 µs or at a wait, batch end, park or host-call. (R194) -/
  | freeRunEnd (p : PanNo)
  /-- A free-run pan waiting at a frame end continues once its records are accepted. (R15) -/
  | freeRunWaitEnd (p : PanNo)
  /-- A burst restores a snapshot and re-runs frames with a late record at its own pan-cycle. (R234) -/
  | rewind (p : PanNo)
  /-- A STEP pan completes its frame count and parks. (R195) -/
  | stepCountDone (p : PanNo)
  /-- A REPLAY pan applies a log record at its frame and pan-cycle, parking on order or data errors or at log end. (R243) -/
  | logRecordApply (p : PanNo)
  /-- The pan reaches its named halt position or placement pan-cycle and enters HALTED. (R197) -/
  | haltReached (p : PanNo)
  /-- A store error is corrected, or the run is abandoned and the pan re-run from its last written-back image. (R202) -/
  | storeError (bay : Fin 8) (k : Fin 4) (store : Fin 5) (corrected : Bool)
  /-- An affected boiler finishes reloading its stores. (R202) -/
  | boilerReload (bay : Fin 8) (k : Fin 4)
  /-- At the epoch after a patch every boiler quiesces and switches to the patched microcode. (R203) -/
  | patchSwitch
  /-- Every 250 µs device-wide settings accepted since the last epoch take effect. (R213) -/
  | deviceEpoch
  /-- The remaining slew offset reaches zero and SLEWING clears. (R211) -/
  | slewAbsorbed
  /-- A read of TB_TIME_LO returns device time and latches the high word. (R210) -/
  | tbTimeRead
  /-- A read of TB_PPSIN_LO latches the high word and clears PPSIN_NEW. (R209) -/
  | tbPpsinRead
  /-- A read of TB_SLEW_LO latches the high word. (R209) -/
  | tbSlewRead
  /-- PPS out drives a rising edge at its offset in each second. (R216) -/
  | ppsOutEdge
  /-- A rising PPS-in edge is stamped and raises event source 3. (R217) -/
  | ppsInEdge
  /-- TB_REFCLK arrives and the timebase locks to it, setting REFLOCK. (R389) -/
  | tbRefclkLock
  /-- Loss or change of TB_REFCLK clears REFLOCK and device time runs on from SYS_REFCLK. (R389) -/
  | tbRefclkLoss
  /-- An Ethernet frame arrives and is discarded, classified to a ring, or checked as an input record. (R311) -/
  | rxFrame (port : Fin 2) (frame : List Byte) (fcsOk : Bool)
  /-- At a packet's departure time a copy is built and sent for each eligible entry. (R229) -/
  | packetDeparture (port : Fin 2)
  /-- A copy whose port was busy leaves in the first block slot after the port falls idle. (R229) -/
  | packetDisplaced (port : Fin 2)
  /-- A packet not ready by its departure time leaves once ready and is counted. (R229) -/
  | packetLateDeparture (port : Fin 2)
  /-- A host packet leaves once it fits before the next scheduled departure, and its descriptor is written back. (R324) -/
  | pktTxSend (ring : RingNo)
  /-- A port link comes up and an event is posted. (R305) -/
  | linkUp (port : Fin 2)
  /-- A port link goes down and an event is posted. (R305) -/
  | linkDown (port : Fin 2)
  /-- The harvester begins encoding a pan frame, deciding hold, key, recovery or ordinary kind. (R268) -/
  | harvesterFrame (p : PanNo)
  /-- Encoding of a temporal unit finishes and its packets are queued. (R284) -/
  | harvesterFrameDone (p : PanNo)
  /-- KEY_INTERVAL frames have been emitted and the frame is a key frame. (R276) -/
  | keyIntervalExpiry (p : PanNo)
  /-- RECOVERY_INTERVAL emitted frames have passed and a recovery frame falls due. (R275) -/
  | recoveryIntervalExpiry (p : PanNo)
  /-- HOLD_REFRESH consecutive held frames produce a keep-alive. (R281) -/
  | holdRefreshExpiry (p : PanNo)
  /-- A 48-sample block passes through the chain's filters, gain and gauges to its routed sinks. (R289) -/
  | audioBlock (p : PanNo)
  /-- A pending gain step applies at the timeout sample. (R295) -/
  | gainTimeout (p : PanNo) (right : Bool)
  /-- An Opus frame of 480 or 960 samples fills and is encoded into a packet. (R300) -/
  | opusFrameEncode (p : PanNo)
  /-- An audio block plays on I2S at its play time, or zeros are played as an underrun. (R302) -/
  | i2sBlockPlay
  /-- The observation writer writes a frame's log, picture, audio and hash records. (R256) -/
  | obsRecordWrite (p : PanNo)
  /-- A head starts a frame, swapping its layout and taking each tile's newest whole frame. (R261) -/
  | headVblank (h : Fin 2)
  /-- HPD rises and the head retrains and resumes. (R260) -/
  | hpdRise (h : Fin 2) (lanes : Nat) (rate : Fin 4)
  /-- HPD falls, the head stops driving and posts an event. (R260) -/
  | hpdFall (h : Fin 2)
  /-- A doorbell write moves a ring's host index, or settles in the bittern as an error. (R338) -/
  | doorbell (ring : RingNo) (value : BitVec 64)
  /-- BOOT_CTL.GO creates rings 0 and 1 from the boot registers. (R337) -/
  | bootGo
  /-- A write of EVC_RAISE raises the source written. (R333) -/
  | evcRaise (src : Byte)
  /-- A group's hold-off expires and its pending enabled sources are sent as MSI-X messages. (R334) -/
  | evcGroupDelivery (g : Fin 16)
  /-- A ring's oldest unsignalled entry reaches TIME µs and the ring's source is raised. (R340) -/
  | moderationTimeout (ring : RingNo)
  /-- Once an EVT ring has room, an EVT_LOST record with the lost count is written. (R341) -/
  | evtLostWrite (ring : RingNo)
  /-- Held completions are written once the CPL ring has room. (R341) -/
  | cplHeldWrite (ring : RingNo)
  /-- A read of SLC_DONE_LO latches the high word. (R352) -/
  | slcDoneRead (n : Fin 64)
  /-- A descriptor with HCPL has its writes visible, setting HALF and posting an event. (R351) -/
  | sluiceHalf (n : Fin 64)
  /-- The LAST descriptor's writes are visible and SLUICE_START completes. (R351) -/
  | sluiceChainDone (n : Fin 64)
  /-- A bad descriptor, PCIe error or DRAM error stops the chain with ST_FAULT. (R353) -/
  | sluiceFault (n : Fin 64) (bytes : Nat)
  /-- Returns device identity and status. (R362) -/
  | devQuery (c : Packet)
  /-- Sets W, BATCH_FRAMES, the I2S delay or SRTP_REQUIRED at the epoch. (R362) -/
  | devSet (c : Packet)
  /-- Creates a ring from its context. (R336) -/
  | ringCreate (c : Packet)
  /-- Destroys a ring after its entries in flight are written. (R362) -/
  | ringDestroy (c : Packet)
  /-- Returns a ring's indices and space. (R362) -/
  | ringQuery (c : Packet)
  /-- Changes a ring's moderation. (R362) -/
  | ringMod (c : Packet)
  /-- Checks a Stoanua image and loads it into a title handle. (R74) -/
  | titleLoad (c : Packet)
  /-- Empties a title handle. (R362) -/
  | titleUnload (c : Packet)
  /-- Allocates device DRAM. (R362) -/
  | memAlloc (c : Packet)
  /-- Frees device DRAM. (R362) -/
  | memFree (c : Packet)
  /-- Creates a pan in IDLE. (R364) -/
  | panCreate (c : Packet)
  /-- Destroys an IDLE pan. (R364) -/
  | panDestroy (c : Packet)
  /-- Changes an IDLE pan's bay, profile, period, budget, kind or tag. (R364) -/
  | panConfig (c : Packet)
  /-- Starts an IDLE pan in a real-time or free-run mode at the epoch, after admission. (R196) -/
  | panStart (c : Packet)
  /-- Changes a running pan's mode at a frame latch, or resumes a parked STEP pan. (R196) -/
  | panMode (c : Packet)
  /-- Requests a halt at a named position or at placement. (R197) -/
  | panHalt (c : Packet)
  /-- Returns a HALTED pan to the mode it left. (R196) -/
  | panResume (c : Packet)
  /-- Stops a pan at the end of its current frame, or at once if not running. (R409) -/
  | panStop (c : Packet)
  /-- Resets a pan to IDLE with the reset state. (R196) -/
  | panReset (c : Packet)
  /-- Steps a HALTED pan by pan-cycles or instructions. (R198) -/
  | panDebug (c : Packet)
  /-- Attaches a client slot, placed as an input. (R92) -/
  | panAttach (c : Packet)
  /-- Detaches a client slot, placed as an input. (R92) -/
  | panDetach (c : Packet)
  /-- Sends a message and/or NMI, taking a credit. (R95) -/
  | panMailbox (c : Packet)
  /-- Marks movie buffers ready and/or commits staged media bytes. (R84) -/
  | panMovie (c : Packet)
  /-- Sets INPUT_DELAY and a slot's placement settings. (R220) -/
  | panInput (c : Packet)
  /-- Sets the pan's host-call timeout. (R57) -/
  | panHcall (c : Packet)
  /-- Sets the pan's OBS ring and observation settings. (R251) -/
  | panObs (c : Packet)
  /-- Returns a pan's mode, frame and counters. (R364) -/
  | panQuery (c : Packet)
  /-- Sets the rewind depth D after reservation and admission. (R230) -/
  | heapDepth (c : Packet)
  /-- Sets the hash interval. (R240) -/
  | heapHash (c : Packet)
  /-- Sets the hash reference and comparison mode. (R241) -/
  | heapHashref (c : Packet)
  /-- Enables or disables the input log. (R242) -/
  | heapLog (c : Packet)
  /-- Copies a snapshot or current image to a save image. (R245) -/
  | heapSave (c : Packet)
  /-- Loads a save image into an IDLE or FAULTED pan. (R246) -/
  | heapRestore (c : Packet)
  /-- Puts an IDLE pan into REPLAY from an image and log, or continues a parked replay. (R243) -/
  | heapReplay (c : Packet)
  /-- Creates the pan's stream after the harvester check. (R266) -/
  | streamCreate (c : Packet)
  /-- Sets stream rate and packet settings at the epoch. (R267) -/
  | streamSet (c : Packet)
  /-- Deletes the stream. (R365) -/
  | streamDelete (c : Packet)
  /-- Requests a key frame. (R278) -/
  | streamKey (c : Packet)
  /-- Delivers a loss report with lowest lost frame L. (R278) -/
  | streamLoss (c : Packet)
  /-- Returns the stream counters. (R365) -/
  | streamQuery (c : Packet)
  /-- Sets a port's mode, FEC and MAC address. (R305) -/
  | portSet (c : Packet)
  /-- Sets a port's local IP address. (R305) -/
  | portAddr (c : Packet)
  /-- Assigns a port's PKT_RX ring and the device bittern ring. (R325) -/
  | portRings (c : Packet)
  /-- Writes a flow entry. (R309) -/
  | flowSet (c : Packet)
  /-- Writes a flow entry's SRTP or input key. (R308) -/
  | flowKey (c : Packet)
  /-- Returns port, entry or device network counters. (R326) -/
  | netQuery (c : Packet)
  /-- Sets audio chain settings. (R290) -/
  | audioSet (c : Packet)
  /-- Sets the audio route set. (R299) -/
  | audioRoute (c : Packet)
  /-- Returns the gauge record, optionally clearing peaks. (R298) -/
  | audioGauge (c : Packet)
  /-- Sets a head's timing and link limits and retrains. (R260) -/
  | headTiming (c : Packet)
  /-- Sets a head's layout. (R261) -/
  | headLayout (c : Packet)
  /-- Sets a tile's pan and scale. (R261) -/
  | headTile (c : Packet)
  /-- Returns a head's output CRC, frame count and state. (R265) -/
  | headStatus (c : Packet)
  /-- Returns EDID or DPCD bytes. (R259) -/
  | headSideband (c : Packet)
  /-- Sets the timebase rate adjustment. (R211) -/
  | tbRate (c : Packet)
  /-- Sets a slew offset. (R211) -/
  | tbSlew (c : Packet)
  /-- Steps device time at the epoch. (R212) -/
  | tbStep (c : Packet)
  /-- Sets PPS out enable, offset and high time. (R216) -/
  | tbPps (c : Packet)
  /-- Checks, writes and verifies a firmware image in a flash bank. (R379) -/
  | fwWrite (c : Packet)
  /-- Stages a microcode patch for the next epoch. (R203) -/
  | ucodePatch (c : Packet)
  /-- Starts a descriptor chain on a sluice channel. (R348) -/
  | sluiceStart (c : Packet)
  /-- Opens a transaction. (R369) -/
  | txnBegin (c : Packet)
  /-- A command with TXN = 1 is staged in its transaction. (R371) -/
  | txnStage (opcode : Word) (c : Packet)
  /-- Checks and lands a transaction's staged commands together. (R372) -/
  | txnCommit (c : Packet)
  /-- Discards a transaction. (R373) -/
  | txnRollback (c : Packet)
  /-- A transaction idle for 10 s is rolled back. (R371) -/
  | txnExpiry (txid : Word)
  /-- A boundary does not come within 1 s and the waiting command completes with ST_TIMEOUT. (R360) -/
  | commandTimeout (k : Nat)
  /-- Stops a sluice chain. (R374) -/
  | abortSluice (c : Packet)
  /-- Stops a pan's run and puts it in IDLE. (R374) -/
  | abortPan (c : Packet)
  /-- Destroys a ring at once. (R374) -/
  | abortRing (c : Packet)
  /-- Aborts a pan with its stream, routes and flows. (R374) -/
  | abortSession (c : Packet)
  /-- Aborts every pan, chain, transaction and ring but the boot and abort rings. (R374) -/
  | abortAll (c : Packet)
  /-- Release of SYS_RST# starts the boot ROM and ready sequence. (R377) -/
  | sysRstRelease
  /-- Assertion of SYS_RST# puts the whole device in reset. (R376) -/
  | sysRstAssert
  /-- PERST# acts as a Function Level Reset and retrains the link. (R376) -/
  | perstAssert
  /-- FLR acts as ABORT_ALL and resets rings, event controller and sluice. (R327) -/
  | functionLevelReset
  /-- The boot ROM accepts a signed image and the control core runs it, or the device goes FATAL. (R379) -/
  | firmwareAccept
  /-- A DRAM channel finishes training and zeroing, or fails. (R377) -/
  | dramTrained (n : Fin 4) (ok : Bool)
  /-- Microcode is loaded into every boiler and bays and sluice become usable. (R377) -/
  | ucodeLoaded
  /-- Entry into D3hot stops work and enters low power. (R383) -/
  | d3hotEntry
  /-- Return to D0 restores engines with rings intact. (R383) -/
  | d0Return
  /-- The device sets VDD_CORE on the regulator over PMBus. (R382) -/
  | avsVoutCommand (tenthMv : Nat)
  /-- RAIL_ALERT# low halves engine rates within 100 ns. (R385) -/
  | railAlertAssert
  /-- RAIL_ALERT# released and load returns at SLEW. (R385) -/
  | railAlertRelease
  /-- A held engine start waiting on slew or ICC_MAX is released. (R384) -/
  | governorStartDelay (p : PanNo)
  /-- Tj reaches TWARN and THERM_WARN sets. (R387) -/
  | thermalWarning (tj : Int)
  /-- At 105 °C the governor throttles in 12.5 % steps until below 103 °C. (R387) -/
  | thermalThrottle (tj : Int)
  /-- At 125 °C THERMTRIP# drives low and every clock stops. (R387) -/
  | thermtrip (tj : Int)
  /-- An SMBus Block Read returns a management register. (R397) -/
  | smbBlockRead (offset : Byte)
  /-- An SMBus Block Write sets a management register. (R397) -/
  | smbBlockWrite (offset : Byte) (value : BitVec 32)
  /-- A selected edge on a management pin sets PIN_IRQ_STAT and may alert the BMC or raise source 9. (R399) -/
  | pinEdge (pin : Fin 32) (level : Bool)
  /-- A host write to a BAR 0 device register (EVC_EN, EVC_PEND W1C, EVC_GRP HOLD, EVC_VEC, BOOT_CMD/CPL, SLC_STAT and TB_STAT W1C bits) takes effect. (R329) -/
  | deviceRegisterWrite (offset : Nat) (value : BitVec 32)
  /-- Release of PERST# lets the DEV_READY bits set again within 10 ms, in the order of R377. (R376) -/
  | perstRelease
  /-- At CTRL + 2 ms the command interpreter, ports and heads become usable and DEV_READY.CMD, ETH0, ETH1, HEAD0 and HEAD1 set. (R377) -/
  | commandInterpreterReady
  /-- At CTRL + 10 ms the timebase starts counting TB_TIME from 0, from TB_REFCLK or SYS_REFCLK, and DEV_READY.TB sets. (R208) -/
  | timebaseCounting (refclk : Bool)
  /-- PPS out returns low once its configured high time has elapsed after the rising edge. (R216) -/
  | ppsOutFall
  /-- Junction temperature falls below TWARN, DEV_STATUS.THERM_WARN clears and event source 2 is raised. (R387) -/
  | thermWarnClear (tj : Int)
  /-- Junction temperature falls below 103 °C, thermal throttling ends, THROTTLE clears and event 0x000E kind 1 is posted. (R387) -/
  | thermalThrottleEnd (tj : Int)
  /-- The board removes the supplies, every output goes off, and a tripped THERMTRIP# is released. (R387) -/
  | powerRemoval
  deriving DecidableEq, Repr

end Sys2Proof
end

