-- ==== Sys2Proof/Decode.lean ====
section
/-!
DEFINITION. Decoding of table words. The hardware is a block: its opcode table gives no row any bits, since its commands
reach it as accesses, packets and events. The processor's own opcode map is in Machine/Operands.lean.
-/
namespace Sys2Proof

/-- The command a word of the opcode table spells: no row of the table has bits, so no word spells one. -/
def decodeTableWord (_nbits _w : Nat) : Option Instr := none

end Sys2Proof
end

