-- ==== Sys2Proof/Config.lean ====
section
/-!
DEFINITION. The figures the spec fixes for every KE-2048, and the free values: opaque constants without a body, one for
each value the spec leaves open after a command that completes. Nothing in Lean evaluates them. A free value is applied
to the operands it depends on, or to State.free, a counter that each draw advances (notes/assumptions/3.md).
-/
namespace Sys2Proof.Config

/-! ### Free values -/

/-- FREE: length in bytes of the frame OBU of the temporal unit whose bits a number names (AV1 bits are not given, R206). -/
opaque frameObuBytes : Nat → Nat

/-- FREE: byte i of the OBUs of the temporal unit whose bits a number names. -/
opaque unitByte : Nat → Nat → Byte

/-- FREE: the `base_q_idx` a rate-controlled frame uses, before clamping to QP_MIN and QP_MAX (R279). -/
opaque baseQIdx : Nat → Nat

/-- FREE: bytes of an encoded Opus packet (R206, R300), before the limit of R320. -/
opaque opusBytes : Nat → Nat

/-- FREE: byte i of the Opus packet numbered by the first argument. -/
opaque payloadByte : Nat → Nat → Byte

/-- FREE: whether a firmware image's ECDSA P-384 signature verifies (R379). -/
opaque fwSignatureOk : List Byte → Bool

/-- FREE: the security version a firmware image carries (R379; the image layout is not given). -/
opaque fwSecurityVersion : List Byte → Nat

/-- FREE: the fused minimum security version (R379). -/
opaque fusedMinimum : Nat

/-- FREE: CONF and BUILD of the microcode a firmware image carries (R201, R379); its KPA is `kpaRev`. -/
opaque fwUcodeBuild : List Byte → BitVec 24

/-- FREE: the words of the micro-store and of the nano-store a firmware image carries (R200; the spec gives their number and width). -/
opaque microWord : List Byte → Nat → BitVec 24
/-- FREE: see `microWord`. -/
opaque nanoWord : List Byte → Nat → BitVec 144

/-- FREE: codewords a port's FEC has corrected, and has failed to correct, up to a received frame (R326). -/
opaque fecCorrected : Nat → Nat
/-- FREE: see `fecCorrected`. -/
opaque fecFailed : Nat → Nat

/-- FREE: whether a sluice request between host memory and DRAM that failed met a DRAM error (R332, R353). -/
opaque dramFailed : Nat → Bool

/-- FREE: the FW_BUILD a firmware image carries (R330). -/
opaque fwBuild : List Byte → BitVec 32

/-- FREE: the UCODE_VERSION a microcode patch gives (R203, R204; the spec gives a patch's length and entry size only). -/
opaque patchVersion : List Byte → BitVec 32

/-- FREE: whether a microcode patch is well formed beyond its length (R361: "Format ... check failed"). -/
opaque patchWellFormed : List Byte → Bool

/-- FREE: the DRAM address `MEM_ALLOC` prefers (R362 does not say which address is given). -/
opaque allocAddr : Nat → Nat

/-- FREE: the TXID `TXN_BEGIN` prefers (R369: one "that no open transaction holds"). -/
opaque txidChoice : Nat → Nat

/-- FREE: a byte the monitor of a head returns over AUX: head, 0 for EDID or 1 for DPCD, offset (R259). -/
opaque sidebandByte : Nat → Nat → Nat → Byte

/-- FREE: the core current the regulator reports, in 0.1 A (R382: measured outside the device). -/
opaque readIout : Nat → Nat

/-- FREE: whether a level of n hundredths of a decibel is rounded towards zero (R296 gives the unit, not the rounding). -/
opaque dbRoundsUp : Nat → Bool

/-- FREE: whether a port under auto-negotiation runs at 100 Gb/s (R304: settled with the link partner). -/
opaque negotiatedFast : Nat → Bool

/-- FREE: whether the partial box at the edge of a picture whose size a reduction does not divide is shown, as the average of the
pixels it has (R261 gives whole boxes only). -/
opaque partialBoxShown : Bool

/-! ### Figures of the spec -/

/-- Pan-cycles of the reset sequence (R26). -/
def resetCycles : Nat := 6

/-- `PAN_KPA_REV` (R3, R70). -/
def kpaRev : Byte := 0x02

/-- `DEV_ID` on silicon revision A1 (R3). -/
def devId : BitVec 32 := 0x20480101

/-- Device epoch length in timebase units (R213). -/
def epochUnits : Nat := 4000000

/-- Timebase units in a microsecond, R208: one unit is 1/16 ns. -/
def usUnits : Nat := 16000

/-- HACTIVE of a profile (R98). -/
def hActive : Nat → Nat
  | 0 => 256 | 1 => 320 | 2 => 384 | _ => 480

/-- VACTIVE of a profile (R98). -/
def vActive : Nat → Nat
  | 0 => 224 | 1 => 240 | 2 => 216 | _ => 270

/-- Pan-cycles per line of a profile (R98). -/
def cpl : Nat → Nat
  | 0 => 160 | 1 => 200 | 2 => 240 | _ => 300

/-- Nominal VTOTAL of a profile (R98). -/
def nominalVtotal : Nat → Nat
  | 0 => 248 | 1 => 262 | 2 => 240 | _ => 300

/-- Harvester HVCLK cycles per frame of a profile (R17). -/
def harvesterCharge : Nat → Nat
  | 0 => 30208 | 1 => 39936 | 2 => 43008 | _ => 66816

/-- Minimum EMIT_DELAY of a profile in microseconds (R227). -/
def minEmitDelay : Nat → Nat
  | 0 => 500 | 1 => 600 | 2 => 650 | _ => 900

/-- The installed DRAM capacity in bytes, a board fact of R21 (16 GiB: notes/assumptions/5.md). -/
def dramBytes : Nat := 17179869184

end Sys2Proof.Config
end

