-- ==== Sys2Proof/Machine/State.lean ====
section
/-!
DEFINITION. The state of the KE-2048: every register, memory, queue, counter, mode and pin the spec gives it, as plain
data, and State.reset. `Pan` is the pan image (what a snapshot carries, R183), `Site` the device's record of one pan,
`State` the device. Each field's docstring or section cites its rule; notes/assumptions/4.md lists the reset values the
spec does not give.
-/
namespace Sys2Proof.Machine

/-- A store of bytes: address and value, addresses strictly rising, no entry equal to 0, which every unlisted address
reads as (R67, R377; host memory: notes/assumptions/6.md). -/
abbrev Memory := List Host.Cell

/-- A table of objects by number, numbers strictly rising. -/
abbrev Table (α : Type) := List (Nat × α)

/-! ### The pan image: processor, multiplier, coprocessor, host-call -/

/-- The registers of the Tretan-8 (R24). -/
structure Cpu where
  a : Byte
  b : Byte
  x : Byte
  y : Byte
  k : Byte
  f : Byte
  p : Word
  q : Word
  s : Word
  pc : Word
  deriving DecidableEq, Repr

/-- What a sampling point saw (R39, R40, R155): NMI, an IRQ with F.I = 0, an IRQ request whatever F.I, the source to
lock, and whether the entry has been committed (the edge taken, the lock made). -/
structure Sample where
  nmi : Bool
  irq : Bool
  req : Bool
  winner : Option Nat
  committed : Bool
  deriving DecidableEq, Repr

/-- What a read with a side effect changed, as it stood before: kept until the instruction ends, for a fault that leaves no effect of
its reads (R60). -/
inductive ReadUndo where
  | beam (latch : BitVec 24)
  | sprites (coll ovf : Bool)
  | timer (n : Fin 4) (cntLatch capLatch : Byte) (capNew : Bool)
  | claim (source : Fin 32) (lock : Option Nat) (holdAt : Nat)
  | crc (latch : BitVec 24)
  | sys (tag : Byte) (count flip : BitVec 24)
  | slot (k : Fin 16) (latch : Vector Byte 6) (new chg late : Bool)
  deriving DecidableEq, Repr

/-- The processor's running state: the fields of the processor image (R61) beside the registers, the reset sequence
(R26), the NMI edge (R41), the sampled requests (R39), and the `REP` sequence or interrupt entry in progress. -/
structure Core where
  wait : Bool
  hcWait : Bool
  cpStall : Bool
  fault : Byte
  opc : Byte
  cyc : Nat
  tmp : Byte
  opd : Word
  ea : Word
  /-- Address of the first byte of the instruction in progress (the `REP` prefix within a sequence). -/
  start : Word
  /-- The registers as they stood before the instruction in progress, `REP` and its target being one, and what its reads changed,
  latest first (R46, R60). -/
  saved : Cpu
  undo : List ReadUndo
  resetLeft : Nat
  nmi : Bool
  samp : Sample
  /-- The target of a `REP` is in progress or next. -/
  rep : Bool
  /-- Interrupt entry in progress: 0 none, 1 IRQ, 2 NMI. -/
  entry : Nat
  deriving DecidableEq, Repr

/-- MH, ML and the products in flight, each with the pan-cycle count from which it reads (R49, R50). -/
structure Multiplier where
  mh : Byte
  ml : Byte
  inFlight : List (Nat × Word)
  deriving DecidableEq, Repr

/-- The coprocessor (R50-R53): results, flags, and the operation in flight with what it will deliver and when. -/
structure Coprocessor where
  r : BitVec 48
  busy : Bool
  dz : Bool
  ov : Bool
  op : BitVec 3
  due : Nat
  nextR : BitVec 48
  nextDz : Bool
  nextOv : Bool
  deriving DecidableEq, Repr

/-- The host-call registers (R54), and whether the outstanding call is synchronous (R56). -/
structure HostCall where
  pend : Bool
  done : Bool
  tmo : Bool
  rej : Bool
  call : BitVec 3
  seq : Byte
  arg : Vector Byte 6
  res : Vector Byte 8
  sync : Bool
  deriving DecidableEq, Repr

/-! ### The pan image: memory, DMA, CRC, ports -/

/-- ROMBANK, VBANK, PAN_TAG, FRAME_COUNT and FLIP_TIME with their holding byte and latches (R65, R66, R70). -/
structure SysRegs where
  cramSel : Bool
  bank : BitVec 10
  bankHold : Byte
  vbank : BitVec 3
  tag : Word
  tagLatch : Byte
  frameCount : BitVec 32
  fcLatch : BitVec 24
  flipTime : BitVec 32
  ftLatch : BitVec 24
  deriving DecidableEq, Repr

/-- One DMA channel (R76-R82). `unitLeft` counts the bytes of the unit pending or moving, `held` is the byte read and
not yet written. -/
structure Dma where
  src : BitVec 24
  dst : BitVec 24
  len : Word
  mode : Byte
  trig : Byte
  unit : Byte
  ctl : Byte
  busy : Bool
  half : Bool
  full : Bool
  ovr : Bool
  err : Bool
  rem : Nat
  unitLeft : Nat
  held : Option Byte
  /-- HALF has been set since the last START (so that it sets once). -/
  halfDone : Bool
  deriving DecidableEq, Repr

/-- The CRC unit (R85-R88): `next` and `left` describe the block in progress. -/
structure Crc where
  poly : BitVec 2
  addr : Word
  len : Word
  ctx : BitVec 32
  busy : Bool
  done : Bool
  ie : Bool
  latch : BitVec 24
  next : Word
  left : Nat
  deriving DecidableEq, Repr

/-- One input slot (R89): bytes at offsets 0 to 6, the latched bytes 1 to 6, and INn_STAT. -/
structure InSlot where
  data : Vector Byte 7
  latch : Vector Byte 6
  att : Bool
  new : Bool
  chg : Bool
  late : Bool
  upd : BitVec 4
  deriving DecidableEq, Repr

/-- One inbound mailbox message with its number and NMI request (R95, R96). -/
structure Message where
  bytes : Vector Byte 6
  num : Byte
  nmi : Bool
  deriving DecidableEq, Repr

/-- The host mailbox (R93): `queue` holds the messages placed and not yet delivered. -/
structure Mailbox where
  inb : Vector Byte 6
  inSeq : Byte
  full : Bool
  queue : List Message
  outb : Vector Byte 6
  outSeq : Byte
  deriving DecidableEq, Repr

/-! ### The pan image: raster -/

/-- The frame-scope registers of a raster table channel (R131). -/
structure RtRegs where
  addr : Word
  tgt : Byte
  ctl : Byte
  line : BitVec 10
  count : BitVec 10
  cyc : BitVec 9
  deriving DecidableEq, Repr

/-- The frame-scope registers (R103, R114, R115, R122, R126, R131, R134). -/
structure FrameRegs where
  vtotal : BitVec 10
  vtotalMax : BitVec 10
  vblankMin : Byte
  tCtl : Vector Byte 4
  tMap : Vector Byte 4
  tTile : Vector Byte 4
  sprTile : Byte
  mvCtl : Byte
  mvBase : BitVec 14
  mvSw : BitVec 10
  mvSh : BitVec 10
  mvX : BitVec 10
  mvY : BitVec 10
  mvOw : BitVec 10
  mvOh : BitVec 10
  mvStepX : Word
  mvStepY : Word
  rt : Vector RtRegs 4
  staticMask : Byte
  deriving DecidableEq, Repr

/-- The line-scope registers but the palette (R107, R115, R123). -/
structure LineRegs where
  layerEn : Byte
  blendCtl : Byte
  blend : Vector Byte 6
  scx : Vector (BitVec 9) 4
  scy : Vector (BitVec 9) 4
  deriving DecidableEq, Repr

/-- A line-scope write: the dot it takes effect at, counted from reset (0 until the final pan-cycle of the writing
instruction begins), the register's address (the _L byte of a pair) and the value moved (R107). `rank` orders writes of
one dot: raster table channels 0 to 3, then processor or DMA. `made` is the number of the pan-cycle that wrote it. -/
structure LineWrite where
  dot : Nat
  rank : Nat
  addr : Nat
  value : Word
  made : Nat
  deriving DecidableEq, Repr

/-- The raster registers that are not frame-scope or line-scope, and both copies of those that are. -/
structure Raster where
  shadow : FrameRegs
  force : FrameRegs
  /-- VTOTAL, VTOTAL_MAX and VBLANK_MIN in force at line 0 of the current frame (R101). -/
  frameVt : Nat
  frameVtMax : Nat
  frameVbMin : Nat
  lineW : LineRegs
  lineF : LineRegs
  palW : Memory
  palF : Memory
  lineQ : List LineWrite
  /-- The holding byte of each pair, by the address of its _L byte (R104). -/
  hold : Memory
  beamLatch : BitVec 24
  linecmp : BitVec 10
  linecmpCyc : BitVec 9
  /-- The pan-cycle count from which the compare value in force applies (R112). -/
  cmpFrom : Nat
  /-- An armed copy, with the pan-cycle count at which its commit completed (R105). -/
  armed : Option Nat
  coll : Bool
  ovf : Bool
  collA : BitVec 7
  collB : BitVec 7
  ovfNum : BitVec 7
  ready : BitVec 4
  auto : Byte
  mvLate : Bool
  mvWaited : Bool
  mvOff : Bool
  shown : BitVec 2
  withheld : Option (BitVec 2)
  rtDone : Vector Bool 4
  rtErr : Vector Bool 4
  /-- Channel put in force with settings R133 refuses. -/
  rtRefused : Vector Bool 4
  /-- The entry each channel writes next in this frame (R132). -/
  rtNext : Vector Nat 4
  deriving DecidableEq, Repr

/-- Which events of the frame's raster have been made, in pan-cycles since reset: the count from which the next
HBLANK raise and the next fetch point are due, and whether VBLANK, the latch and the last blank line of this frame have
been dealt with (R105, R109, R110). -/
structure Beam where
  hbAt : Nat
  fetchAt : Nat
  vbDone : Bool
  latchDone : Bool
  blankLine : Nat
  deriving DecidableEq, Repr

/-- What a column of eight dots of a line, or a block of 8 × 8, shows: the tile layers shown at any dot, their scroll (SCX, SCY) at the
first dot, and the sprites drawn at any dot, lowest number first (R272). -/
structure BlockMark where
  shown : BitVec 4
  scroll : Vector (BitVec 9 × BitVec 9) 4
  sprites : List Nat
  deriving DecidableEq, Repr

/-- The rake's hints for a frame (R272): a mark for each block in raster order, CTL of the tile layers, and the sprites drawn, each
with its (X, Y). -/
structure Hints where
  blocks : List BlockMark
  ctl : Vector Byte 4
  sprites : List (Nat × Int × Int)
  deriving DecidableEq, Repr

/-- What R116 resolves at a dot of a tile layer: palette index, priority bit of the map entry, and whether the pixel is opaque. -/
structure TileDot where
  index : Nat
  pri : Bool
  solid : Bool
  deriving DecidableEq, Repr

/-- What the crust holds of one tile layer: its CTL, MAPBASE, TILEBASE, SCX and SCY throughout the build, and the lines built, each with
an entry for every active dot (R247, R248). -/
structure CrustLayer where
  ctl : Byte
  map : Byte
  tile : Byte
  scx : BitVec 9
  scy : BitVec 9
  lines : List (Nat × List TileDot)
  deriving DecidableEq, Repr

/-- A layer of the line the rake holds that is read from the crust: the scroll it was built under, and its dots. -/
structure CrustRow where
  scx : BitVec 9
  scy : BitVec 9
  dots : List TileDot
  deriving DecidableEq, Repr

/-- The crust of a pan (R247 to R249): its layers, the layers of the rake's line that are read from it, the VRAM grains written since
the last fetch point, and the lines served and not yet counted for the bay. -/
structure Crust where
  layers : Vector (Option CrustLayer) 4
  row : Vector (Option CrustRow) 4
  written : List Nat
  served : Nat
  deriving DecidableEq, Repr

/-- A crust that holds nothing. -/
def Crust.empty : Crust := { layers := Vector.replicate 4 none, row := Vector.replicate 4 none, written := [], served := 0 }

/-- What the rake holds of the line it composes: line, samples of VRAM, OAM and media at the fetch point, drawn sprites,
registers and palette in force at dot 0, pixels of the frame so far (latest line first), R109, R120, R135. -/
structure Rake where
  line : Nat
  active : Bool
  startDot : Nat
  vramS : Memory
  oamS : Memory
  mediaS : Memory
  drawn : List Nat
  frameRegs : FrameRegs
  shown : BitVec 2
  mvOff : Bool
  lines : List (List (BitVec 24))
  /-- The marks of those lines by columns of eight dots, latest line first; CTL of the tile layers on the last of them; and the sprites
  drawn in the frame so far with their (X, Y) on the first line each was drawn on (R272). -/
  marks : List (List BlockMark)
  ctl : Vector Byte 4
  sprites : List (Nat × Int × Int)
  deriving DecidableEq, Repr

/-! ### The pan image: timers, interrupt controller, sound -/

/-- One timer (R136). `preAt` is the pan-cycle count at which the prescale count was last 0; `tickDue` marks a chosen
event that has occurred and not yet ticked, `hit` and `wrap` an arrival at the compare value and a wrap to $0000 whose
consequences are due, `acts` a match whose self and linked actions are due (R146). -/
structure Timer where
  cnt : Word
  cntHold : Byte
  cntLatch : Byte
  cmp : Word
  cmpHold : Byte
  cap : Word
  capLatch : Byte
  ctl : Byte
  act : Byte
  capSrc : BitVec 3
  ovf : Bool
  hitStat : Bool
  capNew : Bool
  capOvr : Bool
  irq : Byte
  dbg : Byte
  preAt : Nat
  /-- The pan-cycle count at the end of the pan-cycle of the last capture: two causes in one make one (R147). -/
  capAt : Nat
  tickDue : Bool
  /-- TM0: matches and wraps of TM3 whose chain tick is to come, oldest first: the count at the end of the pan-cycle it comes
  in, whether TM3 matched and whether it wrapped (R145). -/
  chain : List (Nat × Bool × Bool)
  hit : Bool
  wrap : Bool
  acts : Bool
  deriving DecidableEq, Repr

/-- The interrupt controller (R152). `stack` lists (source, priority), top first; `holdAt` is the pan-cycle count at
which a group's hold-off ends (R161). -/
structure Ic where
  pend : BitVec 32
  en : BitVec 32
  act : BitVec 32
  pri : Vector (BitVec 3) 32
  legacy : Bool
  lock : Option Nat
  stack : List (Nat × Nat)
  hold : Vector Byte 4
  holdAt : Vector Nat 4
  deriving DecidableEq, Repr

/-- One tone or noise voice (R165-R169). -/
structure Voice where
  ctl : Byte
  freq : Word
  freqHold : Byte
  vol : Byte
  env : Byte
  bal : Byte
  sweep : Byte
  out : Byte
  slim : Word
  slimHold : Byte
  phase : BitVec 20
  lfsr : BitVec 15
  envCnt : Nat
  sweepCnt : Nat
  /-- For the tick that is due: the LFSR shift of N0 (R166) and the sweep step (R169) have been made. -/
  shifted : Bool
  swept : Bool
  /-- The last tick completed an envelope period, so that a step of VOL is due (R168). -/
  envDue : Bool
  deriving DecidableEq, Repr

/-- The sample voice (R170-R173): registers, FIFO (oldest first), and the pass being fetched. -/
structure S0 where
  ctl : Byte
  rate : Word
  rateHold : Byte
  src : BitVec 24
  srcHold : Word
  len : Word
  lenHold : Byte
  vol : Byte
  bal : Byte
  low : Byte
  undr : Bool
  ovr : Bool
  fifo : List Byte
  phase : BitVec 20
  out : Byte
  passAddr : BitVec 24
  passLeft : Nat
  /-- Fetching has ended: the last byte of the last pass is in the FIFO or played, or an address was refused. -/
  fetchEnd : Bool
  refused : Bool
  /-- A pacing match has come and its pop has not (R173); the pop of the tick that is due has been made (R172). -/
  popDue : Bool
  popped : Bool
  deriving DecidableEq, Repr

/-- Sound (R165-R176): voices, mixer and resampler. `tickAt` is the pan-cycle count from which the next tick is due. -/
structure Sound where
  v : Vector Voice 7
  s0 : S0
  mute : Bool
  mvol : Byte
  mixL : Int
  mixR : Int
  tickAt : Nat
  rem : Int
  /-- The pan-cycle count up to which `rem` has been lowered. -/
  remAt : Nat
  sumL : Int
  sumR : Int
  count : Nat
  lastL : Int
  lastR : Int
  /-- Samples emitted in the current frame, latest first (R176), each with the pan-cycle count at its emission. -/
  samples : List (Nat × Int × Int)
  /-- Samples emitted since reset (R175, R289). -/
  emitted : Nat
  deriving DecidableEq, Repr

/-! ### The pan image as a whole -/

/-- What stays fixed while a pan runs: title, sizes and the settings of R98, R99 (part of the starting state, R205). -/
structure PanCfg where
  profile : Nat
  fp : Nat
  lb : Nat
  elastic : Bool
  titleId : BitVec 64
  minKpa : Byte
  rewindFlag : Bool
  romLen : Nat
  rom : Memory
  cramSize : Nat
  mediaLen : Nat
  deriving DecidableEq, Repr

/-- What a pan hands to the device: an event for its EVT ring (code, data from offset 16), a host-call request, or a
fault (cause, PC). It is empty between commands. -/
inductive PanOut where
  | event (code : Nat) (data : List Byte)
  | hostCall (call seq a b : Byte) (p q : Word) (arg : List Byte) (frame cyc fcount : Nat)
  | fault (cause : Byte) (pc : Word)
  deriving DecidableEq, Repr

/-- The pan image (R183): everything a snapshot, a save and the state hash carry. -/
structure Pan where
  cfg : PanCfg
  cpu : Cpu
  core : Core
  mul : Multiplier
  cop : Coprocessor
  hc : HostCall
  wram : Memory
  vram : Memory
  cram : Memory
  media : Memory
  oam : Memory
  wave : Memory
  sys : SysRegs
  dma : Vector Dma 4
  /-- The channel whose unit is moving (R80). -/
  dmaCur : Option (Fin 4)
  crc : Crc
  slots : Vector InSlot 16
  mb : Mailbox
  ras : Raster
  beam : Beam
  rake : Rake
  tm : Vector Timer 4
  ic : Ic
  snd : Sound
  /-- Pan-cycles since reset (R70, R162), of which `frameStart` lie before the current frame, number `frame` (R71). -/
  clk : Nat
  frame : Nat
  frameStart : Nat
  /-- The model's: the byte the last read of a register access command returned. -/
  bus : Byte
  /-- The model's: an `IC_COMPLETE` write of the instruction in progress was out of order (R60). -/
  abort : Bool
  /-- The model's: the write of the pan-cycle that has just run to a timer, to sound or to a wave table, which lands after the
  ticks of that pan-cycle (R146, R163): offset from $E000, byte, and LEVEL of S0 as the pan-cycle began (R172). -/
  late : Option (Nat × Byte × Nat)
  /-- The pan is HALTED and stepped by `PAN_DEBUG`, so that FREEZE acts (R149). -/
  stepping : Bool
  /-- Grains of work RAM, VRAM and cartridge RAM written since the image was last in DRAM whole, numbered in the order of a save
  image's body (R184, R244). -/
  dirty : List Nat
  /-- The crust, which is no part of the image (R249). -/
  crust : Crust
  /-- What is handed to the device at the end of the command. -/
  out : List PanOut
  deriving DecidableEq, Repr

/-! ### The device's record of a pan -/

/-- The eight pan modes, coded 0 to 7 (R363). -/
inductive PanMode where
  | idle | locked | elastic | free | step | replay | halted | faulted
  deriving DecidableEq, Repr

/-- What a placement does when its pan-cycle comes (R90-R96, R56, R129, R197). -/
inductive PlaceKind where
  | input (slot : Fin 16) (data : Vector Byte 7)
  | attach (slot : Fin 16)
  | detach (slot : Fin 16)
  | message (m : Message)
  | nmi
  | hcReply (seq : Byte) (res : Vector Byte 8)
  | hcTimeout (seq : Byte)
  | movie (ready : BitVec 4) (offset : Nat) (bytes : List Byte)
  /-- A `PAN_HALT` with the position it names, waiting until the pan halts (R197). -/
  | halt (named : Option (Nat × Nat)) (c : Packet) (cpl : Nat)
  deriving DecidableEq, Repr

/-- A queued placement: arrival time, placement time P (R221), order taken, the frame at whose pan-cycle 0 it is placed
when its place is fixed by frame (R94, R223, R225), whether it is a late record of R225, and what it does. -/
structure Placement where
  arrival : Nat
  place : Nat
  order : Nat
  atFrame : Option Nat
  /-- The pan-cycle within that frame (0 but for a placement a rewind or a replay repeats at its own pan-cycle). -/
  atCyc : Nat
  late : Bool
  /-- An input record whose slot is detached by a command taken after it at the same time: it keeps its place before the
  detach (R91). -/
  bracketed : Bool
  /-- It has been applied and logged before, and is applied again in a re-run (R234, R242). -/
  logged : Bool
  kind : PlaceKind
  deriving DecidableEq, Repr

/-- A log record of R242 with its LSEQ and the bytes it commits. -/
structure LogRec where
  frame : Nat
  cyc : Nat
  kind : Byte
  arg : Byte
  flags : Byte
  conf : Byte
  payload : List Byte
  stamp : Nat
  bytes : List Byte
  seq : Nat
  deriving DecidableEq, Repr

/-- A composed frame (R135): frame number, width, height, pixels in raster order, picture CRC, and the rake's hints (R272). -/
structure Picture where
  frame : Nat
  w : Nat
  h : Nat
  pixels : List (BitVec 24)
  crc : BitVec 32
  hints : Hints
  deriving DecidableEq, Repr

/-- Observation settings (R251). `pitch` 0 stands for the default. -/
structure Obs where
  ring : Option Nat
  fmt : Nat
  every : Nat
  x : Nat
  y : Nat
  w : Nat
  h : Nat
  scale : Nat
  bt601 : Bool
  audio : Bool
  pitch : Nat
  deriving DecidableEq, Repr

/-- The records one frame produces for the observation writer (R255, R256). -/
structure FrameRecords where
  frame : Nat
  obs : Obs
  logs : List LogRec
  picture : Option Picture
  audio : List (Int × Int)
  hash : Option (BitVec 64)
  redo : Bool
  late : Bool
  /-- Records of earlier frames were skipped just before it (R257). -/
  gap : Bool
  deriving DecidableEq, Repr

/-- Placement settings of a client slot (R220) and its FUTURE and STALE counters (R221, R326). -/
structure SlotPlace where
  client : Bool
  offset : Int
  window : Nat
  deriving DecidableEq, Repr

/-- A host-call outstanding with the device: request bytes for R237, deadline, whether its request is written. -/
structure CallOut where
  call : Byte
  seq : Byte
  request : List Byte
  posted : Nat
  deadline : Nat
  frame : Nat
  cyc : Nat
  /-- The reply taken and not yet applied in a synchronous mode; a reply or the deadline has been placed. -/
  reply : Option (Vector Byte 8)
  placed : Bool
  deriving DecidableEq, Repr

/-- A placement or reply already applied, for rewind and re-run (R225, R202, R237). -/
structure Applied where
  frame : Nat
  cyc : Nat
  p : Placement
  deriving DecidableEq, Repr

/-- A snapshot of the start of a frame (R231). -/
structure Snapshot where
  frame : Nat
  /-- The KPA and CONF it was made under (R207). -/
  kpa : Byte
  conf : Byte
  pan : Pan
  deriving DecidableEq, Repr

/-- A save image the device has produced (R62, R244), with the pan image it stands for. -/
structure Made where
  image : List Byte
  pan : Pan
  deriving DecidableEq, Repr

/-- Heap and log state of a pan (R230-R243). -/
structure HeapSt where
  depth : Nat
  snaps : List Snapshot
  hashEvery : Nat
  /-- Hash reference: frame and expected hash of the entries left (R241); 0 OFF, 1 REPORT, 2 PARK. -/
  refMode : Nat
  refs : List (Nat × BitVec 64)
  refDone : Bool
  /-- DRAM ranges (address, bytes) of the reference and of the log in use (R362). -/
  refAt : Option (Nat × Nat)
  replayAt : Option (Nat × Nat)
  logOn : Bool
  /-- The header of the log has been written, and the next LSEQ. -/
  logOpen : Bool
  lseq : Nat
  logs : List LogRec
  /-- Records still to apply in REPLAY (R243), a position or data error found, and CONF_DIFF. -/
  replay : List LogRec
  replayOn : Bool
  replayErr : Nat
  /-- Position of the last record of the log applied (R243). -/
  replayPos : Nat × Nat
  confDiff : Bool
  applied : List Applied
  /-- Host-calls posted since the oldest snapshot, and those of the timeline a re-run is replacing that it has not made again
  (R202, R237). -/
  calls : List CallOut
  oldCalls : List CallOut
  /-- The last written-back image, and the pan-cycle count up to which a re-run from it gives nothing out again (R202). -/
  written : Option Pan
  rerunClk : Nat
  deriving DecidableEq, Repr

/-- Counters of a pan (R364, R249). -/
structure PanCounters where
  late : Nat
  rewinds : Nat
  obsSkips : Nat
  hcDiscarded : Nat
  reruns : Nat
  rejects : Nat
  latePlaced : Nat
  deriving DecidableEq, Repr

/-- A frame in YCbCr 4:2:0: the planes in raster order (R250). -/
structure Yuv where
  w : Nat
  h : Nat
  y : List Byte
  cb : List Byte
  cr : List Byte
  deriving DecidableEq, Repr

/-- The elements of the sequence header that R269 names. -/
structure SeqHeader where
  seqProfile : Nat
  seqTier : Nat
  seqLevelIdx : Nat
  stillPicture : Bool
  reducedStillPictureHeader : Bool
  timingInfoPresent : Bool
  frameIdNumbersPresent : Bool
  operatingPoints : Nat
  operatingPointIdc : Nat
  frameWidth : Nat
  frameHeight : Nat
  use128Superblock : Bool
  enableOrderHint : Bool
  chooseScreenContent : Bool
  forceScreenContent : Nat
  chooseIntegerMv : Bool
  forceIntegerMv : Nat
  filterIntra : Bool
  intraEdgeFilter : Bool
  interintraCompound : Bool
  maskedCompound : Bool
  warpedMotion : Bool
  dualFilter : Bool
  superres : Bool
  cdef : Bool
  restoration : Bool
  filmGrain : Bool
  bitDepth : Nat
  subsamplingX : Bool
  subsamplingY : Bool
  colorRange : Bool
  chromaSamplePosition : Nat
  colorDescriptionPresent : Bool
  colorPrimaries : Nat
  transferCharacteristics : Nat
  matrixCoefficients : Nat
  deriving DecidableEq, Repr

/-- The elements of a frame header that R269, R274, R275 and R284 name. `refs` gives the slot of each of the seven reference names in
the order LAST, LAST2, LAST3, GOLDEN, BWDREF, ALTREF2, ALTREF; `primaryRef` the slot of `primary_ref_frame`. -/
structure FrameHeader where
  keyFrame : Bool
  showFrame : Bool
  allowScreenContent : Bool
  forceIntegerMv : Bool
  allowIntrabc : Bool
  tiles : Nat
  referenceSelect : Bool
  primaryRef : Option Nat
  refresh : BitVec 8
  refs : Vector Nat 7
  baseQIdx : Nat
  deltaQPresent : Bool
  usingQMatrix : Bool
  filterSwitchable : Bool
  interpolationFilter : Nat
  loopFilterLevel : Vector Nat 4
  sharpness : Nat
  reducedTxSet : Bool
  txModeSelect : Bool
  deriving DecidableEq, Repr

/-- How a block of 8 × 8 is coded (R272, R273): skipped with vector (0, 0), inter with an integer luma vector, or intra. -/
inductive BlockCode where
  | skip
  | inter (v : Int × Int)
  | intra
  deriving DecidableEq, Repr

/-- A reference slot: the encoded frame it holds, by number and reconstruction, and the entropy context it left (R274, R275). -/
structure RefSlot where
  frame : Nat
  recon : Yuv
  context : Nat
  deriving DecidableEq, Repr

/-- One OBU of a temporal unit (R284): type, `obu_has_size_field`, `obu_extension_flag`, `temporal_id`, `spatial_id` and bytes. -/
structure Obu where
  kind : Nat
  hasSize : Bool
  extension : Bool
  temporalId : Nat
  spatialId : Nat
  size : Nat
  deriving DecidableEq, Repr

/-- A frame the harvester is encoding, or has encoded and not finished (R268, R284). Kinds: 0 key, 1 recovery,
2 ordinary, 3 keep-alive. `changed` lists the blocks marked changed, `codes` says how each block is coded, `recon` is what the frame
leaves as a reference with its entropy context, and `unit` names the bits of the temporal unit. -/
structure Encoding where
  pic : Picture
  kind : Nat
  refSlot : Nat
  qp : Nat
  e : Nat
  changed : List Nat
  src : Yuv
  head : FrameHeader
  codes : List BlockCode
  recon : Yuv
  context : Nat
  unit : Nat
  deriving DecidableEq, Repr

/-- A stream (R266-R287, R317). -/
structure Stream where
  bt601 : Bool
  rateCeil : Nat
  deblockOff : Bool
  rcMode : Nat
  qp : Nat
  qpKeyDelta : Int
  qpMin : Nat
  qpMax : Nat
  rate : Nat
  rateMax : Nat
  buf : Nat
  keyInterval : Nat
  recInterval : Nat
  holdRefresh : Nat
  mtu : Nat
  gap : Nat
  extId : Nat
  emitDelay : Nat
  opus10 : Bool
  level : Nat
  deriving DecidableEq, Repr

/-- The running state of a stream (R271-R287). -/
structure StreamSt where
  cfg : Stream
  /-- Rate settings staged at an epoch, in force from the next harvester frame (R267). -/
  staged : Stream
  slot0 : Option RefSlot
  slot1 : Option RefSlot
  slot2 : Option RefSlot
  /-- The last temporal unit emitted (R284) and its frame header. -/
  obus : List Obu
  header : Option FrameHeader
  /-- The frame last taken by the harvester, and the last one encoded. -/
  seen : Option Nat
  lastEnc : Option Picture
  sinceKey : Nat
  sinceRec : Nat
  held : Nat
  bucket : Nat
  bucketMax : Nat
  bucketAt : Nat
  keyReqs : List Nat
  losses : List (Nat × Nat)
  /-- The frame F_n after a rewind, every block of which counts as changed (R235, R283). -/
  changedFor : Option Nat
  keyDue : Bool
  recDue : Bool
  enc : Option Encoding
  emitted : Vector Nat 4
  heldCnt : Nat
  lateCnt : Nat
  answered : Nat
  ignored : Nat
  keyReqCnt : Nat
  overruns : Nat
  slow : Nat
  deriving DecidableEq, Repr

/-- Settings of an audio chain (R290). -/
structure AudioCfg where
  dcCut : Nat
  rumble : Nat
  gain : Int
  gainTimeout : Nat
  silLevel : Int
  silTime : Nat
  clipCount : Nat
  opusRate : Nat
  opusVbr : Nat
  deriving DecidableEq, Repr

/-- One channel of an audio chain (R292-R297): filter memories, gain in force, pending step (target, first sample), and
gauges; `hold` counts 1/24 of 0.01 dB; `blocks` holds (sum of squares, clipped samples) of the last 100 blocks, latest first. -/
structure Channel where
  dx : Int
  dy : Int
  rx1 : Int
  rx2 : Int
  ry1 : Int
  ry2 : Int
  gx : Int
  gain : Int
  step : Option (Int × Nat)
  peak : Nat
  hold : Int
  clips : Nat
  blocks : List (Nat × Nat)
  deriving DecidableEq, Repr

/-- Which sinks a chain feeds (R299). -/
structure Routes where
  opus : Bool
  pcm : Bool
  i2s : Bool
  pcmRing : Nat
  deriving DecidableEq, Repr

/-- The audio delivery chain of a pan (R289-R303). -/
structure Audio where
  cfg : AudioCfg
  left : Channel
  right : Channel
  routes : Routes
  /-- Routes staged for the next block (R299). -/
  nextRoutes : Option Routes
  /-- Samples received and not yet processed, oldest first, each with the end of its emitting pan-cycle in device time and
  the frame that emitted it. -/
  queue : List (Int × Int × Nat × Nat)
  /-- The number of the next block (R289). -/
  block : Nat
  silBlocks : Nat
  silence : Bool
  clip : Bool
  /-- Last sample received (h of R236) and samples of the fade still to apply. -/
  last : Int × Int
  fade : Nat
  /-- The last sample before the fade. -/
  fadeFrom : Int × Int
  /-- Opus frame in progress: chain index of its first sample and samples so far (R300). -/
  opusStart : Nat
  opusFill : Nat
  opusOn : Bool
  opusEnd : Nat
  opusEnding : Bool
  /-- Rate and rate control of the Opus frame in progress (R290). -/
  opusRate : Nat
  opusVbr : Nat
  /-- The stream the Opus sink encodes for, kept until its last frame has left (R299, R300). -/
  stream : Option Stream
  /-- The number of the last block processed (R298). -/
  lastBlock : Nat
  /-- The pan has been halted: the block of this number is the first it delivers after that, and joins every sink (R303). -/
  rejoin : Option Nat
  pcmGap : Bool
  /-- Frames that were late and whose samples are not all processed (R191, R255). -/
  lateFrames : List Nat
  /-- A block of the pan has been played on I2S since it entered real time, so that the next is due; blocks whose play time has passed and
  that have not arrived (R303). -/
  i2sDue : Bool
  i2sMissed : Nat
  deriving DecidableEq, Repr

/-- The device's record of a pan: mode, residency, schedule, queues, settings, and its image. -/
structure Site where
  pan : Pan
  mode : PanMode
  /-- The mode HALTED left, to which a resume returns (R196). -/
  leftMode : PanMode
  title : Nat
  bay : Fin 8
  /-- The home bay a `PAN_CONFIG` that waits in a commit gives the pan (R187, R372). -/
  nextBay : Option (Fin 8)
  slot : Option Nat
  resFrames : Nat
  swappedAt : Nat
  dirty : Bool
  boiler : Option (Fin 4)
  runStart : Nat
  /-- Phase index k (R187). -/
  phase : Option Nat
  /-- Device time of the current frame's start and end (R218), or of the start of the ELASTIC mapping (R219). -/
  frameS : Nat
  frameE : Nat
  /-- E of a frame that has ended in the burst that runs it, until the burst ends (R191). -/
  endedE : Option Nat
  /-- First frame of the mapping, and the pan-cycle count at which it began (R219, R410). -/
  mapFrame : Nat
  mapClk : Nat
  /-- The last frame that has ended and its length in pan-cycles (R197). -/
  prevLen : Option (Nat × Nat)
  burst : Bool
  cutoff : Nat
  parked : Bool
  stepLeft : Nat
  waitObs : Bool
  /-- A stop that is to come: from the end of this frame on and, in real time, of the frame whose virtual end lies after this device
  time (R409). -/
  stopAt : Option (Nat × Option Nat)
  modeReq : Option (PanMode × Nat)
  /-- Numbers of the accepted messages that hold a mailbox credit (R95). -/
  mbHolding : List Byte
  mbNext : Byte
  inQ : List Placement
  plQ : List Placement
  order : Nat
  inputDelay : Nat
  slotPlace : Vector SlotPlace 16
  /-- Slots attached by command, from the arrival time of the command on (R92, R313). -/
  attached : BitVec 16
  hcTimeout : Nat
  callOut : Option CallOut
  heap : HeapSt
  obs : Obs
  obsQ : List FrameRecords
  gap : Bool
  /-- The ring `obs` names has been destroyed since it was named (R251). -/
  ringLost : Bool
  ctr : PanCounters
  lastFrame : Option Picture
  /-- The whole frame before `lastFrame` (R264). -/
  prevFrame : Option Picture
  /-- The device time of the end of `lastFrame` (R228). -/
  lastEnd : Nat
  /-- The frame just composed, before it is known whether it is late (R191). -/
  newFrame : Option Picture
  stream : Option StreamSt
  audio : Audio
  staging : Nat
  lateRecords : List Placement
  deriving DecidableEq, Repr

/-! ### The device -/

/-- The timebase (R208-R217): TB_TIME in timebase units, steering, PPS. -/
structure Timebase where
  counting : Bool
  time : Nat
  timeLatch : BitVec 32
  refLock : Bool
  stamp : Nat
  stampLatch : BitVec 32
  ppsNew : Bool
  ppsOvr : Bool
  rate : Int
  slew : Int
  slewLatch : BitVec 32
  slewing : Bool
  /-- Fraction of a unit of the slew absorbed so far, in parts of 48,000,000,000. -/
  slewAcc : Nat
  ppsEn : Bool
  ppsOffset : Nat
  ppsHigh : Nat
  ppsOut : Bool
  /-- The last rising edge since device time was last stepped. -/
  ppsRise : Option Nat
  /-- The end of the last device epoch entered (R213). -/
  epochAt : Nat
  deriving DecidableEq, Repr

/-- Device registers and device-wide settings (R330, R186, R189, R302, R309). -/
structure DevRegs where
  ready : BitVec 32
  status : BitVec 32
  ucode : BitVec 32
  fwBuild : BitVec 32
  w : Nat
  batch : Nat
  i2sDelay : Nat
  srtpRequired : Bool
  heapBytes : Nat
  correctable : Nat
  deriving DecidableEq, Repr

/-- The event controller (R333, R334): `holdUntil` is the device time at which a group's hold-off ends, `vec` lists the
vectors that differ from the source's number, `sent` the MSI-X messages sent, latest first. MSI-X (R327, R328; PRESUMED where the spec
leaves it to the Base specification: notes/assumptions/58.md): enable, function mask, table entries that differ from a masked one, and
pending bits. -/
structure Evc where
  pend : BitVec 256
  en : BitVec 256
  hold : Vector (BitVec 10) 16
  holdUntil : Vector Nat 16
  vec : Table (BitVec 11)
  sent : List (BitVec 11)
  msixOn : Bool
  msixHeld : Bool
  table : Table (BitVec 128)
  pba : BitVec 2048
  deriving DecidableEq, Repr

/-- The PCI Express identity, and the request sizes host software sets (R3, R327). -/
structure Pcie where
  vendor : Word
  device : Word
  classCode : BitVec 24
  maxPayload : Nat
  maxRead : Nat
  deriving DecidableEq, Repr

/-- The boot rings' registers (R337). -/
structure Boot where
  cmd : Vector (BitVec 32) 12
  cpl : Vector (BitVec 32) 12
  err : Bool
  up : Bool
  deriving DecidableEq, Repr

/-- A ring (R335-R341): its context, indices (32-bit counts), data-area write offset and bytes in use (offset after each
record still held), unsignalled entries and the time the oldest became visible. -/
structure Ring where
  base : Nat
  idxAddr : Nat
  dataBase : Nat
  kind : Nat
  log2 : Nat
  dataLog2 : Nat
  int : Word
  count : Nat
  time : Nat
  owner : Nat
  dev : BitVec 32
  hst : BitVec 32
  /-- HCALL: the answered index the device has taken (R338). -/
  taken : BitVec 32
  dataHead : Nat
  /-- Data-area payloads not yet returned: record index, start and end offset, oldest first. -/
  dataUse : List (BitVec 32 × Nat × Nat)
  unsig : Nat
  oldest : Nat
  /-- CMD: commands taken and not yet completed. -/
  open_ : Nat
  deriving DecidableEq, Repr

/-- A title in a handle (R73, R74), with the DRAM range of its image. -/
structure Title where
  addr : Nat
  size : Nat
  id : BitVec 64
  profile : Nat
  minKpa : Byte
  romLen : Nat
  rom : Memory
  cramCode : Nat
  rewind : Bool
  rate : Nat
  deriving DecidableEq, Repr

/-- A boiler beside the run it makes (R200, R202): its micro-stack of 4 entries, each a micro-store address, latest first, and whether
it reloads its stores. -/
structure Boiler where
  reloading : Bool
  stack : List (BitVec 12)
  deriving DecidableEq, Repr

/-- The stores of which every boiler holds identical contents (R200): 4,096 words of micro-store and 512 of nano-store, none before
bring-up loads them. -/
structure Stores where
  micro : List (BitVec 24)
  nano : List (BitVec 144)
  deriving DecidableEq, Repr

/-- Counters of a flow entry in the order of R326. -/
structure FlowCtr where
  vCopies : Nat
  aCopies : Nat
  vBytes : Nat
  aBytes : Nat
  displaced : Nat
  lateDep : Nat
  linkDown : Nat
  accepted : Nat
  rejects : Vector Nat 8
  future : Nat
  stale : Nat
  latePlaced : Nat
  toHost : Nat
  deriving DecidableEq, Repr

/-- A flow entry (R307-R314, R318, R321). -/
structure Flow where
  bytes : List Byte
  masterKey : List Byte
  masterSalt : List Byte
  inKey : List Byte
  inSalt : List Byte
  last : Option Word
  sentV : Nat
  sentA : Nat
  rocV : Nat
  rocA : Nat
  ctr : FlowCtr
  deriving DecidableEq, Repr

/-- Counters of a port in the order of R326. -/
structure PortCtr where
  rxFrames : Nat
  rxBytes : Nat
  txFrames : Nat
  txBytes : Nat
  fcs : Nat
  size : Nat
  foreign : Nat
  macCtl : Nat
  toRing : Nat
  ringFull : Nat
  ups : Nat
  downs : Nat
  fecCorr : Nat
  fecUncorr : Nat
  deriving DecidableEq, Repr

/-- An Ethernet port (R304-R306, R325): the frames it has sent are `sent`, latest first. -/
structure Port where
  mode : Nat
  fec : Nat
  mac : List Byte
  addrs : Vector (Option (Bool × List Byte)) 4
  up : Bool
  rxRing : Nat
  /-- Device time at which the port falls idle (R229). -/
  busyUntil : Nat
  sent : List (Nat × List Byte)
  ctr : PortCtr
  deriving DecidableEq, Repr

/-- A packet built for a pan, waiting for its departure (R228, R318-R320). `elems` lists the elements of its payload, each with the
byte it begins with, where the spec gives it, and its length; `ext` is FRAME_EXT_ID; `gone` holds the ports on which it has departed. -/
structure NetPacket where
  pan : Nat
  video : Bool
  unit : Nat
  index : Nat
  first : Bool
  last : Bool
  cont : Bool
  more : Bool
  elems : List (Option Byte × Nat)
  ext : Nat
  frame : Nat
  ts : BitVec 32
  dep : Nat
  ready : Nat
  gone : BitVec 2
  deriving DecidableEq, Repr

/-- A copy waiting on a busy port (R229, R323). -/
structure Copy where
  port : Fin 2
  entry : Nat
  video : Bool
  dep : Nat
  index : Nat
  frame : List Byte
  deriving DecidableEq, Repr

/-- Settings of a head (R259-R261). -/
structure HeadCfg where
  pixelKHz : Nat
  hActive : Nat
  vActive : Nat
  timing : List Nat
  maxLanes : Nat
  maxRate : Nat
  enable : Bool
  mosaic : Bool
  c : Nat
  r : Nat
  pitchX : Nat
  pitchY : Nat
  border : BitVec 24
  x : Nat
  y : Nat
  /-- Tile number: pan and SCALE byte (R261, R367). -/
  tiles : Table (Nat × Byte)
  deriving DecidableEq, Repr

/-- A head (R259-R265): `shown` holds the picture each tile shows. -/
structure Head where
  cfg : HeadCfg
  hpd : Bool
  trained : Bool
  lanes : Nat
  rate : Nat
  sinkLanes : Nat
  sinkRate : Nat
  frames : Nat
  crc : BitVec 32
  readErr : Nat
  shown : Table Picture
  /-- A head frame is being sent. -/
  driving : Bool
  deriving DecidableEq, Repr

/-- The I2S output (R302, R303): the pan routed; the pan that leaves for it, with the play time of the first block of the new one once that
has arrived; blocks (pan, play time, samples) by time; underruns; last samples played, and from when. -/
structure I2s where
  pan : Option Nat
  leaving : Option (Nat × Option Nat)
  blocks : List (Nat × Nat × List (Int × Int))
  underruns : Nat
  played : List (Int × Int)
  playAt : Nat
  deriving DecidableEq, Repr

/-- A sluice channel (R348-R353). -/
structure Sluice where
  busy : Bool
  half : Bool
  full : Bool
  err : Bool
  aborted : Bool
  descs : BitVec 32
  done : Nat
  doneLatch : BitVec 32
  /-- Address of the descriptor that runs next; none once the LAST one has run. -/
  next : Option Nat
  deriving DecidableEq, Repr

/-- Where an accepted command waits (R358, R4). -/
inductive Boundary where
  | epoch
  | latch (p : Nat)
  | headVb (h : Fin 2)
  | audio (p : Nat)
  | harvester (p : Nat)
  | frameEnd (p : Nat)
  | chain (n : Nat)
  | switch
  deriving DecidableEq, Repr

/-- A command accepted and waiting on a boundary, oldest first (R360, R407). `epochDone` holds once the epoch after its
acceptance has passed; `txn` is the commit it is a part of. A mode command that is placed (R196) counts from the pan's frame
`fromFrame` on, and in real time from the placement time `place`. -/
structure Waiting where
  opcode : Nat
  c : Packet
  accepted : Nat
  cpl : Nat
  at_ : Boundary
  epochDone : Bool
  epochTime : Nat
  txn : Option Nat
  fromFrame : Nat
  place : Option Nat
  deriving DecidableEq, Repr

/-- A completion held for want of ring space (R341). -/
structure HeldCpl where
  cpl : Nat
  ring : Nat
  tag : Word
  opcode : Nat
  status : Nat
  result : List Byte
  deriving DecidableEq, Repr

/-- An open transaction (R369-R372): staged (opcode, packet), oldest first; time of the last staging; objects touched
with the change count each had at the first staging. -/
structure Txn where
  cmds : List (Nat × Packet)
  lastAt : Nat
  objs : List (Nat × Nat)
  deriving DecidableEq, Repr

/-- A commit whose parts have not all landed (R372). -/
structure Commit where
  c : Packet
  cpl : Nat
  parts : Nat
  applied : Nat
  discarded : Nat
  timedOut : Nat
  epoch : Nat
  deriving DecidableEq, Repr

/-- A host-call request that waits for ring space (R341): pan and its 64-byte entry. -/
structure WaitCall where
  pan : Nat
  entry : List Byte
  deriving DecidableEq, Repr

/-- The boot flash (R378, R380): CONFIG block and the two firmware banks; `running` is the bank in use. -/
structure Flash where
  config : List Byte
  bank0 : List Byte
  bank1 : List Byte
  running : Nat
  deriving DecidableEq, Repr

/-- Resets, supplies, governor and thermal state (R376-R387). -/
structure Power where
  supplied : Bool
  sysRst : Bool
  perst : Bool
  d3hot : Bool
  tripped : Bool
  railAlert : Bool
  /-- Thermal throttle in eighths of engine rate, and the eighths of a `BCLK` cycle the engines have gained so far (R385, R387). -/
  thermal : Nat
  duty : Nat
  episodes : Nat
  tj : Int
  vddCore : Nat
  /-- The device time of the last step of the core voltage; a step of device time moves it along (R382). -/
  vddAt : Option Int
  slew : Nat
  iccMax : Nat
  twarn : Nat
  heapPct : Nat
  subsys : BitVec 32
  trainFails : Vector Nat 4
  /-- DRAM channels that have been trained since `SYS_RST#`. -/
  trained : BitVec 4
  deriving DecidableEq, Repr

/-- The management registers (R397) and the pins in a switch window (R398), each with the pin-controller cycle at which
its window ends. `lastRead` is the last Block Read's value. -/
structure Pins where
  func : BitVec 32
  gpioEn : BitVec 32
  gpioOut : BitVec 32
  gpioOe : BitVec 32
  level : BitVec 32
  irqMode0 : BitVec 32
  irqMode1 : BitVec 32
  irqStat : BitVec 32
  irqBmc : BitVec 32
  irqHost : BitVec 32
  switching : Table Nat
  lastRead : BitVec 32
  deriving DecidableEq, Repr

/-- The whole device. `pending` is the queue of commands that wait, first in, first out; `free` counts the free values
drawn; `acc` carries the fraction of a timebase unit between ticks, in parts of 48,000,000,000. -/
structure State where
  tb : Timebase
  dev : DevRegs
  evc : Evc
  pcie : Pcie
  boot : Boot
  rings : Table Ring
  titles : Table Title
  allocs : Table Nat
  sites : Table Site
  boilers : Vector Boiler 32
  stores : Stores
  /-- Lines served from the crust, by bay (R249). -/
  crystal : Vector Nat 8
  flows : Table Flow
  ports : Vector Port 2
  heads : Vector Head 2
  packets : List NetPacket
  copies : List Copy
  bittern : Option Nat
  bitternWritten : Nat
  bitternCounted : Nat
  i2s : I2s
  sluice : Vector Sluice 64
  waiting : List Waiting
  held : List HeldCpl
  waitCalls : List WaitCall
  evtLost : Table Nat
  txns : Table Txn
  commits : Table Commit
  /-- Change counts of the objects of R372, by object number. -/
  versions : Table Nat
  /-- The control complex's copy of the patch store, staged for the switch, and the patch store every boiler holds (R200,
  R203). -/
  patch : Option (List Byte)
  boilerPatch : List Byte
  rrFree : Vector Nat 8
  /-- The pan whose records the observation writer wrote last (R258), and the CMD ring the control core served last (R342). -/
  rrObs : Nat
  rrCmd : Nat
  flash : Flash
  pwr : Power
  pins : Pins
  host : Memory
  dram : Memory
  /-- The model's: the save images the device has produced, latest first (R62; notes/assumptions/34.md). -/
  made : List Made
  /-- The value the last BAR 0 read of a register access command returned. -/
  barRead : BitVec 32
  free : Nat
  acc : Nat
  pending : List Instr
  deriving DecidableEq, Repr

/-! ### How a step can stop -/

/-- The reasons a step could stop with a fault. Pan faults (R60) and device errors are next states, so no meaning
raises one (notes/assumptions/1.md). -/
inductive Fault where
  /-- No command raises it: every fault the spec describes has an effect on State. Safe. -/
  | none
  deriving DecidableEq, Repr

/-- The reasons a command could be refused. -/
inductive Refusal where
  /-- An arm of Dispatch whose meaning is not written. Safe. -/
  | notModelled (mnemonic : String)
  deriving DecidableEq, Repr

/-! ### Reset -/

/-- A port as it leaves reset (R305; settings the spec gives no reset value for: notes/assumptions/4.md). -/
def Port.reset : Port :=
  { mode := 0, fec := 0, mac := List.replicate 6 0, addrs := Vector.replicate 4 none, up := false, rxRing := 0xFFFF,
    busyUntil := 0, sent := [],
    ctr := ⟨0, 0, 0, 0, 0, 0, 0, 0, 0, 0, 0, 0, 0, 0⟩ }

/-- The settings of a head as it leaves reset (notes/assumptions/4.md). -/
def HeadCfg.reset : HeadCfg :=
  { pixelKHz := 0, hActive := 0, vActive := 0, timing := [], maxLanes := 0, maxRate := 0, enable := false,
    mosaic := false, c := 1, r := 1, pitchX := 0, pitchY := 0, border := 0, x := 0, y := 0, tiles := [] }

/-- A head as it leaves reset. -/
def Head.reset : Head :=
  { cfg := HeadCfg.reset, hpd := false, trained := false, lanes := 0, rate := 0, sinkLanes := 0, sinkRate := 0,
    frames := 0, crc := 0, readErr := 0, shown := [], driving := false }

/-- A sluice channel at reset (R352). -/
def Sluice.reset : Sluice :=
  { busy := false, half := false, full := false, err := false, aborted := false, descs := 0, done := 0, doneLatch := 0,
    next := none }

/-- The event controller at reset (R333): EVC_VEC holds each source's number. -/
def Evc.reset : Evc :=
  { pend := 0, en := 0, hold := Vector.replicate 16 0, holdUntil := Vector.replicate 16 0, vec := [], sent := [], msixOn := false,
    msixHeld := false, table := [], pba := 0 }

/-- The timebase at reset (R208, R209, R216). -/
def Timebase.reset : Timebase :=
  { counting := false, time := 0, timeLatch := 0, refLock := false, stamp := 0, stampLatch := 0, ppsNew := false,
    ppsOvr := false, rate := 0, slew := 0, slewLatch := 0, slewing := false, slewAcc := 0, ppsEn := false, ppsOffset := 0,
    ppsHigh := 1600000000, ppsOut := false, ppsRise := none, epochAt := 0 }

/-- Device registers and settings at reset (R330; defaults of R186, R189, R302, R309). -/
def DevRegs.reset : DevRegs :=
  { ready := 0, status := 0, ucode := 0, fwBuild := 0, w := 1000, batch := 8, i2sDelay := 2000, srtpRequired := true,
    heapBytes := 0, correctable := 0 }

/-- PCI Express at reset (R327; the request sizes are the Base specification's: notes/assumptions/58.md). -/
def Pcie.reset : Pcie := { vendor := 0x1F6C, device := 0x2048, classCode := 0x120000, maxPayload := 128, maxRead := 512 }

/-- The boot registers at reset (R337). -/
def Boot.reset : Boot :=
  { cmd := Vector.replicate 12 0, cpl := Vector.replicate 12 0, err := false, up := false }

/-- The management registers at reset of `SYS_RST#` (R397): SMB always reads 1, QSPI and UART reset to 1. -/
def Pins.reset : Pins :=
  { func := 0x62, gpioEn := 0, gpioOut := 0, gpioOe := 0, level := 0, irqMode0 := 0, irqMode1 := 0, irqStat := 0,
    irqBmc := 0, irqHost := 0, switching := [], lastRead := 0 }

/-- The device right after reset: supplied, `SYS_RST#` still low (R376), nothing loaded, no pan, no ring, memory with
nothing listed, no command waiting. -/
def State.reset : State :=
  { tb := Timebase.reset, dev := DevRegs.reset, evc := Evc.reset, pcie := Pcie.reset, boot := Boot.reset, rings := [], titles := [],
    allocs := [], sites := [], boilers := Vector.replicate 32 ⟨false, []⟩, stores := ⟨[], []⟩, crystal := Vector.replicate 8 0, flows := [],
    ports := Vector.replicate 2 Port.reset, heads := Vector.replicate 2 Head.reset, packets := [], copies := [],
    bittern := none, bitternWritten := 0, bitternCounted := 0,
    i2s := { pan := none, leaving := none, blocks := [], underruns := 0, played := [], playAt := 0 },
    sluice := Vector.replicate 64 Sluice.reset, waiting := [], held := [], waitCalls := [], evtLost := [], txns := [],
    commits := [], versions := [], patch := none, boilerPatch := [], rrFree := Vector.replicate 8 0,
    rrObs := 0, rrCmd := 0,
    flash := { config := [], bank0 := [], bank1 := [], running := 0 },
    pwr := { supplied := true, sysRst := true, perst := false, d3hot := false, tripped := false, railAlert := false,
             thermal := 0, duty := 0, episodes := 0, tj := 0, vddCore := 7500, vddAt := none,
             slew := 40, iccMax := 220, twarn := 100, heapPct := 50, subsys := 0, trainFails := Vector.replicate 4 0, trained := 0 },
    pins := Pins.reset, host := [], dram := [], made := [], barRead := 0, free := 0, acc := 0, pending := [] }

end Sys2Proof.Machine
end

