-- ==== Sys2Proof/Machine/Ops.lean ====
section
/-!
DEFINITION. The named operations over memory, tables, bit fields and byte strings that every meaning is built from.
-/
namespace Sys2Proof.Machine

/-! ### Memory (R6, R67, R377) -/

/-- The byte at an address; an unlisted address reads 0. -/
def Memory.read : Memory → Nat → Byte
  | [], _ => 0
  | c :: t, a => if a = c.1 then c.2 else Memory.read t a

/-- The memory with one byte written, in canonical form. -/
def Memory.write : Memory → Nat → Byte → Memory
  | [], a, v => if v = 0 then [] else [(a, v)]
  | c :: t, a, v =>
    if a < c.1 then (if v = 0 then c :: t else (a, v) :: c :: t)
    else if a = c.1 then (if v = 0 then t else (a, v) :: t)
    else c :: Memory.write t a v

/-- Every address listed in a memory lies above a bound, rising, with no 0 byte. -/
def Memory.wfAbove : Nat → Memory → Bool
  | _, [] => true
  | lo, c :: t => decide (lo ≤ c.1) && decide (c.2 ≠ 0) && Memory.wfAbove (c.1 + 1) t

/-- The canonical form: addresses strictly rising, no entry equal to what an unlisted address reads as. -/
def Memory.wf (m : Memory) : Bool := Memory.wfAbove 0 m

/-- The entries of a byte string from an address upward: its bytes that are not 0. -/
def Memory.cells : Nat → List Byte → Memory
  | _, [] => []
  | a, b :: bs => if b = 0 then Memory.cells (a + 1) bs else (a, b) :: Memory.cells (a + 1) bs

/-- Bytes written from an address upward: what lies below stays, what lies beyond stays. -/
def Memory.writeBytes (m : Memory) (a : Nat) (bs : List Byte) : Memory :=
  m.takeWhile (fun c => decide (c.1 < a)) ++ Memory.cells a bs ++ m.dropWhile (fun c => decide (c.1 < a + bs.length))

/-- `n` bytes from an address upward, of a memory that lists nothing below it. -/
def Memory.readFrom : Memory → Nat → Nat → List Byte
  | _, _, 0 => []
  | [], a, n + 1 => 0 :: Memory.readFrom [] (a + 1) n
  | c :: t, a, n + 1 => if a = c.1 then c.2 :: Memory.readFrom t (a + 1) n else 0 :: Memory.readFrom (c :: t) (a + 1) n

/-- `n` bytes read from an address upward. -/
def Memory.readBytes (m : Memory) (a n : Nat) : List Byte :=
  Memory.readFrom (m.dropWhile (fun c => decide (c.1 < a))) a n

/-! ### Tables -/

/-- The object of a number, if the table holds one. -/
def Table.get {α : Type} : Table α → Nat → Option α
  | [], _ => none
  | c :: t, k => if k = c.1 then some c.2 else Table.get t k

/-- The table with an object put under a number. -/
def Table.put {α : Type} : Table α → Nat → α → Table α
  | [], k, v => [(k, v)]
  | c :: t, k, v =>
    if k < c.1 then (k, v) :: c :: t else if k = c.1 then (k, v) :: t else c :: Table.put t k v

/-- The table without the object of a number. -/
def Table.drop {α : Type} : Table α → Nat → Table α
  | [], _ => []
  | c :: t, k => if k = c.1 then Table.drop t k else c :: Table.drop t k

/-- Whether the table holds an object under a number. -/
def Table.has {α : Type} (t : Table α) (k : Nat) : Bool := (Table.get t k).isSome

/-- Every object of a table changed by a function of its number. -/
def Table.mapAll {α : Type} (f : Nat → α → α) : Table α → Table α
  | [] => []
  | c :: t => (c.1, f c.1 c.2) :: Table.mapAll f t

/-- The first number from `k` up to `k + n` exclusive that the table does not hold. -/
def Table.firstFree {α : Type} (t : Table α) : Nat → Nat → Option Nat
  | _, 0 => none
  | k, n + 1 => if Table.has t k then Table.firstFree t (k + 1) n else some k

/-- The numbers of a table strictly rise and lie at or above a bound. -/
def Table.sortedFrom {α : Type} : Nat → Table α → Bool
  | _, [] => true
  | lo, c :: t => decide (lo ≤ c.1) && Table.sortedFrom (c.1 + 1) t

/-! ### Bit fields -/

/-- A bit vector with one bit set to a value. -/
def setBit {w : Nat} (x : BitVec w) (i : Nat) (b : Bool) : BitVec w :=
  if b then x ||| (1#w <<< i) else x &&& ~~~(1#w <<< i)

/-- Bits [hi:lo] of a bit vector as a number. -/
def bits {w : Nat} (x : BitVec w) (hi lo : Nat) : Nat := (x.toNat / 2 ^ lo) % 2 ^ (hi + 1 - lo)

/-- Whether some bit of a mask is set. -/
def anyBit {w : Nat} (x mask : BitVec w) : Bool := x &&& mask != 0

/-! ### Byte strings (R5: little-endian unless stated) -/

/-- The `n` bytes of a number, lowest first. -/
def leBytes : Nat → Nat → List Byte
  | 0, _ => []
  | n + 1, v => BitVec.ofNat 8 v :: leBytes n (v / 256)

/-- The number of a byte string, lowest first. -/
def leNat : List Byte → Nat
  | [] => 0
  | b :: bs => b.toNat + 256 * leNat bs

/-- The number of a byte string in network order, highest first. -/
def beNat (bs : List Byte) : Nat := leNat bs.reverse

/-- The `n` bytes of a number in network order. -/
def beBytes (n v : Nat) : List Byte := (leBytes n v).reverse

/-- A number read as a two's complement value of `w` bits. -/
def signedOf (w v : Nat) : Int := if v % 2 ^ w < 2 ^ (w - 1) then (v % 2 ^ w : Nat) else (v % 2 ^ w : Nat) - 2 ^ w

/-- Part of a byte string: `n` bytes from offset `o`, 0 beyond its end. -/
def slice (bs : List Byte) (o n : Nat) : List Byte := ((bs.drop o).take n) ++ List.replicate (n - (bs.drop o).length) 0

/-- Whether every byte is 0. -/
def allZero (bs : List Byte) : Bool := bs.all (fun b => b == 0)

/-- An element of a vector changed by a function. -/
def vmod {α : Type} {n : Nat} (v : Vector α n) (i : Fin n) (f : α → α) : Vector α n := v.set i (f v[i])

/-- The vector of `n` bytes of a byte string, 0 beyond its end. -/
def byteVec (n : Nat) (bs : List Byte) : Vector Byte n := Vector.ofFn (fun i : Fin n => bs.getD i.val 0)

/-! ### CRCs (R73, R86, R135, R239) -/

/-- One bit of a reflected CRC of width `w` with the reflected polynomial `poly`. -/
def crcBitReflected {w : Nat} (poly c : BitVec w) : BitVec w :=
  if c.getLsbD 0 then (c >>> 1) ^^^ poly else c >>> 1

/-- A byte folded into a reflected CRC register. -/
def crcByteReflected {w : Nat} (poly c : BitVec w) (b : Byte) : BitVec w :=
  Nat.rec (c ^^^ b.setWidth w) (fun _ x => crcBitReflected poly x) 8

/-- The reflected CRC of a byte string, with initial value and final XOR all ones. -/
def crcOnes {w : Nat} (poly : BitVec w) (bs : List Byte) : BitVec w :=
  ~~~ (bs.foldl (crcByteReflected poly) (BitVec.allOnes w))

/-- CRC-32 with the parameters of the picture CRC (R73, R135): polynomial 0x04C1_1DB7 reflected is 0xEDB8_8320. -/
def crc32 (bs : List Byte) : BitVec 32 := crcOnes 0xEDB88320#32 bs

/-- CRC-32C (R86): polynomial 0x1EDC_6F41 reflected is 0x82F6_3B78. -/
def crc32c (bs : List Byte) : BitVec 32 := crcOnes 0x82F63B78#32 bs

/-- CRC-64 of the state hash (R239): polynomial 0x42F0_E1EB_A9EA_3693 reflected is 0xC96C_5795_D787_0F42. -/
def crc64 (bs : List Byte) : BitVec 64 := crcOnes 0xC96C5795D7870F42#64 bs

/-- A byte folded into the unreflected CRC-16 of R86. -/
def crc16Byte (c : BitVec 16) (b : Byte) : BitVec 16 :=
  Nat.rec (c ^^^ ((b.setWidth 16) <<< 8)) (fun _ x => if x.msb then (x <<< 1) ^^^ 0x1021#16 else x <<< 1) 8

/-! ### Arithmetic (div rounds toward minus infinity, R128, R174) -/

/-- Ceiling division. -/
def ceilDiv (a b : Nat) : Nat := (a + b - 1) / b

/-- Division of integers rounding toward minus infinity. -/
def fdiv (a : Int) (b : Int) : Int := Int.fdiv a b

/-- A value held within bounds. -/
def clampInt (lo hi v : Int) : Int := max lo (min hi v)

/-- A number held within bounds. -/
def clampNat (lo hi v : Nat) : Nat := max lo (min hi v)

/-- Saturation to 16 signed bits (R174, R292). -/
def sat16 (v : Int) : Int := clampInt (-32768) 32767 v

/-- An 8-bit number with its bits in reversed order (R188). -/
def rev8 (k : Nat) : Nat := (BitVec.ofNat 8 k).reverse.toNat

end Sys2Proof.Machine
end

