-- ==== Sys2Proof/Machine/Flags.lean ====
section
/-!
DEFINITION. The flags of the Tretan-8 (R25) and what each instruction group computes and sets (R33 to R37, R49, R52), as
functions of the processor registers alone. Where the operand comes from and where PC goes is Machine/Exec.lean's.
-/
namespace Sys2Proof.Machine

/-! ### Flag bits (R25) -/

/-- N. -/
def Cpu.n (c : Cpu) : Bool := c.f.getLsbD 7
/-- V. -/
def Cpu.v (c : Cpu) : Bool := c.f.getLsbD 6
/-- H. -/
def Cpu.h (c : Cpu) : Bool := c.f.getLsbD 4
/-- I, the IRQ mask. -/
def Cpu.i (c : Cpu) : Bool := c.f.getLsbD 3
/-- Z. -/
def Cpu.z (c : Cpu) : Bool := c.f.getLsbD 1
/-- C, carry or no borrow. -/
def Cpu.c (c : Cpu) : Bool := c.f.getLsbD 0

/-- F with N and Z set from an 8-bit result. -/
def setNZ (f : Byte) (r : Byte) : Byte := setBit (setBit f 7 r.msb) 1 (r == 0)

/-- F with N and Z set from a 16-bit result (N is bit 15). -/
def setNZ16 (f : Byte) (r : Word) : Byte := setBit (setBit f 7 r.msb) 1 (r == 0)

/-- F as `POP F` and `RTI` write it: reserved bits 5 and 2 stay 0 (R25). -/
def flagByte (v : Byte) : Byte := v &&& 0xDB

/-! ### Addition and subtraction (R33) -/

/-- The sum of two bytes and a carry in. -/
def addByte (a m : Byte) (ci : Bool) : Byte := a + m + (if ci then 1 else 0)

/-- F after an addition: N, V, H, Z, and C the carry out of bit 7. -/
def addFlags (f a m : Byte) (ci : Bool) : Byte :=
  let r := addByte a m ci
  let k := if ci then 1 else 0
  setBit (setBit (setBit (setNZ f r) 6 (a.msb == m.msb && r.msb != a.msb)) 4
    (decide (16 ≤ a.toNat % 16 + m.toNat % 16 + k))) 0 (decide (256 ≤ a.toNat + m.toNat + k))

/-- The difference of two bytes and a borrow. -/
def subByte (a m : Byte) (borrow : Bool) : Byte := a - m - (if borrow then 1 else 0)

/-- F after a subtraction or compare: N, V, Z, H = 0, and C = 1 if there is no borrow. -/
def subFlags (f a m : Byte) (borrow : Bool) : Byte :=
  let r := subByte a m borrow
  let k := if borrow then 1 else 0
  setBit (setBit (setBit (setNZ f r) 6 (a.msb != m.msb && r.msb != a.msb)) 4 false) 0
    (decide (m.toNat + k ≤ a.toNat))

/-- `ADD`. -/
def Cpu.add (m : Byte) (c : Cpu) : Cpu := { c with a := addByte c.a m false, f := addFlags c.f c.a m false }
/-- `ADC`. -/
def Cpu.adc (m : Byte) (c : Cpu) : Cpu := { c with a := addByte c.a m c.c, f := addFlags c.f c.a m c.c }
/-- `SUB`. -/
def Cpu.sub (m : Byte) (c : Cpu) : Cpu := { c with a := subByte c.a m false, f := subFlags c.f c.a m false }
/-- `SBC`: A − M − (1 − C). -/
def Cpu.sbc (m : Byte) (c : Cpu) : Cpu := { c with a := subByte c.a m !c.c, f := subFlags c.f c.a m !c.c }
/-- `CMP`. -/
def Cpu.cmp (m : Byte) (c : Cpu) : Cpu := { c with f := subFlags c.f c.a m false }
/-- `CPX`. -/
def Cpu.cpx (m : Byte) (c : Cpu) : Cpu := { c with f := subFlags c.f c.x m false }
/-- `CPY`. -/
def Cpu.cpy (m : Byte) (c : Cpu) : Cpu := { c with f := subFlags c.f c.y m false }

/-- F after `CPP` or `CPQ`: N is bit 15 of the difference, Z, and C = 1 if there is no borrow; V and H unchanged. -/
def cmp16Flags (f : Byte) (r w : Word) : Byte := setBit (setNZ16 f (r - w)) 0 (decide (w.toNat ≤ r.toNat))

/-- `CPP`. -/
def Cpu.cpp (w : Word) (c : Cpu) : Cpu := { c with f := cmp16Flags c.f c.p w }
/-- `CPQ`. -/
def Cpu.cpq (w : Word) (c : Cpu) : Cpu := { c with f := cmp16Flags c.f c.q w }

/-! ### Logic, loads, tests (R33) -/

/-- `AND`. -/
def Cpu.and (m : Byte) (c : Cpu) : Cpu := { c with a := c.a &&& m, f := setNZ c.f (c.a &&& m) }
/-- `OR`. -/
def Cpu.or (m : Byte) (c : Cpu) : Cpu := { c with a := c.a ||| m, f := setNZ c.f (c.a ||| m) }
/-- `XOR`. -/
def Cpu.xor (m : Byte) (c : Cpu) : Cpu := { c with a := c.a ^^^ m, f := setNZ c.f (c.a ^^^ m) }
/-- `LDA`. -/
def Cpu.lda (m : Byte) (c : Cpu) : Cpu := { c with a := m, f := setNZ c.f m }
/-- `LDB`. -/
def Cpu.ldb (m : Byte) (c : Cpu) : Cpu := { c with b := m, f := setNZ c.f m }
/-- `LDX`. -/
def Cpu.ldx (m : Byte) (c : Cpu) : Cpu := { c with x := m, f := setNZ c.f m }
/-- `LDY`. -/
def Cpu.ldy (m : Byte) (c : Cpu) : Cpu := { c with y := m, f := setNZ c.f m }
/-- `LDK`. -/
def Cpu.ldk (m : Byte) (c : Cpu) : Cpu := { c with k := m, f := setNZ c.f m }
/-- `LDP`. -/
def Cpu.ldp (w : Word) (c : Cpu) : Cpu := { c with p := w, f := setNZ16 c.f w }
/-- `LDQ`. -/
def Cpu.ldq (w : Word) (c : Cpu) : Cpu := { c with q := w, f := setNZ16 c.f w }
/-- `LDS`. -/
def Cpu.lds (w : Word) (c : Cpu) : Cpu := { c with s := w, f := setNZ16 c.f w }
/-- `TST`: N and Z of M, V and C cleared. -/
def Cpu.tst (m : Byte) (c : Cpu) : Cpu := { c with f := setBit (setBit (setNZ c.f m) 6 false) 0 false }
/-- `BIT`: N and V take bits 7 and 6 of M, Z the test of A and M. -/
def Cpu.bit (m : Byte) (c : Cpu) : Cpu :=
  { c with f := setBit (setBit (setBit c.f 7 (m.getLsbD 7)) 6 (m.getLsbD 6)) 1 ((c.a &&& m) == 0) }

/-! ### Read-modify-write (R33): the byte written and F -/

/-- `INC` of a byte. -/
def rmwInc (m f : Byte) : Byte × Byte := (m + 1, setNZ f (m + 1))
/-- `DEC` of a byte. -/
def rmwDec (m f : Byte) : Byte × Byte := (m - 1, setNZ f (m - 1))
/-- `ASL`: C := b7, b0 := 0. -/
def rmwAsl (m f : Byte) : Byte × Byte := (m <<< 1, setBit (setNZ f (m <<< 1)) 0 (m.getLsbD 7))
/-- `LSR`: C := b0, b7 := 0. -/
def rmwLsr (m f : Byte) : Byte × Byte := (m >>> 1, setBit (setNZ f (m >>> 1)) 0 (m.getLsbD 0))
/-- The byte `ROL` writes: b0 := old C. -/
def rolByte (m f : Byte) : Byte := (m <<< 1) ||| (if f.getLsbD 0 then 1 else 0)
/-- `ROL`: C := b7. -/
def rmwRol (m f : Byte) : Byte × Byte := (rolByte m f, setBit (setNZ f (rolByte m f)) 0 (m.getLsbD 7))
/-- The byte `ROR` writes: b7 := old C. -/
def rorByte (m f : Byte) : Byte := (m >>> 1) ||| (if f.getLsbD 0 then 0x80 else 0)
/-- `ROR`: C := b0. -/
def rmwRor (m f : Byte) : Byte × Byte := (rorByte m f, setBit (setNZ f (rorByte m f)) 0 (m.getLsbD 0))

/-- A read-modify-write operation applied to A. -/
def Cpu.onA (g : Byte → Byte → Byte × Byte) (c : Cpu) : Cpu := { c with a := (g c.a c.f).1, f := (g c.a c.f).2 }

/-! ### Implied operations (R33, R34) -/

/-- `NEG A`: V = 1 if A was $80, H = 0, C = 1 if A was $00. -/
def Cpu.neg (c : Cpu) : Cpu :=
  { c with a := 0 - c.a,
           f := setBit (setBit (setBit (setNZ c.f (0 - c.a)) 6 (c.a == 0x80)) 4 false) 0 (c.a == 0) }
/-- `NOT A`. -/
def Cpu.not (c : Cpu) : Cpu := { c with a := c.a ^^^ 0xFF, f := setNZ c.f (c.a ^^^ 0xFF) }
/-- `INX`. -/
def Cpu.inx (c : Cpu) : Cpu := { c with x := c.x + 1, f := setNZ c.f (c.x + 1) }
/-- `DEX`. -/
def Cpu.dex (c : Cpu) : Cpu := { c with x := c.x - 1, f := setNZ c.f (c.x - 1) }
/-- `INY`. -/
def Cpu.iny (c : Cpu) : Cpu := { c with y := c.y + 1, f := setNZ c.f (c.y + 1) }
/-- `DEY`. -/
def Cpu.dey (c : Cpu) : Cpu := { c with y := c.y - 1, f := setNZ c.f (c.y - 1) }
/-- `INP`: only Z changes. -/
def Cpu.inp (c : Cpu) : Cpu := { c with p := c.p + 1, f := setBit c.f 1 (c.p + 1 == 0) }
/-- `DEP`. -/
def Cpu.dep (c : Cpu) : Cpu := { c with p := c.p - 1, f := setBit c.f 1 (c.p - 1 == 0) }
/-- `INQ`. -/
def Cpu.inq (c : Cpu) : Cpu := { c with q := c.q + 1, f := setBit c.f 1 (c.q + 1 == 0) }
/-- `DEQ`. -/
def Cpu.deq (c : Cpu) : Cpu := { c with q := c.q - 1, f := setBit c.f 1 (c.q - 1 == 0) }
/-- `TAB`. -/
def Cpu.tab (c : Cpu) : Cpu := { c with b := c.a, f := setNZ c.f c.a }
/-- `TBA`. -/
def Cpu.tba (c : Cpu) : Cpu := { c with a := c.b, f := setNZ c.f c.b }
/-- `TAX`. -/
def Cpu.tax (c : Cpu) : Cpu := { c with x := c.a, f := setNZ c.f c.a }
/-- `TXA`. -/
def Cpu.txa (c : Cpu) : Cpu := { c with a := c.x, f := setNZ c.f c.x }
/-- `TAY`. -/
def Cpu.tay (c : Cpu) : Cpu := { c with y := c.a, f := setNZ c.f c.a }
/-- `TYA`. -/
def Cpu.tya (c : Cpu) : Cpu := { c with a := c.y, f := setNZ c.f c.y }
/-- `TAK`. -/
def Cpu.tak (c : Cpu) : Cpu := { c with k := c.a, f := setNZ c.f c.a }
/-- `TKA`. -/
def Cpu.tka (c : Cpu) : Cpu := { c with a := c.k, f := setNZ c.f c.k }
/-- `SWAB`: N and Z of the new A. -/
def Cpu.swab (c : Cpu) : Cpu := { c with a := c.b, b := c.a, f := setNZ c.f c.b }
/-- `TPQ`. -/
def Cpu.tpq (c : Cpu) : Cpu := { c with q := c.p }
/-- `TQP`. -/
def Cpu.tqp (c : Cpu) : Cpu := { c with p := c.q }
/-- `TSP`. -/
def Cpu.tsp (c : Cpu) : Cpu := { c with p := c.s }
/-- `TPS`. -/
def Cpu.tps (c : Cpu) : Cpu := { c with s := c.p }
/-- `ADPA`: P := P + A, A unsigned. -/
def Cpu.adpa (c : Cpu) : Cpu := { c with p := c.p + Word.ofUnsigned c.a }
/-- `LEAP`: P := P + s. -/
def Cpu.leap (w : Word) (c : Cpu) : Cpu := { c with p := c.p + w }
/-- `LEAQ`: Q := Q + s. -/
def Cpu.leaq (w : Word) (c : Cpu) : Cpu := { c with q := c.q + w }
/-- `NOP`, and the register side of instructions that change no register. -/
def Cpu.nop (c : Cpu) : Cpu := c
/-- `CLC`. -/
def Cpu.clc (c : Cpu) : Cpu := { c with f := setBit c.f 0 false }
/-- `SEC`. -/
def Cpu.sec (c : Cpu) : Cpu := { c with f := setBit c.f 0 true }
/-- `CLI`. -/
def Cpu.cli (c : Cpu) : Cpu := { c with f := setBit c.f 3 false }
/-- `SEI`. -/
def Cpu.sei (c : Cpu) : Cpu := { c with f := setBit c.f 3 true }
/-- `CLV`. -/
def Cpu.clv (c : Cpu) : Cpu := { c with f := setBit c.f 6 false }

/-- The low part of the decimal adjustment (R34). -/
def daaLow (c : Cpu) : Bool := decide (9 < c.a.toNat % 16) || c.h
/-- The high part of the decimal adjustment, which sets C (R34). -/
def daaHigh (c : Cpu) : Bool := decide (0x99 < c.a.toNat) || c.c
/-- A after `DAA` (R34). -/
def daaByte (c : Cpu) : Byte := c.a + (if daaLow c then 0x06 else 0) + (if daaHigh c then 0x60 else 0)
/-- `DAA` (R34). -/
def Cpu.daa (c : Cpu) : Cpu :=
  { c with a := daaByte c, f := setBit (setBit (setNZ c.f (daaByte c)) 4 false) 0 (daaHigh c) }

/-! ### Products, quotients and roots (R49, R51, R52) -/

/-- The product `MUL` delivers. -/
def mulProduct (c : Cpu) : Word := BitVec.ofNat 16 (c.a.toNat * c.b.toNat)
/-- The product `MULS` delivers. -/
def mulsProduct (c : Cpu) : Word := BitVec.ofInt 16 (c.a.toInt * c.b.toInt)

/-- Integer square root by successive bits, high to low: `n` bits left to try. -/
def isqrtFrom : Nat → Nat → Nat → Nat
  | 0, _, r => r
  | n + 1, v, r => if (r + 2 ^ n) * (r + 2 ^ n) ≤ v then isqrtFrom n v (r + 2 ^ n) else isqrtFrom n v r

/-- The eight coprocessor operations (R51), in opcode order $F0 to $F7. -/
inductive CopOp where
  | mu16 | ms16 | divu | divs | sq32 | sq16 | mac | cpcl
  deriving DecidableEq, Repr

/-- Latency L in pan-cycles (R51). -/
def CopOp.latency : CopOp → Nat
  | .mu16 => 10 | .ms16 => 10 | .divu => 18 | .divs => 18 | .sq32 => 16 | .sq16 => 12 | .mac => 12 | .cpcl => 10

/-- Low three bits of the opcode (R50). -/
def CopOp.code : CopOp → BitVec 3
  | .mu16 => 0 | .ms16 => 1 | .divu => 2 | .divs => 3 | .sq32 => 4 | .sq16 => 5 | .mac => 6 | .cpcl => 7

/-- Quotient of `DIVU` (R52). -/
def divuQuot (p q : Word) : Nat := if q = 0 then 0xFFFF else p.toNat / q.toNat
/-- Remainder of `DIVU` (R52). -/
def divuRem (p q : Word) : Nat := if q = 0 then p.toNat else p.toNat % q.toNat
/-- Quotient of `DIVS`, truncated toward zero (R51, R52). -/
def divsQuot (p q : Word) : BitVec 16 := if q = 0 then 0xFFFF else BitVec.ofInt 16 (Int.tdiv p.toInt q.toInt)
/-- Remainder of `DIVS`, with the sign of P (R51, R52). -/
def divsRem (p q : Word) : BitVec 16 := if q = 0 then p else BitVec.ofInt 16 (Int.tmod p.toInt q.toInt)
/-- `DIVS` of $8000 by $FFFF overflows (R52). -/
def divsOverflow (p q : Word) : Bool := p == 0x8000 && q == 0xFFFF
/-- The sum `MAC` forms before it is taken modulo 2^48. -/
def macSum (r : BitVec 48) (p q : Word) : Int := r.toInt + p.toInt * q.toInt
/-- Whether that sum overflows 48 signed bits (R52). -/
def macOverflow (r : BitVec 48) (p q : Word) : Bool :=
  decide (macSum r p q < -(2 ^ 47)) || decide (2 ^ 47 ≤ macSum r p q)

/-- The six result bytes R5..R0 an operation delivers, from P, Q and the results at issue (R51, R52). -/
def CopOp.result : CopOp → Word → Word → BitVec 48 → BitVec 48
  | .mu16, p, q, _ => BitVec.ofNat 48 (p.toNat * q.toNat)
  | .ms16, p, q, _ => BitVec.ofInt 48 (p.toInt * q.toInt)
  | .divu, p, q, _ => BitVec.ofNat 48 (divuQuot p q + 65536 * divuRem p q)
  | .divs, p, q, _ => BitVec.ofNat 48 ((divsQuot p q).toNat + 65536 * (divsRem p q).toNat)
  | .sq32, p, q, _ =>
    let v := q.toNat * 65536 + p.toNat
    BitVec.ofNat 48 (isqrtFrom 16 v 0 + 65536 * (v - isqrtFrom 16 v 0 * isqrtFrom 16 v 0))
  | .sq16, p, _, _ =>
    let v := p.toNat
    BitVec.ofNat 48 (isqrtFrom 8 v 0 + 65536 * (v - isqrtFrom 8 v 0 * isqrtFrom 8 v 0))
  | .mac, p, q, r => BitVec.ofInt 48 (macSum r p q)
  | .cpcl, _, _, _ => 0

/-- DZ after an operation (R51, R52). -/
def CopOp.dz : CopOp → Word → Word → Bool → Bool
  | .divu, _, q, _ => q == 0
  | .divs, _, q, _ => q == 0
  | .cpcl, _, _, _ => false
  | _, _, _, old => old

/-- OV after an operation (R51, R52). -/
def CopOp.ov : CopOp → Word → Word → BitVec 48 → Bool → Bool
  | .divu, _, _, _, _ => false
  | .divs, p, q, _, _ => divsOverflow p q
  | .mac, p, q, r, _ => macOverflow r p q
  | .cpcl, _, _, _, _ => false
  | _, _, _, _, old => old

/-! ### Branch conditions (R35) -/

/-- The branch conditions. -/
inductive Cond where
  | always | eq | ne | cs | cc | mi | pl | vs | vc | hi | ls | ge | lt | gt | le
  deriving DecidableEq, Repr

/-- Whether a condition holds (R35). -/
def Cond.holds : Cond → Cpu → Bool
  | .always, _ => true
  | .eq, c => c.z
  | .ne, c => !c.z
  | .cs, c => c.c
  | .cc, c => !c.c
  | .mi, c => c.n
  | .pl, c => !c.n
  | .vs, c => c.v
  | .vc, c => !c.v
  | .hi, c => c.c && !c.z
  | .ls, c => !c.c || c.z
  | .ge, c => c.n == c.v
  | .lt, c => c.n != c.v
  | .gt, c => !c.z && c.n == c.v
  | .le, c => c.z || c.n != c.v

end Sys2Proof.Machine
end

