-- ==== Sys2Proof/Machine/Operands.lean ====
section
/-!
DEFINITION. The opcode map of the Tretan-8 (R32): every operation, what group it belongs to (`Action`), and the byte that
encodes each operation in each operand form (R27). Which pan-cycles a form takes is Machine/Exec.lean's.
-/
namespace Sys2Proof.Machine

/-- The operations of the opcode map, one for each mnemonic of R32. -/
inductive Op where
  | add | adc | sub | sbc | and | or | xor | cmp | cpx | cpy | cpp | cpq
  | lda | sta | ldb | stb | ldx | stx | ldy | sty | ldk | ldp | stp | ldq | stq | lds | mvb
  | inc | dec | asl | lsr | rol | ror | tst | bit | negA | notA
  | inx | dex | iny | dey | inp | dep | inq | deq
  | tab | tba | tax | txa | tay | tya | tak | tka | swab | tpq | tqp | tsp | tps | adpa | leap | leaq | daa | nop
  | branch (c : Cond) | djnz | jmp | call | ret | rti | push (r : StackReg) | pop (r : StackReg)
  | clc | sec | cli | sei | clv | wai | rep | brk | mul | muls | cop (o : CopOp) | hc (n : Fin 8)
  deriving DecidableEq, Repr

/-- The forms of the two-operand ALU instructions, b + 0 to b + 7 (R32). -/
def aluForms : List Mode := [.imm, .dir, .dirX, .abs, .absX, .absY, .indP, .indQ]

/-- One operation in several forms, at consecutive opcodes. -/
def formsFrom (b : Nat) (o : Op) : List Mode → List (Nat × Op × Mode)
  | [] => []
  | m :: ms => (b, o, m) :: formsFrom (b + 1) o ms

/-- Several implied operations at consecutive opcodes. -/
def impliedFrom (b : Nat) : List Op → List (Nat × Op × Mode)
  | [] => []
  | o :: os => (b, o, .implied) :: impliedFrom (b + 1) os

/-- Branches at consecutive opcodes. -/
def branchesFrom (b : Nat) : List Cond → List (Nat × Op × Mode)
  | [] => []
  | c :: cs => (b, .branch c, .rel) :: branchesFrom (b + 1) cs

/-- ALU instructions, $10 to $4F (R32). -/
def aluMap : List (Nat × Op × Mode) :=
  formsFrom 0x10 .add aluForms ++ formsFrom 0x18 .adc aluForms ++ formsFrom 0x20 .sub aluForms ++
  formsFrom 0x28 .sbc aluForms ++ formsFrom 0x30 .and aluForms ++ formsFrom 0x38 .or aluForms ++
  formsFrom 0x40 .xor aluForms ++ formsFrom 0x48 .cmp aluForms

/-- Loads and stores, $50 to $7F and $E8 to $EB. -/
def loadMap : List (Nat × Op × Mode) :=
  formsFrom 0x50 .lda [.imm, .dir, .dirX, .abs, .absX, .absY, .indP, .indQ, .incP, .incQ] ++
  formsFrom 0x5A .sta [.dir, .dirX, .abs, .absX, .absY, .indP, .indQ, .incP, .incQ] ++
  formsFrom 0x63 .ldb [.imm, .dir, .abs] ++ formsFrom 0x66 .stb [.dir, .abs] ++
  formsFrom 0x68 .ldx [.imm, .dir, .abs] ++ formsFrom 0x6B .stx [.dir, .abs] ++
  formsFrom 0x6D .ldy [.imm, .dir, .abs] ++ formsFrom 0x70 .sty [.dir, .abs] ++
  formsFrom 0x72 .ldk [.imm, .dir] ++
  formsFrom 0x74 .ldp [.imm16, .dir, .abs] ++ formsFrom 0x77 .stp [.dir, .abs] ++
  formsFrom 0x79 .ldq [.imm16, .dir, .abs] ++ formsFrom 0x7C .stq [.dir, .abs] ++
  [(0x7E, .lds, .imm16), (0x7F, .mvb, .implied),
   (0xE8, .lda, .indPX), (0xE9, .sta, .indPX), (0xEA, .lda, .indPd), (0xEB, .sta, .indPd)]

/-- Read-modify-write, tests and implied register operations, $80 to $AF. -/
def regMap : List (Nat × Op × Mode) :=
  formsFrom 0x80 .inc [.dir, .abs] ++ formsFrom 0x82 .dec [.dir, .abs] ++ formsFrom 0x84 .asl [.dir, .abs] ++
  formsFrom 0x86 .lsr [.dir, .abs] ++ formsFrom 0x88 .rol [.dir, .abs] ++ formsFrom 0x8A .ror [.dir, .abs] ++
  formsFrom 0x8C .tst [.dir, .abs] ++ formsFrom 0x8E .bit [.dir, .abs] ++
  [(0x90, .inc, .acc), (0x91, .dec, .acc), (0x92, .asl, .acc), (0x93, .lsr, .acc), (0x94, .rol, .acc),
   (0x95, .ror, .acc)] ++
  impliedFrom 0x96 [.negA, .notA, .inx, .dex, .iny, .dey, .inp, .dep, .inq, .deq, .tab, .tba, .tax, .txa, .tay, .tya,
    .tak, .tka, .swab, .tpq, .tqp, .tsp, .tps, .adpa, .daa, .nop]

/-- Control flow, stack, flags and the other instructions, $00, $B0 to $E7, $EC and $F0 to $FF. -/
def ctlMap : List (Nat × Op × Mode) :=
  branchesFrom 0xB0 [.always, .eq, .ne, .cs, .cc, .mi, .pl, .vs, .vc, .hi, .ls, .ge, .lt, .gt, .le] ++
  [(0x00, .brk, .implied), (0xBF, .djnz, .rel),
   (0xC0, .jmp, .abs), (0xC1, .jmp, .memInd), (0xC2, .jmp, .indP), (0xCF, .jmp, .memIndX),
   (0xC3, .call, .abs), (0xC4, .call, .indP), (0xC5, .ret, .implied), (0xC6, .rti, .implied),
   (0xC7, .push .a, .implied), (0xC9, .push .b, .implied), (0xCB, .push .f, .implied), (0xCD, .push .p, .implied),
   (0xD5, .push .x, .implied), (0xDD, .push .q, .implied), (0xE0, .push .y, .implied),
   (0xC8, .pop .a, .implied), (0xCA, .pop .b, .implied), (0xCC, .pop .f, .implied), (0xCE, .pop .p, .implied),
   (0xD6, .pop .x, .implied), (0xDE, .pop .q, .implied), (0xE1, .pop .y, .implied)] ++
  impliedFrom 0xD0 [.clc, .sec, .cli, .sei, .clv] ++
  [(0xD7, .wai, .implied), (0xD8, .rep, .implied),
   (0xD9, .cpx, .imm), (0xDA, .cpx, .dir), (0xDF, .cpx, .abs),
   (0xDB, .cpy, .imm), (0xDC, .cpy, .dir), (0xEC, .cpy, .abs),
   (0xE2, .mul, .implied), (0xE3, .muls, .implied), (0xE4, .leap, .simm), (0xE5, .leaq, .simm),
   (0xE6, .cpp, .imm16), (0xE7, .cpq, .imm16)] ++
  impliedFrom 0xF0 [.cop .mu16, .cop .ms16, .cop .divu, .cop .divs, .cop .sq32, .cop .sq16, .cop .mac, .cop .cpcl,
    .hc 0, .hc 1, .hc 2, .hc 3, .hc 4, .hc 5, .hc 6, .hc 7]

/-- The opcode map (R32): opcode, operation, operand form. -/
def opcodeMap : List (Nat × Op × Mode) := aluMap ++ loadMap ++ regMap ++ ctlMap

/-- The operation and form of an opcode; none is undefined, `ILLEGAL_OP`. -/
def decodeOp (b : Byte) : Option (Op × Mode) :=
  (opcodeMap.find? (fun r => r.1 == b.toNat)).map (fun r => r.2)

/-- The opcode of an operation in a form; none where the map gives none. -/
def encodeOp (o : Op) (m : Mode) : Option Byte :=
  (opcodeMap.find? (fun r => r.2 == (o, m))).map (fun r => BitVec.ofNat 8 r.1)

/-- Operand bytes of a form (R27). -/
def operandBytes : Mode → Nat
  | .implied => 0 | .imm => 1 | .imm16 => 2 | .simm => 1 | .dir => 1 | .dirX => 1 | .abs => 2 | .absX => 2 | .absY => 2
  | .indP => 0 | .indQ => 0 | .incP => 0 | .incQ => 0 | .indPX => 0 | .indPd => 1 | .acc => 0 | .memInd => 2
  | .memIndX => 2 | .rel => 1

/-- Instruction length: one byte and the operand bytes (R32). -/
def instrLength (m : Mode) : Nat := 1 + operandBytes m

/-- The targets `REP` refuses (R47): writers of K, branches, jumps, calls, returns, `BRK`, `REP`, `WAI`, host-calls. -/
def Op.repForbidden : Op → Bool
  | .ldk => true | .tak => true | .branch _ => true | .djnz => true | .jmp => true | .call => true | .ret => true
  | .rti => true | .brk => true | .rep => true | .wai => true | .hc _ => true
  | _ => false

/-- The groups of operations that share a pattern of R28 and differ in what they compute. -/
inductive Action where
  /-- Implied, 8-bit: F. -/
  | reg (f : Cpu → Cpu)
  /-- Implied, 16-bit: F I. -/
  | reg16 (f : Cpu → Cpu)
  /-- Load, ALU, compare, test of a byte. -/
  | load (f : Byte → Cpu → Cpu)
  /-- 16-bit load. -/
  | load16 (f : Word → Cpu → Cpu)
  /-- Store of a byte. -/
  | store (g : Cpu → Byte)
  /-- 16-bit store. -/
  | store16 (g : Cpu → Word)
  /-- Read-modify-write of a byte or of A. -/
  | modify (g : Byte → Byte → Byte × Byte)
  /-- `LEAP`, `LEAQ`: F O I on a sign-extended byte. -/
  | lea (f : Word → Cpu → Cpu)
  /-- `CPP`, `CPQ`: F O O I. -/
  | cmp16 (f : Word → Cpu → Cpu)
  /-- Conditional and unconditional branches. -/
  | branch (c : Cond)
  | djnz | jmp | call | ret | rti
  | push (g : Cpu → Byte)
  | push16 (g : Cpu → Word)
  | pop (f : Byte → Cpu → Cpu)
  | pop16 (f : Word → Cpu → Cpu)
  | mvb | wai | rep | brk
  | mul (g : Cpu → Word)
  | cop (o : CopOp)
  | hc (n : Fin 8)

/-- What `PUSH` does for a register. -/
def pushAction : StackReg → Action
  | .a => .push Cpu.a | .b => .push Cpu.b | .f => .push Cpu.f | .x => .push Cpu.x | .y => .push Cpu.y
  | .p => .push16 Cpu.p | .q => .push16 Cpu.q

/-- What `POP` does for a register: only `POP F` changes flags (R33). -/
def popAction : StackReg → Action
  | .a => .pop (fun v c => { c with a := v }) | .b => .pop (fun v c => { c with b := v })
  | .f => .pop (fun v c => { c with f := flagByte v }) | .x => .pop (fun v c => { c with x := v })
  | .y => .pop (fun v c => { c with y := v })
  | .p => .pop16 (fun w c => { c with p := w }) | .q => .pop16 (fun w c => { c with q := w })

/-- What each operation does (R33 to R38, R44 to R56). -/
def Op.action : Op → Action
  | .add => .load Cpu.add | .adc => .load Cpu.adc | .sub => .load Cpu.sub | .sbc => .load Cpu.sbc
  | .and => .load Cpu.and | .or => .load Cpu.or | .xor => .load Cpu.xor | .cmp => .load Cpu.cmp
  | .cpx => .load Cpu.cpx | .cpy => .load Cpu.cpy | .cpp => .cmp16 Cpu.cpp | .cpq => .cmp16 Cpu.cpq
  | .lda => .load Cpu.lda | .sta => .store Cpu.a | .ldb => .load Cpu.ldb | .stb => .store Cpu.b
  | .ldx => .load Cpu.ldx | .stx => .store Cpu.x | .ldy => .load Cpu.ldy | .sty => .store Cpu.y
  | .ldk => .load Cpu.ldk | .ldp => .load16 Cpu.ldp | .stp => .store16 Cpu.p | .ldq => .load16 Cpu.ldq
  | .stq => .store16 Cpu.q | .lds => .load16 Cpu.lds | .mvb => .mvb
  | .inc => .modify rmwInc | .dec => .modify rmwDec | .asl => .modify rmwAsl | .lsr => .modify rmwLsr
  | .rol => .modify rmwRol | .ror => .modify rmwRor | .tst => .load Cpu.tst | .bit => .load Cpu.bit
  | .negA => .reg Cpu.neg | .notA => .reg Cpu.not | .inx => .reg Cpu.inx | .dex => .reg Cpu.dex
  | .iny => .reg Cpu.iny | .dey => .reg Cpu.dey | .inp => .reg16 Cpu.inp | .dep => .reg16 Cpu.dep
  | .inq => .reg16 Cpu.inq | .deq => .reg16 Cpu.deq
  | .tab => .reg Cpu.tab | .tba => .reg Cpu.tba | .tax => .reg Cpu.tax | .txa => .reg Cpu.txa | .tay => .reg Cpu.tay
  | .tya => .reg Cpu.tya | .tak => .reg Cpu.tak | .tka => .reg Cpu.tka | .swab => .reg Cpu.swab
  | .tpq => .reg16 Cpu.tpq | .tqp => .reg16 Cpu.tqp | .tsp => .reg16 Cpu.tsp | .tps => .reg16 Cpu.tps
  | .adpa => .reg16 Cpu.adpa | .leap => .lea Cpu.leap | .leaq => .lea Cpu.leaq
  | .daa => .reg Cpu.daa | .nop => .reg Cpu.nop
  | .branch c => .branch c | .djnz => .djnz | .jmp => .jmp | .call => .call | .ret => .ret | .rti => .rti
  | .push r => pushAction r | .pop r => popAction r
  | .clc => .reg Cpu.clc | .sec => .reg Cpu.sec | .cli => .reg Cpu.cli | .sei => .reg Cpu.sei | .clv => .reg Cpu.clv
  | .wai => .wai | .rep => .rep | .brk => .brk
  | .mul => .mul mulProduct | .muls => .mul mulsProduct
  | .cop o => .cop o | .hc n => .hc n

/-! ### Effective addresses (R27) -/

/-- The address a data access in a form names, from the operand bytes; forms without one name address 0. -/
def effAddr (m : Mode) (c : Cpu) (opd : Word) : Word :=
  match m with
  | .dir => Word.ofUnsigned opd.lo
  | .dirX => Word.ofUnsigned (opd.lo + c.x)
  | .abs => opd
  | .absX => opd + Word.ofUnsigned c.x
  | .absY => opd + Word.ofUnsigned c.y
  | .indP => c.p
  | .indQ => c.q
  | .incP => c.p
  | .incQ => c.q
  | .indPX => c.p + Word.ofUnsigned c.x
  | .indPd => c.p + Word.ofSigned opd.lo
  | .memInd => opd
  | .memIndX => opd + Word.ofUnsigned c.x + Word.ofUnsigned c.x
  | _ => 0

/-- The post-increment of the forms [P+] and [Q+], after the access (R27). -/
def postInc (m : Mode) (c : Cpu) : Cpu :=
  match m with
  | .incP => { c with p := c.p + 1 }
  | .incQ => { c with q := c.q + 1 }
  | _ => c

end Sys2Proof.Machine
end

