-- ==== Sys2Proof/Machine/PanOps.lean ====
section
/-!
DEFINITION. The shared operations on a pan image that raise, capture and arm: beam position (R100), the interrupt
controller's evaluation (R154), raises (R151), captures (R147), DMA units coming due (R80) and the events handed to the
device.
-/
namespace Sys2Proof.Machine

/-! ### Changing one part of the image -/

/-- The image with its processor registers changed. -/
def Pan.modCpu (f : Cpu → Cpu) (p : Pan) : Pan := { p with cpu := f p.cpu }
/-- The image with its processor's running state changed. -/
def Pan.modCore (f : Core → Core) (p : Pan) : Pan := { p with core := f p.core }
/-- The image with its interrupt controller changed. -/
def Pan.modIc (f : Ic → Ic) (p : Pan) : Pan := { p with ic := f p.ic }
/-- The image with its raster registers changed. -/
def Pan.modRas (f : Raster → Raster) (p : Pan) : Pan := { p with ras := f p.ras }
/-- The image with its sound changed. -/
def Pan.modSnd (f : Sound → Sound) (p : Pan) : Pan := { p with snd := f p.snd }
/-- The image with its sample voice changed. -/
def Pan.modS0 (f : S0 → S0) (p : Pan) : Pan := { p with snd := { p.snd with s0 := f p.snd.s0 } }
/-- The image with one voice changed. -/
def Pan.modVoice (k : Fin 7) (f : Voice → Voice) (p : Pan) : Pan := { p with snd := { p.snd with v := vmod p.snd.v k f } }
/-- The image with one timer changed. -/
def Pan.modTm (n : Fin 4) (f : Timer → Timer) (p : Pan) : Pan := { p with tm := vmod p.tm n f }
/-- The image with one DMA channel changed. -/
def Pan.modDma (n : Fin 4) (f : Dma → Dma) (p : Pan) : Pan := { p with dma := vmod p.dma n f }
/-- The image with its system registers changed. -/
def Pan.modSys (f : SysRegs → SysRegs) (p : Pan) : Pan := { p with sys := f p.sys }
/-- The image with its CRC unit changed. -/
def Pan.modCrc (f : Crc → Crc) (p : Pan) : Pan := { p with crc := f p.crc }
/-- The image with its mailbox changed. -/
def Pan.modMb (f : Mailbox → Mailbox) (p : Pan) : Pan := { p with mb := f p.mb }
/-- The image with its host-call registers changed. -/
def Pan.modHc (f : HostCall → HostCall) (p : Pan) : Pan := { p with hc := f p.hc }
/-- The image with one input slot changed. -/
def Pan.modSlot (k : Fin 16) (f : InSlot → InSlot) (p : Pan) : Pan := { p with slots := vmod p.slots k f }
/-- One pan-cycle of virtual time passes. -/
def Pan.spend (p : Pan) : Pan := { p with clk := p.clk + 1 }
/-- Something handed to the device. -/
def Pan.send (o : PanOut) (p : Pan) : Pan := { p with out := p.out ++ [o] }

/-! ### Beam position (R98, R100) -/

/-- Pan-cycles per line. -/
def Pan.cpl (p : Pan) : Nat := Config.cpl p.cfg.profile
/-- Active dots per line. -/
def Pan.hActive (p : Pan) : Nat := Config.hActive p.cfg.profile
/-- Active lines. -/
def Pan.vActive (p : Pan) : Nat := Config.vActive p.cfg.profile
/-- The pan-cycle within the frame of the pan-cycle that is next to run. -/
def Pan.frameCyc (p : Pan) : Nat := p.clk - p.frameStart
/-- The line of that pan-cycle. -/
def Pan.line (p : Pan) : Nat := p.frameCyc / p.cpl
/-- Its pan-cycle within the line. -/
def Pan.lineCyc (p : Pan) : Nat := p.frameCyc % p.cpl
/-- A number noted in a list once. -/
def noteOnce (g : Nat) (l : List Nat) : List Nat := if l.contains g then l else g :: l
/-- A grain of the slot image has been written, whatever was written: it is dirty, and a VRAM grain counts for the crust (R184, R248). -/
def Pan.markGrain (g : Nat) (p : Pan) : Pan :=
  { p with dirty := noteOnce g p.dirty,
           crust := if 144 ≤ g ∧ g < 400 then { p.crust with written := noteOnce (g - 144) p.crust.written } else p.crust }
/-- The image as DRAM or a snapshot holds it: handed on, clean, without the crust (R184, R249). -/
def Pan.stored (p : Pan) : Pan := { p with out := [], dirty := [], crust := Crust.empty }
/-- Frame and pan-cycle within the frame of the pan-cycle that has just run, for log records. -/
def Pan.lastCyc (p : Pan) : Nat := p.clk - 1 - p.frameStart

/-! ### The interrupt controller (R151, R154) -/

/-- The sources that can be raised: 1 to 23, 30 and 31. -/
def icSources : BitVec 32 := 0xC0FFFFFE

/-- The running priority: that of the top entry, if any (R152). -/
def Ic.runPri (c : Ic) : Option Nat := c.stack.head?.map (fun e => e.2)

/-- Priority of a source. -/
def Ic.priOf (c : Ic) (s : Fin 32) : Nat := c.pri[s].toNat

/-- The hold-off group of a source. -/
def icGroup (s : Fin 32) : Fin 4 := ⟨s.val / 8, by omega⟩

/-- Whether a source's priority exceeds the running one. -/
def Ic.above (c : Ic) (s : Fin 32) : Bool :=
  match c.runPri with
  | none => true
  | some r => decide (r < c.priOf s)

/-- R154: a source is eligible in the pan-cycle numbered `clk`. -/
def Ic.eligible (c : Ic) (clk : Nat) (s : Fin 32) : Bool :=
  c.pend.getLsbD s && c.en.getLsbD s && !c.act.getLsbD s && decide (c.holdAt[icGroup s] ≤ clk) && c.above s

/-- One source considered after those of lower number: the higher priority wins, equal priorities the lower number. -/
def Ic.better (c : Ic) (clk : Nat) (best : Option (Fin 32)) (s : Fin 32) : Option (Fin 32) :=
  if c.eligible clk s then
    match best with
    | none => some s
    | some b => if c.priOf b < c.priOf s then some s else some b
  else best

/-- R154: the winner, if a source is eligible. -/
def Ic.winner (c : Ic) (clk : Nat) : Option (Fin 32) :=
  (List.finRange 32).foldl (c.better clk) none

/-- A raise sets PEND; sources that are never raised stay clear (R151). -/
def Ic.raise (s : Nat) (c : Ic) : Ic := { c with pend := c.pend ||| ((1#32 <<< s) &&& icSources) }

/-- PEND of a source set in the image. -/
def Pan.pendSrc (s : Nat) (p : Pan) : Pan := p.modIc (Ic.raise s)

/-! ### Ownership by S0 (R82, R150) -/

/-- S0 owns TM3 and channel 3: enabled with timer pacing. -/
def Pan.owned (p : Pan) : Bool := p.snd.s0.ctl.getLsbD 7 && p.snd.s0.ctl.getLsbD 6

/-! ### Timer counting (R138, R140, R141) -/

/-- Divisor of a PRE code. -/
def preDivisor : Nat → Nat
  | 0 => 1 | 1 => 2 | 2 => 4 | 3 => 8 | 4 => 16 | 5 => 64 | 6 => 256 | _ => 1024

/-- RUN. -/
def Timer.run (t : Timer) : Bool := t.ctl.getLsbD 7
/-- CLK. -/
def Timer.clkSel (t : Timer) : Nat := bits t.ctl 5 4
/-- The divisor selected by PRE. -/
def Timer.divisor (t : Timer) : Nat := preDivisor (bits t.ctl 2 0)
/-- SELF. -/
def Timer.self (t : Timer) : Nat := bits t.act 7 6
/-- LINK. -/
def Timer.link (t : Timer) : Nat := bits t.act 5 4

/-- A chain tick of TM3 comes by the end of the pan-cycle that takes the count to `clk`, for the CLK that is in force in it
(R138, R145). -/
def Timer.chained (t : Timer) (clk : Nat) : Bool :=
  t.chain.any (fun c => decide (c.1 ≤ clk) && ((c.2.1 && t.clkSel == 3) || (c.2.2 && t.clkSel == 2)))

/-- A tick is due at the end of the pan-cycle that takes the count of pan-cycles to `clk`. -/
def Timer.due (t : Timer) (clk : Nat) : Bool :=
  t.run && (t.tickDue || t.chained clk || (decide (t.clkSel = 0) && decide (t.preAt + t.divisor ≤ clk)))

/-- The count after a tick: CLEAR loads $0000 where the count equals the compare value (R141). -/
def Timer.nextCnt (t : Timer) : Word := if t.self = 1 ∧ t.cnt = t.cmp then 0 else t.cnt + 1

/-- A tick brings the counter to the compare value from a different one, or CLEAR with compare value $0000 (R140). -/
def Timer.tickMatches (t : Timer) : Bool := t.nextCnt == t.cmp && (t.cnt != t.cmp || t.self == 1)

/-- A tick or CLEAR load takes the counter from $FFFF to $0000 (R142). -/
def Timer.tickWraps (t : Timer) : Bool := t.cnt == 0xFFFF && t.nextCnt == 0

/-- FREEZE acts: the pan is HALTED and stepped (R149). -/
def Pan.frozen (p : Pan) (n : Fin 4) : Bool := p.stepping && (p.tm[n]).dbg.getLsbD 7

/-- The linked timer, and the one whose previous timer this is (R136). -/
def nextTimer (n : Fin 4) : Fin 4 := n + 1

/-- The events chosen for the pan-cycle that takes the count to `clk` are dealt with. -/
def Timer.quiet (clk : Nat) (t : Timer) : Timer :=
  { t with tickDue := false, chain := t.chain.filter (fun c => decide (clk < c.1)) }

/-- A tick counted: CNT moves, and the arrival at the compare value and the wrap wait for their consequences. -/
def Timer.ticked (clk : Nat) (t : Timer) : Timer :=
  { t.quiet clk with cnt := t.nextCnt, hit := t.hit || t.tickMatches, wrap := t.wrap || t.tickWraps,
                     preAt := if t.tickDue || t.chained clk then t.preAt else t.preAt + t.divisor }

/-- An overflow or a match of the previous timer is a tick, in the same pan-cycle, of a running timer that selects it (R138,
R145). -/
def Timer.chainFrom (matched wrapped : Bool) (t : Timer) : Timer :=
  if t.run && ((matched && t.clkSel == 3) || (wrapped && t.clkSel == 2)) then { t with tickDue := true } else t

/-- An overflow or a match of TM3 at the count `clk` reaches TM0 at the end of the next pan-cycle, whose own RUN and CLK decide
(R138, R145). -/
def Timer.chainLater (clk : Nat) (matched wrapped : Bool) (t : Timer) : Timer :=
  if matched || wrapped then { t with chain := t.chain ++ [(clk + 1, matched, wrapped)] } else t

/-- A chain tick or linked action of TM2 aimed at an owned TM3 is ignored (R150). -/
def Pan.shielded (p : Pan) (n : Fin 4) : Bool := n == 3 && p.owned

/-- The chain tick that a tick of timer n, with its match and wrap, gives the next timer. -/
def Pan.chainTick (n : Fin 4) (matched wrapped : Bool) (p : Pan) : Pan :=
  if n = 3 then p.modTm 0 (Timer.chainLater p.clk matched wrapped)
  else if p.shielded (nextTimer n) then p else p.modTm (nextTimer n) (Timer.chainFrom matched wrapped)

/-- The tick of timer n that is due at the end of the pan-cycle just run, with the chain tick it gives the next timer; a
frozen or stopped timer stands still and lets the tick pass (R138, R145, R149). -/
def Pan.timerTick (n : Fin 4) (p : Pan) : Pan :=
  let t := p.tm[n]
  if p.frozen n || !t.due p.clk then p.modTm n (Timer.quiet p.clk)
  else (p.modTm n (Timer.ticked p.clk)).chainTick n t.tickMatches t.tickWraps

/-- An operation over the four timers or channels in order. -/
def forFour (f : Fin 4 → Pan → Pan) (p : Pan) : Pan := f 3 (f 2 (f 1 (f 0 p)))

/-- The count of timer n as captures see it: after every tick of the pan-cycle just run, those still to be made too (R146,
R147). -/
def Pan.countAfter (p : Pan) (n : Fin 4) : Word := ((forFour Pan.timerTick p).tm[n]).cnt

/-! ### Captures (R147) -/

/-- One timer captures a count, at the end of the pan-cycle that takes the count of pan-cycles to `e`. -/
def Timer.capture (e : Nat) (v : Word) (t : Timer) : Timer :=
  { t with cap := v, capOvr := t.capOvr || t.capNew, capNew := true, capAt := e }

/-- A timer captures at the end of the pan-cycle just run, once per pan-cycle, and raises source 8 + n under CAPIRQ. -/
def Pan.capture (n : Fin 4) (p : Pan) : Pan :=
  if p.frozen n || (p.tm[n]).capAt == p.clk then p
  else
    let q := p.modTm n (Timer.capture p.clk (p.countAfter n))
    if (p.tm[n]).irq.getLsbD 0 && !(n == 3 && p.owned) then q.pendSrc (8 + n.val) else q

/-- The SRC code that selects a source's raise (R136); 0 selects nothing. -/
def captureCode : Nat → Nat
  | 3 => 1 | 1 => 2 | 17 => 3 | 2 => 4 | 6 => 5 | _ => 0

/-- Every timer whose SRC selects a code captures. -/
def Pan.captureAll (code : Nat) (p : Pan) : Pan :=
  (List.finRange 4).foldl
    (fun q n => if code ≠ 0 ∧ (q.tm[n]).capSrc.toNat = code then q.capture n else q) p

/-- A source is raised at the end of the pan-cycle that has just run: PEND sets and the captures it selects are made. -/
def Pan.raise (s : Nat) (p : Pan) : Pan := (p.captureAll (captureCode s)).pendSrc s

/-! ### DMA addresses and units (R77, R78, R80) -/

/-- Width in bits of a space. -/
def spaceWidth : Nat → Nat
  | 0 => 16 | 1 => 16 | 2 => 22 | _ => 24

/-- An address within its space. -/
def spaceAddr (space : Nat) (a : BitVec 24) : Nat := a.toNat % 2 ^ spaceWidth space

/-- An address advanced by a step code, wrapping modulo the space size; the bits above the space's width, which are ignored,
stay as written. -/
def stepAddr (space code : Nat) (a : BitVec 24) : BitVec 24 :=
  let w := 2 ^ spaceWidth space
  let above := a.toNat / w * w
  match code with
  | 0 => BitVec.ofNat 24 (above + (spaceAddr space a + 1) % w)
  | 2 => BitVec.ofNat 24 (above + (spaceAddr space a + w - 1) % w)
  | _ => a

/-- Whether R78 refuses an address: an I/O address other than OAM, the palette and the wave tables, in space 0. -/
def refusedAddr (space : Nat) (a : BitVec 24) : Bool :=
  let x := spaceAddr space a
  decide (space = 0) && decide (0xE000 ≤ x) && decide (x < 0xF000) && !(decide (0xE800 ≤ x)) &&
    !(decide (0xE400 ≤ x) && decide (x < 0xE500))

/-- SSPACE. -/
def Dma.sspace (d : Dma) : Nat := bits d.mode 7 6
/-- DSPACE. -/
def Dma.dspace (d : Dma) : Nat := bits d.mode 5 4
/-- SSTEP. -/
def Dma.sstep (d : Dma) : Nat := bits d.mode 3 2
/-- DSTEP. -/
def Dma.dstep (d : Dma) : Nat := bits d.mode 1 0
/-- TRIG. -/
def Dma.trigCode (d : Dma) : Nat := bits d.trig 2 0
/-- LEN, 0 meaning 65,536. -/
def Dma.length (d : Dma) : Nat := if d.len = 0 then 65536 else d.len.toNat
/-- UNIT, 0 meaning 256. -/
def Dma.unitLen (d : Dma) : Nat := if d.unit = 0 then 256 else d.unit.toNat

/-- Whether the channel's next byte is refused: its source, or its destination unless it feeds the FIFO. -/
def Dma.refused (d : Dma) (owned : Bool) : Bool :=
  refusedAddr d.sspace d.src || (!owned && refusedAddr d.dspace d.dst)

/-- The channel stops on a refused byte: ERR sets and BUSY clears, no interrupt (R78). -/
def Dma.stopErr (d : Dma) : Dma := { d with err := true, busy := false, rem := 0, unitLeft := 0, held := none }

/-- A unit of `k` bytes becomes pending; a refused first byte stops the channel at once (R78, R80). -/
def Dma.arm (k : Nat) (d : Dma) : Dma := if d.refused false then d.stopErr else { d with unitLeft := k }

/-- A trigger reaches a channel (R80): OVR while a unit is pending or moving, else a unit of min(UNIT, REM) bytes; with the
last byte of LEN moved there is none. -/
def Dma.trigger (d : Dma) : Dma :=
  if !d.busy || d.rem == 0 then d
  else if d.unitLeft ≠ 0 then { d with ovr := true }
  else d.arm (min d.unitLen d.rem)

/-- A trigger with a code reaches every channel that selects it; a channel S0 owns takes none. -/
def Pan.dmaTrigger (sel : Dma → Bool) (p : Pan) : Pan :=
  (List.finRange 4).foldl
    (fun q n => if sel q.dma[n] && !(n == 3 && q.owned) then q.modDma n Dma.trigger else q) p

/-! ### Events handed to the device (R97, R199, R346) -/

/-- Frame, pan-cycle in the frame and FRAME_COUNT of a position (R71, R344). -/
def Pan.position (p : Pan) (cyc : Nat) : List Byte := leBytes 4 p.frame ++ leBytes 4 cyc ++ leBytes 4 p.sys.frameCount.toNat

/-- The processor faults: cause and address of the instruction's first byte are recorded, and the device is told (R60). -/
def Pan.faultWith (cause : Byte) (pc : Word) (p : Pan) : Pan :=
  ((p.modCpu (fun c => { c with pc := pc })).modCore
    (fun k => { k with fault := cause, cyc := 0, opc := 0, opd := 0, ea := 0, tmp := 0, rep := false, undo := [] })).send
      (.fault cause pc)

end Sys2Proof.Machine
end

