-- ==== Sys2Proof/Machine/RasterRegs.lean ====
section
/-!
DEFINITION. The raster registers and the palette as bytes of the I/O map (R102 to R104, R108, R111, R114, R115, R117,
R122, R123, R126, R131, R134): pairs with their holding bytes, frame-scope shadows, line-scope writes and their effect
dots. Offsets are counted from $E000.
-/
namespace Sys2Proof.Machine

/-- Offsets of the _L bytes of the register pairs in $E000-$E0FF (R104). -/
def rasPairs : List Nat :=
  [0x0C, 0x0E, 0x14, 0x16, 0x24, 0x26, 0x34, 0x36, 0x44, 0x46, 0x54, 0x56, 0x74, 0x77, 0x79, 0x7B, 0x7D, 0x7F, 0x81, 0x83,
   0x85] ++ [0x90, 0x94, 0x96, 0x98, 0xA0, 0xA4, 0xA6, 0xA8, 0xB0, 0xB4, 0xB6, 0xB8, 0xC0, 0xC4, 0xC6, 0xC8]

/-- The line-scope single registers, `LAYER_EN` to `BLEND_5` (R102). -/
def isLineByte (o : Nat) : Bool := decide (o < 8)

/-- The line-scope pairs, by their _L byte: the scroll registers (R102). -/
def isLinePair (o : Nat) : Bool := [0x24, 0x26, 0x34, 0x36, 0x44, 0x46, 0x54, 0x56].contains o

/-- Layer of an offset in $20 to $5F, channel of an offset in $90 to $CF. -/
def quarter (o base : Nat) : Fin 4 := ⟨((o - base) / 16) % 4, by omega⟩

/-! ### Line-scope registers (R107, R115, R123) -/

/-- A line-scope byte register. -/
def LineRegs.get8 (r : LineRegs) (o : Nat) : Byte :=
  match o with
  | 0 => r.layerEn | 1 => r.blendCtl | 2 => r.blend[0] | 3 => r.blend[1] | 4 => r.blend[2] | 5 => r.blend[3]
  | 6 => r.blend[4] | 7 => r.blend[5] | _ => 0

/-- A scroll pair. -/
def LineRegs.get16 (r : LineRegs) (o : Nat) : Word :=
  if o % 16 = 4 then (r.scx[quarter o 0x20]).setWidth 16 else (r.scy[quarter o 0x20]).setWidth 16

/-- A line-scope write moved into the registers: `a` is the offset of the register or of its _L byte. -/
def LineRegs.move (a : Nat) (w : Word) (r : LineRegs) : LineRegs :=
  match a with
  | 0 => { r with layerEn := w.lo &&& 0x3F }
  | 1 => { r with blendCtl := w.lo &&& 0x80 }
  | 2 => { r with blend := r.blend.set 0 (w.lo &&& 0x1F) }
  | 3 => { r with blend := r.blend.set 1 (w.lo &&& 0x1F) }
  | 4 => { r with blend := r.blend.set 2 (w.lo &&& 0x1F) }
  | 5 => { r with blend := r.blend.set 3 (w.lo &&& 0x1F) }
  | 6 => { r with blend := r.blend.set 4 (w.lo &&& 0x1F) }
  | 7 => { r with blend := r.blend.set 5 (w.lo &&& 0x1F) }
  | _ =>
    if a % 16 = 4 then { r with scx := vmod r.scx (quarter a 0x20) (fun _ => w.setWidth 9) }
    else { r with scy := vmod r.scy (quarter a 0x20) (fun _ => w.setWidth 9) }

/-- The processor or DMA writes the register of an address in pan-cycle `c`, so that a raster table's write of that pan-cycle,
which R107 applies before it, is not the most recent one (R108). -/
def Raster.outranked (c rank a : Nat) (r : Raster) : Bool :=
  decide (rank < 4) && r.lineQ.any (fun w => w.rank == 4 && w.addr == a && w.made == c)

/-- A line-scope write made in pan-cycle `c` is recorded: the written value changes at once (R108), the value in force at its
dot (R107). -/
def Pan.lineWrite (c dot rank a : Nat) (w : Word) (p : Pan) : Pan :=
  p.modRas (fun r =>
    let q := r.lineQ ++ [⟨dot, rank, a, w, c⟩]
    if 0xC00 ≤ a then { r with palW := Memory.writeBytes r.palW (a - 0xC00) [w.lo, w.hi], lineQ := q }
    else { r with lineW := if r.outranked c rank a then r.lineW else r.lineW.move a w, lineQ := q })

/-! ### Frame-scope registers (R103) -/

/-- A frame-scope byte register. -/
def FrameRegs.get8 (r : FrameRegs) (o : Nat) : Byte :=
  if 0x20 ≤ o ∧ o < 0x60 then
    match o % 16 with
    | 0 => r.tCtl[quarter o 0x20] | 1 => r.tMap[quarter o 0x20] | 2 => r.tTile[quarter o 0x20] | _ => 0
  else if 0x90 ≤ o ∧ o < 0xD0 then
    match o % 16 with
    | 2 => (r.rt[quarter o 0x90]).tgt | 3 => (r.rt[quarter o 0x90]).ctl | _ => 0
  else match o with
    | 0x18 => r.vblankMin | 0x60 => r.sprTile | 0x70 => r.mvCtl | 0xD0 => r.staticMask | _ => 0

/-- A frame-scope pair, by its _L byte. -/
def FrameRegs.get16 (r : FrameRegs) (o : Nat) : Word :=
  if 0x90 ≤ o ∧ o < 0xD0 then
    match o % 16 with
    | 0 => (r.rt[quarter o 0x90]).addr | 4 => ((r.rt[quarter o 0x90]).line).setWidth 16
    | 6 => ((r.rt[quarter o 0x90]).count).setWidth 16 | 8 => ((r.rt[quarter o 0x90]).cyc).setWidth 16 | _ => 0
  else match o with
    | 0x14 => r.vtotal.setWidth 16 | 0x16 => r.vtotalMax.setWidth 16 | 0x74 => r.mvBase.setWidth 16
    | 0x77 => r.mvSw.setWidth 16 | 0x79 => r.mvSh.setWidth 16 | 0x7B => r.mvX.setWidth 16 | 0x7D => r.mvY.setWidth 16
    | 0x7F => r.mvOw.setWidth 16 | 0x81 => r.mvOh.setWidth 16 | 0x83 => r.mvStepX | 0x85 => r.mvStepY | _ => 0

/-- A write to a frame-scope byte register; reserved bits stay 0. -/
def FrameRegs.set8 (o : Nat) (v : Byte) (r : FrameRegs) : FrameRegs :=
  if 0x20 ≤ o ∧ o < 0x60 then
    match o % 16 with
    | 0 => { r with tCtl := vmod r.tCtl (quarter o 0x20) (fun _ => if o < 0x40 then v &&& 0xE0 else v &&& 0xC0) }
    | 1 => { r with tMap := vmod r.tMap (quarter o 0x20) (fun _ => v &&& 0x1F) }
    | 2 => { r with tTile := vmod r.tTile (quarter o 0x20) (fun _ => v &&& 0x07) }
    | _ => r
  else if 0x90 ≤ o ∧ o < 0xD0 then
    match o % 16 with
    | 2 => { r with rt := vmod r.rt (quarter o 0x90) (fun c => { c with tgt := v }) }
    | 3 => { r with rt := vmod r.rt (quarter o 0x90) (fun c => { c with ctl := v &&& 0xE0 }) }
    | _ => r
  else match o with
    | 0x18 => { r with vblankMin := v }
    | 0x60 => { r with sprTile := v &&& 0x07 }
    | 0x70 => { r with mvCtl := v &&& 0xF3 }
    | 0xD0 => { r with staticMask := v &&& 0x0F }
    | _ => r

/-- A move into a frame-scope pair. -/
def FrameRegs.set16 (o : Nat) (w : Word) (r : FrameRegs) : FrameRegs :=
  if 0x90 ≤ o ∧ o < 0xD0 then
    match o % 16 with
    | 0 => { r with rt := vmod r.rt (quarter o 0x90) (fun c => { c with addr := w }) }
    | 4 => { r with rt := vmod r.rt (quarter o 0x90) (fun c => { c with line := w.setWidth 10 }) }
    | 6 => { r with rt := vmod r.rt (quarter o 0x90) (fun c => { c with count := w.setWidth 10 }) }
    | 8 => { r with rt := vmod r.rt (quarter o 0x90) (fun c => { c with cyc := w.setWidth 9 }) }
    | _ => r
  else match o with
    | 0x14 => { r with vtotal := w.setWidth 10 }
    | 0x16 => { r with vtotalMax := w.setWidth 10 }
    | 0x74 => { r with mvBase := w.setWidth 14 }
    | 0x77 => { r with mvSw := w.setWidth 10 }
    | 0x79 => { r with mvSh := w.setWidth 10 }
    | 0x7B => { r with mvX := w.setWidth 10 }
    | 0x7D => { r with mvY := w.setWidth 10 }
    | 0x7F => { r with mvOw := w.setWidth 10 }
    | 0x81 => { r with mvOh := w.setWidth 10 }
    | 0x83 => { r with mvStepX := w }
    | 0x85 => { r with mvStepY := w }
    | _ => r

/-! ### Reads (R103, R108, R111, R122, R126, R131) -/

/-- The value of a pair as reads return it: the value last moved. -/
def Raster.pair (r : Raster) (o : Nat) : Word :=
  if o = 0x0C then r.linecmp.setWidth 16
  else if o = 0x0E then r.linecmpCyc.setWidth 16
  else if isLinePair o then r.lineW.get16 o
  else r.shadow.get16 o

/-- `RSTAT` (R111). -/
def Pan.rstat (p : Pan) : Byte :=
  setBit (setBit (setBit 0 7 (decide (p.vActive ≤ p.line))) 6 (decide (p.hActive / 2 ≤ p.lineCyc))) 5 p.ras.armed.isSome

/-- `MV_STAT` (R126). -/
def Raster.mvStat (r : Raster) : Byte :=
  setBit (setBit (setBit (r.shown.setWidth 8) 2 r.mvOff) 6 r.mvWaited) 7 r.mvLate

/-- The byte a read of a raster register returns. -/
def Pan.rasRead (p : Pan) (o : Nat) : Byte :=
  if rasPairs.contains o then (p.ras.pair o).lo
  else if rasPairs.contains (o - 1) && decide (o ≠ 0) then (p.ras.pair (o - 1)).hi
  else if isLineByte o then p.ras.lineW.get8 o
  else match o with
    | 0x08 => BitVec.ofNat 8 p.lineCyc
    | 0x09 => BitVec.ofNat 8 (bits p.ras.beamLatch 7 0)
    | 0x0A => BitVec.ofNat 8 (bits p.ras.beamLatch 15 8)
    | 0x0B => BitVec.ofNat 8 (bits p.ras.beamLatch 23 16)
    | 0x10 => p.rstat
    | 0x61 => setBit (setBit 0 7 p.ras.coll) 6 p.ras.ovf
    | 0x62 => p.ras.collA.setWidth 8
    | 0x63 => p.ras.collB.setWidth 8
    | 0x64 => p.ras.ovfNum.setWidth 8
    | 0x71 => p.ras.ready.setWidth 8
    | 0x72 => p.ras.auto
    | 0x73 => p.ras.mvStat
    | _ =>
      if 0x90 ≤ o ∧ o < 0xD0 ∧ o % 16 = 10 then
        setBit (setBit 0 7 p.ras.rtDone[quarter o 0x90]) 6 p.ras.rtErr[quarter o 0x90]
      else p.ras.shadow.get8 o

/-- A read of `BEAM_0` latches the rest of the beam position of the reading pan-cycle (R111). -/
def Pan.beamLatched (p : Pan) : Pan :=
  p.modRas (fun r => { r with beamLatch := BitVec.ofNat 24 (p.lineCyc / 256 + 256 * (p.line % 1024)) })

/-- A read of `SPR_STAT` clears OVF and COLL at the end of the reading pan-cycle (R122). -/
def Pan.sprStatCleared (p : Pan) : Pan := p.modRas (fun r => { r with coll := false, ovf := false })

/-! ### Writes -/

/-- Movie buffers become ready: source 22 is raised when a bit goes from 0 to 1 (R110, R129). -/
def Pan.mvReady (new : BitVec 4) (p : Pan) : Pan :=
  let q := p.modRas (fun r => { r with ready := new })
  if anyBit new (~~~ p.ras.ready) then q.pendSrc 22 else q

/-- The end of `RTn_STAT`'s W1C bits being written. -/
def Raster.rtStatWrite (n : Fin 4) (v : Byte) (r : Raster) : Raster :=
  { r with rtDone := vmod r.rtDone n (fun b => b && !v.getLsbD 7), rtErr := vmod r.rtErr n (fun b => b && !v.getLsbD 6) }

/-- A pair moves: LINECMP and LINECMP_CYC at once (from the pan-cycle after, R112), scrolls line-scope, the rest shadow. -/
def Pan.movePair (e dot rank o : Nat) (w : Word) (p : Pan) : Pan :=
  if o = 0x0C then p.modRas (fun r => { r with linecmp := w.setWidth 10, cmpFrom := e })
  else if o = 0x0E then p.modRas (fun r => { r with linecmpCyc := w.setWidth 9, cmpFrom := e })
  else if isLinePair o then p.lineWrite (e - 1) dot rank o w
  else p.modRas (fun r => { r with shadow := r.shadow.set16 o w })

/-- A write to a raster register in the pan-cycle that takes the count to `e`; line-scope effects come at `dot`. -/
def Pan.rasWrite (e dot rank o : Nat) (v : Byte) (p : Pan) : Pan :=
  if rasPairs.contains o then p.modRas (fun r => { r with hold := r.hold.write o v })
  else if rasPairs.contains (o - 1) && decide (o ≠ 0) then
    p.movePair e dot rank (o - 1) (Word.ofBytes v (p.ras.hold.read (o - 1)))
  else if isLineByte o then p.lineWrite (e - 1) dot rank o (Word.ofUnsigned v)
  else match o with
    | 0x11 => if v.getLsbD 7 then p.modRas (fun r => { r with armed := some (r.armed.getD e) }) else p
    | 0x71 => p.mvReady (v.setWidth 4)
    | 0x72 => p.modRas (fun r => { r with auto := v &&& 0xB3 })
    | 0x73 => p.modRas (fun r => { r with mvLate := r.mvLate && !v.getLsbD 7, mvWaited := r.mvWaited && !v.getLsbD 6 })
    | _ =>
      if 0x90 ≤ o ∧ o < 0xD0 ∧ o % 16 = 10 then p.modRas (Raster.rtStatWrite (quarter o 0x90) v)
      else p.modRas (fun r => { r with shadow := r.shadow.set8 o v })

/-- A byte of the palette as reads return it: the value last moved (R104, R108). -/
def Pan.palRead (p : Pan) (x : Nat) : Byte := p.ras.palW.read x

/-- A write to the palette: the low byte is held, the high byte moves the entry (R104, R117). -/
def Pan.palWrite (dot rank x : Nat) (v : Byte) (p : Pan) : Pan :=
  if x % 2 = 0 then p.modRas (fun r => { r with hold := r.hold.write (0xC00 + x) v })
  else p.lineWrite p.clk dot rank (0xC00 + x - 1) (Word.ofBytes v (p.ras.hold.read (0xC00 + x - 1)))

end Sys2Proof.Machine
end

