-- ==== Sys2Proof/Machine/Bus.lean ====
section
/-!
DEFINITION. The pan's address space as its processor sees it (R63 to R68): the value a read returns (`peek`), the side
effects of a read (`touch`) and what a write does (`poke`), register block by register block. Reads and writes stand in
the pan-cycle numbered `clk`; their effects hold from pan-cycle `clk + 1` on (R29).
-/
namespace Sys2Proof.Machine

/-! ### Memory targets (R63 to R66, R77) -/

/-- A title byte; at or beyond ROM_LEN it reads $FF (R64, R77). -/
def Pan.romByte (p : Pan) (x : Nat) : Byte := if x < p.cfg.romLen then p.cfg.rom.read x else 0xFF

/-- Cartridge RAM offset of an address in $8000-$BFFF (R64). -/
def Pan.cramAddr (p : Pan) (a : Nat) : Nat := (p.sys.bank.toNat % 2) * 16384 + (a - 0x8000)

/-- The byte of $8000-$BFFF (R64). -/
def Pan.bankRead (p : Pan) (a : Nat) : Byte :=
  if p.sys.cramSel then (if p.cramAddr a < p.cfg.cramSize then p.cram.read (p.cramAddr a) else 0xFF)
  else p.romByte (p.sys.bank.toNat * 16384 + (a - 0x8000))

/-- VRAM byte of an address in $C000-$DFFF (R66). -/
def Pan.vramAddr (p : Pan) (a : Nat) : Nat := p.sys.vbank.toNat * 8192 + (a - 0xC000)

/-- A byte of the media region; $00 beyond its size (R77). -/
def Pan.mediaByte (p : Pan) (x : Nat) : Byte := if x < p.cfg.mediaLen then p.media.read x else 0

/-! ### System registers (R70) -/

/-- The byte of a system register, by offset from $E2C0. -/
def Pan.sysRead (p : Pan) (o : Nat) : Byte :=
  match o with
  | 0 => Config.kpaRev
  | 1 => BitVec.ofNat 8 (bits p.sys.bank 7 0)
  | 2 => setBit (BitVec.ofNat 8 (bits p.sys.bank 9 8)) 7 p.sys.cramSel
  | 3 => p.sys.vbank.setWidth 8
  | 4 => p.sys.tag.lo
  | 5 => p.sys.tagLatch
  | 6 => BitVec.ofNat 8 (bits p.sys.frameCount 7 0)
  | 7 => BitVec.ofNat 8 (bits p.sys.fcLatch 7 0)
  | 8 => BitVec.ofNat 8 (bits p.sys.fcLatch 15 8)
  | 9 => BitVec.ofNat 8 (bits p.sys.fcLatch 23 16)
  | 10 => BitVec.ofNat 8 (bits p.sys.flipTime 7 0)
  | 11 => BitVec.ofNat 8 (bits p.sys.ftLatch 7 0)
  | 12 => BitVec.ofNat 8 (bits p.sys.ftLatch 15 8)
  | 13 => BitVec.ofNat 8 (bits p.sys.ftLatch 23 16)
  | _ => 0

/-- Reads of the lowest byte latch the rest (R69, R70). -/
def SysRegs.touched (o : Nat) (r : SysRegs) : SysRegs :=
  match o with
  | 4 => { r with tagLatch := r.tag.hi }
  | 6 => { r with fcLatch := (r.frameCount >>> 8).setWidth 24 }
  | 10 => { r with ftLatch := (r.flipTime >>> 8).setWidth 24 }
  | _ => r

/-- Writes to ROMBANK and VBANK (R65, R66). -/
def SysRegs.written (o : Nat) (v : Byte) (r : SysRegs) : SysRegs :=
  match o with
  | 1 => { r with bankHold := v }
  | 2 => { r with cramSel := v.getLsbD 7, bank := (v.setWidth 2) ++ r.bankHold }
  | 3 => { r with vbank := v.setWidth 3 }
  | _ => r

/-! ### Multiplier, coprocessor and host-call registers (R49 to R51, R54) -/

/-- MH and ML as a read in pan-cycle `clk` sees them: every product due by then has been delivered, in issue order. -/
def Multiplier.product (m : Multiplier) (clk : Nat) : Word :=
  m.inFlight.foldl (fun w e => if e.1 ≤ clk then e.2 else w) (Word.ofBytes m.mh m.ml)

/-- Results are delivered: a read in f + L or later returns them. -/
def Coprocessor.delivered (c : Coprocessor) (clk : Nat) : Bool := c.busy && decide (c.due ≤ clk + 1)

/-- `CP_STAT` in pan-cycle `clk`. -/
def Coprocessor.stat (c : Coprocessor) (clk : Nat) : Byte :=
  let d := c.delivered clk
  setBit (setBit (setBit (c.op.setWidth 8) 7 (c.busy && !d)) 6 (if d then c.nextDz else c.dz)) 5
    (if d then c.nextOv else c.ov)

/-- The byte of a multiplier or coprocessor register, by offset from $E280. -/
def Pan.mulRead (p : Pan) (o : Nat) : Byte :=
  match o with
  | 0 => (p.mul.product p.clk).hi
  | 1 => (p.mul.product p.clk).lo
  | 8 => p.cop.stat p.clk
  | _ =>
    if 2 ≤ o ∧ o < 8 then
      BitVec.ofNat 8 (bits (if p.cop.delivered p.clk then p.cop.nextR else p.cop.r) (8 * (o - 2) + 7) (8 * (o - 2)))
    else 0

/-- `HC_STAT`. -/
def HostCall.stat (h : HostCall) : Byte :=
  setBit (setBit (setBit (setBit (h.call.setWidth 8) 7 h.pend) 6 h.done) 5 h.tmo) 4 h.rej

/-- The byte of a host-call register, by offset from $E2E0. -/
def HostCall.read (h : HostCall) (o : Nat) : Byte :=
  match o with
  | 0 => h.stat | 1 => h.seq
  | 2 => h.arg[0] | 3 => h.arg[1] | 4 => h.arg[2] | 5 => h.arg[3] | 6 => h.arg[4] | 7 => h.arg[5]
  | 8 => h.res[0] | 9 => h.res[1] | 10 => h.res[2] | 11 => h.res[3]
  | 12 => h.res[4] | 13 => h.res[5] | 14 => h.res[6] | 15 => h.res[7]
  | _ => 0

/-- Writes to the host-call registers: W1C status bits and arguments. -/
def HostCall.written (o : Nat) (v : Byte) (h : HostCall) : HostCall :=
  match o with
  | 0 => { h with done := h.done && !v.getLsbD 6, tmo := h.tmo && !v.getLsbD 5, rej := h.rej && !v.getLsbD 4 }
  | 2 => { h with arg := h.arg.set 0 v } | 3 => { h with arg := h.arg.set 1 v }
  | 4 => { h with arg := h.arg.set 2 v } | 5 => { h with arg := h.arg.set 3 v }
  | 6 => { h with arg := h.arg.set 4 v } | 7 => { h with arg := h.arg.set 5 v }
  | _ => h

/-! ### CRC unit (R85 to R87) -/

/-- The initial value of an algorithm (R86). -/
def crcInitial (poly : BitVec 2) : BitVec 32 := if poly = 2 then 0x0000FFFF else 0xFFFFFFFF

/-- CTX after a byte is folded in (R86). -/
def crcFold (poly : BitVec 2) (ctx : BitVec 32) (b : Byte) : BitVec 32 :=
  if poly = 1 then crcByteReflected 0x82F63B78#32 ctx b
  else if poly = 2 then (crc16Byte (ctx.setWidth 16) b).setWidth 32
  else crcByteReflected 0xEDB88320#32 ctx b

/-- RES: CTX xor the final value (R85, R86). -/
def Crc.res (c : Crc) : BitVec 32 := if c.poly = 2 then c.ctx else ~~~ c.ctx

/-- The byte of a CRC register, by offset from $E2A0. -/
def Crc.read (c : Crc) (o : Nat) : Byte :=
  match o with
  | 0 => c.poly.setWidth 8
  | 2 => c.addr.lo | 3 => c.addr.hi | 4 => c.len.lo | 5 => c.len.hi
  | 7 => setBit (setBit (setBit 0 7 c.busy) 6 c.done) 5 c.ie
  | 8 => BitVec.ofNat 8 (bits c.res 7 0)
  | 9 => BitVec.ofNat 8 (bits c.latch 7 0)
  | 10 => BitVec.ofNat 8 (bits c.latch 15 8)
  | 11 => BitVec.ofNat 8 (bits c.latch 23 16)
  | 12 => BitVec.ofNat 8 (bits c.ctx 7 0)
  | 13 => BitVec.ofNat 8 (bits c.ctx 15 8)
  | 14 => BitVec.ofNat 8 (bits c.ctx 23 16)
  | 15 => BitVec.ofNat 8 (bits c.ctx 31 24)
  | _ => 0

/-- A write of one byte of CTX; for CRC-16 its upper half is 0 (R86). -/
def Crc.setCtx (i : Nat) (v : Byte) (c : Crc) : Crc :=
  let x := (c.ctx &&& ~~~ (0xFF#32 <<< (8 * i))) ||| (v.setWidth 32 <<< (8 * i))
  { c with ctx := if c.poly = 2 then x &&& 0xFFFF else x }

/-- START of a block, from the next pan-cycle on (R88). -/
def Crc.start (c : Crc) : Crc :=
  if c.busy then c
  else { c with busy := true, next := c.addr, left := if c.len = 0 then 65536 else c.len.toNat }

/-- INIT (R85). -/
def Crc.init (c : Crc) : Crc := if c.busy then c else { c with ctx := crcInitial c.poly }

/-- `CRC_CMD`: INIT, then START. -/
def Crc.command (v : Byte) (c : Crc) : Crc :=
  let d := if v.getLsbD 6 then c.init else c
  if v.getLsbD 7 then d.start else d

/-- Writes to the CRC unit: all but the status register and a START are ignored while BUSY (R87, R88). -/
def Crc.written (o : Nat) (v : Byte) (c : Crc) : Crc :=
  match o with
  | 6 => c.command v
  | 7 => { c with done := c.done && !v.getLsbD 6, ie := v.getLsbD 5 }
  | _ =>
    if c.busy then c
    else match o with
      | 0 => { c with poly := v.setWidth 2, ctx := crcInitial (v.setWidth 2) }
      | 1 => { c with ctx := crcFold c.poly c.ctx v }
      | 2 => { c with addr := Word.ofBytes c.addr.hi v }
      | 3 => { c with addr := Word.ofBytes v c.addr.lo }
      | 4 => { c with len := Word.ofBytes c.len.hi v }
      | 5 => { c with len := Word.ofBytes v c.len.lo }
      | 12 => c.setCtx 0 v | 13 => c.setCtx 1 v | 14 => c.setCtx 2 v | 15 => c.setCtx 3 v
      | _ => c

/-! ### Input slots (R89 to R91) -/

/-- `INn_STAT`. -/
def InSlot.stat (s : InSlot) : Byte :=
  setBit (setBit (setBit (setBit (s.upd.setWidth 8) 7 s.att) 6 s.new) 5 s.chg) 4 s.late

/-- The byte of a slot at an offset: offset 0 live, 1 to 6 latched, 7 the status. -/
def InSlot.read (s : InSlot) (o : Nat) : Byte :=
  match o with
  | 0 => s.data[0] | 1 => s.latch[0] | 2 => s.latch[1] | 3 => s.latch[2] | 4 => s.latch[3] | 5 => s.latch[4]
  | 6 => s.latch[5] | _ => s.stat

/-- A read of offset 0 latches offsets 1 to 6; a read of the status clears NEW, CHG and LATE. -/
def InSlot.touched (o : Nat) (s : InSlot) : InSlot :=
  match o with
  | 0 => { s with latch := #v[s.data[1], s.data[2], s.data[3], s.data[4], s.data[5], s.data[6]] }
  | 7 => { s with new := false, chg := false, late := false }
  | _ => s

/-- Slot of an offset from $E300. -/
def slotOf (o : Nat) : Fin 16 := ⟨(o / 8) % 16, by omega⟩

/-! ### Host mailbox (R93, R95, R97) -/

/-- The byte of a mailbox register, by offset from $E2F0. -/
def Mailbox.read (m : Mailbox) (o : Nat) : Byte :=
  match o with
  | 0 => m.inb[0] | 1 => m.inb[1] | 2 => m.inb[2] | 3 => m.inb[3] | 4 => m.inb[4] | 5 => m.inb[5]
  | 6 => m.inSeq
  | 7 => setBit (BitVec.ofNat 8 (m.queue.length % 8)) 7 m.full
  | 8 => m.outb[0] | 9 => m.outb[1] | 10 => m.outb[2] | 11 => m.outb[3] | 12 => m.outb[4] | 13 => m.outb[5]
  | 14 => m.outSeq
  | _ => 0

/-- The oldest queued message is delivered when INFULL = 0: MB_IN, MB_IN_SEQ, INFULL, source 31, and its NMI edge
(R95, R96). -/
def Pan.mbDeliver (p : Pan) : Pan :=
  match p.mb.queue with
  | [] => p
  | m :: t =>
    if p.mb.full then p
    else
      let q := (p.modMb (fun b => { b with inb := m.bytes, inSeq := m.num, full := true, queue := t })).pendSrc 31
      if m.nmi then q.modCore (fun k => { k with nmi := true }) else q

/-- INACK clears INFULL and delivers a waiting message at the end of its pan-cycle (R95). -/
def Pan.mbInack (p : Pan) : Pan := (p.modMb (fun b => { b with full := false })).mbDeliver

/-- SEND increments MB_OUT_SEQ and posts a mailbox-send event (R97) with the data of code 0x0005 (R344). -/
def Pan.mbSend (p : Pan) : Pan :=
  let s := p.mb.outSeq + 1
  (p.modMb (fun b => { b with outSeq := s })).send
    (.event 0x0005 (leBytes 4 p.frame ++ leBytes 4 p.frameCyc ++ [s] ++ p.mb.outb.toList ++ [0] ++
      leBytes 4 p.sys.frameCount.toNat))

/-- Writes to the mailbox. -/
def Pan.mbWrite (o : Nat) (v : Byte) (p : Pan) : Pan :=
  match o with
  | 8 => p.modMb (fun b => { b with outb := b.outb.set 0 v }) | 9 => p.modMb (fun b => { b with outb := b.outb.set 1 v })
  | 10 => p.modMb (fun b => { b with outb := b.outb.set 2 v }) | 11 => p.modMb (fun b => { b with outb := b.outb.set 3 v })
  | 12 => p.modMb (fun b => { b with outb := b.outb.set 4 v }) | 13 => p.modMb (fun b => { b with outb := b.outb.set 5 v })
  | 15 =>
    let q := if v.getLsbD 7 then p.mbInack else p
    if v.getLsbD 6 then q.mbSend else q
  | _ => p

/-! ### DMA registers (R76, R79, R82) -/

/-- `DMAn_STAT`. -/
def Dma.stat (d : Dma) (owned : Bool) : Byte :=
  setBit (setBit (setBit (setBit (setBit (setBit 0 7 d.busy) 6 owned) 5 d.half) 4 d.full) 3 d.ovr) 2 d.err

/-- The byte of a channel's register at an offset. -/
def Dma.read (d : Dma) (owned : Bool) (o : Nat) : Byte :=
  match o with
  | 0 => BitVec.ofNat 8 (bits d.src 7 0) | 1 => BitVec.ofNat 8 (bits d.src 15 8) | 2 => BitVec.ofNat 8 (bits d.src 23 16)
  | 3 => BitVec.ofNat 8 (bits d.dst 7 0) | 4 => BitVec.ofNat 8 (bits d.dst 15 8) | 5 => BitVec.ofNat 8 (bits d.dst 23 16)
  | 6 => d.len.lo | 7 => d.len.hi | 8 => d.mode | 9 => d.trig | 10 => d.unit | 11 => d.ctl | 12 => d.stat owned
  | 13 => BitVec.ofNat 8 (d.rem % 256) | 14 => BitVec.ofNat 8 (d.rem / 256 % 256) | _ => 0

/-- One byte of a 24-bit address register written. -/
def setByte24 (x : BitVec 24) (i : Nat) (v : Byte) : BitVec 24 :=
  (x &&& ~~~ (0xFF#24 <<< (8 * i))) ||| (v.setWidth 24 <<< (8 * i))

/-- A START with DSPACE = 0b11 or a reserved TRIG or step code is refused (R78). -/
def Dma.badStart (d : Dma) : Bool :=
  decide (d.dspace = 3) || decide (3 < d.trigCode) || decide (d.sstep = 3) || decide (d.dstep = 3)

/-- START (R79): REM from LEN, HALF and FULL cleared, BUSY set; an immediate transfer is one unit, pending at once. -/
def Dma.start (d : Dma) : Dma :=
  if d.busy then d
  else if d.badStart then { d with err := true }
  else
    let s := { d with rem := d.length, half := false, full := false, halfDone := false, busy := true, unitLeft := 0,
                      held := none }
    if s.trigCode = 0 then s.arm s.rem else s

/-- STOP clears BUSY and REM and raises no interrupt (R79). -/
def Dma.stop (d : Dma) : Dma := { d with busy := false, rem := 0, unitLeft := 0, held := none }

/-- `DMAn_CTL` written: the enables apply, and STOP wins over START. -/
def Dma.control (v : Byte) (d : Dma) : Dma :=
  let e := { d with ctl := v &&& 0x03 }
  if v.getLsbD 6 then (if e.busy then e.stop else e) else if v.getLsbD 7 then e.start else e

/-- W1C bits of `DMAn_STAT`. -/
def Dma.clearStat (v : Byte) (d : Dma) : Dma :=
  { d with half := d.half && !v.getLsbD 5, full := d.full && !v.getLsbD 4, ovr := d.ovr && !v.getLsbD 3,
           err := d.err && !v.getLsbD 2 }

/-- Writes to a channel's setting registers, ignored while BUSY (R79). -/
def Dma.setting (o : Nat) (v : Byte) (d : Dma) : Dma :=
  if d.busy then d
  else match o with
    | 0 => { d with src := setByte24 d.src 0 v } | 1 => { d with src := setByte24 d.src 1 v }
    | 2 => { d with src := setByte24 d.src 2 v }
    | 3 => { d with dst := setByte24 d.dst 0 v } | 4 => { d with dst := setByte24 d.dst 1 v }
    | 5 => { d with dst := setByte24 d.dst 2 v }
    | 6 => { d with len := Word.ofBytes d.len.hi v } | 7 => { d with len := Word.ofBytes v d.len.lo }
    | 8 => { d with mode := v } | 9 => { d with trig := v &&& 0x07 } | 10 => { d with unit := v }
    | _ => d

/-- Writes to a channel; of an owned channel 3 only the W1C bits can be written (R82). -/
def Dma.written (owned : Bool) (o : Nat) (v : Byte) (d : Dma) : Dma :=
  if o = 12 then d.clearStat v
  else if owned then d
  else if o = 11 then d.control v
  else d.setting o v

/-- A channel's unit no longer moves once none of it is left. -/
def Pan.dmaSettle (p : Pan) : Pan :=
  match p.dmaCur with
  | none => p
  | some n => if (p.dma[n]).unitLeft = 0 then { p with dmaCur := none } else p

/-! ### Interrupt controller registers (R152, R153, R155 to R158) -/

/-- The number a read of `IC_CLAIM` returns in pan-cycle `clk` (R155, R156). -/
def Ic.claimValue (c : Ic) (clk : Nat) : Byte :=
  if c.legacy then
    match c.winner clk with
    | some s => BitVec.ofNat 8 s.val
    | none => 0xFF
  else
    match c.lock with
    | some s => BitVec.ofNat 8 s
    | none => 0

/-- A source is claimed in the pan-cycle that takes the count to `e`: PEND clears, ACT sets, it is pushed with its
priority, the lock clears and the hold-off of its group loads (R155, R161). -/
def Ic.claim (s : Fin 32) (e : Nat) (c : Ic) : Ic :=
  { c with pend := setBit c.pend s.val false, act := setBit c.act s.val true, stack := (s.val, c.priOf s) :: c.stack,
           lock := none, holdAt := vmod c.holdAt (icGroup s) (fun _ => e + 16 * (c.hold[icGroup s]).toNat) }

/-- The side effects of a read of `IC_CLAIM`. -/
def Ic.claimRead (clk e : Nat) (c : Ic) : Ic :=
  if c.legacy then
    match c.winner clk with
    | some s => c.claim s e
    | none => c
  else
    match c.lock with
    | some s => if h : s < 32 then c.claim ⟨s, h⟩ e else c
    | none => c

/-- Whether an `IC_COMPLETE` write of a native mode is in stack order (R157). -/
def Ic.inOrder (c : Ic) (v : Byte) : Bool :=
  match c.stack with
  | (s, _) :: _ => s == v.toNat
  | [] => false

/-- A completion: native pops the top entry, legacy removes the entry of an active source, wherever it stands (R157,
R158). -/
def Ic.complete (v : Byte) (c : Ic) : Ic :=
  if c.legacy then
    if c.stack.any (fun e => e.1 == v.toNat) then
      { c with stack := c.stack.filter (fun e => e.1 != v.toNat), act := setBit c.act v.toNat false }
    else c
  else if c.inOrder v then { c with stack := c.stack.drop 1, act := setBit c.act v.toNat false }
  else c

/-- `IC_LEVEL`. -/
def Ic.level (c : Ic) : Byte :=
  setBit (BitVec.ofNat 8 (16 * (c.runPri.getD 0 % 8) + c.stack.length % 16)) 7 c.lock.isSome

/-- `IC_STACK_j`, entry 0 at the bottom. -/
def Ic.stackByte (c : Ic) (j : Nat) : Byte :=
  match c.stack.reverse[j]? with
  | some e => BitVec.ofNat 8 (32 * e.2 + e.1)
  | none => 0

/-- Hold-off remaining of a group, in units of 16 pan-cycles, rounded up (R152). -/
def Ic.hcnt (c : Ic) (clk : Nat) (g : Fin 4) : Byte := BitVec.ofNat 8 (ceilDiv (c.holdAt[g] - clk) 16)

/-- The byte of a controller register, by offset from $E1C0, in pan-cycle `clk`. -/
def Ic.read (c : Ic) (clk o : Nat) : Byte :=
  if o < 4 then BitVec.ofNat 8 (bits c.pend (8 * o + 7) (8 * o))
  else if o < 8 then BitVec.ofNat 8 (bits c.en (8 * (o - 4) + 7) (8 * (o - 4)))
  else if o < 12 then BitVec.ofNat 8 (bits c.act (8 * (o - 8) + 7) (8 * (o - 8)))
  else if h : o < 28 then
    let k := o - 12
    have hk : k < 16 := by omega
    BitVec.ofNat 8 (16 * (c.pri[2 * k + 1]).toNat + (c.pri[2 * k]).toNat)
  else if o = 28 then c.claimValue clk
  else if o = 30 then setBit 0 7 c.legacy
  else if o = 31 then c.level
  else if h : 32 ≤ o ∧ o < 36 then c.hold[o - 32]
  else if h : 36 ≤ o ∧ o < 40 then c.hcnt clk ⟨o - 36, by omega⟩
  else if 40 ≤ o ∧ o < 48 then c.stackByte (o - 40)
  else 0

/-- Writes to the controller but `IC_COMPLETE`, and SOFT's raise of source 30 (R151). -/
def Ic.written (o : Nat) (v : Byte) (c : Ic) : Ic :=
  if o < 4 then { c with pend := c.pend &&& ~~~ (v.setWidth 32 <<< (8 * o)) }
  else if o < 8 then
    { c with en := ((c.en &&& ~~~ (0xFF#32 <<< (8 * (o - 4)))) ||| (v.setWidth 32 <<< (8 * (o - 4)))) &&& icSources }
  else if h : 12 ≤ o ∧ o < 28 then
    { c with pri := (c.pri.set (2 * (o - 12)) (v.setWidth 3)).set (2 * (o - 12) + 1) ((v >>> 4).setWidth 3) }
  else if o = 30 then
    let d := if c.stack.isEmpty && c.lock.isNone then { c with legacy := v.getLsbD 7 } else c
    if v.getLsbD 6 then d.raise 30 else d
  else if h : 32 ≤ o ∧ o < 36 then { c with hold := c.hold.set (o - 32) v }
  else c

/-- A write to the controller; an `IC_COMPLETE` write out of stack order in native mode does not reach it and marks the
instruction faulting (R60, R157). -/
def Pan.icWrite (o : Nat) (v : Byte) (p : Pan) : Pan :=
  if o = 29 then
    if !p.ic.legacy && !p.ic.inOrder v then { p with abort := true } else p.modIc (Ic.complete v)
  else p.modIc (Ic.written o v)

/-! ### Timer registers (R136, R137, R150) -/

/-- `TMn_STAT`. -/
def Timer.stat (t : Timer) (owned : Bool) : Byte :=
  setBit (setBit (setBit (setBit (setBit 0 7 owned) 6 t.ovf) 5 t.hitStat) 4 t.capNew) 3 t.capOvr

/-- The byte of a timer register at an offset. -/
def Timer.read (t : Timer) (owned : Bool) (o : Nat) : Byte :=
  match o with
  | 0 => t.cnt.lo | 1 => t.cntLatch | 2 => t.cmp.lo | 3 => t.cmp.hi | 4 => t.cap.lo | 5 => t.capLatch
  | 6 => t.ctl | 7 => t.act | 8 => t.capSrc.setWidth 8 | 9 => t.stat owned
  | 10 => if owned then 0 else t.irq
  | 11 => t.dbg | _ => 0

/-- Reads of CNT_L and CAPL latch the high byte; CAPL also clears CAP_NEW (R136, R148). -/
def Timer.touched (o : Nat) (t : Timer) : Timer :=
  match o with
  | 0 => { t with cntLatch := t.cnt.hi }
  | 4 => { t with capLatch := t.cap.hi, capNew := false }
  | _ => t

/-- `TMn_CTL` written in the pan-cycle that takes the count to `e`, whose own ticks followed the old value (R138). -/
def Timer.control (e : Nat) (v : Byte) (t : Timer) : Timer :=
  let c := v &&& 0xB7
  let fresh := (v.getLsbD 7 && !t.run) || (c &&& 0x37) != (t.ctl &&& 0x37)
  { t with ctl := c, preAt := if fresh then e else t.preAt, chain := t.chain.filter (fun k => decide (e < k.1)) }

/-- Writes to a timer but CAPNOW. -/
def Timer.written (e o : Nat) (v : Byte) (t : Timer) : Timer :=
  match o with
  | 0 => { t with cntHold := v }
  | 1 => { t with cnt := Word.ofBytes v t.cntHold }
  | 2 => { t with cmpHold := v }
  | 3 => { t with cmp := Word.ofBytes v t.cmpHold }
  | 6 => t.control e v
  | 7 => { t with act := v &&& 0xF0 }
  | 8 => { t with capSrc := v.setWidth 3 }
  | 9 => { t with ovf := t.ovf && !v.getLsbD 6, hitStat := t.hitStat && !v.getLsbD 5, capOvr := t.capOvr && !v.getLsbD 3 }
  | 10 => { t with irq := v &&& 0x03 }
  | 11 => { t with dbg := v &&& 0x80 }
  | _ => t

/-- Whether a write to a timer register takes effect: of an owned TM3 only the W1C bits and DBG (R150). -/
def tmWritable (owned : Bool) (o : Nat) : Bool := !owned || o == 9 || o == 11

/-- TM3 is owned (R150). -/
def Pan.tmOwned (p : Pan) (n : Fin 4) : Bool := n == 3 && p.owned

/-- A write to a timer register, with the capture of CAPNOW (R147). -/
def Pan.tmWrite (e : Nat) (n : Fin 4) (o : Nat) (v : Byte) (p : Pan) : Pan :=
  if tmWritable (p.tmOwned n) o then
    let q := if o = 8 ∧ v.getLsbD 7 then p.capture n else p
    q.modTm n (Timer.written e o v)
  else p

/-! ### Sound registers (R164, R165, R170 to R173) -/

/-- Control bits a voice of a number has: W TAB, Q DUTY, N SHORT, and EN (R165). -/
def voiceCtlMask (k : Fin 7) : Byte := if k.val < 4 then 0x83 else if k.val < 6 then 0xB0 else 0x88

/-- Whether a voice is a pulse voice. -/
def isPulse (k : Fin 7) : Bool := k == 4 || k == 5

/-- The byte of a voice register at an offset. -/
def Voice.read (v : Voice) (o : Nat) : Byte :=
  match o with
  | 0 => v.ctl | 1 => v.freq.lo | 2 => v.freq.hi | 3 => v.vol | 4 => v.env | 5 => v.bal | 6 => v.sweep | 7 => v.out
  | 8 => v.slim.lo | 9 => v.slim.hi | _ => 0

/-- KEYON: phase 0, LFSR $0001, envelope and sweep tick counts 0 (R167). -/
def Voice.keyon (v : Voice) : Voice := { v with phase := 0, lfsr := 1, envCnt := 0, sweepCnt := 0 }

/-- Writes to a voice. -/
def Voice.written (k : Fin 7) (o : Nat) (b : Byte) (v : Voice) : Voice :=
  match o with
  | 0 =>
    let w := { v with ctl := b &&& voiceCtlMask k, out := if b.getLsbD 7 then v.out else 0 }
    if b.getLsbD 6 then w.keyon else w
  | 1 => { v with freqHold := b }
  | 2 => { v with freq := Word.ofBytes b v.freqHold }
  | 3 => { v with vol := b &&& 0x3F }
  | 4 => { v with env := b &&& 0x8F, envCnt := 0 }
  | 5 => { v with bal := b }
  | 6 => if isPulse k then { v with sweep := b &&& 0xF7, sweepCnt := 0 } else v
  | 8 => if isPulse k then { v with slimHold := b } else v
  | 9 => if isPulse k then { v with slim := Word.ofBytes b v.slimHold } else v
  | _ => v

/-- `S0_STAT`. -/
def S0.stat (s : S0) : Byte := setBit (setBit (BitVec.ofNat 8 s.fifo.length) 6 s.undr) 5 s.ovr

/-- The byte of an S0 or mixer register, by offset from $E170. -/
def Sound.s0Read (s : Sound) (o : Nat) : Byte :=
  match o with
  | 0 => s.s0.ctl | 1 => s.s0.rate.lo | 2 => s.s0.rate.hi
  | 3 => BitVec.ofNat 8 (bits s.s0.src 7 0) | 4 => BitVec.ofNat 8 (bits s.s0.src 15 8)
  | 5 => BitVec.ofNat 8 (bits s.s0.src 23 16)
  | 6 => s.s0.len.lo | 7 => s.s0.len.hi | 9 => s.s0.stat | 10 => s.s0.vol | 11 => s.s0.bal | 12 => s.s0.low
  | 13 => if s.mute then 0x80 else 0 | 14 => s.mvol | _ => 0

/-- LEN of S0, 0 meaning 65,536. -/
def S0.length (s : S0) : Nat := if s.len = 0 then 65536 else s.len.toNat

/-- Space and pass of S0 shown in channel 3's registers, as it uses them (R82; notes/assumptions/9.md). -/
def Dma.forPass (s : S0) (d : Dma) : Dma :=
  { d with src := s.passAddr, len := BitVec.ofNat 16 s.length, rem := s.passLeft,
           mode := if s.ctl.getLsbD 4 then 0x80 else 0x00, unit := 8, busy := true }

/-- A pass starts: it takes SRC and LEN as they then stand (R173). -/
def Pan.s0PassStart (p : Pan) : Pan :=
  let q := p.modS0 (fun s => { s with passAddr := s.src, passLeft := s.length })
  q.modDma 3 (Dma.forPass q.snd.s0)

/-- A refused address ends fetching for this enable and sets ERR (R173). -/
def Pan.s0Refuse (p : Pan) : Pan :=
  (p.modS0 (fun s => { s with fetchEnd := true, refused := true })).modDma 3 Dma.stopErr

/-- Refill (R173): with LEVEL at 8 or below and no unit of channel 3 pending or moving, a unit of min(8, bytes of the pass
not yet fetched) becomes pending. -/
def Pan.s0Refill (p : Pan) : Pan :=
  if p.owned && !p.snd.s0.fetchEnd && decide (p.snd.s0.fifo.length ≤ 8) && decide ((p.dma[3]).unitLeft = 0) then
    if (p.dma[3]).refused true then p.s0Refuse else p.modDma 3 (fun d => { d with unitLeft := min 8 p.snd.s0.passLeft })
  else p

/-- TM3 as S0 sets it at the enable (R173). -/
def Timer.forS0 (e : Nat) (s : S0) (t : Timer) : Timer :=
  { t with cnt := 0, cmp := s.rate, ctl := 0x80 ||| (s.ctl &&& 0x07), act := 0x40, preAt := e, tickDue := false, chain := [] }

/-- Ownership begins: channel 3 stops, TM3 is set, the first pass starts and the first unit becomes pending (R82, R173). -/
def Pan.s0Own (e : Nat) (p : Pan) : Pan :=
  (((p.modDma 3 Dma.stop).modTm 3 (Timer.forS0 e p.snd.s0)).s0PassStart).s0Refill

/-- S0 is disabled: s is 0, and an owned TM3 and channel 3 are released (R82, R150, R171). -/
def Pan.s0Disable (wasOwned : Bool) (p : Pan) : Pan :=
  let q := p.modS0 (fun s => { s with out := 0, fetchEnd := false, refused := false, passLeft := 0, popDue := false })
  if wasOwned then
    (q.modDma 3 Dma.stop).modTm 3 (fun t => { t with ctl := t.ctl &&& 0x7F })
  else q

/-- S0 is enabled: FIFO empty, phase 0, s 0, and with timer pacing ownership begins (R171, R173). -/
def Pan.s0Enable (e : Nat) (p : Pan) : Pan :=
  let q := p.modS0 (fun s => { s with fifo := [], phase := 0, out := 0, fetchEnd := false, refused := false,
                                      popDue := false, popped := false })
  if q.owned then q.s0Own e else q

/-- `S0_CTL` written (R171): PACE and SPACE hold while EN stays 1; a PRE written while owned reaches TM3. -/
def Pan.s0Control (e : Nat) (v : Byte) (p : Pan) : Pan :=
  let old := p.snd.s0.ctl
  let stays := old.getLsbD 7 && v.getLsbD 7
  let c : Byte := if stays then (v &&& 0xA7) ||| (old &&& 0x50) else v &&& 0xF7
  let q := p.modS0 (fun s => { s with ctl := c })
  if stays then
    if p.owned then q.modTm 3 (fun t => t.control e ((t.ctl &&& 0xB0) ||| (v &&& 0x07))) else q
  else if v.getLsbD 7 then q.s0Enable e
  else if old.getLsbD 7 then q.s0Disable p.owned
  else q

/-- A push into the FIFO; a full FIFO ignores it and sets OVR (R172). -/
def S0.push (b : Byte) (s : S0) : S0 :=
  if 16 ≤ s.fifo.length then { s with ovr := true } else { s with fifo := s.fifo ++ [b] }

/-- `S0_RATE` loaded; while owned it reaches TM3's compare value (R173). -/
def Pan.s0Rate (v : Byte) (p : Pan) : Pan :=
  let q := p.modS0 (fun s => { s with rate := Word.ofBytes v s.rateHold })
  if p.owned then q.modTm 3 (fun t => { t with cmp := q.snd.s0.rate }) else q

/-- Writes to S0 and the mixer, by offset from $E170. -/
def Pan.s0Write (e : Nat) (o : Nat) (v : Byte) (p : Pan) : Pan :=
  match o with
  | 0 => p.s0Control e v
  | 1 => p.modS0 (fun s => { s with rateHold := v })
  | 2 => p.s0Rate v
  | 3 => p.modS0 (fun s => { s with srcHold := Word.ofBytes s.srcHold.hi v })
  | 4 => p.modS0 (fun s => { s with srcHold := Word.ofBytes v s.srcHold.lo })
  | 5 => p.modS0 (fun s => { s with src := v ++ s.srcHold })
  | 6 => p.modS0 (fun s => { s with lenHold := v })
  | 7 => p.modS0 (fun s => { s with len := Word.ofBytes v s.lenHold })
  | 8 => if p.snd.s0.ctl.getLsbD 6 then p else p.modS0 (S0.push v)
  | 9 => p.modS0 (fun s => { s with undr := s.undr && !v.getLsbD 6, ovr := s.ovr && !v.getLsbD 5 })
  | 10 => p.modS0 (fun s => { s with vol := v &&& 0x3F })
  | 11 => p.modS0 (fun s => { s with bal := v })
  | 12 => p.modS0 (fun s => { s with low := v &&& 0x0F })
  | 13 => p.modSnd (fun s => { s with mute := v.getLsbD 7 })
  | 14 => p.modSnd (fun s => { s with mvol := v })
  | _ => p

/-- The byte of a sound register, by offset from $E100. -/
def Sound.read (s : Sound) (o : Nat) : Byte :=
  if h : o < 0x70 then (s.v[o / 16]'(by omega)).read (o % 16) else s.s0Read (o - 0x70)

/-- Writes to the sound registers, by offset from $E100. -/
def Pan.sndWrite (e o : Nat) (v : Byte) (p : Pan) : Pan :=
  if h : o < 0x70 then p.modVoice ⟨o / 16, by omega⟩ (Voice.written ⟨o / 16, by omega⟩ (o % 16) v)
  else p.s0Write e (o - 0x70) v

/-! ### The I/O range (R68) -/

/-- Timer or channel of an offset. -/
def unitOf (o : Nat) : Fin 4 := ⟨(o / 16) % 4, by omega⟩

/-- The byte of an I/O address, by offset from $E000; reserved addresses read $00 (R8). -/
def Pan.ioRead (p : Pan) (o : Nat) : Byte :=
  if o < 0x100 then p.rasRead o
  else if o < 0x180 then p.snd.read (o - 0x100)
  else if o < 0x1C0 then (p.tm[unitOf (o - 0x180)]).read (p.tmOwned (unitOf (o - 0x180))) (o % 16)
  else if o < 0x200 then p.ic.read p.clk (o - 0x1C0)
  else if o < 0x240 then (p.dma[unitOf (o - 0x200)]).read (unitOf (o - 0x200) == 3 && p.owned) (o % 16)
  else if o < 0x280 then 0
  else if o < 0x2A0 then p.mulRead (o - 0x280)
  else if o < 0x2B0 then p.crc.read (o - 0x2A0)
  else if o < 0x2C0 then 0
  else if o < 0x2E0 then p.sysRead (o - 0x2C0)
  else if o < 0x2F0 then p.hc.read (o - 0x2E0)
  else if o < 0x300 then p.mb.read (o - 0x2F0)
  else if o < 0x380 then (p.slots[slotOf (o - 0x300)]).read (o % 8)
  else if o < 0x400 then 0
  else if o < 0x500 then p.wave.read (o - 0x400)
  else if o < 0x800 then 0
  else if o < 0xC00 then p.oam.read (o - 0x800)
  else p.palRead (o - 0xC00)

/-- The side effects of a read of an I/O address. -/
def Pan.ioTouch (o : Nat) (p : Pan) : Pan :=
  if o = 0x008 then p.beamLatched
  else if o = 0x061 then p.sprStatCleared
  else if 0x180 ≤ o ∧ o < 0x1C0 then p.modTm (unitOf (o - 0x180)) (Timer.touched (o % 16))
  else if o = 0x1DC then p.modIc (Ic.claimRead p.clk (p.clk + 1))
  else if o = 0x2A8 then p.modCrc (fun c => { c with latch := (c.res >>> 8).setWidth 24 })
  else if 0x2C0 ≤ o ∧ o < 0x2E0 then p.modSys (SysRegs.touched (o - 0x2C0))
  else if 0x300 ≤ o ∧ o < 0x380 then p.modSlot (slotOf (o - 0x300)) (InSlot.touched (o % 8))
  else p

/-- Writes to timers, sound and wave tables, landing at the count `e`: they prevail over what the timers and the tick do in the
same pan-cycle, and the tick works with the contents at its start (R146, R163). -/
def Pan.lateWrite (e o : Nat) (v : Byte) (p : Pan) : Pan :=
  if o < 0x180 then p.sndWrite e (o - 0x100) v
  else if o < 0x1C0 then p.tmWrite e (unitOf (o - 0x180)) (o % 16) v
  else { p with wave := p.wave.write (o - 0x400) v }

/-- Whether an offset is one of those. -/
def isLate (o : Nat) : Bool := (decide (0x100 ≤ o) && decide (o < 0x1C0)) || (decide (0x400 ≤ o) && decide (o < 0x500))

/-- Whether an offset is a status register of a timer or of S0, whose bits a write clears ahead of what sets them in the same
pan-cycle (R408). -/
def isTickStat (o : Nat) : Bool := o == 0x179 || (decide (0x180 ≤ o) && decide (o < 0x1C0) && o % 16 == 9)

/-- A write to an I/O address in pan-cycle `clk`; reserved and read-only addresses ignore it. `dot` and `rank` are those of
a line-scope effect (R107). A write to timers, sound or wave tables waits for the ticks of its pan-cycle (R146, R163). -/
def Pan.ioWrite (dot rank o : Nat) (v : Byte) (p : Pan) : Pan :=
  let e := p.clk + 1
  if o < 0x100 then p.rasWrite e dot rank o v
  else if isLate o then (if isTickStat o then p.lateWrite e o v else { p with late := some (o, v, p.snd.s0.fifo.length) })
  else if o < 0x1C0 then p
  else if o < 0x200 then p.icWrite (o - 0x1C0) v
  else if o < 0x240 then
    (p.modDma (unitOf (o - 0x200)) (Dma.written (unitOf (o - 0x200) == 3 && p.owned) (o % 16) v)).dmaSettle
  else if o < 0x2A0 then p
  else if o < 0x2B0 then p.modCrc (Crc.written (o - 0x2A0) v)
  else if o < 0x2C0 then p
  else if o < 0x2E0 then p.modSys (SysRegs.written (o - 0x2C0) v)
  else if o < 0x2F0 then p.modHc (HostCall.written (o - 0x2E0) v)
  else if o < 0x300 then p.mbWrite (o - 0x2F0) v
  else if o < 0x800 then p
  else if o < 0xC00 then { p with oam := p.oam.write (o - 0x800) v }
  else p.palWrite dot rank (o - 0xC00) v

/-! ### The address map (R63) -/

/-- The byte a read of an address returns in pan-cycle `clk`. -/
def Pan.peek (p : Pan) (a : Word) : Byte :=
  let x := a.toNat
  if x < 0x8000 then p.wram.read x
  else if x < 0xC000 then p.bankRead x
  else if x < 0xE000 then p.vram.read (p.vramAddr x)
  else if x < 0xF000 then p.ioRead (x - 0xE000)
  else p.romByte (x - 0xF000)

/-- The side effects of that read; memory has none. -/
def Pan.touch (a : Word) (p : Pan) : Pan :=
  if 0xE000 ≤ a.toNat ∧ a.toNat < 0xF000 then p.ioTouch (a.toNat - 0xE000) else p

/-- A write to cartridge RAM; beyond its size, and to a title bank, it is ignored (R63, R64). -/
def Pan.bankWrite (x : Nat) (v : Byte) (p : Pan) : Pan :=
  if p.sys.cramSel ∧ p.cramAddr x < p.cfg.cramSize then { p with cram := p.cram.write (p.cramAddr x) v }.markGrain (400 + p.cramAddr x / 256) else p

/-- A write of a byte to an address in pan-cycle `clk`. -/
def Pan.pokeAt (dot : Nat) (a : Word) (v : Byte) (p : Pan) : Pan :=
  let x := a.toNat
  if x < 0x8000 then { p with wram := p.wram.write x v }.markGrain (16 + x / 256)
  else if x < 0xC000 then p.bankWrite x v
  else if x < 0xE000 then { p with vram := p.vram.write (p.vramAddr x) v }.markGrain (144 + p.vramAddr x / 256)
  else if x < 0xF000 then p.ioWrite dot 4 (x - 0xE000) v
  else p

/-- A write by the processor: a line-scope effect waits for the final pan-cycle of the instruction (R107). -/
def Pan.poke (a : Word) (v : Byte) (p : Pan) : Pan := p.pokeAt 0 a v

end Sys2Proof.Machine
end

