-- ==== Sys2Proof/Machine/Settle.lean ====
section
/-!
DEFINITION. How a pan-cycle ends for timers and sound (R141, R144, R146, R147, R163, R172): the actions of its matches, the write that
waits for its ticks, the low mark. The cycle engine does all of it in its pan-cycle; where a row of the table is one access, the
events of its pan-cycle are rows that follow it, and what waits for them happens as the next pan-cycle begins.
-/
namespace Sys2Proof.Machine

/-! ### Actions of a match (R141, R144, R146) -/

/-- SELF = STOP clears RUN; CLEAR is part of the tick (R141). -/
def Pan.matchSelf (n : Fin 4) (p : Pan) : Pan :=
  p.modTm n (fun t => if t.self = 2 then { t with ctl := t.ctl &&& 0x7F } else t)

/-- A linked action on a timer (R144). -/
def Timer.linked (code clk : Nat) (t : Timer) : Timer :=
  match code with
  | 1 => { t with ctl := t.ctl ||| 0x80, preAt := clk }
  | 2 => { t with ctl := t.ctl &&& 0x7F }
  | 3 => { t with cnt := 0, preAt := clk }
  | _ => t

/-- LINK acts on the next timer, and the match is dealt with. -/
def Pan.matchLink (n : Fin 4) (p : Pan) : Pan :=
  let code := (p.tm[n]).link
  let q := p.modTm n (fun t => { t with acts := false })
  if q.shielded (nextTimer n) then q else q.modTm (nextTimer n) (Timer.linked code p.clk)

/-- What is done only if a condition holds. -/
def Pan.onlyIf (b : Bool) (f : Pan → Pan) (p : Pan) : Pan := if b then f p else p

/-- CAPNOW written in the pan-cycle just run: its capture belongs to step 2 of R146. -/
def Pan.capNow (p : Pan) : Pan :=
  match p.late with
  | some (o, v, _) =>
    if 0x180 ≤ o ∧ o < 0x1C0 ∧ o % 16 = 8 ∧ v.getLsbD 7 ∧ tmWritable (p.tmOwned (unitOf (o - 0x180))) 8 then
      p.capture (unitOf (o - 0x180))
    else p
  | none => p

/-- The actions of every match of the pan-cycle just run: captures, then all self actions, then all linked ones (R146). -/
def Pan.runActs (p : Pan) : Pan :=
  forFour (fun n q => q.onlyIf (q.tm[n]).acts (Pan.matchLink n))
    (forFour (fun n q => q.onlyIf (q.tm[n]).acts (Pan.matchSelf n)) p.capNow)

/-- A match has actions due. -/
def Pan.actsDue (p : Pan) : Bool := (List.finRange 4).any (fun n => (p.tm[n]).acts)

/-- Every tick and every match of the pan-cycle just run has been dealt with, so that the actions come next (R146). -/
def Pan.ticksDone (p : Pan) : Bool :=
  (List.finRange 4).all (fun n => !(p.tm[n]).hit && (p.frozen n || !(p.tm[n]).due p.clk))

/-- The actions due, once the ticks and matches of the pan-cycle are dealt with; before that they wait for the last of them, or for
the pan-cycle that follows (`Pan.settle`). -/
def Pan.actsNow (p : Pan) : Pan := if p.actsDue && p.ticksDone then p.runActs else p

/-! ### The write that waits, and the low mark (R146, R163, R172) -/

/-- MARK. -/
def S0.mark (s : S0) : Nat := bits s.low 3 0

/-- Source 16 is raised when LEVEL, above MARK before, is MARK or below now (R172). -/
def Pan.lowCheck (before mark : Nat) (p : Pan) : Pan :=
  if mark < before ∧ p.snd.s0.fifo.length ≤ mark then p.pendSrc 16 else p

/-- The write that waited for the ticks of its pan-cycle lands. A write to TM3 lands after the pops of its pan-cycle, so that it takes
effect where the last of them ended S0's ownership (DESIGN CHOICE: R150 and R173 do not order the two; notes/assumptions/43.md). -/
def Pan.lateApply (p : Pan) : Pan :=
  match p.late with
  | some (o, v, _) => ({ p with late := none }).lateWrite p.clk o v
  | none => p

/-- LEVEL as the pan-cycle of the waiting write began, which the low mark is judged by. -/
def Pan.lateLevel (p : Pan) : Nat :=
  match p.late with
  | some (_, _, l) => l
  | none => p.snd.s0.fifo.length

/-- Something of the pan-cycle just run waits for its end. -/
def Pan.unsettled (p : Pan) : Bool := p.late.isSome || p.actsDue

/-- What waits for the end of the pan-cycle just run happens, since the next one begins: actions of matches, then the write, then the
low mark (R146, R163, R172). -/
def Pan.settle (p : Pan) : Pan :=
  if p.unsettled then
    let q := p.runActs.lateApply
    q.lowCheck p.lateLevel q.snd.s0.mark
  else p

end Sys2Proof.Machine
end

