-- ==== Sys2Proof/Machine/Exec.lean ====
section
/-!
DEFINITION. How the Tretan-8 runs (R26, R28 to R31, R36 to R53): each pan-cycle of each pattern as one function (a
`Micro`), the plan of pan-cycles of every operation in every form, the sampling at the start of the final pan-cycle, the
reset sequence, `REP`, interrupt entry and return, `WAI`, and the faults of R60. One instruction runs its plan from the
first pan-cycle to the last; the cycle engine runs one entry of the plan at a time.
-/
namespace Sys2Proof.Machine

/-- What one pan-cycle of the processor does; the count of pan-cycles is advanced by whoever runs it. -/
abbrev Micro := Pan → Pan

/-! ### Sampling and the end of an instruction (R39, R40, R155) -/

/-- What the processor samples at the start of a pan-cycle. Legacy mode, as `LEGACY` stands there, locks nothing (R155, R156). -/
def Pan.sampleNow (p : Pan) : Sample :=
  let w := p.ic.winner p.clk
  { nmi := p.core.nmi, irq := w.isSome && !p.cpu.i, req := w.isSome,
    winner := if p.ic.legacy then Option.none else w.map Fin.val, committed := false }

/-- An interrupt was sampled and will be entered. -/
def Sample.taken (s : Sample) : Bool := s.nmi || s.irq

/-- Nothing sampled. -/
def Sample.none : Sample := { nmi := false, irq := false, req := false, winner := Option.none, committed := false }

/-- The source a lock would take after the sampling pan-cycle `p` became `q`: where that pan-cycle read `IC_CLAIM` and
consumed a lock, the winner on the state the read leaves (R155), with the hold-offs as they stand at its end, one pan-cycle on (DESIGN
CHOICE: R155 does not say which; notes/assumptions/46.md). -/
def lockWinner (p q : Pan) (s : Sample) : Option Nat :=
  if !p.ic.legacy && decide (p.ic.stack.length < q.ic.stack.length) then (q.ic.winner (p.clk + 1)).map Fin.val else s.winner

/-- Line-scope writes of the instruction take effect 4 dots after the start of its final pan-cycle (R107). -/
def Pan.resolveLine (p : Pan) : Pan :=
  p.modRas (fun r => { r with lineQ := r.lineQ.map (fun w => if w.dot = 0 then { w with dot := 2 * p.clk + 4 } else w) })

/-- The end of an instruction, or of an iteration of `REP`: K falls by one, and the sequence ends at 0 (R46). -/
def Core.finish (k : Core) : Core :=
  { k with cyc := 0, opc := 0, opd := 0, ea := 0, tmp := 0, undo := if k.rep then k.undo else [] }

/-- `REP`'s bookkeeping at the end of an iteration. -/
def Pan.repStep (p : Pan) : Pan :=
  if p.core.rep then
    let k := p.cpu.k - 1
    if k = 0 then (p.modCpu (fun c => { c with k := k })).modCore (fun x => { x with rep := false })
    else p.modCpu (fun c => { c with k := k, pc := p.core.start + 1 })
  else p

/-- The final pan-cycle of an instruction: requests are sampled at its start, then it does its work and the instruction
ends. A write that is out of stack order leaves the instruction unfinished. -/
def lastCycle (f : Micro) : Micro := fun p =>
  let s := p.sampleNow
  let q := f p
  if q.abort then q
  else ((q.resolveLine).repStep).modCore (fun k => { k.finish with samp := { s with winner := lockWinner p q s } })

/-- What a read of an I/O address is about to change, if it has a side effect (R69, R90, R91, R111, R122, R148, R155). -/
def Pan.undoOf (o : Nat) (p : Pan) : List ReadUndo :=
  if o = 0x008 then [.beam p.ras.beamLatch]
  else if o = 0x061 then [.sprites p.ras.coll p.ras.ovf]
  else if 0x180 ≤ o ∧ o < 0x1C0 then
    let t := p.tm[unitOf (o - 0x180)]
    if o % 16 = 0 ∨ o % 16 = 4 then [.timer (unitOf (o - 0x180)) t.cntLatch t.capLatch t.capNew] else []
  else if o = 0x1DC then
    match (p.ic.claimRead p.clk (p.clk + 1)).stack with
    | (s, _) :: r =>
      if h : s < 32 then (if r = p.ic.stack then [.claim ⟨s, h⟩ p.ic.lock p.ic.holdAt[icGroup ⟨s, h⟩]] else []) else []
    | [] => []
  else if o = 0x2A8 then [.crc p.crc.latch]
  else if o = 0x2C4 ∨ o = 0x2C6 ∨ o = 0x2CA then [.sys p.sys.tagLatch p.sys.fcLatch p.sys.ftLatch]
  else if 0x300 ≤ o ∧ o < 0x380 then
    let s := p.slots[slotOf (o - 0x300)]
    if o % 8 = 0 ∨ o % 8 = 7 then [.slot (slotOf (o - 0x300)) s.latch s.new s.chg s.late] else []
  else []

/-- The side effects of a read the processor makes, with what they change kept (R60). -/
def Pan.readTouch (a : Word) (p : Pan) : Pan :=
  if 0xE000 ≤ a.toNat ∧ a.toNat < 0xF000 then
    (p.touch a).modCore (fun k => { k with undo := p.undoOf (a.toNat - 0xE000) ++ k.undo })
  else p

/-- One side effect of a read undone; a bit that something has set since stays set. -/
def ReadUndo.apply (p : Pan) : ReadUndo → Pan
  | .beam l => p.modRas (fun r => { r with beamLatch := l })
  | .sprites c o => p.modRas (fun r => { r with coll := r.coll || c, ovf := r.ovf || o })
  | .timer n c l new => p.modTm n (fun t => { t with cntLatch := c, capLatch := l, capNew := t.capNew || new })
  | .claim s l at_ => p.modIc (fun c =>
      { c with pend := setBit c.pend s.val true, act := setBit c.act s.val false, stack := c.stack.filter (fun e => e.1 != s.val),
               lock := l, holdAt := vmod c.holdAt (icGroup s) (fun _ => at_) })
  | .crc l => p.modCrc (fun c => { c with latch := l })
  | .sys t c f => p.modSys (fun r => { r with tagLatch := t, fcLatch := c, ftLatch := f })
  | .slot k l n c t => p.modSlot k (fun s => { s with latch := l, new := s.new || n, chg := s.chg || c, late := s.late || t })

/-- `IC_ORDER` (R60): every register and flag takes the value before the instruction, what its reads changed stands as before it,
writes made stand, the pan faults. -/
def Pan.orderFault (p : Pan) : Pan :=
  let q := p.core.undo.foldl ReadUndo.apply p
  ({ q with abort := false, cpu := p.core.saved }.resolveLine).faultWith 3 p.core.start

/-- One pan-cycle of a plan, with the fault that ends it. -/
def Pan.micro (u : Micro) (p : Pan) : Pan := if (u p).abort then (u p).orderFault else u p

/-- One pan-cycle of a plan whose pan-cycles are run one after the other: the pan-cycle before it has ended. -/
def Pan.microNext (u : Micro) (p : Pan) : Pan := ((p.settle).micro u).spend

/-! ### The kinds of pan-cycle (R28) -/

/-- One more pan-cycle of the pattern is complete. -/
def Core.advance (k : Core) : Core := { k with cyc := k.cyc + 1 }

/-- F: the opcode is read at PC. -/
def Pan.fetched (p : Pan) : Pan :=
  let a := p.cpu.pc
  ((p.readTouch a).modCpu (fun c => { c with pc := c.pc + 1 })).modCore
    (fun k => { k with opc := p.peek a, cyc := 1, start := if k.rep then k.start else a, saved := if k.rep then k.saved else p.cpu,
                       opd := 0, ea := 0, tmp := 0 })

/-- O: an operand byte is read at PC, the low byte first. -/
def Pan.operand (p : Pan) : Pan :=
  let a := p.cpu.pc
  ((p.readTouch a).modCpu (fun c => { c with pc := c.pc + 1 })).modCore
    (fun k => { k.advance with opd := if k.cyc ≤ 1 then Word.ofUnsigned (p.peek a) else Word.ofBytes (p.peek a) k.opd.lo })

/-- I: no memory access. -/
def Pan.internal (p : Pan) : Pan := p.modCore Core.advance

/-- R: a byte is read and handed on. -/
def Pan.readByte (a : Word) (k : Byte → Micro) (p : Pan) : Pan :=
  k (p.peek a) ((p.readTouch a).modCore Core.advance)

/-- W: a byte is written. -/
def Pan.writeByte (a : Word) (v : Byte) (p : Pan) : Pan := (p.poke a v).modCore Core.advance

/-- The address of the form's data access. -/
def Pan.dataAddr (m : Mode) (p : Pan) : Word := effAddr m p.cpu p.core.opd

/-- The address one above, wrapping within page $00 for the direct forms (R27). -/
def highAddr (m : Mode) (a : Word) : Word :=
  match m with
  | .dir => Word.ofUnsigned (a.lo + 1)
  | .dirX => Word.ofUnsigned (a.lo + 1)
  | _ => a + 1

/-- R of an operand, given to a register operation; the form's increment follows (R27). -/
def readData (m : Mode) (f : Byte → Cpu → Cpu) : Micro := fun p =>
  p.readByte (p.dataAddr m) (fun v q => q.modCpu (fun c => postInc m (f v c)))

/-- W of an operand. -/
def writeData (m : Mode) (g : Cpu → Byte) : Micro := fun p =>
  (p.writeByte (p.dataAddr m) (g p.cpu)).modCpu (postInc m)

/-- R of the low byte of a 16-bit operand, or of a read-modify-write, held with its address until the pan-cycle that needs it. TMP
holds it, and EA the address; an 8-bit access forms its address within its one pan-cycle and leaves EA 0 (DESIGN CHOICE: R61 names
the fields and not every pan-cycle that writes them; notes/assumptions/44.md). -/
def readLow (m : Mode) : Micro := fun p =>
  p.readByte (p.dataAddr m) (fun v q => q.modCore (fun k => { k with tmp := v, ea := p.dataAddr m }))

/-- R of the high byte, given with the low one to an operation. -/
def readHigh (m : Mode) (f : Word → Micro) : Micro := fun p =>
  p.readByte (highAddr m p.core.ea) (fun v q => f (Word.ofBytes v q.core.tmp) q)

/-- W of the low byte of a 16-bit operand. -/
def writeLow (m : Mode) (g : Cpu → Word) : Micro := fun p =>
  (p.writeByte (p.dataAddr m) (g p.cpu).lo).modCore (fun k => { k with ea := p.dataAddr m })

/-- W of the high byte. -/
def writeHigh (m : Mode) (g : Cpu → Word) : Micro := fun p => p.writeByte (highAddr m p.core.ea) (g p.cpu).hi

/-- W of a push: at S, then S := S − 1 (R36). -/
def pushByte (g : Pan → Byte) : Micro := fun p =>
  (p.writeByte p.cpu.s (g p)).modCpu (fun c => { c with s := c.s - 1 })

/-- R of a pop: S := S + 1, then at S (R36). -/
def popByte (k : Byte → Micro) : Micro := fun p =>
  (p.modCpu (fun c => { c with s := c.s + 1 })).readByte (p.cpu.s + 1) k

/-- The first byte of a 16-bit value popped or of a vector, held in TMP (DESIGN CHOICE, as in `readLow`). -/
def holdLow (v : Byte) : Micro := fun p => p.modCore (fun k => { k with tmp := v })

/-- PC loaded. -/
def Pan.jumpTo (w : Word) (p : Pan) : Pan := p.modCpu (fun c => { c with pc := w })

/-- A branch's operand pan-cycle: the final one when the branch is not taken (R28, R35). -/
def branchOperand (taken : Cpu → Bool) (f : Cpu → Cpu) : Micro := fun p =>
  if taken (f p.cpu) then (p.operand).modCpu f else lastCycle (fun q => (q.operand).modCpu f) p

/-- A taken branch's internal pan-cycle: PC + r. -/
def branchTo : Micro := fun p =>
  (p.internal).modCpu (fun c => { c with pc := c.pc + Word.ofSigned p.core.opd.lo })

/-- `DJNZ` counts X down first (R35). -/
def djnzCount (c : Cpu) : Cpu := { c with x := c.x - 1 }

/-! ### Coprocessor issue (R51, R53) -/

/-- The operation in flight completes: results and flags are written, BUSY clears, source 19 is raised (R51). -/
def Pan.copDone (p : Pan) : Pan :=
  if p.cop.busy then
    { p with cop := { p.cop with r := p.cop.nextR, dz := p.cop.nextDz, ov := p.cop.nextOv, busy := false } }.pendSrc 19
  else p

/-- An operation issues in pan-cycle `clk`, with P, Q and the results as they stand at its start (R51, R52). -/
def Pan.copIssue (o : CopOp) (p : Pan) : Pan :=
  { p with cop := { p.cop with busy := true, op := o.code, due := p.clk + o.latency + 1,
                               nextR := o.result p.cpu.p p.cpu.q p.cop.r,
                               nextDz := o.dz p.cpu.p p.cpu.q p.cop.dz,
                               nextOv := o.ov p.cpu.p p.cpu.q p.cop.r p.cop.ov } }

/-- An operation is in flight and the pan-cycle is at or before f + L. -/
def Pan.copStalls (p : Pan) : Bool := p.cop.busy && decide (p.clk < p.cop.due)

/-- The fetch pan-cycle of a coprocessor opcode: it issues, or is the first stall pan-cycle (R53). -/
def copFetch (o : CopOp) : Micro := fun p =>
  if p.copStalls then (p.fetched).modCore (fun k => { k with cpStall := true })
  else lastCycle (fun q => (q.fetched).copIssue o) p.copDone

/-- The stall pan-cycles through f + L pass, the operation in flight completes, and the new one issues in f + L + 1. -/
def copWait (o : CopOp) : Micro := fun p =>
  let q := if p.copStalls then { p with clk := p.cop.due } else p
  lastCycle (fun r => r.copIssue o) ((q.copDone).modCore (fun k => { k with cpStall := false }))

/-! ### Plans (R28) -/

/-- The product is delivered 6 pan-cycles after the final pan-cycle (R49). -/
def Pan.mulIssue (g : Cpu → Word) (p : Pan) : Pan :=
  { p with mul := { p.mul with inFlight := p.mul.inFlight ++ [(p.clk + 6, g p.cpu)] } }

/-- The request of a host-call, handed to the device at the end of its final pan-cycle, with the registers as they stand at
its start (R55). -/
def Pan.hostCallOut (n : Fin 8) (p : Pan) : Pan :=
  p.send (.hostCall (BitVec.ofNat 8 n.val) (p.hc.seq + 1) p.cpu.a p.cpu.b p.cpu.p p.cpu.q p.hc.arg.toList p.frame
    p.frameCyc p.sys.frameCount.toNat)

/-- `WAI`'s fetch: the processor idles from the next pan-cycle on (R38). -/
def waiFetch : Micro := fun p => (p.fetched).modCore (fun k => { k with wait := true })

/-- The `REP` pan-cycle: the target is fetched next; it is no sampling point (R46). After it, and between iterations, CYC and OPC are 0
(DESIGN CHOICE: R61 gives 0 at an instruction boundary and does not say that these are none; notes/assumptions/44.md). -/
def repFetch : Micro := fun p => (p.fetched).modCore (fun k => { k.finish with rep := true })

/-- The operand pan-cycles of a form. -/
def operandCycles (m : Mode) : List Micro := List.replicate (operandBytes m) Pan.operand

/-- The pan-cycles after the operands of a jump through memory, and of `JMP a` and `JMP [P]`. -/
def jmpPlan (m : Mode) : List Micro :=
  match m with
  | .abs => [Pan.fetched, Pan.operand, lastCycle (fun p => let q := p.operand; q.jumpTo q.core.opd)]
  | .indP => [Pan.fetched, lastCycle (fun p => (p.internal).jumpTo p.cpu.p)]
  | _ => [Pan.fetched, Pan.operand, Pan.operand, readLow m, lastCycle (readHigh m (fun w p => p.jumpTo w))]

/-- `CALL a` and `CALL [P]`. -/
def callPlan (m : Mode) : List Micro :=
  match m with
  | .abs => [Pan.fetched, Pan.operand, Pan.operand, pushByte (fun p => p.cpu.pc.hi),
             lastCycle (fun p => (pushByte (fun q => q.cpu.pc.lo) p).jumpTo p.core.opd)]
  | _ => [Pan.fetched, Pan.internal, pushByte (fun p => p.cpu.pc.hi),
          lastCycle (fun p => (pushByte (fun q => q.cpu.pc.lo) p).jumpTo p.cpu.p)]

/-- A load in a form. -/
def loadPlan (f : Byte → Cpu → Cpu) (m : Mode) : List Micro :=
  match m with
  | .imm => [Pan.fetched, lastCycle (fun p => let q := p.operand; q.modCpu (f q.core.opd.lo))]
  | _ => Pan.fetched :: operandCycles m ++ [lastCycle (readData m f)]

/-- A 16-bit load in a form. -/
def load16Plan (f : Word → Cpu → Cpu) (m : Mode) : List Micro :=
  match m with
  | .imm16 => [Pan.fetched, Pan.operand, lastCycle (fun p => let q := p.operand; q.modCpu (f q.core.opd))]
  | _ => Pan.fetched :: operandCycles m ++ [readLow m, lastCycle (readHigh m (fun w p => p.modCpu (f w)))]

/-- The W pan-cycle of a read-modify-write: the new byte and the flags. -/
def modifyWrite (g : Byte → Byte → Byte × Byte) : Micro := fun p =>
  (p.writeByte p.core.ea (g p.core.tmp p.cpu.f).1).modCpu (fun c => { c with f := (g p.core.tmp p.cpu.f).2 })

/-- A read-modify-write in a form, or of A. -/
def modifyPlan (g : Byte → Byte → Byte × Byte) (m : Mode) : List Micro :=
  match m with
  | .acc => [lastCycle (fun p => (p.fetched).modCpu (Cpu.onA g))]
  | _ => Pan.fetched :: operandCycles m ++ [readLow m, Pan.internal, lastCycle (modifyWrite g)]

/-- The second pan-cycle of `BRK` and the third of interrupt entry: F is pushed, then I := 1 (R43, R44). -/
def pushFlags : Micro := fun p => (pushByte (fun q => q.cpu.f) p).modCpu Cpu.sei

/-- R of the low byte of a vector. -/
def vectorLow (a : Word) : Micro := fun p => p.readByte a holdLow

/-- R of the high byte of a vector: PC := vector. -/
def vectorHigh (a : Word) : Micro := fun p =>
  p.readByte (a + 1) (fun v q => q.jumpTo (Word.ofBytes v q.core.tmp))

/-- The last pan-cycle of `RTI`: PC from the two bytes popped, F from the third (R45). -/
def rtiLast : Micro := popByte (fun v p =>
  (p.jumpTo p.core.ea).modCpu (fun c => { c with f := flagByte v }))

/-- The fourth pan-cycle of `RTI`: the high byte of PC joins the low one, in EA (DESIGN CHOICE, as in `readLow`). -/
def rtiHigh : Micro := popByte (fun v p => p.modCore (fun k => { k with ea := Word.ofBytes v k.tmp }))

/-- `MVB`'s W pan-cycle: the byte goes to Q, then P and Q count up (R37). -/
def mvbWrite : Micro := fun p =>
  (p.writeByte p.cpu.q p.core.tmp).modCpu (fun c => { c with p := c.p + 1, q := c.q + 1 })

/-- The pan-cycles of an operation in a form, F first. -/
def plan : Action → Mode → List Micro
  | .reg f, _ => [lastCycle (fun p => (p.fetched).modCpu f)]
  | .reg16 f, _ => [Pan.fetched, lastCycle (fun p => (p.internal).modCpu f)]
  | .load f, m => loadPlan f m
  | .load16 f, m => load16Plan f m
  | .store g, m => Pan.fetched :: operandCycles m ++ [lastCycle (writeData m g)]
  | .store16 g, m => Pan.fetched :: operandCycles m ++ [writeLow m g, lastCycle (writeHigh m g)]
  | .modify g, m => modifyPlan g m
  | .lea f, _ => [Pan.fetched, Pan.operand, lastCycle (fun p => (p.internal).modCpu (f (Word.ofSigned p.core.opd.lo)))]
  | .cmp16 f, _ => [Pan.fetched, Pan.operand, Pan.operand, lastCycle (fun p => (p.internal).modCpu (f p.core.opd))]
  | .branch c, _ => [Pan.fetched, branchOperand c.holds id, lastCycle branchTo]
  | .djnz, _ => [Pan.fetched, branchOperand (fun c => c.x != 0) djnzCount, lastCycle branchTo]
  | .jmp, m => jmpPlan m
  | .call, m => callPlan m
  | .ret, _ => [Pan.fetched, Pan.internal, popByte holdLow,
                lastCycle (popByte (fun v p => p.jumpTo (Word.ofBytes v p.core.tmp)))]
  | .rti, _ => [Pan.fetched, Pan.internal, popByte holdLow, rtiHigh, lastCycle rtiLast]
  | .push g, _ => [Pan.fetched, lastCycle (pushByte (fun p => g p.cpu))]
  | .push16 g, _ => [Pan.fetched, pushByte (fun p => (g p.cpu).hi), lastCycle (pushByte (fun p => (g p.cpu).lo))]
  | .pop f, _ => [Pan.fetched, Pan.internal, lastCycle (popByte (fun v p => p.modCpu (f v)))]
  | .pop16 f, _ => [Pan.fetched, Pan.internal, popByte holdLow,
                    lastCycle (popByte (fun v p => p.modCpu (f (Word.ofBytes v p.core.tmp))))]
  | .mvb, _ => [Pan.fetched, readLow .indP, lastCycle mvbWrite]
  | .wai, _ => [waiFetch]
  | .rep, _ => [repFetch]
  | .brk, _ => [Pan.fetched, pushFlags, pushByte (fun p => p.cpu.pc.hi), pushByte (fun p => p.cpu.pc.lo),
                vectorLow 0xFFFA, lastCycle (vectorHigh 0xFFFA)]
  | .mul g, _ => [Pan.fetched, lastCycle (fun p => (p.internal).mulIssue g)]
  | .cop o, _ => [copFetch o, copWait o]
  | .hc n, _ => [Pan.fetched, Pan.internal, Pan.internal, lastCycle (fun p => (p.internal).hostCallOut n)]

/-- A plan run from its first pan-cycle until the instruction ends or faults. -/
def runPlan : List Micro → Pan → Pan
  | [], p => p
  | u :: us, p =>
    let q := p.microNext u
    if q.core.cyc = 0 then q else runPlan us q

/-! ### The reset sequence (R26) -/

/-- One pan-cycle of it: four internal, then the reads of $FFFE and $FFFF. -/
def Pan.resetCycle (p : Pan) : Pan :=
  let q := p.modCore (fun k => { k with resetLeft := k.resetLeft - 1 })
  if p.core.resetLeft = 2 then q.modCore (fun k => { k with tmp := p.peek 0xFFFE })
  else if p.core.resetLeft = 1 then
    (q.jumpTo (Word.ofBytes (p.peek 0xFFFF) p.core.tmp)).modCore (fun k => { k with tmp := 0 })
  else q

/-- `n` pan-cycles of it. -/
def Pan.resetCycles : Nat → Pan → Pan
  | 0, p => p
  | n + 1, p => Pan.resetCycles n (p.resetCycle).spend

/-- The pan with its reset sequence behind it. -/
def Pan.afterReset (p : Pan) : Pan := p.resetCycles p.core.resetLeft

/-! ### One instruction -/

/-- The processor is ready to begin an instruction: nothing in progress, no interrupt sampled and not yet entered, not
waiting, not faulted. -/
def Pan.ready (p : Pan) : Bool :=
  p.core.cyc == 0 && p.core.entry == 0 && !p.core.wait && !p.core.hcWait && !p.core.rep && !p.core.samp.taken &&
    p.core.fault == 0

/-- The operation and form at PC. -/
def Pan.opAt (p : Pan) : Option (Op × Mode) := decodeOp (p.peek p.cpu.pc)

/-- One instruction of an operation and form, if it is the one at PC. -/
def Pan.execOp (o : Op) (m : Mode) (p : Pan) : Option Pan :=
  let q := (p.settle).afterReset
  if q.ready && q.opAt == some (o, m) then some (runPlan (plan o.action m) q) else none

/-- The fetch of an undefined opcode faults in its pan-cycle, with no architectural effect (R60). -/
def Pan.illegal (p : Pan) : Pan := (p.faultWith 1 p.cpu.pc).spend

/-! ### REP (R46 to R48) -/

/-- The fetch of the target: undefined and forbidden targets fault (R47), with K = 0 it is skipped (the only sampling point
of the skip), else an iteration begins. -/
def repTarget (u : List Micro → Micro) : Micro := fun p =>
  match p.opAt with
  | none => p.faultWith 1 p.core.start
  | some (o, m) =>
    if o.repForbidden then p.faultWith 2 p.core.start
    else if p.cpu.k = 0 then
      lastCycle (fun q => ((q.fetched).jumpTo (q.cpu.pc + BitVec.ofNat 16 (instrLength m))).modCore
        (fun k => { k with rep := false })) p
    else u (plan o.action m) p

/-- One iteration whole, or the pan-cycle in which the target faults or is skipped. -/
def Pan.repIteration (p : Pan) : Pan :=
  let q := p.settle
  match q.opAt with
  | none => (q.faultWith 1 q.core.start).spend
  | some (o, m) =>
    if o.repForbidden || q.cpu.k == 0 then (repTarget (fun _ r => r) q).spend else runPlan (plan o.action m) q

/-- Iterations until the sequence ends, an interrupt is sampled or the pan faults (R46, R48). -/
def Pan.repRun : Nat → Pan → Pan
  | 0, p => p
  | n + 1, p => if p.core.rep && !p.core.samp.taken && p.core.fault == 0 then Pan.repRun n p.repIteration else p

/-- The processor stands within a `REP` sequence, before an iteration. -/
def Pan.inRep (p : Pan) : Bool :=
  p.core.rep && p.core.cyc == 0 && p.core.entry == 0 && !p.core.samp.taken && p.core.fault == 0

/-- `REP` with its target: the prefix's pan-cycle, then the sequence. -/
def Pan.execRep (p : Pan) : Option Pan :=
  let q := (p.settle).afterReset
  if q.inRep then some (Pan.repRun 257 q)
  else (q.execOp .rep .implied).map (Pan.repRun 257)

/-! ### Interrupt entry (R41 to R43, R155) -/

/-- The lock of a sampled IRQ: the winner found at the sampling point, whose pan-cycle began in native mode, and a write of that
pan-cycle to `LEGACY` is ignored, LOCK being 1 (R153, R155). -/
def Ic.lockedBy (w : Option Nat) (c : Ic) : Ic := { c with lock := w.or c.lock, legacy := c.legacy && w.isNone }

/-- An entry is committed at the end of the sampling pan-cycle: NMI takes its edge; for IRQ native mode locks the winner. An edge that
an `INACK` delivers in that pan-cycle merges with the one taken, one that a placement brings at its end stays for the next entry
(DESIGN CHOICE: R41 merges edges that arrive before the first is taken and does not say at what point of the pan-cycle it is;
notes/assumptions/45.md). -/
def Pan.commitEntry (p : Pan) : Pan :=
  let s := p.core.samp
  if s.committed || !s.taken then p
  else
    let q := p.modCore (fun k => { k with samp := { s with committed := true }, nmi := k.nmi && !s.nmi })
    if s.nmi then q else q.modIc (Ic.lockedBy s.winner)

/-- Entry begins: the return address is PC, or the prefix of a `REP` sequence with iterations left (R43, R48). -/
def Pan.beginEntry (p : Pan) : Pan :=
  let q := p.commitEntry
  let ret := if q.core.rep then q.core.start else q.cpu.pc
  (q.jumpTo ret).modCore (fun k => { k with entry := if p.core.samp.nmi then 2 else 1, rep := false, samp := Sample.none, undo := [],
                                            start := ret, saved := { q.cpu with pc := ret } })

/-- The vector of an entry. -/
def entryVector (e : Nat) : Word := if e = 2 then 0xFFF8 else 0xFFFC

/-- The end of interrupt entry; it is no sampling point. -/
def Pan.endEntry (p : Pan) : Pan := (p.resolveLine).modCore (fun k => { k.finish with entry := 0 })

/-- The last pan-cycle of an entry. -/
def entryLast (e : Nat) : Micro := fun p =>
  let q := vectorHigh (entryVector e) p
  if q.abort then q else q.endEntry

/-- The six pan-cycles of interrupt entry (R43). -/
def entryPlan (e : Nat) : List Micro :=
  [Pan.internal, pushFlags, pushByte (fun p => p.cpu.pc.hi), pushByte (fun p => p.cpu.pc.lo),
   vectorLow (entryVector e), entryLast e]

/-- Interrupt entry whole. -/
def Pan.enter (p : Pan) : Pan :=
  let q := (p.settle).beginEntry
  runPlan (entryPlan q.core.entry) q

/-- An interrupt was sampled at the end of the last instruction and is to be entered. -/
def Pan.canEnter (p : Pan) : Bool := p.core.samp.taken && p.core.cyc == 0 && p.core.entry == 0 && p.core.fault == 0

/-! ### WAI (R38) -/

/-- An idle pan-cycle: a sampled NMI or admitted IRQ commits an entry, an IRQ with I = 1 ends `WAI`. -/
def Pan.idle (p : Pan) : Pan :=
  let s := p.sampleNow
  if s.taken then p.modCore (fun k => { k.finish with wait := false, samp := s })
  else if s.req then p.modCore (fun k => { k.finish with wait := false, samp := Sample.none })
  else p

/-- An idle `WAI` wakes: the idle pan-cycle that samples the request, and the entry that follows. -/
def Pan.wake (p : Pan) : Pan :=
  let q := ((p.settle).idle).spend
  if q.core.samp.taken then q.enter else q

/-- The pan-cycle count moved up to an event's while `WAI` idles and nothing is requested (R38: the raster, timers and sound
run on). -/
def Pan.reach (t : Nat) (p : Pan) : Pan :=
  let q := p.settle
  if q.core.wait && decide (p.clk < t) && !q.sampleNow.taken && !q.sampleNow.req then { q with clk := t } else p

/-! ### One pan-cycle of the processor -/

/-- The entry of a plan for the next pan-cycle. -/
def planStep (us : List Micro) : Micro := fun p =>
  match us[p.core.cyc]? with
  | some u => p.micro u
  | none => p

/-- The pan-cycle at the start of an instruction. -/
def Pan.startCycle (p : Pan) : Pan :=
  if p.core.samp.taken then let q := p.beginEntry; planStep (entryPlan q.core.entry) q
  else if p.core.rep then repTarget planStep p
  else match p.opAt with
    | none => p.faultWith 1 p.cpu.pc
    | some (o, m) => planStep (plan o.action m) p

/-- The processor's own pan-cycle, whatever it is in the middle of. -/
def Pan.cpuCycle (p : Pan) : Pan :=
  if p.core.fault ≠ 0 then p
  else if p.core.resetLeft ≠ 0 then p.resetCycle
  else if p.core.entry ≠ 0 then planStep (entryPlan p.core.entry) p
  else if p.core.wait then p.idle
  else if p.core.cyc = 0 then p.startCycle
  else match decodeOp p.core.opc with
    | none => p
    | some (o, m) =>
      if p.core.cpStall then (if p.copStalls then p else planStep (plan o.action m) p)
      else planStep (plan o.action m) p

end Sys2Proof.Machine
end

