-- ==== Sys2Proof/Machine/PanPorts.lean ====
section
/-!
DEFINITION. The pan's DMA channels moving (R77 to R82), the refill of S0 through channel 3 (R173), block reads of the CRC
unit (R88), and what a placement does to the pan: input records, attach and detach, mailbox messages, host-call replies and
deadlines, movie commits (R56, R84, R90 to R96, R129).
-/
namespace Sys2Proof.Machine

/-! ### DMA bytes (R77, R80) -/

/-- The byte at a channel's source. -/
def Pan.dmaSource (p : Pan) (d : Dma) : Byte :=
  let x := spaceAddr d.sspace d.src
  match d.sspace with
  | 0 => p.peek (BitVec.ofNat 16 x)
  | 1 => p.vram.read x
  | 2 => p.mediaByte x
  | _ => p.romByte x

/-- A byte written at a channel's destination; a line-scope effect comes 4 dots after the write pan-cycle (R107). -/
def Pan.dmaStore (d : Dma) (v : Byte) (p : Pan) : Pan :=
  let x := spaceAddr d.dspace d.dst
  match d.dspace with
  | 0 => p.pokeAt (2 * p.clk + 4) (BitVec.ofNat 16 x) v
  | 1 => { p with vram := p.vram.write x v }.markGrain (144 + x / 256)
  | 2 => if x < p.cfg.mediaLen then { p with media := p.media.write x v } else p
  | _ => p

/-- The source byte of S0's pass. -/
def Pan.s0Source (p : Pan) : Byte := p.dmaSource p.dma[3]

/-- The read pan-cycle of a byte. -/
def Pan.dmaRead (n : Fin 4) (p : Pan) : Pan :=
  { p.modDma n (fun d => { d with held := some (p.dmaSource d) }) with dmaCur := some n }

/-- The byte is written, REM and the unit fall by one, the addresses advance. -/
def Dma.moved (d : Dma) : Dma :=
  { d with held := none, rem := d.rem - 1, unitLeft := d.unitLeft - 1,
           src := stepAddr d.sspace d.sstep d.src, dst := stepAddr d.dspace d.dstep d.dst }

/-- A pass ends with its last byte: LOOP starts another, otherwise fetching ends (R173). -/
def Pan.s0PassEnd (p : Pan) : Pan :=
  if p.snd.s0.passLeft ≠ 0 then p
  else if p.snd.s0.ctl.getLsbD 5 then p.s0PassStart
  else (p.modS0 (fun s => { s with fetchEnd := true })).modDma 3 (fun d => { d with busy := false, rem := 0 })

/-- The write pan-cycle of a byte of S0's refill: it enters the FIFO. -/
def Pan.s0Moved (v : Byte) (p : Pan) : Pan :=
  let space := (p.dma[3]).sspace
  let q := p.modS0 (fun s => { S0.push v s with passAddr := stepAddr space 0 s.passAddr, passLeft := s.passLeft - 1 })
  let r := q.modDma 3 (fun d => { d with held := none, unitLeft := d.unitLeft - 1, src := q.snd.s0.passAddr,
                                         rem := q.snd.s0.passLeft })
  if (r.dma[3]).unitLeft ≠ 0 ∧ (r.dma[3]).refused true then r.s0Refuse else r.s0PassEnd

/-- Half of LEN has moved and HALF has not set since the last START (R81). -/
def Dma.halfDue (d : Dma) : Bool :=
  d.busy && !d.halfDone && decide (2 ≤ d.length) && decide (ceilDiv d.length 2 ≤ d.length - d.rem)

/-- HALF sets, and raises source 12 + n under IEH. -/
def Pan.dmaHalf (n : Fin 4) (p : Pan) : Pan :=
  let d := p.dma[n]
  if d.halfDue && !(n == 3 && p.owned) then
    let q := p.modDma n (fun d => { d with half := true, halfDone := true })
    if d.ctl.getLsbD 1 then q.pendSrc (12 + n.val) else q
  else p

/-- A byte has moved: a refused next byte of the unit stops the channel, once the byte that moved has set its HALF (R78, R81). -/
def Pan.dmaMoved (n : Fin 4) (p : Pan) : Pan :=
  let q := p.modDma n Dma.moved
  if (q.dma[n]).unitLeft ≠ 0 ∧ (q.dma[n]).refused false then (q.dmaHalf n).modDma n Dma.stopErr else q

/-- The write pan-cycle of a byte. -/
def Pan.dmaWrite (n : Fin 4) (p : Pan) : Pan :=
  match (p.dma[n]).held with
  | none => p
  | some v =>
    if n = 3 ∧ p.owned then (p.s0Moved v).dmaSettle
    else ((p.dmaStore p.dma[n] v).dmaMoved n).dmaSettle

/-- REM has reached 0, and HALF has set before (R81). -/
def Dma.fullDue (d : Dma) : Bool := d.busy && decide (d.rem = 0) && decide (d.unitLeft = 0) && !d.halfDue

/-- `MV_AUTO` marks its buffer ready when its channel sets FULL (R129). -/
def Pan.mvAuto (n : Fin 4) (p : Pan) : Pan :=
  if p.ras.auto.getLsbD 7 ∧ bits p.ras.auto 5 4 = n.val then
    p.mvReady (setBit p.ras.ready (bits p.ras.auto 1 0) true)
  else p

/-- FULL sets and BUSY clears; source 12 + n is raised under IEF, and a movie buffer may become ready (R81, R129). -/
def Pan.dmaFull (n : Fin 4) (p : Pan) : Pan :=
  let d := p.dma[n]
  if d.fullDue && !(n == 3 && p.owned) then
    let q := p.modDma n (fun d => { d with full := true, busy := false })
    let r := if d.ctl.getLsbD 0 then q.pendSrc (12 + n.val) else q
    r.mvAuto n
  else p

/-- The channel whose unit moves next: the one moving, else the lowest-numbered with a unit pending (R80). -/
def Pan.dmaTurn (p : Pan) : Option (Fin 4) :=
  match p.dmaCur with
  | some n => if (p.dma[n]).unitLeft = 0 then (List.finRange 4).find? (fun k => (p.dma[k]).unitLeft != 0) else some n
  | none => (List.finRange 4).find? (fun k => (p.dma[k]).unitLeft != 0)

/-- One stolen pan-cycle of a channel. -/
def Pan.dmaCycle (n : Fin 4) (p : Pan) : Pan := if (p.dma[n]).held.isSome then p.dmaWrite n else p.dmaRead n

/-- A pending unit moved whole: two stolen pan-cycles per byte, until it ends or a refused byte stops it. -/
def Pan.dmaUnit : Nat → Fin 4 → Pan → Pan
  | 0, _, p => p
  | k + 1, n, p =>
    let q := p.settle
    if (q.dma[n]).unitLeft = 0 then q else Pan.dmaUnit k n ((((q.dmaRead n).spend).dmaWrite n).spend)

/-! ### CRC blocks (R88) -/

/-- One stolen pan-cycle: the byte is read as the processor would read it, with its side effects, and folded in. -/
def Pan.crcCycle (p : Pan) : Pan :=
  let a := p.crc.next
  let v := p.peek a
  (p.touch a).modCrc (fun c => { c with ctx := crcFold c.poly c.ctx v, next := c.next + 1, left := c.left - 1 })

/-- The end of the block: BUSY clears, DONE sets, source 21 is raised under IE. -/
def Pan.crcFinish (p : Pan) : Pan :=
  if p.crc.busy && p.crc.left == 0 then
    let q := p.modCrc (fun c => { c with busy := false, done := true })
    if p.crc.ie then q.pendSrc 21 else q
  else p

/-- The bytes of the block still to be read. -/
def Pan.crcRest : Nat → Pan → Pan
  | 0, p => p
  | k + 1, p => Pan.crcRest k ((p.settle).crcCycle).spend

/-! ### Placements (R56, R84, R90 to R96) -/

/-- An input record placed: offsets 0 to 6, NEW, UPD and, for a record applied late, LATE (R90). -/
def InSlot.place (d : Vector Byte 7) (late : Bool) (s : InSlot) : InSlot :=
  { s with data := d, new := true, upd := s.upd + 1, late := s.late || late }

/-- An attach (R92). -/
def InSlot.attach (s : InSlot) : InSlot := { s with att := true, chg := true }

/-- A detach: offsets 0 to 6 become $00 (R92). -/
def InSlot.detach (s : InSlot) : InSlot := { s with att := false, chg := true, data := Vector.replicate 7 0 }

/-- A reply loads HC_RES and ends the call (R56). -/
def HostCall.reply (r : Vector Byte 8) (h : HostCall) : HostCall := { h with res := r, pend := false, done := true }

/-- A timeout ends the call (R56). -/
def HostCall.timedOut (h : HostCall) : HostCall := { h with pend := false, tmo := true }

/-- C set or cleared. -/
def Cpu.setC (b : Bool) (c : Cpu) : Cpu := { c with f := setBit c.f 0 b }

/-- A reply in its synchronous form, in force from the pan-cycle after the host-call's final one: A, B, C too (R56). -/
def Pan.syncReply (r : Vector Byte 8) (p : Pan) : Pan :=
  ((p.modHc (HostCall.reply r)).modCpu (fun c => { c.setC false with a := r[0], b := r[1] })).modCore
    (fun k => { k with hcWait := false })

/-- A timeout in its synchronous form: C := 1 (R56). -/
def Pan.syncTimeout (p : Pan) : Pan :=
  ((p.modHc HostCall.timedOut).modCpu (Cpu.setC true)).modCore (fun k => { k with hcWait := false })

/-- A reply placed in a real-time mode: source 20 is raised (R56). -/
def Pan.asyncReply (r : Vector Byte 8) (p : Pan) : Pan := (p.modHc (HostCall.reply r)).pendSrc 20

/-- A deadline placed in a real-time mode (R56). -/
def Pan.asyncTimeout (p : Pan) : Pan := (p.modHc HostCall.timedOut).pendSrc 20

/-- Staged bytes enter the media region at a range (R84). -/
def Pan.mediaCommit (offset : Nat) (bs : List Byte) (p : Pan) : Pan :=
  { p with media := p.media.writeBytes offset bs }

/-- A message is placed: it waits in the queue, and is delivered at once when INFULL = 0 (R95). -/
def Pan.mbPlace (m : Message) (p : Pan) : Pan :=
  (p.modMb (fun b => { b with queue := b.queue ++ [m] })).mbDeliver

/-- The number of the host-call outstanding is the one a reply or deadline names. -/
def Pan.callIs (p : Pan) (seq : Byte) : Bool := p.hc.pend && p.hc.seq == seq

/-- What a placement does to the pan at the end of its pan-cycle. -/
def Pan.place (k : PlaceKind) (late : Bool) (p : Pan) : Pan :=
  match k with
  | .input s d => (p.modSlot s (InSlot.place d late)).raise 17
  | .attach s => (p.modSlot s InSlot.attach).pendSrc 18
  | .detach s => (p.modSlot s InSlot.detach).pendSrc 18
  | .message m => p.mbPlace m
  | .nmi => p.modCore (fun c => { c with nmi := true })
  | .hcReply s r => if p.callIs s then p.asyncReply r else p
  | .hcTimeout s => if p.callIs s then p.asyncTimeout else p
  | .movie r o bs => (p.mediaCommit o bs).mvReady (p.ras.ready ||| r)
  | .halt _ _ _ => p

end Sys2Proof.Machine
end

