-- ==== Sys2Proof/Machine/Compose.lean ====
section
/-!
DEFINITION. What the rake composes (R109, R116 to R128): sprite evaluation, tile, sprite and movie pixels, the fixed and the
programmable order, collisions, and a line of pixels from the line's samples, its frame-scope registers and the line-scope
values dot by dot.
-/
namespace Sys2Proof.Machine

/-! ### Line-scope values by dot (R107) -/

/-- A write inserted among others in the order of dot, then rank, then arrival. -/
def insertWrite (w : LineWrite) : List LineWrite → List LineWrite
  | [] => [w]
  | x :: t => if w.dot < x.dot ∨ (w.dot = x.dot ∧ w.rank < x.rank) then w :: x :: t else x :: insertWrite w t

/-- Writes in the order in which they take effect. -/
def sortWrites (l : List LineWrite) : List LineWrite := l.foldl (fun acc w => insertWrite w acc) []

/-- The values in force: scope registers and palette. -/
structure InForce where
  regs : LineRegs
  pal : Memory
  deriving DecidableEq, Repr

/-- A write takes effect. -/
def InForce.apply (f : InForce) (w : LineWrite) : InForce :=
  if 0xC00 ≤ w.addr then { f with pal := Memory.writeBytes f.pal (w.addr - 0xC00) [w.value.lo, w.value.hi] }
  else { f with regs := f.regs.move w.addr w.value }

/-- The writes whose dot has come at a dot, in order. -/
def dueWrites (dot : Nat) (q : List LineWrite) : List LineWrite :=
  sortWrites (q.filter (fun w => decide (w.dot ≠ 0) && decide (w.dot ≤ dot)))

/-- The values in force at a dot counted from reset. -/
def Pan.inForceAt (p : Pan) (dot : Nat) : InForce :=
  (dueWrites dot p.ras.lineQ).foldl InForce.apply { regs := p.ras.lineF, pal := p.ras.palF }

/-! ### Palette (R117) -/

/-- A 5-bit channel expanded to 8 bits. -/
def expand5 (c : Nat) : Nat := c * 8 + c / 4

/-- The RGB888 colour of a palette entry: red in the high byte. -/
def paletteColour (pal : Memory) (i : Nat) : BitVec 24 :=
  let e := (pal.read (2 * i)).toNat + 256 * (pal.read (2 * i + 1)).toNat
  BitVec.ofNat 24 (65536 * expand5 (e % 32) + 256 * expand5 (e / 32 % 32) + expand5 (e / 1024 % 32))

/-! ### Tile layers (R116) -/

/-- The pattern pixel of a tile in VRAM. -/
def patternPixel (vram : Memory) (base tile row col : Nat) (bpp8 : Bool) : Nat :=
  if bpp8 then (vram.read ((base + 64 * tile + 8 * row + col) % 65536)).toNat
  else
    let b := (vram.read ((base + 32 * tile + 4 * row + col / 2) % 65536)).toNat
    if col % 2 = 0 then b % 16 else b / 16

/-- What layer n resolves at active dot x of line v. -/
def tileDot (vram : Memory) (fr : FrameRegs) (lr : LineRegs) (n : Fin 4) (x v : Nat) : TileDot :=
  let ctl := fr.tCtl[n]
  let mw := if ctl.getLsbD 6 then 64 else 32
  let mh := if ctl.getLsbD 7 then 64 else 32
  let bpp8 := ctl.getLsbD 5
  let mx := (x + (lr.scx[n]).toNat) % (8 * mw)
  let my := (v + (lr.scy[n]).toNat) % (8 * mh)
  let ea := (fr.tMap[n]).toNat * 2048 + 2 * ((my / 8) * mw + mx / 8)
  let e := (vram.read (ea % 65536)).toNat + 256 * (vram.read ((ea + 1) % 65536)).toNat
  let col := if e / 8192 % 2 = 1 then 7 - mx % 8 else mx % 8
  let row := if e / 16384 % 2 = 1 then 7 - my % 8 else my % 8
  let px := patternPixel vram ((fr.tTile[n]).toNat * 8192) (e % 1024) row col bpp8
  { index := if bpp8 then px else 16 * (e / 1024 % 8) + px, pri := decide (32768 ≤ e), solid := decide (px ≠ 0) }

/-- A plane's pixel: palette entry and tile priority; none is transparent. -/
def TileDot.pixel (d : TileDot) : Option (Nat × Bool) := if d.solid then some (d.index, d.pri) else none

/-- The layer at a dot of the line the rake holds: the crust's entry where the line is read from it and the scroll is that of the build,
the fetched value otherwise (R247, R248). -/
def layerDot (row : Vector (Option CrustRow) 4) (r : Rake) (f : LineRegs) (n : Fin 4) (x : Nat) : TileDot :=
  match row[n] with
  | some k =>
    if k.scx = f.scx[n] ∧ k.scy = f.scy[n] then (k.dots[x]?).getD (tileDot r.vramS r.frameRegs f n x r.line)
    else tileDot r.vramS r.frameRegs f n x r.line
  | none => tileDot r.vramS r.frameRegs f n x r.line

/-! ### Sprites (R118 to R121) -/

/-- A 10-bit two's complement coordinate. -/
def coord10 (lo hi : Nat) : Int := signedOf 10 (lo + 256 * (hi % 4))

/-- A sprite of OAM. -/
structure Sprite where
  num : Nat
  x : Int
  y : Int
  w : Nat
  h : Nat
  pri : Nat
  hflip : Bool
  vflip : Bool
  tile : Nat
  bpp8 : Bool
  pal : Nat
  en : Bool
  coll : Bool
  deriving DecidableEq, Repr

/-- Sprite k of OAM (R118). -/
def spriteOf (oam : Memory) (k : Nat) : Sprite :=
  let b := fun i => (oam.read (8 * k + i)).toNat
  { num := k, x := coord10 (b 0) (b 1), y := coord10 (b 2) (b 3 % 4), w := 8 * 2 ^ (b 6 / 4 % 4), h := 8 * 2 ^ (b 6 % 4),
    pri := b 3 / 64, hflip := b 3 / 32 % 2 == 1, vflip := b 3 / 16 % 2 == 1, tile := b 4 + 256 * (b 5 % 4),
    bpp8 := b 5 / 128 == 1, pal := b 5 / 8 % 16, en := b 6 / 128 == 1, coll := b 6 / 16 % 2 == 1 }

/-- Whether a sprite qualifies for line v of a profile's width (R120). -/
def Sprite.qualifies (s : Sprite) (v hActive : Nat) : Bool :=
  s.en && decide (s.y ≤ (v : Int)) && decide ((v : Int) < s.y + s.h) && decide (s.x < (hActive : Int)) &&
    decide (0 < s.x + s.w)

/-- The sprites that qualify for a line, lowest number first. -/
def qualifying (oam : Memory) (v hActive : Nat) : List Nat :=
  (List.range 128).filter (fun k => (spriteOf oam k).qualifies v hActive)

/-- The pattern pixel of a sprite at screen position (x, v); 0 is transparent, also outside the sprite (R119). -/
def Sprite.pattern (s : Sprite) (vram : Memory) (base : Nat) (x v : Nat) : Nat :=
  let dx := (x : Int) - s.x
  let dy := (v : Int) - s.y
  if 0 ≤ dx ∧ dx < s.w ∧ 0 ≤ dy ∧ dy < s.h then
    let px := if s.hflip then s.w - 1 - dx.toNat else dx.toNat
    let py := if s.vflip then s.h - 1 - dy.toNat else dy.toNat
    patternPixel vram base ((s.tile + (py / 8) * (s.w / 8) + px / 8) % 1024) (py % 8) (px % 8) s.bpp8
  else 0

/-- The palette entry of an opaque sprite pixel. -/
def Sprite.entry (s : Sprite) (px : Nat) : Nat := if s.bpp8 then 256 + px else 256 + 16 * s.pal + px

/-- The sprite plane at a dot: the lowest-numbered drawn sprite that is opaque there, with its palette entry and PRI. -/
def spritePixel (r : Rake) (x : Nat) : Option (Nat × Nat) :=
  r.drawn.findSome? (fun k =>
    let s := spriteOf r.oamS k
    let px := s.pattern r.vramS (r.frameRegs.sprTile.toNat * 8192) x r.line
    if px = 0 then none else some (s.entry px, s.pri))

/-- The drawn sprites with COLL = 1 that are opaque at a dot (R121). -/
def collidersAt (r : Rake) (x : Nat) : List Nat :=
  r.drawn.filter (fun k =>
    let s := spriteOf r.oamS k
    s.coll && s.pattern r.vramS (r.frameRegs.sprTile.toNat * 8192) x r.line != 0)

/-! ### Movie layer (R126 to R128) -/

/-- Bytes of a buffer, rounded up to a multiple of 256 (R127). -/
def movieSize (sw sh : Nat) : Nat := ceilDiv (sw * sh * 3 / 2) 256 * 256

/-- One axis of sampling: nearest index, or (x0, x1, fraction) of the bilinear filter. -/
def movieAxis (filt : Bool) (chroma : Bool) (i step width : Nat) : Nat × Nat × Nat :=
  let pos := i * step + step / 2
  if filt then
    let u : Int := if chroma then fdiv ((pos : Int) - 256) 2 else (pos : Int) - 128
    let u := (max u 0).toNat
    let x0 := min (u / 256) (width - 1)
    (x0, min (x0 + 1) (width - 1), u % 256)
  else
    let c := min (if chroma then pos / 512 else pos / 256) (width - 1)
    (c, c, 0)

/-- A plane sampled at two axes (R128). -/
def movieSample (byte : Nat → Nat) (pitch : Nat) (ax ay : Nat × Nat × Nat) : Nat :=
  let s := fun x y => byte (y * pitch + x)
  (s ax.1 ay.1 * (256 - ax.2.2) * (256 - ay.2.2) + s ax.2.1 ay.1 * ax.2.2 * (256 - ay.2.2) +
    s ax.1 ay.2.1 * (256 - ax.2.2) * ay.2.2 + s ax.2.1 ay.2.1 * ax.2.2 * ay.2.2 + 32768) / 65536

/-- YCbCr to RGB888 (R128). -/
def ycbcrColour (m709 : Bool) (y cb cr : Nat) : BitVec 24 :=
  let k := if m709 then (1192, 1836, 218, 546, 2163) else (1192, 1634, 401, 833, 2065)
  let l : Int := (k.1 : Int) * ((y : Int) - 16)
  let u : Int := (cb : Int) - 128
  let v : Int := (cr : Int) - 128
  let r := clampInt 0 255 (fdiv (l + k.2.1 * v + 512) 1024)
  let g := clampInt 0 255 (fdiv (l - k.2.2.1 * u - k.2.2.2.1 * v + 512) 1024)
  let b := clampInt 0 255 (fdiv (l + k.2.2.2.2 * u + 512) 1024)
  BitVec.ofNat 24 (65536 * r.toNat + 256 * g.toNat + b.toNat)

/-- A byte of the media region as sampled, with the wrap of R127. -/
def mediaAt (media : Memory) (len : Nat) (a : Nat) : Nat :=
  let x := a % 4194304
  if x < len then (media.read x).toNat else 0

/-- The movie layer's colour at a dot; none is transparent (R128). -/
def moviePixel (r : Rake) (mediaLen : Nat) (x : Nat) : Option (BitVec 24) :=
  let f := r.frameRegs
  let sw := f.mvSw.toNat / 2 * 2
  let sh := f.mvSh.toNat / 2 * 2
  let i := (x : Int) - f.mvX.toInt
  let j := (r.line : Int) - f.mvY.toInt
  if r.mvOff ∨ sw = 0 ∨ sh = 0 ∨ ¬ (0 ≤ i ∧ i < f.mvOw.toNat ∧ 0 ≤ j ∧ j < f.mvOh.toNat) then none
  else
    let filt := f.mvCtl.getLsbD 7
    let base := f.mvBase.toNat * 256 + r.shown.toNat * movieSize sw sh
    let plane := fun off a => mediaAt r.mediaS mediaLen (base + off + a)
    let ax := movieAxis filt false i.toNat f.mvStepX.toNat sw
    let ay := movieAxis filt false j.toNat f.mvStepY.toNat sh
    let cx := movieAxis filt true i.toNat f.mvStepX.toNat (sw / 2)
    let cy := movieAxis filt true j.toNat f.mvStepY.toNat (sh / 2)
    let cs := sw * sh
    some (ycbcrColour (f.mvCtl.getLsbD 6) (movieSample (plane 0) sw ax ay)
      (movieSample (plane cs) (sw / 2) cx cy) (movieSample (plane (cs + cs / 4)) (sw / 2) cx cy))

/-! ### Composition (R123 to R125) -/

/-- The planes of one dot. -/
structure Planes where
  tile : Vector (Option (BitVec 24 × Bool)) 4
  sprite : Option (BitVec 24 × Nat)
  movie : Option (BitVec 24)
  deriving DecidableEq, Repr

/-- The planes at a dot; a layer that is not shown is transparent. -/
def planesAt (row : Vector (Option CrustRow) 4) (r : Rake) (mediaLen : Nat) (f : InForce) (x : Nat) : Planes :=
  { tile := Vector.ofFn (fun n : Fin 4 =>
      if f.regs.layerEn.getLsbD n.val then
        (layerDot row r f.regs n x).pixel.map (fun t => (paletteColour f.pal t.1, t.2))
      else none),
    sprite := if f.regs.layerEn.getLsbD 4 then (spritePixel r x).map (fun s => (paletteColour f.pal s.1, s.2)) else none,
    movie := if f.regs.layerEn.getLsbD 5 then moviePixel r mediaLen x else none }

/-- A tile plane of a priority. -/
def Planes.tileOf (q : Planes) (n : Fin 4) (pri : Bool) : Option (BitVec 24) :=
  match q.tile[n] with
  | some (c, b) => if b = pri then some c else none
  | none => none

/-- The sprite plane where its PRI places it. -/
def Planes.spriteOf (q : Planes) (pri : Nat) : Option (BitVec 24) :=
  match q.sprite with
  | some (c, k) => if k = pri then some c else none
  | none => none

/-- Fixed order, front first (R124). -/
def Planes.fixed (q : Planes) (backdrop : BitVec 24) : BitVec 24 :=
  (((q.tileOf 0 true).or <| (q.tileOf 1 true).or <| (q.tileOf 2 true).or <| (q.tileOf 3 true).or <|
    (q.spriteOf 0).or <| (q.tileOf 0 false).or <| (q.spriteOf 1).or <| (q.tileOf 1 false).or <|
    (q.spriteOf 2).or <| (q.tileOf 2 false).or <| (q.spriteOf 3).or <| (q.tileOf 3 false).or q.movie)).getD backdrop

/-- The layer a BLEND code names. -/
def Planes.layer (q : Planes) (code : Nat) : Option (BitVec 24) :=
  match code with
  | 1 => (q.tile[0]).map Prod.fst | 2 => (q.tile[1]).map Prod.fst | 3 => (q.tile[2]).map Prod.fst
  | 4 => (q.tile[3]).map Prod.fst | 5 => q.sprite.map Prod.fst | 6 => q.movie | _ => none

/-- One channel combined (R125). -/
def blendChannel (op c l : Nat) : Nat :=
  match op with
  | 0 => l | 1 => min (c + l) 255 | 2 => c - l | _ => (c + l) / 2

/-- A colour combined with a layer's. -/
def blendColour (op : Nat) (c l : BitVec 24) : BitVec 24 :=
  BitVec.ofNat 24 (65536 * blendChannel op (bits c 23 16) (bits l 23 16) + 256 * blendChannel op (bits c 15 8) (bits l 15 8) +
    blendChannel op (bits c 7 0) (bits l 7 0))

/-- Programmable order (R125): entries applied in order; a layer named before applies nothing. -/
def Planes.blend (q : Planes) : List Byte → List Nat → BitVec 24 → BitVec 24
  | [], _, c => c
  | b :: t, used, c =>
    let code := bits b 4 2
    if used.contains code then q.blend t used c
    else
      match q.layer code with
      | some l => q.blend t (code :: used) (blendColour (bits b 1 0) c l)
      | none => q.blend t (code :: used) c

/-- The pixel of a dot. -/
def pixelAt (row : Vector (Option CrustRow) 4) (r : Rake) (mediaLen : Nat) (f : InForce) (x : Nat) : BitVec 24 :=
  let q := planesAt row r mediaLen f x
  let backdrop := paletteColour f.pal 0
  if f.regs.blendCtl.getLsbD 7 then q.blend f.regs.blend.toList [] backdrop else q.fixed backdrop

/-- The writes due at a dot applied, and those still to come. -/
def takeDue (dot : Nat) (f : InForce) : List LineWrite → InForce × List LineWrite
  | [] => (f, [])
  | w :: t => if w.dot ≤ dot then takeDue dot (f.apply w) t else (f, w :: t)

/-- The values in force at each of `n` dots from a dot counted from reset on, given the sorted writes still to come. -/
def forceDots : Nat → Nat → InForce → List LineWrite → List InForce
  | 0, _, _, _ => []
  | n + 1, dot, f, ws =>
    let d := takeDue dot f ws
    d.1 :: forceDots n (dot + 1) d.1 d.2

/-- The values in force at each active dot of the line the rake holds (R107). -/
def Pan.lineForce (p : Pan) : List InForce :=
  forceDots p.hActive p.rake.startDot { regs := p.ras.lineF, pal := p.ras.palF } (sortWrites (p.ras.lineQ.filter (fun w => w.dot ≠ 0)))

/-- The line the rake holds, composed (R107: from dot 0 in order). -/
def Pan.composeLine (fs : List InForce) (p : Pan) : List (BitVec 24) :=
  (fs.zipIdx).map (fun e => pixelAt p.crust.row p.rake p.cfg.mediaLen e.1 e.2)

/-! ### The rake's hints (R272) -/

/-- The mark of a column of eight dots: a sprite is drawn at a dot that it covers, where the sprite layer is shown. -/
def Rake.columnMark (r : Rake) (fs : List InForce) (c : Nat) : BlockMark :=
  let here := (fs.drop (8 * c)).take 8
  let first := here.head?.map (fun f => f.regs)
  let covers := fun (s : Sprite) (x : Nat) => decide (s.x ≤ (x : Int)) && decide ((x : Int) < s.x + s.w)
  { shown := here.foldl (fun m f => m ||| f.regs.layerEn.setWidth 4) 0,
    scroll := Vector.ofFn (fun n : Fin 4 => (first.elim 0 (fun f => f.scx[n]), first.elim 0 (fun f => f.scy[n]))),
    sprites := r.drawn.filter (fun k => (here.zipIdx).any (fun e => e.1.regs.layerEn.getLsbD 4 && covers (spriteOf r.oamS k) (8 * c + e.2))) }

/-- The line's marks join the frame's, with the sprites first drawn on it. -/
def Rake.marked (r : Rake) (fs : List InForce) : Rake :=
  let ms := (List.range (fs.length / 8)).map (r.columnMark fs)
  let new := r.drawn.filter (fun k => ms.any (fun m => m.sprites.contains k) && !r.sprites.any (fun e => e.1 == k))
  { r with marks := ms :: r.marks, ctl := r.frameRegs.tCtl,
           sprites := r.sprites ++ new.map (fun k => (k, (spriteOf r.oamS k).x, (spriteOf r.oamS k).y)) }

/-- The mark of a block, from the marks of its column on its lines. -/
def blockMark (ms : List BlockMark) : BlockMark :=
  { shown := ms.foldl (fun s m => s ||| m.shown) 0,
    scroll := (ms.head?.map (fun m => m.scroll)).getD (Vector.replicate 4 (0, 0)),
    sprites := (List.range 128).filter (fun k => ms.any (fun m => m.sprites.contains k)) }

/-- The hints of the frame's first `h` lines. -/
def Rake.hints (r : Rake) (w h : Nat) : Hints :=
  let ls := r.marks.reverse.take h
  { blocks := (List.range (ceilDiv h 8)).flatMap (fun j => (List.range (ceilDiv w 8)).map (fun i =>
      blockMark (((ls.drop (8 * j)).take 8).filterMap (fun l => l[i]?)))),
    ctl := r.ctl, sprites := r.sprites }

/-! ### The crust (R247 to R249) -/

/-- A layer's build under settings in force, holding no line. -/
def crustStart (f : FrameRegs) (l : LineRegs) (n : Fin 4) : CrustLayer :=
  { ctl := f.tCtl[n], map := f.tMap[n], tile := f.tTile[n], scx := l.scx[n], scy := l.scy[n], lines := [] }

/-- Two builds were made under the same settings. -/
def CrustLayer.sameAs (a b : CrustLayer) : Bool := { a with lines := [] } == { b with lines := [] }

/-- An address lies in a range of VRAM that wraps. -/
def inVram (base size a : Nat) : Bool := decide ((a + 65536 - base % 65536) % 65536 < size)

/-- A VRAM grain lies in the map region or the pattern region of the layer (R115, R116). -/
def CrustLayer.reads (c : CrustLayer) (n : Fin 4) (grain : Nat) : Bool :=
  let mw := if c.ctl.getLsbD 6 then 64 else 32
  let mh := if c.ctl.getLsbD 7 then 64 else 32
  let wide := c.ctl.getLsbD 5 && decide (n.val < 2)
  inVram (bits c.map 4 0 * 2048) (2 * mw * mh) (256 * grain) ||
    inVram (bits c.tile 2 0 * 8192) (if wide then 65536 else 32768) (256 * grain)

/-- A write has reached a grain the layer reads: none of its lines holds any more (R248). -/
def CrustLayer.spoil (c : CrustLayer) (n : Fin 4) (written : List Nat) : CrustLayer :=
  if written.any (c.reads n) then { c with lines := [] } else c

/-- A layer as the rake closes an active line: a line composed under the settings of the build joins it, unless it was read from it; a
line within which they changed ends the build (R248). -/
def CrustLayer.close (r : Rake) (fs : List InForce) (n : Fin 4) (served : Bool) (c : CrustLayer) : CrustLayer :=
  if fs.all (fun f => f.regs.scx[n] == c.scx && f.regs.scy[n] == c.scy) then
    if served then c
    else { c with lines := (r.line, (fs.zipIdx).map (fun e => tileDot r.vramS r.frameRegs e.1.regs n e.2 r.line)) :: c.lines }
  else { c with lines := [] }

/-- The crust as the rake closes an active line. -/
def Crust.close (r : Rake) (fs : List InForce) (k : Crust) : Crust :=
  { k with layers := Vector.ofFn (fun n : Fin 4 => (k.layers[n]).map (CrustLayer.close r fs n (k.row[n]).isSome)),
           row := Vector.replicate 4 none }

/-- A layer at the fetch point of an active line: only a declared layer is built, and a change of settings starts the build again. -/
def crustLayer (written : List Nat) (f : FrameRegs) (l : LineRegs) (n : Fin 4) (c : Option CrustLayer) : Option CrustLayer :=
  let fresh := crustStart f l n
  if f.staticMask.getLsbD n.val then some ((c.filter (fun k => k.sameAs fresh)).elim fresh (fun k => k.spoil n written)) else none

/-- The layer's entries for a line. -/
def CrustLayer.rowAt (v : Nat) (c : CrustLayer) : Option CrustRow :=
  (c.lines.find? (fun e => e.1 == v)).map (fun e => { scx := c.scx, scy := c.scy, dots := e.2 })

/-- The crust at the fetch point of line v, under the settings in force there: writes since the last fetch point drop the lines of the
layers that read them; an active line is read from the crust where it is held, and counted (R248, R249). -/
def Crust.fetch (active : Bool) (v : Nat) (f : FrameRegs) (l : LineRegs) (k : Crust) : Crust :=
  if active then
    let ls := Vector.ofFn (fun n : Fin 4 => crustLayer k.written f l n (k.layers[n]))
    let row := ls.map (fun c => c.bind (CrustLayer.rowAt v))
    { layers := ls, row := row, written := [], served := k.served + (if row.any (fun r => r.isSome) then 1 else 0) }
  else
    { k with layers := Vector.ofFn (fun n : Fin 4 => (k.layers[n]).map (fun c => c.spoil n k.written)), written := [] }

/-! ### A line closes -/

/-- An active line's pixels, marks and crust entries join the frame. -/
def Pan.joinLine (p : Pan) : Pan :=
  if p.rake.active then
    let fs := p.lineForce
    { p with rake := { p.rake.marked fs with lines := p.composeLine fs :: p.rake.lines, active := false },
             crust := p.crust.close p.rake fs }
  else p

/-- The line is complete: an active one joins the frame, and the values in force move on to the dot at which the next line starts. -/
def Pan.closeLine (nextDot : Nat) (p : Pan) : Pan :=
  let done := p.joinLine
  let f := p.inForceAt (nextDot - 1)
  done.modRas (fun r => { r with lineF := f.regs, palF := f.pal,
                                 lineQ := r.lineQ.filter (fun w => decide (w.dot = 0) || decide (nextDot ≤ w.dot)) })

/-- The bytes R, G, B of pixels in turn (R135). -/
def pixelBytes (ps : List (BitVec 24)) : List Byte :=
  ps.flatMap (fun c => [BitVec.ofNat 8 (bits c 23 16), BitVec.ofNat 8 (bits c 15 8), BitVec.ofNat 8 (bits c 7 0)])

/-- The composed frame of the lines the rake has closed, with its picture CRC (R135). -/
def Pan.composedFrame (p : Pan) : Picture :=
  let px := (p.rake.lines.reverse.take p.vActive).flatten
  { frame := p.frame, w := p.hActive, h := p.vActive, pixels := px, crc := crc32 (pixelBytes px),
    hints := p.rake.hints p.hActive p.vActive }

/-- The frame in progress, once the rake has composed its last active dot (R135). -/
def Pan.wholeFrame (p : Pan) : Option Picture :=
  let q := if p.rake.line + 1 = p.vActive ∧ p.rake.startDot + p.hActive ≤ 2 * p.clk then p.joinLine else p
  if q.rake.lines.length = p.vActive then some q.composedFrame else none

end Sys2Proof.Machine
end

