-- ==== Sys2Proof/Machine/PanRaster.lean ====
section
/-!
DEFINITION. The raster's events (R101, R105, R106, R109 to R112, R120, R121, R129 to R133): the frame latch, fetch points,
blanks, line compare, raster table entries, collisions and the end of a frame. Each event has a pan-cycle count from which it
is due; Machine/PanSteps.lean makes it a step.
-/
namespace Sys2Proof.Machine

/-! ### Positions -/

/-- The count at which line L of the current frame starts. -/
def Pan.lineStart (p : Pan) (l : Nat) : Nat := p.frameStart + l * p.cpl

/-- Source 3's pan-cycle comes HACTIVE/2 pan-cycles into the line and ends one later. -/
def Pan.hblankCyc (p : Pan) : Nat := p.hActive / 2 + 1

/-! ### HBLANK, VBLANK, LINE_CMP (R110, R112) -/

/-- Timers with CLK = 0b01 that run have a tick due at the raise of source 3 (R138). -/
def Pan.hblankTicks (p : Pan) : Pan :=
  { p with tm := p.tm.map (fun t => if t.run ∧ t.clkSel = 1 then { t with tickDue := true } else t) }

/-- Source 3 raised, captures made, and channels triggered by HBLANK given a unit (R80, R147). -/
def Pan.hblankRaise (p : Pan) : Pan :=
  (({ p with beam := { p.beam with hbAt := p.beam.hbAt + p.cpl } }).raise 3).dmaTrigger (fun d => d.trigCode == 1)

/-- Source 1 raised once in the frame, with captures and triggers. -/
def Pan.vblankRaise (p : Pan) : Pan :=
  (({ p with beam := { p.beam with vbDone := true } }).raise 1).dmaTrigger (fun d => d.trigCode == 2)

/-- The count at which VBLANK is due: the end of pan-cycle 0 of line VACTIVE. -/
def Pan.vblankAt (p : Pan) : Nat := p.lineStart p.vActive + 1

/-- Whether the frame has a line L, as far as it has come (R101). -/
def Pan.lineExists (p : Pan) (l : Nat) : Bool :=
  if p.cfg.elastic then decide (l ≤ p.beam.blankLine) else decide (l < p.ras.frameVt)

/-- The pan-cycle of the compare position, if it lies within the frame and the line (R112). -/
def Pan.comparePos (p : Pan) : Option Nat :=
  if p.lineExists p.ras.linecmp.toNat ∧ p.ras.linecmpCyc.toNat < p.cpl then some (p.lineStart p.ras.linecmp.toNat + p.ras.linecmpCyc.toNat) else none

/-- The compare position is reached in pan-cycle `clk - 1` or before, in this frame, with the value in force (R112). -/
def Pan.compareDue (p : Pan) (clk : Nat) : Bool :=
  match p.comparePos with
  | some t => decide (p.ras.cmpFrom ≤ t) && decide (t < clk)
  | none => false

/-- Source 2 raised at the end of the pan-cycle that has just run, whose compare was judged at its start: a compare written in
it applies from the next one (R112). -/
def Pan.compareNow (p : Pan) : Pan := (p.modRas (fun r => { r with cmpFrom := max r.cmpFrom p.clk })).raise 2

/-- Source 2 raised; it is raised once per arrival. -/
def Pan.compareRaise (p : Pan) : Pan :=
  match p.comparePos with
  | some t => (p.modRas (fun r => { r with cmpFrom := t + 1 })).raise 2
  | none => p

/-! ### The frame latch (R105, R106, R129, R130, R133) -/

/-- VTOTAL and VTOTAL_MAX clamped as they are copied (R114). -/
def clampLines (p : Pan) (v : BitVec 10) : BitVec 10 :=
  BitVec.ofNat 10 (clampNat (p.vActive + 4) p.cfg.lb v.toNat)

/-- A movie step clamped to $0040-$0400 (R126). -/
def clampStep (w : Word) : Word := BitVec.ofNat 16 (clampNat 0x40 0x400 w.toNat)

/-- The shadows as a copy puts them in force. -/
def Pan.copied (p : Pan) : FrameRegs :=
  let s := p.ras.shadow
  let vm := clampLines p s.vtotalMax
  { s with vtotal := clampLines p s.vtotal, vtotalMax := vm,
           vblankMin := BitVec.ofNat 8 (clampNat 1 (vm.toNat - p.vActive) s.vblankMin.toNat),
           mvStepX := clampStep s.mvStepX, mvStepY := clampStep s.mvStepY }

/-- Whether R133 refuses a channel's settings. -/
def RtRegs.bad (r : RtRegs) (cpl : Nat) : Bool :=
  r.ctl.getLsbD 7 &&
    (decide (cpl ≤ r.cyc.toNat) ||
      (if r.ctl.getLsbD 6 then !isLinePair r.tgt.toNat
       else !(isLineByte r.tgt.toNat || isLinePair r.tgt.toNat || isLinePair (r.tgt.toNat - 1))))

/-- The movie check of a copy (R129): SHOWN and OFF, LATE and the withheld SEL. -/
def Raster.movieCopy (r : Raster) (shown : Bool) : Raster :=
  let sel : BitVec 2 := r.shadow.mvCtl.setWidth 2
  if shown && !r.ready.getLsbD sel.toNat then
    { r with mvLate := true, withheld := some sel, mvOff := r.mvOff || bits r.shadow.mvCtl 5 4 == 1 }
  else { r with shown := sel, mvOff := false, withheld := none }

/-- The copy is late (R129). -/
def Raster.movieIsLate (r : Raster) (shown : Bool) : Bool :=
  shown && !r.ready.getLsbD (bits r.shadow.mvCtl 1 0)

/-- `LAYER_EN.MV` in force at the start of a pan-cycle. -/
def Pan.movieOn (p : Pan) (clk : Nat) : Bool := (p.inForceAt (2 * clk)).regs.layerEn.getLsbD 5

/-- A copy at the latch pan-cycle that starts at count `t`: every shadow moves into force, FRAME_COUNT and FLIP_TIME are
recorded, ARMED clears, the movie check and the raster table check are made (R106, R129, R133). -/
def Pan.latchCopy (t : Nat) (p : Pan) : Pan :=
  let f := p.copied
  let bad := f.rt.map (fun c => c.bad p.cpl)
  let line := (t - p.frameStart) / p.cpl
  let q := p.modRas (fun r =>
    { r.movieCopy (p.movieOn t) with
      force := f, armed := none, rtRefused := bad,
      rtErr := Vector.ofFn (fun n : Fin 4 => r.rtErr[n] || bad[n]),
      rtNext := r.rtNext.map (fun k => max k line) })
  q.modSys (fun s => { s with frameCount := s.frameCount + 1, flipTime := BitVec.ofNat 32 t })

/-- A latch without a copy retries a withheld movie buffer (R130). -/
def Raster.retry (r : Raster) : Raster :=
  match r.withheld with
  | some sel => if r.ready.getLsbD sel.toNat then { r with shown := sel, mvOff := false, withheld := none } else r
  | none => r

/-- The count at which the frame's latch pan-cycle starts (R105). -/
def Pan.latchAt (p : Pan) : Nat := if p.cfg.elastic then p.frameStart else p.lineStart p.vActive

/-- A commit that counts at this latch is armed. -/
def Pan.copyDue (p : Pan) : Bool :=
  match p.ras.armed with
  | some e => decide (e ≤ p.latchAt)
  | none => false

/-- ELASTIC: VTOTAL_MAX and VBLANK_MIN of the frame are those in force at the start of its line 0 (R101). -/
def Pan.frameSettings (p : Pan) : Pan :=
  p.modRas (fun r => { r with frameVt := r.force.vtotal.toNat, frameVtMax := r.force.vtotalMax.toNat,
                              frameVbMin := r.force.vblankMin.toNat })

/-- What happens just before the latch pan-cycle begins: the copy or the retry. -/
def Pan.latchBegin (p : Pan) : Pan :=
  let t := p.latchAt
  let q := if p.copyDue then p.latchCopy t else p.modRas Raster.retry
  let r := { q with beam := { q.beam with latchDone := true } }
  if p.cfg.elastic then r.frameSettings else r

/-- At the end of the latch pan-cycle of a copy: FLIP, and MV_LATE when the copy was late (R110). -/
def Pan.latchRaise (flip late : Bool) (p : Pan) : Pan :=
  let q := if flip then p.pendSrc 4 else p
  if late then q.pendSrc 23 else q

/-- Whether the coming latch copies late. -/
def Pan.lateDue (p : Pan) : Bool := p.copyDue && p.ras.movieIsLate (p.movieOn p.latchAt)

/-! ### Fetch points (R109, R120) -/

/-- The line whose fetch point is next. -/
def Pan.fetchLine (p : Pan) : Nat := (p.beam.fetchAt - p.frameStart) / p.cpl

/-- The rake closes the line it holds and samples VRAM, OAM and media for line v; it evaluates the sprites of an active
line. -/
def Pan.fetchSample (v : Nat) (p : Pan) : Pan :=
  let t := p.beam.fetchAt
  let q := p.closeLine (2 * t)
  let act := decide (v < q.vActive)
  { q with crust := q.crust.fetch act v q.ras.force (q.inForceAt (2 * t)).regs,
           rake := { q.rake with line := v, active := act, startDot := 2 * t, vramS := q.vram, oamS := q.oam,
                                 mediaS := q.media, drawn := if act then (qualifying q.oam v q.hActive).take 32 else [],
                                 frameRegs := q.ras.force, shown := q.ras.shown, mvOff := q.ras.mvOff },
           beam := { q.beam with fetchAt := t + q.cpl } }

/-- The 33rd sprite that qualifies on the line the rake holds, if there is one. -/
def Pan.overflowSprite (p : Pan) : Option Nat :=
  if p.rake.active then (qualifying p.rake.oamS p.rake.line p.hActive)[32]? else none

/-- The overflow recorded at the end of pan-cycle 0 (R120). -/
def Pan.overflowRecord (p : Pan) : Pan :=
  match p.overflowSprite with
  | some k => if p.ras.ovf then p else (p.modRas (fun r => { r with ovf := true, ovfNum := BitVec.ofNat 7 k })).pendSrc 5
  | none => p

/-! ### Collisions (R121) -/

/-- A collision at dot x of the line the rake holds, with COLL = 0, is recorded and raises source 6. -/
def Pan.collide (x : Nat) (p : Pan) : Pan :=
  if !p.ras.coll && p.rake.active && decide (x < p.hActive) && decide (2 ≤ (p.rake.drawn).length) then
    match collidersAt p.rake x with
    | a :: b :: _ =>
      if (p.inForceAt (p.rake.startDot + x)).regs.layerEn.getLsbD 4 then
        (p.modRas (fun r => { r with coll := true, collA := BitVec.ofNat 7 a, collB := BitVec.ofNat 7 b })).raise 6
      else p
    | _ => p
  else p

/-! ### Raster table channels (R132) -/

/-- The line at which a channel writes next in this frame. -/
def Pan.rtLine (p : Pan) (n : Fin 4) : Nat := max p.ras.rtNext[n] (p.ras.force.rt[n]).line.toNat

/-- The channel runs and has an entry for that line. -/
def Pan.rtActive (p : Pan) (n : Fin 4) : Bool :=
  let r := p.ras.force.rt[n]
  r.ctl.getLsbD 7 && !p.ras.rtRefused[n] && p.lineExists (p.rtLine n) && decide (p.rtLine n < r.line.toNat + r.count.toNat)

/-- The pan-cycle of that entry. -/
def Pan.rtAt (p : Pan) (n : Fin 4) : Nat := p.lineStart (p.rtLine n) + (p.ras.force.rt[n]).cyc.toNat

/-- A table byte: $00 in the I/O range, without side effects. -/
def Pan.tableByte (p : Pan) (a : Word) : Byte :=
  if 0xE000 ≤ a.toNat ∧ a.toNat < 0xF000 then 0 else p.peek a

/-- The bytes of a channel's next entry: one, or two when W2 = 1. -/
def Pan.rtRead (p : Pan) (n : Fin 4) : Byte × Byte :=
  let r := p.ras.force.rt[n]
  let k := p.rtLine n - r.line.toNat
  let a := r.addr + BitVec.ofNat 16 (k * (if r.ctl.getLsbD 6 then 2 else 1))
  (p.tableByte a, p.tableByte (a + 1))

/-- The entry is written; the last one sets DONE and raises source 7 under IE. -/
def Pan.rtWrite (n : Fin 4) (b : Byte × Byte) (p : Pan) : Pan :=
  let r := p.ras.force.rt[n]
  let v := p.rtLine n
  let dot := 2 * p.rtAt n + 4
  let q := p.rasWrite (p.rtAt n + 1) dot n.val r.tgt.toNat b.1
  let q := if r.ctl.getLsbD 6 then q.rasWrite (p.rtAt n + 1) dot n.val (r.tgt.toNat + 1) b.2 else q
  let q := q.modRas (fun s => { s with rtNext := vmod s.rtNext n (fun _ => v + 1) })
  if v + 1 = r.line.toNat + r.count.toNat then
    let e := q.modRas (fun s => { s with rtDone := vmod s.rtDone n (fun _ => true) })
    if r.ctl.getLsbD 5 then e.pendSrc 7 else e
  else q

/-! ### The end of a frame (R101, R105) -/

/-- A commit counts as armed at the end of line L. -/
def Pan.armedBy (p : Pan) (l : Nat) : Bool :=
  match p.ras.armed with
  | some e => decide (e ≤ p.lineStart (l + 1))
  | none => false

/-- MV_LATE = WAIT makes the movie wait at the end of blank line L (R129). The policy is that of the shadow, which the copy is about to put
in force (DESIGN CHOICE: R129 does not say which of the two; notes/assumptions/53.md). -/
def Pan.movieWaits (p : Pan) (l : Nat) : Bool :=
  bits p.ras.shadow.mvCtl 5 4 == 2 && p.ras.movieIsLate (p.movieOn (p.lineStart (l + 1))) &&
    decide (l + 1 < p.ras.frameVtMax)

/-- What the rule of R105 decides at the end of a blank line: blank ends, continues, or continues for the movie. -/
inductive BlankEnd where
  | ends | continues | waits
  deriving DecidableEq, Repr

/-- R105 at the end of line L of an ELASTIC frame. -/
def Pan.blankRule (p : Pan) (l : Nat) : BlankEnd :=
  let lastMin := p.vActive + p.ras.frameVbMin - 1
  if lastMin ≤ l ∧ p.armedBy l then (if p.movieWaits l then .waits else .ends)
  else if l + 1 = p.ras.frameVtMax then .ends
  else .continues

/-- The blank goes on for another line; a wait sets WAITED. -/
def Pan.blankExtend (waited : Bool) (p : Pan) : Pan :=
  ({ p with beam := { p.beam with blankLine := p.beam.blankLine + 1 } }).modRas
    (fun r => { r with mvWaited := r.mvWaited || waited })

/-- The count at which the frame's end is to be looked at next: its last line's end, or the end of the next blank line. -/
def Pan.frameEndAt (p : Pan) : Nat :=
  if p.cfg.elastic then p.lineStart (p.beam.blankLine + 1) else p.lineStart p.ras.frameVt

/-- The frame ends there. -/
def Pan.frameEnds (p : Pan) : Bool := !p.cfg.elastic || p.blankRule p.beam.blankLine == .ends

/-- The new frame's raster: settings of its line 0, and every event still to come (R71, R101). -/
def Pan.beginFrame (t : Nat) (p : Pan) : Pan :=
  let q := (p.frameSettings).modRas (fun r => { r with rtNext := Vector.replicate 4 0 })
  { q with frame := p.frame + 1, frameStart := t,
           beam := { q.beam with vbDone := false, latchDone := false, blankLine := p.vActive },
           rake := { q.rake with lines := [], marks := [], sprites := [] } }

end Sys2Proof.Machine
end

