-- ==== Sys2Proof/Machine/PanTime.lean ====
section
/-!
DEFINITION. Timer ticks, matches and overflows (R138 to R146), the sound tick with its voices, sweep, envelope, LFSR, sample
voice and mixer (R162 to R174), and the resampler (R175, R176).
-/
namespace Sys2Proof.Machine

/-! ### Timers -/

/-- A match's status, raise, DMA trigger, captures and pacing pop; its self and linked actions become due (R140, R147, R173). -/
def Pan.matchSet (n : Fin 4) (p : Pan) : Pan :=
  let q := (p.modTm n (fun t => { t with hitStat := true, hit := false, acts := true })).pendSrc (8 + n.val)
  let q := if ((q.dma[n]).trigCode == 3) && !q.shielded n then q.modDma n Dma.trigger else q
  let q := if (q.tm[nextTimer n]).capSrc.toNat = 6 then q.capture (nextTimer n) else q
  if q.tmOwned n then q.modS0 (fun s => { s with popDue := true }) else q

/-- A match (R140 to R146). -/
def Pan.timerMatch (n : Fin 4) (p : Pan) : Pan := if (p.tm[n]).hit then (p.matchSet n).actsNow else p

/-- An overflow: OVF sets, and under OVFIRQ source 8 + n is raised (R142). -/
def Pan.timerOverflow (n : Fin 4) (p : Pan) : Pan :=
  if (p.tm[n]).wrap then
    let q := p.modTm n (fun t => { t with ovf := true, wrap := false })
    if (p.tm[n]).irq.getLsbD 1 && !p.tmOwned n then q.pendSrc (8 + n.val) else q
  else p

/-! ### Voices (R166 to R169) -/

/-- EN. -/
def Voice.en (v : Voice) : Bool := v.ctl.getLsbD 7
/-- A sweep step's period in ticks, 0 when the sweep is off (R169). -/
def Voice.sweepPeriod (v : Voice) : Nat := if bits v.sweep 2 0 = 0 then 0 else bits v.sweep 6 4 * 512
/-- An envelope step's period in ticks, 0 when it is off (R168). -/
def Voice.envPeriod (v : Voice) : Nat := bits v.env 3 0 * 256

/-- FREQ after a sweep step (R169). -/
def Voice.sweptFreq (v : Voice) : Word :=
  let f := v.freq.toNat
  let t := max 1 (f / 2 ^ bits v.sweep 2 0)
  let l := v.slim.toNat
  if v.sweep.getLsbD 7 then (if l < f then BitVec.ofNat 16 (max (f - t) l) else v.freq)
  else (if f < l then BitVec.ofNat 16 (min (f + t) l) else v.freq)

/-- The tick that is due completes a sweep period. -/
def Voice.sweepDue (v : Voice) : Bool :=
  v.en && !v.swept && decide (v.sweepPeriod ≠ 0) && decide (v.sweepPeriod ≤ v.sweepCnt + 1)

/-- The sweep step of the tick that is due. -/
def Voice.sweepStep (v : Voice) : Voice := { v with freq := v.sweptFreq, sweepCnt := 0, swept := true }

/-- The sweep's part of a tick: the step, unless made already, or one more tick counted. -/
def Voice.sweepPart (v : Voice) : Voice :=
  if v.swept then { v with swept := false }
  else if v.sweepDue then { v.sweepStep with swept := false }
  else if v.sweepPeriod ≠ 0 then { v with sweepCnt := v.sweepCnt + 1 } else v

/-- The phase advance of the tick carries out of bit 19. -/
def Voice.carries (v : Voice) : Bool := decide (2 ^ 20 ≤ v.phase.toNat + v.freq.toNat)

/-- One shift of the LFSR, with the lock-up guard (R166). -/
def lfsrNext (short : Bool) (l : BitVec 15) : BitVec 15 :=
  if short then
    let a := l.setWidth 7
    let n : BitVec 7 := if a = 0 then 1 else (a <<< 1) ||| (if l.getLsbD 6 != l.getLsbD 5 then 1 else 0)
    (l &&& 0x7F80) ||| n.setWidth 15
  else if l = 0 then 1
  else (l <<< 1) ||| (if l.getLsbD 14 != l.getLsbD 13 then 1 else 0)

/-- SHORT. -/
def Voice.short (v : Voice) : Bool := v.ctl.getLsbD 3

/-- The LFSR shift of the tick that is due. -/
def Voice.shift (v : Voice) : Voice := { v with lfsr := lfsrNext v.short v.lfsr, shifted := true }

/-- The shift is due: N0 sounds, its phase will carry, and it has not been made. -/
def Voice.shiftDue (v : Voice) : Bool := v.en && v.carries && !v.shifted

/-- The LFSR's part of a tick of N0. -/
def Voice.shiftPart (v : Voice) : Voice :=
  if v.shifted then { v with shifted := false } else if v.carries then { v.shift with shifted := false } else v

/-- The phase advances by FREQ modulo 2^20. -/
def Voice.advance (v : Voice) : Voice := { v with phase := v.phase + v.freq.setWidth 20 }

/-- Output of a pulse voice (R166). -/
def pulseOut (v : Voice) : Byte :=
  let top := match bits v.ctl 5 4 with | 0 => 1 | 1 => 3 | 2 => 5 | _ => 8
  if bits v.phase 19 16 < top then 0x7F else 0x81

/-- Output of the noise voice (R166). -/
def noiseOut (v : Voice) : Byte := if v.lfsr.getLsbD (if v.short then 6 else 14) then 0x7F else 0x81

/-- Output of a wave voice (R166). -/
def waveOut (wave : Memory) (v : Voice) : Byte := wave.read (64 * bits v.ctl 1 0 + bits v.phase 19 14)

/-- The envelope's part of a tick: a step falls due, or one more tick is counted (R168). -/
def Voice.envPart (v : Voice) : Voice :=
  if v.envPeriod = 0 then v
  else if v.envPeriod ≤ v.envCnt + 1 then { v with envCnt := 0, envDue := true } else { v with envCnt := v.envCnt + 1 }

/-- One step of the envelope: VOL toward 63 or 0 (R168). -/
def Voice.envStep (v : Voice) : Voice :=
  { v with envDue := false,
           vol := if v.env.getLsbD 7 then (if v.vol = 63 then v.vol else v.vol + 1)
                  else (if v.vol = 0 then v.vol else v.vol - 1) }

/-- A tick of voice k (R166). -/
def voiceTick (wave : Memory) (k : Fin 7) (v : Voice) : Voice :=
  if !v.en then { v with out := 0, swept := false, shifted := false }
  else
    let v := if isPulse k then v.sweepPart else v
    let v := if k = 6 then v.shiftPart else v
    let v := v.advance
    let v := { v with out := if k.val < 4 then waveOut wave v else if isPulse k then pulseOut v else noiseOut v }
    v.envPart

/-! ### Sample voice (R171 to R173) -/

/-- The pop takes the last byte of the last pass, so that playback ends with it (R173). -/
def S0.ends (s : S0) : Bool := s.fetchEnd && !s.refused && decide (s.fifo.length ≤ 1) && s.ctl.getLsbD 6

/-- One byte popped, or UNDR (R172). -/
def S0.popped1 (s : S0) : S0 :=
  match s.fifo with
  | [] => { s with undr := true }
  | b :: t => { s with fifo := t, out := b }

/-- A pop, with the end of playback: EN clears and ownership ends (R172, R173). -/
def Pan.s0PopByte (p : Pan) : Pan :=
  let last := p.snd.s0.ends && !p.snd.s0.fifo.isEmpty
  let q := p.modS0 S0.popped1
  if last then (q.s0Disable q.owned).modS0 (fun s => { s with ctl := s.ctl &&& 0x7F }) else q

/-- S0 pops at ticks: enabled with tick pacing. -/
def S0.tickPaced (s : S0) : Bool := s.ctl.getLsbD 7 && !s.ctl.getLsbD 6

/-- The phase advance of the tick carries out of bit 19 (R172). -/
def S0.carries (s : S0) : Bool := decide (2 ^ 20 ≤ s.phase.toNat + s.rate.toNat)

/-- The pop of the tick that is due, before s is taken. -/
def Pan.s0TickPop (p : Pan) : Pan := (p.s0PopByte).modS0 (fun s => { s with popped := true })

/-- S0's part of a tick (R172). -/
def Pan.s0Tick (p : Pan) : Pan :=
  let s := p.snd.s0
  if s.tickPaced then
    let q := if s.carries && !s.popped then p.s0TickPop else p
    q.modS0 (fun t => { t with phase := t.phase + t.rate.setWidth 20, popped := false })
  else p

/-- The low mark after a pop of a row of its own: judged at once, or with the write that waits. -/
def Pan.lowAfter (old : Pan) (p : Pan) : Pan :=
  if p.late.isSome then p else p.lowCheck old.snd.s0.fifo.length old.snd.s0.mark

/-! ### Mixer (R174) -/

/-- One voice's contribution to a channel: s × VOL × level. -/
def mixTerm (s vol : Byte) (level : Nat) : Int := s.toInt * vol.toNat * level

/-- The sum of the eight voices: left levels in [7:4] of a balance, right in [3:0]. -/
def Sound.mixSum (s : Sound) (left : Bool) : Int :=
  let lv := fun b : Byte => if left then bits b 7 4 else bits b 3 0
  s.v.toList.foldl (fun m v => m + mixTerm v.out v.vol (lv v.bal)) (mixTerm s.s0.out s.s0.vol (lv s.s0.bal))

/-- The mix value of a channel. -/
def Sound.mix (s : Sound) (left : Bool) : Int :=
  if s.mute then 0 else clampInt (-32768) 32767 (fdiv (s.mixSum left * s.mvol.toNat) 4096)

/-! ### Resampler (R175) -/

/-- L of R175: VTOTAL of the current frame, or the nominal one. -/
def Pan.rateLines (p : Pan) : Nat := if p.cfg.elastic then Config.nominalVtotal p.cfg.profile else p.ras.frameVt

/-- PER: one sample period in units u. -/
def Pan.samplePeriod (p : Pan) : Nat := 1000000 * p.rateLines * p.cpl

/-- `rem` as it stands at the end of the pan-cycle that takes the count to `t`. -/
def Pan.remNow (p : Pan) (t : Nat) : Int := p.snd.rem - 3 * (p.cfg.fp : Int) * ((t - p.snd.remAt : Nat) : Int)

/-- `rem` brought up to that pan-cycle. -/
def Pan.remSettle (t : Nat) (p : Pan) : Pan := p.modSnd (fun s => { s with rem := p.remNow t, remAt := max s.remAt t })

/-- One output sample: the rounded average of the mix values summed, or the previous one (R175). -/
def Sound.emit (s : Sound) : Sound :=
  let l := if s.count = 0 then s.lastL else fdiv (s.sumL + s.count / 2) s.count
  let r := if s.count = 0 then s.lastR else fdiv (s.sumR + s.count / 2) s.count
  { s with lastL := l, lastR := r, samples := (s.remAt, l, r) :: s.samples, emitted := s.emitted + 1, sumL := 0, sumR := 0, count := 0 }

/-- An emission, with `rem` moved on by one period. -/
def Pan.emitOne (p : Pan) : Pan := p.modSnd (fun s => { s.emit with rem := s.rem + p.samplePeriod })

/-- Emissions while `rem` lies below a bound (0 at a tick, 1 at a frame's end), `n` at most. -/
def Pan.emitWhile (bound : Int) : Nat → Pan → Pan
  | 0, p => p
  | n + 1, p => if p.snd.rem < bound then Pan.emitWhile bound n p.emitOne else p

/-- How many emissions can be due. -/
def Pan.emitFuel (p : Pan) : Nat := p.snd.rem.natAbs / p.samplePeriod + 2

/-- All emissions due at the end of the pan-cycle that takes the count to `t`. -/
def Pan.emitDue (bound : Int) (t : Nat) (p : Pan) : Pan := let q := p.remSettle t; Pan.emitWhile bound q.emitFuel q

/-- Steps of envelopes that fell due at the last tick and have not been made. -/
def Pan.envSettle (p : Pan) : Pan :=
  p.modSnd (fun s => { s with v := s.v.map (fun v => if v.envDue then v.envStep else v) })

/-- The mix values of the tick, summed for the next sample. -/
def Sound.mixed (s : Sound) : Sound :=
  let l := s.mix true
  let r := s.mix false
  { s with mixL := l, mixR := r, sumL := s.sumL + l, sumR := s.sumR + r, count := s.count + 1 }

/-- A sound tick whole: samples whose boundary has passed, voices, S0, mixer (R162 to R175). -/
def Pan.soundTick (p : Pan) : Pan :=
  let q := (p.envSettle).emitDue 0 p.snd.tickAt
  let q := q.modSnd (fun s => { s with v := s.v.mapFinIdx (fun i v h => voiceTick p.wave ⟨i, h⟩ v), tickAt := s.tickAt + 16 })
  (q.s0Tick).modSnd Sound.mixed

/-- The resampler at a frame's end, with the coming frame's L (R175). -/
def Pan.soundFrameEnd (nextLines : Nat) (p : Pan) : Pan :=
  let l := p.rateLines
  let q := p.emitDue 1 p.frameEndAt
  if p.cfg.elastic then q else q.modSnd (fun s => { s with rem := fdiv (s.rem * nextLines) l })

/-! ### The frame's end in the pan -/

/-- A frame ends at the end of the pan-cycle that takes the count to `t`: resampler, then the next frame begins (R101,
R175). -/
def Pan.endFrame (p : Pan) : Pan :=
  let t := p.frameEndAt
  (p.soundFrameEnd p.ras.force.vtotal.toNat).beginFrame t

end Sys2Proof.Machine
end

