-- ==== Sys2Proof/Machine/PanSteps.lean ====
section
/-!
DEFINITION. The steps of a pan's virtual time: each event of 95_what_each_step_holds.md that belongs to one pan, as a function
that answers the changed image where the event is due (or where idling in `WAI` lets virtual time reach it) and none where
it is not; and the register accesses that have rows of their own, each one pan-cycle.
-/
namespace Sys2Proof.Machine

/-- An event due at a pan-cycle count. -/
def Pan.at (t : Nat) (f : Pan → Pan) (p : Pan) : Option Pan :=
  let q := p.reach t
  if t ≤ q.clk then some (f q) else none

/-- An event of the pan-cycle that begins at a count: the pan-cycle before it has ended. -/
def Pan.begins (t : Nat) (f : Pan → Pan) (p : Pan) : Option Pan := p.at t (fun q => f q.settle)

/-- An event due when a condition holds. -/
def Pan.when (b : Bool) (f : Pan → Pan) (p : Pan) : Option Pan := if b then some (f p) else none

/-! ### Register accesses -/

/-- A read in one pan-cycle: the byte is returned and the side effects happen (R28, R29). -/
def Pan.busRead (a : Word) (p : Pan) : Pan :=
  let q := p.settle
  ({ q.touch a with bus := q.peek a }).spend

/-- A write in one pan-cycle, the final one of its instruction (R29, R107); out of stack order it faults (R60). -/
def Pan.busWrite (a : Word) (v : Byte) (p : Pan) : Pan :=
  let r := p.settle
  let q := r.poke a v
  if q.abort then ({ r.resolveLine with abort := false }.faultWith 3 p.cpu.pc).spend else (q.resolveLine).spend

/-- Address of a register of timer, channel or voice n. -/
def regOf (base n o : Nat) : Word := BitVec.ofNat 16 (base + 16 * n + o)

/-! ### Multiplier, coprocessor, hold-off -/

/-- The oldest product in flight reaches MH:ML (R49). -/
def Pan.mulDeliver (p : Pan) : Option Pan :=
  match p.mul.inFlight with
  | [] => none
  | (t, w) :: r => p.at t (fun q => { q with mul := { mh := w.hi, ml := w.lo, inFlight := r } })

/-- The operation in flight completes (R51). -/
def Pan.copStep (p : Pan) : Option Pan := if p.cop.busy then p.at p.cop.due Pan.copDone else none

/-- The hold-off of a group reaches 0 (R161). -/
def Pan.holdExpiry (g : Fin 4) (p : Pan) : Option Pan :=
  if p.ic.holdAt[g] = 0 then none
  else p.at p.ic.holdAt[g] (fun q => q.modIc (fun c => { c with holdAt := vmod c.holdAt g (fun _ => 0) }))

/-! ### DMA and CRC -/

/-- The unit whose turn it is moves whole; S0's next unit becomes pending when it can (R80, R173). -/
def Pan.dmaStep (n : Fin 4) (p : Pan) : Option Pan :=
  let q := p.settle
  q.when (q.dmaTurn == some n) (fun q => (q.dmaUnit (q.dma[n]).unitLeft n).s0Refill)

/-- HALF (R81). -/
def Pan.dmaHalfStep (n : Fin 4) (p : Pan) : Option Pan :=
  p.when ((p.dma[n]).halfDue && !p.shielded n) (Pan.dmaHalf n)

/-- FULL (R81). -/
def Pan.dmaFullStep (n : Fin 4) (p : Pan) : Option Pan :=
  p.when ((p.dma[n]).fullDue && !p.shielded n) (Pan.dmaFull n)

/-- The rest of a block is read, one stolen pan-cycle a byte, and the block ends (R88). -/
def Pan.crcStep (p : Pan) : Option Pan :=
  let q := p.settle
  q.when (q.crc.busy && q.dmaTurn.isNone) (fun q => (q.crcRest q.crc.left).crcFinish)

/-! ### Raster -/

/-- The latch pan-cycle (R106). -/
def Pan.latchStep (p : Pan) : Option Pan :=
  if p.beam.latchDone then none
  else p.begins p.latchAt (fun q => (q.latchBegin).latchRaise q.copyDue q.lateDue)

/-- The next fetch point, once the frame has that line and its latch lies behind (R109). -/
def Pan.fetchStep (p : Pan) : Option Pan :=
  if p.lineExists p.fetchLine && (p.beam.latchDone || decide (p.beam.fetchAt < p.latchAt)) then
    p.begins p.beam.fetchAt (fun q => (q.fetchSample q.fetchLine).overflowRecord)
  else none

/-- The rake's dot x of the line it holds has a collision to record (R121). -/
def Pan.collideStep (x : Nat) (p : Pan) : Option Pan :=
  if p.rake.active then
    (p.at (p.rake.startDot / 2 + x / 2 + 1) id).bind
      (fun q => let r := q.collide x; q.when (r.ras.coll && !q.ras.coll) (fun _ => r))
  else none

/-- VBLANK (R110). -/
def Pan.vblankStep (p : Pan) : Option Pan := if p.beam.vbDone then none else p.at p.vblankAt Pan.vblankRaise

/-- HBLANK of the next line whose blank is due (R110). -/
def Pan.hblankStep (p : Pan) : Option Pan :=
  if p.lineExists ((p.beam.hbAt - p.frameStart) / p.cpl) then
    p.at p.beam.hbAt (fun q => (q.hblankTicks).hblankRaise)
  else none

/-- LINE_CMP (R112). -/
def Pan.compareStep (p : Pan) : Option Pan :=
  match p.comparePos with
  | some t => if p.ras.cmpFrom ≤ t then p.at (t + 1) Pan.compareRaise else none
  | none => none

/-- A raster table channel's next entry (R132). -/
def Pan.rtStep (n : Fin 4) (p : Pan) : Option Pan :=
  if p.rtActive n then p.at (p.rtAt n + 1) (fun q => q.rtWrite n (q.rtRead n)) else none

/-! ### Timers -/

/-- The count at which the next tick of a timer is due: at once for an event chosen, at the end of the pan-cycle of TM0's chain
tick from TM3, or when the prescale count reaches the divisor (R138, R145). -/
def Timer.dueAt (clk : Nat) (t : Timer) : Option Nat :=
  if t.tickDue then some clk
  else if t.run ∧ t.clkSel = 0 then some (t.preAt + t.divisor)
  else if t.run ∧ 2 ≤ t.clkSel then t.chain.head?.map (fun c => c.1)
  else none

/-- A tick that is due, with the actions that waited for it (R138, R146). -/
def Pan.tickStep (n : Fin 4) (p : Pan) : Option Pan :=
  match (p.tm[n]).dueAt p.clk with
  | some t => p.at t (fun q => (q.timerTick n).actsNow)
  | none => none

/-- A match that has come (R140). -/
def Pan.matchStep (n : Fin 4) (p : Pan) : Option Pan := p.when (p.tm[n]).hit (Pan.timerMatch n)

/-- A wrap that has come (R142). -/
def Pan.overflowStep (n : Fin 4) (p : Pan) : Option Pan := p.when (p.tm[n]).wrap (Pan.timerOverflow n)

/-! ### Sound -/

/-- A sound tick, with the low mark (R162, R172). -/
def Pan.soundStep (p : Pan) : Option Pan :=
  p.at p.snd.tickAt (fun q => (q.soundTick).lowAfter q)

/-- An envelope step that fell due at the last tick (R168). -/
def Pan.envStep (k : Fin 7) (p : Pan) : Option Pan := p.when (p.snd.v[k]).envDue (Pan.modVoice k Voice.envStep)

/-- Pulse voice of an index. -/
def pulseVoice (k : Fin 2) : Fin 7 := ⟨4 + k.val, by omega⟩

/-- The sweep step of the tick that is due, before its phase advance (R169). -/
def Pan.sweepStep (k : Fin 2) (p : Pan) : Option Pan :=
  if (p.snd.v[pulseVoice k]).sweepDue then p.at p.snd.tickAt (Pan.modVoice (pulseVoice k) Voice.sweepStep) else none

/-- The LFSR shift of the tick that is due (R166). -/
def Pan.lfsrStep (p : Pan) : Option Pan :=
  if (p.snd.v[6]).shiftDue then p.at p.snd.tickAt (Pan.modVoice 6 Voice.shift) else none

/-- One sample whose boundary lies before the tick that is due (R175). -/
def Pan.emitStep (p : Pan) : Option Pan :=
  if p.remNow p.snd.tickAt < 0 then p.at p.snd.tickAt (fun q => (q.remSettle q.snd.tickAt).emitOne) else none

/-- A pacing pop, or the pop of the tick that is due, with the low mark (R172). -/
def Pan.popStep (p : Pan) : Option Pan :=
  let s := p.snd.s0
  if s.popDue then some (((p.modS0 (fun t => { t with popDue := false })).s0PopByte).lowAfter p)
  else if s.tickPaced && s.carries && !s.popped then p.at p.snd.tickAt (fun q => (q.s0TickPop).lowAfter q)
  else none

/-- A refill unit becomes pending (R173). -/
def Pan.refillStep (p : Pan) : Option Pan :=
  p.when (p.owned && !p.snd.s0.fetchEnd && decide (p.snd.s0.fifo.length ≤ 8) && decide ((p.dma[3]).unitLeft = 0))
    Pan.s0Refill

/-! ### The end of a frame -/

/-- The frame's end, or the end of a blank line of an ELASTIC frame that goes on (R101, R105). -/
def Pan.frameEndStep (p : Pan) : Option Pan :=
  p.begins p.frameEndAt (fun q =>
    if q.frameEnds then q.endFrame
    else q.blankExtend (q.blankRule q.beam.blankLine == .waits))

end Sys2Proof.Machine
end

