-- ==== Sys2Proof/Machine/Engine.lean ====
section
/-!
DEFINITION. The cycle engine: one pan-cycle of a pan with everything that falls in it, in the order of R29, R146, R163 and
R408: what comes before the pan-cycle begins (latch, fetch point), the one bus access (DMA, then the CRC unit, then the
processor, R80, R88), ticks, raises and captures, self and linked actions, the sample voice, late writes, the frame's end.
It serves what no single row of the table carries: the pan-cycles of an idle device, `PAN_DEBUG`, re-runs of frames.
-/
namespace Sys2Proof.Machine

/-- The channels whose entry falls in the pan-cycle about to run, with its bytes. -/
def Pan.rtNow (p : Pan) : List (Fin 4 × (Byte × Byte)) :=
  ((List.finRange 4).filter (fun n => p.rtActive n && p.rtAt n == p.clk)).map (fun n => (n, p.rtRead n))

/-- The one access of the pan-cycle: a DMA byte, a CRC byte or the processor. A byte that enters the FIFO waits for the pops
of the pan-cycle (R172). -/
def Pan.busPhase (p : Pan) : Pan × Bool :=
  match p.dmaTurn with
  | some n =>
    if n = 3 ∧ p.owned ∧ ((p.dma[3]).held).isSome then (p, true) else (p.dmaCycle n, false)
  | none => if p.crc.busy then (p.crcCycle, false) else ((p.cpuCycle).commitEntry, false)

/-- A frozen timer's prescale count stands still and it takes no tick (R149). -/
def Pan.freezeTimer (n : Fin 4) (p : Pan) : Pan :=
  p.onlyIf (p.frozen n) (Pan.modTm n (fun t => { t with preAt := t.preAt + 1, tickDue := false, chain := [] }))

/-- Products due are delivered. -/
def Pan.mulSettle (p : Pan) : Pan :=
  { p with mul := { mh := (p.mul.product p.clk).hi, ml := (p.mul.product p.clk).lo,
                    inFlight := p.mul.inFlight.filter (fun e => decide (p.clk < e.1)) } }

/-- Raises and captures at the end of the pan-cycle that has just run (R110, R146, R147). -/
def Pan.raisePhase (compared fetched flip late : Bool) (rts : List (Fin 4 × (Byte × Byte))) (ext : Pan → Pan) (p : Pan) : Pan :=
  let p := p.capNow
  let p := p.onlyIf (decide (p.beam.hbAt ≤ p.clk)) Pan.hblankRaise
  let p := p.onlyIf (!p.beam.vbDone && decide (p.vblankAt ≤ p.clk)) Pan.vblankRaise
  let p := p.onlyIf compared Pan.compareNow
  let p := rts.foldl (fun q e => q.rtWrite e.1 e.2) p
  let p := p.onlyIf fetched Pan.overflowRecord
  let x := 2 * (p.clk - 1) - p.rake.startDot
  let p := (p.collide x).collide (x + 1)
  let p := p.latchRaise flip late
  let p := p.onlyIf (p.cop.busy && decide (p.cop.due ≤ p.clk)) Pan.copDone
  let p := (p.mulSettle).crcFinish
  let p := forFour Pan.dmaFull (forFour Pan.dmaHalf p)
  let p := ext p
  forFour (fun n q => q.onlyIf (q.tm[n]).hit (Pan.matchSet n)) p

/-- Self and linked actions, then overflows (R146). -/
def Pan.actionPhase (p : Pan) : Pan := forFour Pan.timerOverflow p.runActs

/-- The sample voice at the end of a pan-cycle: pop before push, then the low mark and the refill (R172, R173). -/
def Pan.samplePhase (level : Nat) (push : Bool) (p : Pan) : Pan :=
  let p := p.onlyIf p.snd.s0.popDue (fun q => (q.modS0 (fun s => { s with popDue := false })).s0PopByte)
  let p := p.onlyIf push (Pan.dmaWrite 3)
  let p := p.lateApply
  (p.lowCheck level p.snd.s0.mark).s0Refill

/-- What happens just before a pan-cycle begins: the one before it ends, then the latch and the fetch point. -/
def Pan.beginPhase (p : Pan) : Pan :=
  let p := p.settle
  let p := p.onlyIf (!p.beam.latchDone && decide (p.latchAt ≤ p.clk)) Pan.latchBegin
  p.onlyIf (decide (p.beam.fetchAt ≤ p.clk)) (fun q => q.fetchSample q.fetchLine)

/-- One pan-cycle, with the placements that fall on it. The one bus access comes before the raises, so that START of a DMA channel written
in a pan-cycle sees a trigger of that pan-cycle (R80), and before the raster table's entries, so that a processor or DMA write of a pair's
byte reaches its holding byte first and the table's after it (R104): DESIGN CHOICES, the spec orders neither (notes/assumptions/52.md). -/
def Pan.cycle (ext : Pan → Pan) (p : Pan) : Pan :=
  let latch := !p.beam.latchDone && decide (p.latchAt ≤ p.clk)
  let flip := latch && p.copyDue
  let late := latch && p.lateDue
  let fetch := decide (p.beam.fetchAt ≤ p.clk)
  let p := p.beginPhase
  let rts := p.rtNow
  let compared := p.compareDue (p.clk + 1)
  let level := p.snd.s0.fifo.length
  let b := p.busPhase
  let p := b.1.spend
  let p := p.onlyIf (decide (p.snd.tickAt ≤ p.clk)) (fun q => (q.soundTick).envSettle)
  let p := p.onlyIf (decide (p.beam.hbAt ≤ p.clk)) Pan.hblankTicks
  let p := forFour Pan.timerTick (forFour Pan.freezeTimer p)
  let p := p.raisePhase compared fetch flip late rts ext
  let p := p.actionPhase
  let p := p.samplePhase level b.2
  p.onlyIf (decide (p.frameEndAt ≤ p.clk)) (fun q =>
    if q.frameEnds then q.endFrame else q.blankExtend (q.blankRule q.beam.blankLine == .waits))

/-- `n` pan-cycles without placements, stopping at a fault or a synchronous host-call. -/
def Pan.cycles : Nat → Pan → Pan
  | 0, p => p
  | n + 1, p => if p.core.fault ≠ 0 ∨ p.core.hcWait then p else Pan.cycles n (p.cycle id)

end Sys2Proof.Machine
end

