-- ==== Sys2Proof/Machine/PanReset.lean ====
section
/-!
DEFINITION. The pan as creation and reset leave it (R26, R67, R70 to R72, R84, R100 and the reset columns of the register
tables; values the spec does not give: notes/assumptions/4.md).
-/
namespace Sys2Proof.Machine

/-- The processor's registers after reset (R26). -/
def Cpu.reset : Cpu := { a := 0, b := 0, x := 0, y := 0, k := 0, f := 0x08, p := 0, q := 0, s := 0x7FFF, pc := 0 }

/-- The processor's running state after reset: the reset sequence lies ahead (R26). -/
def Core.reset : Core :=
  { wait := false, hcWait := false, cpStall := false, fault := 0, opc := 0, cyc := 0, tmp := 0, opd := 0, ea := 0,
    start := 0, saved := Cpu.reset, undo := [], resetLeft := 6, nmi := false, samp := Sample.none, rep := false, entry := 0 }

/-- A DMA channel after reset (R76). -/
def Dma.reset : Dma :=
  { src := 0, dst := 0, len := 0, mode := 0, trig := 0, unit := 0, ctl := 0, busy := false, half := false, full := false,
    ovr := false, err := false, rem := 0, unitLeft := 0, held := none, halfDone := false }

/-- The CRC unit after reset (R85). -/
def Crc.reset : Crc :=
  { poly := 0, addr := 0, len := 0, ctx := 0xFFFFFFFF, busy := false, done := false, ie := false, latch := 0, next := 0,
    left := 0 }

/-- An input slot after reset (R89). -/
def InSlot.reset : InSlot :=
  { data := Vector.replicate 7 0, latch := Vector.replicate 6 0, att := false, new := false, chg := false, late := false,
    upd := 0 }

/-- The mailbox after reset (R93). -/
def Mailbox.reset : Mailbox :=
  { inb := Vector.replicate 6 0, inSeq := 0, full := false, queue := [], outb := Vector.replicate 6 0, outSeq := 0 }

/-- Host-call registers after reset (R54). -/
def HostCall.reset : HostCall :=
  { pend := false, done := false, tmo := false, rej := false, call := 0, seq := 0, arg := Vector.replicate 6 0,
    res := Vector.replicate 8 0, sync := false }

/-- Frame-scope registers after reset, in the shadows and in force (R114, R115, R122, R126, R131, R134). -/
def FrameRegs.reset (profile lb : Nat) : FrameRegs :=
  { vtotal := BitVec.ofNat 10 (Config.nominalVtotal profile), vtotalMax := BitVec.ofNat 10 lb, vblankMin := 4,
    tCtl := Vector.replicate 4 0, tMap := Vector.replicate 4 0, tTile := Vector.replicate 4 0, sprTile := 0, mvCtl := 0,
    mvBase := 0, mvSw := 0, mvSh := 0, mvX := 0, mvY := 0, mvOw := 0, mvOh := 0, mvStepX := 0x0100, mvStepY := 0x0100,
    rt := Vector.replicate 4 ⟨0, 0, 0, 0, 0, 0⟩, staticMask := 0 }

/-- Line-scope registers after reset (R115, R123). -/
def LineRegs.reset : LineRegs :=
  { layerEn := 0, blendCtl := 0, blend := Vector.replicate 6 0, scx := Vector.replicate 4 0, scy := Vector.replicate 4 0 }

/-- The raster after reset. -/
def Raster.reset (profile lb : Nat) : Raster :=
  { shadow := FrameRegs.reset profile lb, force := FrameRegs.reset profile lb,
    frameVt := Config.nominalVtotal profile, frameVtMax := lb, frameVbMin := 4,
    lineW := LineRegs.reset, lineF := LineRegs.reset, palW := [], palF := [], lineQ := [], hold := [], beamLatch := 0,
    linecmp := 0, linecmpCyc := 0, cmpFrom := 0, armed := none, coll := false, ovf := false, collA := 0, collB := 0,
    ovfNum := 0, ready := 0, auto := 0, mvLate := false, mvWaited := false, mvOff := false, shown := 0, withheld := none,
    rtDone := Vector.replicate 4 false, rtErr := Vector.replicate 4 false, rtRefused := Vector.replicate 4 false,
    rtNext := Vector.replicate 4 0 }

/-- A timer after reset (R136). -/
def Timer.reset : Timer :=
  { cnt := 0, cntHold := 0, cntLatch := 0, cmp := 0, cmpHold := 0, cap := 0, capLatch := 0, ctl := 0, act := 0, capSrc := 0,
    ovf := false, hitStat := false, capNew := false, capOvr := false, irq := 0, dbg := 0, preAt := 0, capAt := 0,
    tickDue := false, chain := [], hit := false, wrap := false, acts := false }

/-- The interrupt controller after reset (R152, R153). -/
def Ic.reset (minKpa : Byte) : Ic :=
  { pend := 0, en := 0, act := 0, pri := Vector.replicate 32 0, legacy := decide (minKpa < 0x02), lock := none, stack := [],
    hold := Vector.replicate 4 0, holdAt := Vector.replicate 4 0 }

/-- A voice after reset (R67, R165). -/
def Voice.reset : Voice :=
  { ctl := 0, freq := 0, freqHold := 0, vol := 0, env := 0, bal := 0xFF, sweep := 0, out := 0, slim := 0, slimHold := 0,
    phase := 0, lfsr := 1, envCnt := 0, sweepCnt := 0, shifted := false, swept := false, envDue := false }

/-- S0 after reset (R170). -/
def S0.reset : S0 :=
  { ctl := 0, rate := 0, rateHold := 0, src := 0, srcHold := 0, len := 0, lenHold := 0, vol := 0, bal := 0xFF, low := 0x04,
    undr := false, ovr := false, fifo := [], phase := 0, out := 0, passAddr := 0, passLeft := 0, fetchEnd := false,
    refused := false, popDue := false, popped := false }

/-- Sound after reset (R170, R175): rem is one sample period. -/
def Sound.reset (profile : Nat) : Sound :=
  { v := Vector.replicate 7 Voice.reset, s0 := S0.reset, mute := false, mvol := 0x80, mixL := 0, mixR := 0, tickAt := 16,
    rem := 1000000 * (Config.nominalVtotal profile : Int) * Config.cpl profile, remAt := 0, sumL := 0, sumR := 0,
    count := 0, lastL := 0, lastR := 0, samples := [], emitted := 0 }

/-- System registers after reset; the tag is the host's, in its latch too (R70, R72). -/
def SysRegs.reset (tag : Word) : SysRegs :=
  { cramSel := false, bank := 0, bankHold := 0, vbank := 0, tag := tag, tagLatch := tag.hi, frameCount := 0, fcLatch := 0,
    flipTime := 0, ftLatch := 0 }

/-- The raster's events of frame 0: an ELASTIC latch belongs to a frame that follows a blank (R105). -/
def Beam.reset (profile : Nat) (elastic : Bool) : Beam :=
  { hbAt := Config.hActive profile / 2 + 1, fetchAt := 0, vbDone := false, latchDone := elastic,
    blankLine := Config.vActive profile }

/-- The rake before the first fetch point. -/
def Rake.reset (profile lb : Nat) : Rake :=
  { line := 0, active := false, startDot := 0, vramS := [], oamS := [], mediaS := [], drawn := [],
    frameRegs := FrameRegs.reset profile lb, shown := 0, mvOff := false, lines := [], marks := [],
    ctl := Vector.replicate 4 0, sprites := [] }

/-- The image of a created or reset pan: `cram` and `media` are the cartridge RAM it keeps or is given and the staging
area's bytes (R67, R84). -/
def Pan.reset (c : PanCfg) (tag : Word) (cram media : Memory) : Pan :=
  { cfg := c, cpu := Cpu.reset, core := Core.reset, mul := { mh := 0, ml := 0, inFlight := [] },
    cop := { r := 0, busy := false, dz := false, ov := false, op := 0, due := 0, nextR := 0, nextDz := false, nextOv := false },
    hc := HostCall.reset, wram := [], vram := [], cram := cram, media := media, oam := [], wave := [],
    sys := SysRegs.reset tag, dma := Vector.replicate 4 Dma.reset, dmaCur := none, crc := Crc.reset,
    slots := Vector.replicate 16 InSlot.reset, mb := Mailbox.reset, ras := Raster.reset c.profile c.lb,
    beam := Beam.reset c.profile c.elastic, rake := Rake.reset c.profile c.lb, tm := Vector.replicate 4 Timer.reset,
    ic := Ic.reset c.minKpa, snd := Sound.reset c.profile, clk := 0, frame := 0, frameStart := 0, bus := 0, abort := false,
    late := none, stepping := false, dirty := [], crust := Crust.empty, out := [] }

/-! ### Other settings (R98, R99) -/

/-- The raster's events where the pan stands, under its profile and kind: the next HBLANK raise and fetch point, and whether VBLANK and
the latch of the frame have passed (R105, R109, R110). Frame 0 of an ELASTIC pan follows no blank and has no latch. -/
def Pan.beamHere (p : Pan) : Beam :=
  let next := fun at_ => if p.clk ≤ at_ then at_ else at_ + p.cpl
  { hbAt := if p.clk < p.lineStart p.line + p.hblankCyc then p.lineStart p.line + p.hblankCyc else p.lineStart (p.line + 1) + p.hblankCyc,
    fetchAt := next (p.lineStart p.line), vbDone := decide (p.vblankAt ≤ p.clk),
    latchDone := if p.cfg.elastic then decide (p.frame = 0) || decide (0 < p.frameCyc) else decide (p.latchAt < p.clk),
    blankLine := max p.vActive p.line }

/-- The pan under the settings a `PAN_CONFIG` leaves. One that has run no pan-cycle stands as a pan created under them: equal settings
are an equal starting state (DEDUCED from R205). In one that has run, the registers stand as they are, VTOTAL and VTOTAL_MAX in force and
in shadow among them, be they below VACTIVE + 4 or above the new budget until the next copy clamps them, and the events of the raster
follow the new lines (DESIGN CHOICE: R99 and R114 do not say; notes/assumptions/47.md). -/
def Pan.withCfg (g : PanCfg) (p : Pan) : Pan :=
  let q := { p with cfg := g, crust := if g.profile = p.cfg.profile then p.crust else Crust.empty }
  if p.clk = 0 then
    let r := Pan.reset g p.sys.tag p.cram p.media
    { q with ras := r.ras, beam := r.beam, rake := r.rake, snd := r.snd }
  else if g.profile = p.cfg.profile ∧ g.elastic = p.cfg.elastic then q
  else { q with beam := q.beamHere }

end Sys2Proof.Machine
end

