-- ==== Sys2Proof/Machine/Device.lean ====
section
/-!
DEFINITION. The shared operations on the device: pans by number, device time, the event controller (R332 to R334), entries
written into rings with their moderation (R338 to R341), event records (R344), the bittern ring (R347) and completions
(R357).
-/
namespace Sys2Proof.Machine

/-! ### Pans, time, free values -/

/-- The device's record of a pan. -/
def State.site (s : State) (p : Nat) : Option Site := Table.get s.sites p
/-- The device with a pan's record put. -/
def State.putSite (p : Nat) (x : Site) (s : State) : State := { s with sites := Table.put s.sites p x }
/-- The device with a pan's record changed, if the pan exists. -/
def State.modSite (p : Nat) (f : Site → Site) (s : State) : State :=
  match s.site p with
  | some x => s.putSite p (f x)
  | none => s
/-- The record with its image changed. -/
def Site.modPan (f : Pan → Pan) (x : Site) : Site := { x with pan := f x.pan }
/-- Device time in timebase units (R208). -/
def State.now (s : State) : Nat := s.tb.time

/-- What device time gains in three units of TB_REFCLK's time, in parts of 16,000,000,000 to a unit, under RATE and a slew (R211): RATE is
in steps of 1/16 ppb, and 100 ppm are a slew's as long as one is absorbed. -/
def Timebase.speed (b : Timebase) : Nat :=
  (16000000000 + b.rate + (if b.slew = 0 then 0 else if 0 < b.slew then 1600000 else -1600000)).toNat

/-- A timebase unit in parts of 48,000,000,000. -/
def unitParts : Nat := 48000000000

/-- What one BCLK cycle absorbs of a slew, in those parts. -/
def slewParts : Nat := 32 * 1600000

/-- Some parts of a slew absorbed: whole units leave it, and the last one ends it (R211). -/
def Timebase.absorb (parts : Nat) (b : Timebase) : Timebase :=
  if b.slew = 0 then b
  else
    let n := b.slewAcc + parts
    let k := min (n / unitParts) b.slew.natAbs
    let left := if 0 < b.slew then b.slew - k else b.slew + k
    { b with slew := left, slewing := decide (left ≠ 0), slewAcc := if left = 0 then 0 else n % unitParts }

/-- Device time moved up to an instant, with the slew that the time that passes absorbs (R211). -/
def Timebase.moveTo (t : Nat) (b : Timebase) : Timebase :=
  { b.absorb ((t - b.time) * unitParts * 1600000 / b.speed) with time := max b.time t }

/-- Device time moved up to an instant. -/
def State.reach (t : Nat) (s : State) : State := { s with tb := s.tb.moveTo t }
/-- The device with its timebase changed. -/
def State.modTb (f : Timebase → Timebase) (s : State) : State := { s with tb := f s.tb }
/-- The device with its registers changed. -/
def State.modDev (f : DevRegs → DevRegs) (s : State) : State := { s with dev := f s.dev }
/-- The device with its power state changed. -/
def State.modPwr (f : Power → Power) (s : State) : State := { s with pwr := f s.pwr }
/-- The counter of free values advanced by a draw. -/
def State.drawn (s : State) : State := { s with free := s.free + 1 }

/-- The state is taken where a condition holds, and stands otherwise. -/
def State.only (b : Bool) (f : State → State) (s : State) : State := if b then f s else s

/-! ### The event controller (R332 to R334) -/

/-- Sources 11 to 15 are never raised. -/
def evcRaisable (src : Nat) : Bool := decide (src < 256) && !(decide (11 ≤ src) && decide (src ≤ 15))

/-- The vector of a source: EVC_VEC, which resets to the source's number. -/
def Evc.vector (e : Evc) (src : Nat) : BitVec 11 := (Table.get e.vec src).getD (BitVec.ofNat 11 src)

/-- An entry of the MSI-X table; it resets masked. -/
def Evc.entry (e : Evc) (v : Nat) : BitVec 128 := (Table.get e.table v).getD (1#128 <<< 96)

/-- A vector is masked: by its entry, by the function mask, or because MSI-X is off. -/
def Evc.masks (e : Evc) (v : BitVec 11) : Bool := !e.msixOn || e.msixHeld || (e.entry v.toNat).getLsbD 96

/-- The message of a vector is sent under its mask: one that is masked is pending (R334). -/
def Evc.message (v : BitVec 11) (e : Evc) : Evc :=
  if e.masks v then { e with pba := setBit e.pba v.toNat true } else { e with sent := v :: e.sent }

/-- Pending messages that are masked no longer are sent, lowest vector first. -/
def Evc.unmask (e : Evc) : Evc :=
  if e.pba = 0 then e
  else (List.range 2048).foldl (fun c v =>
    if c.pba.getLsbD v then ({ c with pba := setBit c.pba v false }).message (BitVec.ofNat 11 v) else c) e

/-- A source pending and enabled is delivered: PEND clears and its message is sent. -/
def Evc.deliverOne (e : Evc) (src : Nat) : Evc :=
  if e.pend.getLsbD src && e.en.getLsbD src then ({ e with pend := setBit e.pend src false }).message (e.vector src) else e

/-- Some source of the group is pending and enabled. -/
def Evc.ready (e : Evc) (g : Fin 16) : Bool := anyBit (e.pend &&& e.en) (0xFFFF#256 <<< (16 * g.val))

/-- R334: with the hold-off at 0, every pending enabled source of the group is delivered, lowest number first, and the
hold-off is loaded. -/
def Evc.deliver (now : Nat) (g : Fin 16) (e : Evc) : Evc :=
  if e.ready g && decide (e.holdUntil[g] ≤ now) then
    let f := (List.range 16).foldl (fun c k => c.deliverOne (16 * g.val + k)) e
    { f with holdUntil := f.holdUntil.set g (now + (f.hold[g]).toNat * Config.usUnits) }
  else e

/-- The group of a source. -/
def evcGroup (src : Nat) : Fin 16 := ⟨(src / 16) % 16, by omega⟩

/-- A raise sets PEND, and delivery follows at the same instant where the hold-off allows it. -/
def Evc.raise (now src : Nat) (e : Evc) : Evc :=
  if evcRaisable src then ({ e with pend := setBit e.pend src true }).deliver now (evcGroup src) else e

/-- An event source raised. -/
def State.raise (src : Nat) (s : State) : State := { s with evc := s.evc.raise s.now src }

/-! ### Rings (R335 to R341) -/

/-- Entry size of a kind (R335). -/
def ringEntrySize : Nat → Nat
  | 1 => 32 | 3 => 32 | 4 => 32 | 5 => 32 | _ => 64

/-- Entries of a ring. -/
def Ring.size (r : Ring) : Nat := 2 ^ r.log2
/-- Entries written by the device and not yet returned; for a host-written ring, entries not yet taken. -/
def Ring.held (r : Ring) : Nat := if r.kind = 0 ∨ r.kind = 5 then (r.hst - r.dev).toNat else (r.dev - r.hst).toNat
/-- A device-written ring has no room. -/
def Ring.full (r : Ring) : Bool := decide (r.size ≤ r.held)
/-- Host address of the entry of an index. -/
def Ring.entryAddr (r : Ring) (i : BitVec 32) : Nat := r.base + (i.toNat % r.size) * ringEntrySize r.kind
/-- INT.EN. -/
def Ring.intEn (r : Ring) : Bool := r.int.getLsbD 15
/-- The event source the ring names. -/
def Ring.source (r : Ring) : Nat := bits r.int 7 0

/-- A ring. -/
def State.ring (s : State) (n : Nat) : Option Ring := Table.get s.rings n
/-- The device with a ring put. -/
def State.putRing (n : Nat) (r : Ring) (s : State) : State := { s with rings := Table.put s.rings n r }
/-- Bytes written to host memory in one ordered stream (R339). -/
def State.hostWrite (a : Nat) (bs : List Byte) (s : State) : State := { s with host := s.host.writeBytes a bs }

/-- The ring's source is raised and every visible entry counts as signalled. -/
def State.signal (n : Nat) (r : Ring) (s : State) : State := (s.putRing n { r with unsig := 0 }).raise r.source

/-- R340: COUNT entries, or TIME = 0, raise the source at once. -/
def State.moderate (n : Nat) (s : State) : State :=
  match s.ring n with
  | some r =>
    if r.intEn && decide (0 < r.unsig) && (decide (r.count ≤ r.unsig) || decide (r.time = 0)) then s.signal n r else s
  | none => s

/-- Entries that became visible are counted (R340). -/
def Ring.visible (now : Nat) (r : Ring) : Ring :=
  { r with unsig := r.unsig + 1, oldest := if r.unsig = 0 then now else r.oldest }

/-- One entry into a device-written ring that has room: the entry, then the index, then the source (R338, R339). -/
def State.pushEntry (n : Nat) (entry : List Byte) (s : State) : State :=
  match s.ring n with
  | none => s
  | some r =>
    let q := { r with dev := r.dev + 1 }
    (((s.hostWrite (r.entryAddr r.dev) entry).hostWrite r.idxAddr (leBytes 4 q.dev.toNat)).putRing n
      (q.visible s.now)).moderate n

/-- An HCALL entry: the device writes offsets 0 to 40, FLAGS and FCOUNT; the rest is the host's or reserved (R343). -/
def State.pushCall (n : Nat) (entry : List Byte) (s : State) : State :=
  match s.ring n with
  | none => s
  | some r =>
    let a := r.entryAddr r.dev
    let rest := (s.hostWrite (a + 42) (slice entry 42 1)).hostWrite (a + 56) (slice entry 56 4)
    rest.pushEntry n (slice entry 0 41)

/-- A ring exists and has room for an entry. -/
def State.room (s : State) (n : Nat) : Bool := (s.ring n).any (fun r => !r.full)

/-- The first ring a test picks. -/
def State.ringWhere (s : State) (f : Ring → Bool) : Option Nat := (s.rings.find? (fun e => f e.2)).map (fun e => e.1)

/-- The ring of a kind that serves a pan, or every pan without its own (R335). -/
def State.serving (s : State) (kind : Nat) (pan : Option Nat) : Option Nat :=
  let dev := s.ringWhere (fun r => r.kind == kind && r.owner == 0xFFFF)
  match pan with
  | none => dev
  | some p => (s.ringWhere (fun r => r.kind == kind && r.owner == p)).or dev

/-! ### The bittern ring (R347) -/

/-- A record goes to the bittern ring the device is assigned, or is only counted (R325, R341). -/
def State.bitternWrite (entry : List Byte) (s : State) : State :=
  match s.bittern with
  | some n =>
    if s.room n then { s.pushEntry n entry with bitternWritten := s.bitternWritten + 1 }
    else { s with bitternCounted := s.bitternCounted + 1 }
  | none => { s with bitternCounted := s.bitternCounted + 1 }

/-- A bittern record. -/
def bitternRecord (cause port : Nat) (entry len stamp : Nat) (data : List Byte) : List Byte :=
  [BitVec.ofNat 8 cause, BitVec.ofNat 8 port] ++ leBytes 2 entry ++ leBytes 2 len ++ [0, 0] ++ leBytes 8 stamp ++
    slice data 0 48

/-! ### Events (R344) -/

/-- An EVT record. -/
def eventRecord (code : Nat) (pan : Option Nat) (flags : Byte) (stamp : Nat) (data : List Byte) : List Byte :=
  leBytes 2 code ++ leBytes 2 (pan.getD 0xFFFF) ++ [flags, 0, 0, 0] ++ leBytes 8 stamp ++ slice data 0 48

/-- Fault-class events: a pan fault, and an uncorrectable store error. -/
def faultClass (code : Nat) (data : List Byte) : Bool := code == 2 || (code == 9 && data.getD 3 0 == 0)

/-- The key under which events that found no ring at all are counted. -/
def noRing : Nat := 65536

/-- Events lost that a ring's next `EVT_LOST` record carries: its own and those that found no ring. -/
def State.lostFor (s : State) (n : Nat) : Nat := (Table.get s.evtLost n).getD 0 + (Table.get s.evtLost noRing).getD 0

/-- One more event is lost under a key; source 10 is raised, and a fault-class event is copied to the bittern ring. -/
def State.loseEvent (key : Nat) (ev : List Byte) (fault : Bool) (s : State) : State :=
  let t := ({ s with evtLost := Table.put s.evtLost key ((Table.get s.evtLost key).getD 0 + 1) }).raise 10
  if fault then
    t.bitternWrite (bitternRecord 0x10 0xFF 0xFFFF 0 s.now (slice ev 0 8 ++ slice ev 16 40))
  else t

/-- With room, the `EVT_LOST` record goes out ahead of any later event, and the count restarts (R341). -/
def State.writeLost (n : Nat) (s : State) : State :=
  if 0 < s.lostFor n ∧ s.room n then
    ({ s with evtLost := Table.drop (Table.drop s.evtLost n) noRing }).pushEntry n
      (eventRecord 0x000F none 0 s.now (leBytes 4 (s.lostFor n)))
  else s

/-- An event is posted to the pan's EVT ring, or the device's; without room it is lost (R341, R344). -/
def State.post (code : Nat) (pan : Option Nat) (flags : Byte) (data : List Byte) (s : State) : State :=
  let ev := eventRecord code pan flags s.now data
  match s.serving 6 pan with
  | none => s.loseEvent noRing ev (faultClass code data)
  | some n =>
    let t := s.writeLost n
    if t.room n then t.pushEntry n ev else t.loseEvent n ev (faultClass code data)

/-- An event of the device. -/
def State.postDev (code : Nat) (data : List Byte) (s : State) : State := s.post code none 0 data

/-! ### Completions (R357, R341) -/

/-- A completion record. -/
def completionRecord (tag : Word) (opcode status ring : Nat) (result : List Byte) (stamp : Nat) : List Byte :=
  leBytes 2 tag.toNat ++ leBytes 2 opcode ++ leBytes 2 status ++ leBytes 2 ring ++ slice result 0 16 ++ leBytes 8 stamp

/-- A completion is written to a CPL ring, or held while the ring has no room or holds earlier ones back. -/
def State.writeCpl (h : HeldCpl) (s : State) : State :=
  if s.held.any (fun e => e.cpl == h.cpl) || !s.room h.cpl then
    if (s.ring h.cpl).isSome then { s with held := s.held ++ [h] } else s
  else s.pushEntry h.cpl (completionRecord h.tag h.opcode h.status h.ring h.result s.now)

/-- One command of a CMD ring has completed. -/
def Ring.closed (r : Ring) : Ring := { r with open_ := r.open_ - 1 }

/-- A command taken from a CMD ring completes; NOCPL posts no completion for `ST_OK` (R342). -/
def State.complete (c : Packet) (cpl opcode status : Nat) (result : List Byte) (s : State) : State :=
  let t := match s.ring c.ring with
    | some r => s.putRing c.ring r.closed
    | none => s
  if c.flags.getLsbD 1 && status == 0 then t
  else t.writeCpl { cpl := cpl, ring := c.ring, tag := c.tag, opcode := opcode, status := status, result := result }

/-- Status codes (R361). -/
def stOk : Nat := 0x0000
/-- A needed function is not ready. -/
def stNotReady : Nat := 0x0010
/-- A table, queue, reservation or admission check is full. -/
def stNoCapacity : Nat := 0x0020
/-- Format, range, image or signature check failed. -/
def stBadParam : Nat := 0x0030
/-- The target's state forbids the command. -/
def stBadState : Nat := 0x0031
/-- Too many transactions, or commands in one. -/
def stTxnFull : Nat := 0x0040
/-- A commit found its objects changed from outside. -/
def stTxnConflict : Nat := 0x0041
/-- Stopped by an abort. -/
def stAborted : Nat := 0x0050
/-- A boundary did not come. -/
def stTimeout : Nat := 0x0051
/-- A sluice chain failed, or the device has stopped. -/
def stFault : Nat := 0x0060

end Sys2Proof.Machine
end

