-- ==== Sys2Proof/Machine/Image.lean ====
section
/-!
DEFINITION. The pan image as bytes: processor image (R61), save image body and header (R244), state hash (R239), loading an
image (R62, R246); title images (R73, R74); and sizes in grains (R183).
-/
namespace Sys2Proof.Config

/-- FREE: one byte of the INTERNAL region of the register image (R244: "Layout fixed by `UCODE_VERSION.KPA` and CONF", R239:
"this manual does not give it"), as a function of KPA, CONF, the image and the byte's offset. -/
opaque internalByte : Byte → Byte → Machine.Pan → Nat → Byte

/-- FREE: the pan state that an INTERNAL region this device has not produced stands for, under KPA and CONF (the layout is not given,
R239). -/
opaque internalPan : Byte → Byte → List Byte → Option Machine.Pan

end Sys2Proof.Config

namespace Sys2Proof.Machine

/-! ### Sizes (R183, R232) -/

/-- Bytes of cartridge RAM of a size code (R73). -/
def cramBytes : Nat → Nat
  | 1 => 8192 | 2 => 16384 | 3 => 32768 | _ => 0

/-- G, the grains of the slot image (R183). -/
def Pan.grains (p : Pan) : Nat := 400 + p.cfg.cramSize / 256

/-- Bytes the heap reserves for depth D (R232). -/
def Pan.heapNeed (p : Pan) (d : Nat) : Nat := if d = 0 then 0 else (d + 1) * (p.grains + p.cfg.mediaLen / 256) * 256 + (d + 1) * 4096

/-! ### Microcode version (R201) -/

/-- `UCODE_VERSION.KPA`. -/
def State.kpa (s : State) : Byte := BitVec.ofNat 8 (bits s.dev.ucode 31 24)
/-- `UCODE_VERSION.CONF`. -/
def State.conf (s : State) : Byte := BitVec.ofNat 8 (bits s.dev.ucode 23 16)

/-! ### The processor image (R61) -/

/-- The pan stands within an instruction. -/
def Pan.midInstr (p : Pan) : Bool := p.core.cyc != 0 || p.core.entry != 0

/-- PC of the processor image: the first byte of the instruction in progress or next, the prefix within a sequence. -/
def Pan.imagePc (p : Pan) : Word := if p.midInstr || p.core.rep then p.core.start else p.cpu.pc

/-- RUN. -/
def Core.run (k : Core) : Byte := setBit (setBit (setBit 0 0 k.wait) 1 k.hcWait) 2 k.cpStall

/-- The 24 bytes of the processor image. -/
def Pan.procImage (p : Pan) : List Byte :=
  let c := p.cpu
  let k := p.core
  [c.a, c.b, c.x, c.y, c.k, c.f] ++ leBytes 2 c.p.toNat ++ leBytes 2 c.q.toNat ++ leBytes 2 c.s.toNat ++
    leBytes 2 p.imagePc.toNat ++ [k.run, k.fault, k.opc, BitVec.ofNat 8 k.cyc] ++ leBytes 2 k.opd.toNat ++
    leBytes 2 k.ea.toNat ++ [k.tmp, 0]

/-- Bytes of the instruction in progress that its first `cyc` pan-cycles have fetched: the pattern begins with the opcode and the
operand bytes (R28). -/
def fetchedBytes (opc : Byte) (cyc : Nat) : Nat := min cyc (1 + (decodeOp opc).elim 0 (fun e => operandBytes e.2))

/-- PC as an image leaves it: at CYC = 0 the PC it gives, the prefix of a sequence being taken as run where the rest of the image says
so; within an instruction, past the bytes that CYC pan-cycles have fetched; within interrupt entry, the return address (R61, R62). -/
def imageCpuPc (pc : Word) (opc : Byte) (cyc : Nat) (rep entry : Bool) (inner : Word) : Word :=
  if cyc = 0 then (if rep then inner else pc)
  else if entry then pc
  else pc + BitVec.ofNat 16 ((if rep then 1 else 0) + fetchedBytes opc cyc)

/-- The registers and running state a processor image gives, over the rest of the image it belongs to. A sequence that stands between
two iterations goes on where PC names its prefix still; an image with CYC = 0 at another PC starts an instruction there (R61, R62). -/
def Pan.loadProc (b : List Byte) (p : Pan) : Pan :=
  let w := fun o => BitVec.ofNat 16 (leNat (slice b o 2))
  let g := fun o => b.getD o 0
  let run := g 14
  let cyc := (g 17).toNat
  let rep := p.core.rep && (decide (0 < cyc) || p.core.start == w 12)
  let entry := decide (0 < cyc) && p.core.entry != 0
  { p with
    cpu := { a := g 0, b := g 1, x := g 2, y := g 3, k := g 4, f := flagByte (g 5), p := w 6, q := w 8, s := w 10,
             pc := imageCpuPc (w 12) (g 16) cyc rep entry p.cpu.pc },
    core := { p.core with wait := run.getLsbD 0, hcWait := run.getLsbD 1, cpStall := run.getLsbD 2, fault := g 15,
                          opc := g 16, cyc := cyc, opd := w 18, ea := w 20, tmp := g 22, start := w 12, rep := rep,
                          entry := if entry then p.core.entry else 0 } }

/-! ### The body and its hash (R239, R244) -/

/-- The image without the model's own fields and without the crust (R249). -/
def Pan.plain (p : Pan) : Pan :=
  { p with out := [], bus := 0, abort := false, late := none, stepping := false, dirty := [], crust := Crust.empty }

/-- The palette as last written, 1,024 bytes. -/
def Pan.paletteBytes (p : Pan) : List Byte := p.ras.palW.readBytes 0 1024

/-- The register image. -/
def Pan.registerImage (kpa conf : Byte) (p : Pan) : List Byte :=
  p.procImage ++ List.replicate 8 0 ++ p.oam.readBytes 0 1024 ++ p.paletteBytes ++ p.wave.readBytes 0 256 ++
    (List.range 1760).map (Config.internalByte kpa conf p.plain)

/-- The body of a save image. -/
def Pan.body (kpa conf : Byte) (p : Pan) : List Byte :=
  p.registerImage kpa conf ++ p.wram.readBytes 0 32768 ++ p.vram.readBytes 0 65536 ++
    p.cram.readBytes 0 p.cfg.cramSize ++ p.media.readBytes 0 p.cfg.mediaLen

/-- The state hash (R239). -/
def Pan.hash (kpa conf : Byte) (p : Pan) : BitVec 64 := crc64 (p.body kpa conf)

/-- The size code of cartridge RAM. -/
def cramCode (n : Nat) : Nat := if n = 8192 then 1 else if n = 16384 then 2 else if n = 32768 then 3 else 0

/-- Header bytes 0 to 59. -/
def Pan.headerBody (kpa conf : Byte) (p : Pan) (h : BitVec 64) : List Byte :=
  [0x4B, 0x45, 0x53, 0x56] ++ leBytes 2 1 ++ [kpa, conf] ++ leBytes 8 p.cfg.titleId.toNat ++ leBytes 4 p.frame ++
    [BitVec.ofNat 8 (cramCode p.cfg.cramSize), BitVec.ofNat 8 p.cfg.profile, if p.cfg.elastic then 1 else 0,
     if p.core.cyc = 0 then 0 else 1] ++ leBytes 8 h.toNat ++ leBytes 4 p.cfg.fp ++ leBytes 2 p.cfg.lb ++
    leBytes 4 p.cfg.mediaLen ++ List.replicate 18 0

/-- A save image. -/
def Pan.saveImage (kpa conf : Byte) (p : Pan) : List Byte :=
  let b := p.body kpa conf
  let h := p.headerBody kpa conf (crc64 b)
  h ++ leBytes 4 (crc32 h).toNat ++ b

/-- Bytes of a pan's save image. -/
def Pan.saveBytes (p : Pan) : Nat := 64 + (p.grains + p.cfg.mediaLen / 256) * 256

/-- The memory that holds a byte string from an address on. -/
def memoryFrom : Nat → List Byte → Memory
  | _, [] => []
  | a, b :: bs => if b = 0 then memoryFrom (a + 1) bs else (a, b) :: memoryFrom (a + 1) bs

/-- The memory that holds a byte string from address 0 on. -/
def memoryOf (bs : List Byte) : Memory := memoryFrom 0 bs

/-- INTERNAL of a save image. -/
def internalOf (img : List Byte) : List Byte := slice img (64 + 0x920) 1760

/-- The state the INTERNAL region of an image stands for: that of the image itself where the device has produced it, else that of an
image it has produced with the same INTERNAL under the same KPA and CONF; a free value for any other (R62, R239, R244). -/
def State.internalState (s : State) (img : List Byte) (p : Pan) : Pan :=
  match (s.made.find? (fun m => m.image == img)).or
      (s.made.find? (fun m => slice m.image 6 2 == slice img 6 2 && internalOf m.image == internalOf img)) with
  | some m => m.pan
  | none => (Config.internalPan (img.getD 6 0) (img.getD 7 0) (internalOf img)).getD (Pan.reset p.cfg 0 [] [])

/-- The pan a body stands for, with the state its INTERNAL stands for: everything else is given by the body (R62, R246). -/
def Pan.load (q : Pan) (frame : Nat) (b : List Byte) (p : Pan) : Pan :=
  let m := memoryOf (slice b 4096 32768)
  let c := p.cfg.cramSize
  let o := 4096 + 32768 + 65536
  { q.plain with
    cfg := p.cfg, wram := m, vram := memoryOf (slice b (4096 + 32768) 65536), cram := memoryOf (slice b o c),
    media := memoryOf (slice b (o + c) p.cfg.mediaLen), oam := memoryOf (slice b 0x20 1024), wave := memoryOf (slice b 0x820 256),
    frame := frame, ras := { q.ras with palW := memoryOf (slice b 0x420 1024) } }.loadProc (slice b 0 24)

/-- An image that stands within an instruction, by its header or by CYC (R62, R244). -/
def midImage (img : List Byte) : Bool := (img.getD 23 0).getLsbD 0 || img.getD (64 + 17) 0 != 0

/-- R246: whether a save image may be loaded into a pan; one within an instruction only if it was produced here (R62). -/
def Pan.acceptsImage (kpa : Byte) (made : List Made) (img : List Byte) (p : Pan) : Bool :=
  let body := img.drop 64
  decide (img.length = p.saveBytes) && slice img 0 4 == [0x4B, 0x45, 0x53, 0x56] && decide (leNat (slice img 4 2) = 1) &&
    decide (leNat (slice img 60 4) = (crc32 (slice img 0 60)).toNat) &&
    decide (leNat (slice img 24 8) = (crc64 body).toNat) && decide (leNat (slice img 8 8) = p.cfg.titleId.toNat) &&
    decide ((img.getD 20 0).toNat = cramCode p.cfg.cramSize) && decide ((img.getD 21 0).toNat = p.cfg.profile) &&
    (img.getD 22 0 == if p.cfg.elastic then 1 else 0) && decide (leNat (slice img 32 4) = p.cfg.fp) &&
    decide (leNat (slice img 36 2) = p.cfg.lb) && decide (leNat (slice img 38 4) = p.cfg.mediaLen) &&
    (img.getD 6 0 == kpa) && (!midImage img || made.any (fun m => m.image == img))

/-! ### Titles (R73, R74) -/

/-- The checks of R74 on an image of a given length. -/
def titleOk (img : List Byte) : Bool :=
  let n := fun o k => leNat (slice img o k)
  let rom := n 16 4
  slice img 0 4 == [0x53, 0x54, 0x4E, 0x41] && decide (n 4 2 = 1) && decide (n 6 1 ≤ 3) && decide (n 7 1 ≤ 2) &&
    decide (4096 ≤ rom) && decide (rom ≤ 16777216) && decide (rom % 4096 = 0) && decide (n 20 1 ≤ 3) &&
    decide (24000 ≤ n 24 4) && decide (n 24 4 ≤ 120000) && decide (n 21 1 = 0) && decide (n 22 2 ≤ 1) &&
    allZero (slice img 32 28) && decide (img.length = 64 + rom) &&
    decide (n 60 4 = (crc32 (slice img 0 60)).toNat) && decide (n 28 4 = (crc32 (img.drop 64)).toNat)

/-- The title of an image that lies at a DRAM address. -/
def titleOf (addr : Nat) (img : List Byte) : Title :=
  let n := fun o k => leNat (slice img o k)
  { addr := addr, size := img.length, id := BitVec.ofNat 64 (n 8 8), profile := n 6 1, minKpa := BitVec.ofNat 8 (n 7 1), romLen := n 16 4,
    rom := memoryOf (img.drop 64), cramCode := n 20 1, rewind := decide (n 22 2 = 1), rate := n 24 4 }

end Sys2Proof.Machine
end

