-- ==== Sys2Proof/Machine/Placement.lean ====
section
/-!
DEFINITION. Placement (R90 to R96, R218 to R226, R410): device time mapped onto a pan's pan-cycles, the order in which
placements are applied, acceptance into the queues with the rules for late arrivals, and the records of the input log
(R242).
-/
namespace Sys2Proof.Machine

/-! ### Modes (R12) -/

/-- `LOCKED` and `ELASTIC`. -/
def Site.realTime (x : Site) : Bool := x.mode == .locked || x.mode == .elastic
/-- `FREE`, `STEP`, `REPLAY`. -/
def Site.freeRun (x : Site) : Bool := x.mode == .free || x.mode == .step || x.mode == .replay
/-- A mode that runs. -/
def Site.running (x : Site) : Bool := x.realTime || x.freeRun
/-- The modes in which a pan keeps the phase index it was given at admission (R187). -/
def Site.keepsPhase (x : Site) : Bool :=
  match x.mode with
  | .locked => true
  | .elastic => true
  | .halted => x.leftMode == .locked || x.leftMode == .elastic
  | .faulted => true
  | _ => false
/-- Mode codes (R363). -/
def PanMode.code : PanMode → Nat
  | .idle => 0 | .locked => 1 | .elastic => 2 | .free => 3 | .step => 4 | .replay => 5 | .halted => 6 | .faulted => 7

/-! ### Virtual time of real-time pans (R218, R219) -/

/-- Pan-cycles of the current frame of a pan of kind LOCKED. -/
def Pan.frameLen (p : Pan) : Nat := p.ras.frameVt * p.cpl
/-- NV × CPL, the pan-cycles of a nominal frame. -/
def Pan.nominalLen (p : Pan) : Nat := Config.nominalVtotal p.cfg.profile * p.cpl

/-- The device time at which a pan-cycle, counted from reset, begins. -/
def Site.beginsAt (x : Site) (clk : Nat) : Nat :=
  if x.pan.cfg.elastic then x.frameS + ceilDiv ((clk - x.mapClk) * x.pan.cfg.fp) x.pan.nominalLen
  else x.frameS + ceilDiv ((clk - x.pan.frameStart) * x.pan.cfg.fp) x.pan.frameLen

/-- The pan-cycle, counted from reset, in which a device time lies: within the current frame of a LOCKED pan, anywhere from
the start of the mapping of an ELASTIC one; an earlier time stands for the first pan-cycle (R410). -/
def Site.cycleAt (x : Site) (t : Nat) : Nat :=
  if x.pan.cfg.elastic then x.mapClk + (t - x.frameS) * x.pan.nominalLen / x.pan.cfg.fp
  else x.pan.frameStart + (t - x.frameS) * x.pan.frameLen / x.pan.cfg.fp

/-- A halt is no change of the pan: it is met by `HALT_REACHED`. -/
def PlaceKind.isHalt : PlaceKind → Bool
  | .halt _ _ _ => true
  | _ => false

/-- The pan-cycle a queued placement falls on, counted from reset, once the pan has reached its frame (R222). -/
def Site.slotClk (x : Site) (pl : Placement) : Option Nat :=
  match pl.atFrame with
  | some f =>
    if x.pan.frame < f then none
    else some (if f = x.pan.frame then x.pan.frameStart + pl.atCyc else x.pan.frameStart)
  | none =>
    if !x.realTime then none
    else if x.pan.cfg.elastic then
      (if x.burst && x.endedE.isNone && decide (x.cutoff < pl.arrival) && !pl.kind.isHalt then none else some (x.cycleAt pl.place))
    else if pl.place < x.frameE then some (x.cycleAt pl.place) else none

/-- One position (frame, pan-cycle) lies before another. -/
def posBefore (a b : Nat × Nat) : Bool := decide (a.1 < b.1) || (a.1 == b.1 && decide (a.2 < b.2))

/-- The later of two positions. -/
def posMax (a b : Nat × Nat) : Nat × Nat := if posBefore a b then b else a

/-! ### Order (R91) -/

/-- Rank among equal arrival times: commands and replies, then deadlines, then input records. -/
def PlaceKind.rank : PlaceKind → Nat
  | .hcTimeout _ => 1
  | .input _ _ => 2
  | _ => 0

/-- An input record. -/
def PlaceKind.isInput : PlaceKind → Bool
  | .input _ _ => true
  | _ => false

/-- Input records that wait for their pan-cycle, of which a pan holds 64: in the queue, or for a rewind (R222). -/
def Site.inputsWaiting (x : Site) : Nat := x.inQ.length + (x.lateRecords.filter (fun q => q.kind.isInput)).length

/-- Rank of a placement. -/
def Placement.rank (pl : Placement) : Nat := if pl.bracketed then 0 else pl.kind.rank

/-- One placement is applied before another that falls on the same pan-cycle. -/
def Placement.before (a b : Placement) : Bool :=
  decide (a.arrival < b.arrival) ||
    (a.arrival == b.arrival && (decide (a.rank < b.rank) || (a.rank == b.rank && decide (a.order < b.order))))

/-- The earlier of two placements with their pan-cycles. -/
def earlier (a b : Nat × Placement) : Nat × Placement :=
  if b.1 < a.1 ∨ (b.1 = a.1 ∧ b.2.before a.2) then b else a

/-- Queued attaches of a slot accepted before a record. -/
def Site.attachesBefore (x : Site) (s : Fin 16) (n : Nat) : List Placement :=
  x.plQ.filter (fun q => q.kind == .attach s && decide (q.order < n))

/-- Queued detaches of a slot accepted after a record. -/
def Site.detachesAfter (x : Site) (s : Fin 16) (n : Nat) : List Placement :=
  x.plQ.filter (fun q => q.kind == .detach s && decide (n < q.order))

/-- The pan-cycle a placement falls on: a record never crosses an attach or a detach of its own slot, in whichever order their placement
pan-cycles come (R91). -/
def Site.placeClk (x : Site) (pl : Placement) : Option Nat :=
  match pl.kind with
  | .input s _ =>
    let lo := (x.attachesBefore s pl.order).map x.slotClk
    let hi := (x.detachesAfter s pl.order).filterMap x.slotClk
    let own := if lo.any Option.isNone then none else (x.slotClk pl).map (fun c => (lo.filterMap id).foldl max c)
    match hi with
    | [] => own
    | h :: t => some ((own.toList ++ t).foldl min h)
  | _ => x.slotClk pl

/-- Every queued placement that has a pan-cycle, but halts. -/
def Site.placed (x : Site) : List (Nat × Placement) :=
  (x.inQ ++ x.plQ).filterMap (fun pl => if pl.kind.isHalt then none else (x.placeClk pl).map (fun c => (c, pl)))

/-- The placement that is applied next. -/
def Site.nextPlace (x : Site) : Option (Nat × Placement) :=
  match x.placed with
  | [] => none
  | a :: l => some (l.foldl earlier a)

/-! ### The input log (R242) -/

/-- An empty log record of a kind. -/
def LogRec.of (frame cyc : Nat) (kind arg : Byte) (payload : List Byte) (stamp : Nat) : LogRec :=
  { frame := frame, cyc := cyc, kind := kind, arg := arg, flags := 0, conf := 0, payload := slice payload 0 8, stamp := stamp,
    bytes := [], seq := 0 }

/-- The log records of a placement applied at a frame and pan-cycle. -/
def Placement.logRecs (pl : Placement) (frame cyc : Nat) : List LogRec :=
  let r := fun kind arg payload => LogRec.of frame cyc kind arg payload pl.arrival
  let late : Byte := if pl.late then 1 else 0
  match pl.kind with
  | .input s d => [{ r 0x01 (BitVec.ofNat 8 s.val) d.toList with flags := late }]
  | .attach s => [{ r 0x02 (BitVec.ofNat 8 s.val) [] with flags := late }]
  | .detach s => [{ r 0x03 (BitVec.ofNat 8 s.val) [] with flags := late }]
  | .message m =>
    [{ r 0x04 0 (m.bytes.toList ++ [m.num, 0]) with flags := late ||| (if m.nmi then 2 else 0) }]
  | .nmi => [{ r 0x05 0 [] with flags := late }]
  | .hcReply q b => [{ r 0x06 q b.toList with flags := late }]
  | .hcTimeout q => [{ r 0x07 q [] with flags := late }]
  | .movie ready o bs =>
    let commit := { r 0x0A 0 (leBytes 2 (o / 256) ++ leBytes 2 (bs.length / 256) ++ leBytes 4 (crc32 bs).toNat) with
                      flags := late, bytes := bs }
    let mark := { r 0x08 0 [ready.setWidth 8] with flags := late }
    (if bs.isEmpty then [] else [commit]) ++ (if ready = 0 then [] else [mark])
  | .halt _ _ _ => []

/-- The log has begun for the pan's current frame: enabled, and its header written. -/
def Site.logging (x : Site) : Bool := x.heap.logOn && x.heap.logOpen

/-- Records joined to the log of the frame in progress under the next LSEQs, if the log runs. -/
def Site.log (rs : List LogRec) (x : Site) : Site :=
  if x.logging then
    { x with heap := { x.heap with
        logs := x.heap.logs ++ (rs.zipIdx).map (fun e => { e.1 with seq := (x.heap.lseq + e.2) % 2 ^ 32 }),
        lseq := (x.heap.lseq + rs.length) % 2 ^ 32 } }
  else x

/-- A placement leaves its queue. -/
def Site.unqueue (pl : Placement) (x : Site) : Site := { x with inQ := x.inQ.erase pl, plQ := x.plQ.erase pl }

/-- Whether the placement history is kept: for rewinds (R225) and for a re-run after a store error (R202). -/
def Site.remember (a : Applied) (x : Site) : Site := { x with heap := { x.heap with applied := x.heap.applied ++ [a] } }

/-- A host-call is over for the device. -/
def Site.endsCall (k : PlaceKind) (x : Site) : Site :=
  match k with
  | .hcReply q _ => if x.callOut.any (fun c => c.seq == q) then { x with callOut := none } else x
  | .hcTimeout q => if x.callOut.any (fun c => c.seq == q) then { x with callOut := none } else x
  | _ => x

/-- A placement applied to the image on a pan-cycle: image, log, history, queue (R90 to R96, R242). -/
def Site.apply (c : Nat) (pl : Placement) (x : Site) : Site :=
  let frame := x.pan.frame
  let cyc := c - x.pan.frameStart
  (((((x.unqueue pl).modPan (Pan.place pl.kind pl.late)).endsCall pl.kind).log
    (if pl.logged then [] else pl.logRecs frame cyc)).remember { frame := frame, cyc := cyc, p := pl })

/-- The next placement, where it is of the kind asked for and its pan-cycle has run or is reached in `WAI`. -/
def Site.placeNext (ok : PlaceKind → Bool) (x : Site) : Option Site :=
  match x.nextPlace with
  | some (c, pl) =>
    let q := x.pan.reach (c + 1)
    if ok pl.kind && decide (c + 1 ≤ q.clk) then some ({ x with pan := q }.apply c pl) else none
  | none => none

/-- Every placement that falls on the pan-cycle about to run, in order (for the cycle engine). -/
def Site.dueNow : Nat → Site → List (Nat × Placement)
  | 0, _ => []
  | n + 1, x =>
    match x.nextPlace with
    | some (c, pl) => if c ≤ x.pan.clk then (c, pl) :: Site.dueNow n (x.unqueue pl) else []
    | none => []

/-! ### Acceptance (R222 to R226) -/

/-- The frame whose burst has not started: the current one, or the next while its burst runs (R225). -/
def Site.nextFrame (x : Site) : Nat := if x.burst && x.endedE.isNone then x.pan.frame + 1 else x.pan.frame

/-- The frame a placement time falls in, if it lies before the current one: for a LOCKED pan by whole frame periods, for an
ELASTIC one by the frame starts the snapshots hold. -/
def Site.pastFrame (x : Site) (t : Nat) : Option Nat :=
  if x.pan.cfg.elastic then
    let c := x.cycleAt t
    if x.pan.frameStart ≤ c then none
    else some (((x.heap.snaps.filter (fun s => decide (s.pan.frameStart ≤ c))).map (fun s => s.frame)).foldl max 0)
  else if x.frameS ≤ t ∨ x.pan.frame ≤ x.mapFrame then none
  else some (max x.mapFrame (x.pan.frame - ceilDiv (x.frameS - t) x.pan.cfg.fp))

/-- The pan-cycle within a past frame a placement time falls on, by the snapshot of its start. -/
def Site.pastCyc (x : Site) (f t : Nat) : Nat :=
  match x.heap.snaps.find? (fun s => s.frame == f) with
  | none => 0
  | some s =>
    if x.pan.cfg.elastic then x.cycleAt t - s.pan.frameStart
    else (t + (x.pan.frame - f) * x.pan.cfg.fp - x.frameS) * s.pan.frameLen / x.pan.cfg.fp

/-- A placement time certainly falls in the current frame, whose burst runs; an ELASTIC frame may go on beyond (`Site.sweepLate`). -/
def Site.inCurrent (x : Site) (t : Nat) : Bool :=
  if x.pan.cfg.elastic then decide (x.cycleAt t < x.pan.frameEndAt) else decide (t < x.frameE)

/-- The frame of a placement when it is late (R224): the frame has run, or its burst started before the arrival. -/
def Site.lateFrame (x : Site) (pl : Placement) : Option Nat :=
  match x.pastFrame pl.place with
  | some f => some f
  | none =>
    if x.burst && x.endedE.isNone && decide (x.cutoff < pl.arrival) && x.inCurrent pl.place then some x.pan.frame else none

/-- Whether a late record makes the pan rewind: depth, and the snapshot held (R225, R234). -/
def Site.canRewind (x : Site) (f : Nat) : Bool :=
  decide (0 < x.heap.depth) && decide (x.nextFrame - f ≤ x.heap.depth) && x.heap.snaps.any (fun s => s.frame == f)

/-- A placement queued among input records or the others. -/
def Site.enqueue (pl : Placement) (x : Site) : Site :=
  match pl.kind with
  | .input _ _ => { x with inQ := x.inQ ++ [pl], order := x.order + 1 }
  | _ => { x with plQ := x.plQ ++ [pl], order := x.order + 1 }

/-- R91: a record never crosses an attach of its slot that came before it and waits for its placement time. -/
def Site.afterAttach (s : Fin 16) (x : Site) (t : Nat) : Nat :=
  (x.plQ.filter (fun q => q.kind == .attach s)).foldl (fun m q => max m q.place) t

/-- The latest position an attach of a slot has been given, or applied at (R91). -/
def Site.attachPos (s : Fin 16) (x : Site) : Option (Nat × Nat) :=
  let at_ := (x.plQ ++ x.lateRecords).filterMap (fun q => if q.kind == .attach s then q.atFrame.map (fun f => (f, q.atCyc)) else none)
  let all := at_ ++ (x.heap.applied.filter (fun a => a.p.kind == .attach s)).map (fun a => (a.frame, a.cyc))
  all.foldl (fun m q => some (m.elim q (posMax q))) none

/-- The position of a late placement in the frames that have run: a record's is not before an attach of its slot (R91). -/
def Site.latePos (f : Nat) (pl : Placement) (x : Site) : Nat × Nat :=
  let own := (f, x.pastCyc f pl.place)
  match pl.kind with
  | .input s _ => (x.attachPos s).elim own (posMax own)
  | _ => own

/-- R91: records of a slot that came before its detach, at the same time at the latest, stay before it. -/
def Site.beforeDetach (s : Fin 16) (now : Nat) (x : Site) : Site :=
  let mark := fun q : Placement =>
    match q.kind with
    | .input k _ => if k = s then { q with bracketed := q.bracketed || q.arrival == now } else q
    | _ => q
  { x with inQ := x.inQ.map mark, lateRecords := x.lateRecords.map mark }

/-- A late placement that falls at a position joins a rewind, or is placed at pan-cycle 0 of the next frame and counted (R225). -/
def Site.acceptLate (pos : Nat × Nat) (pl : Placement) (x : Site) : Site :=
  if x.canRewind pos.1 then
    { x with lateRecords := x.lateRecords ++ [{ pl with atFrame := some pos.1, atCyc := pos.2 }], order := x.order + 1 }
  else
    { x.enqueue { pl with atFrame := some x.nextFrame, atCyc := 0, late := true } with
      ctr := { x.ctr with latePlaced := x.ctr.latePlaced + 1 } }

/-- A placement accepted by a real-time pan: queued for its pan-cycle, or late (R224, R225). -/
def Site.acceptLive (pl : Placement) (x : Site) : Site :=
  match x.lateFrame pl with
  | none => x.enqueue pl
  | some f => x.acceptLate (x.latePos f pl) pl

/-- A placement that came after the cutoff of the burst that runs its pan-cycle, of an ELASTIC frame whose length was not known then: it
waits for the frame's end (R224). -/
def Site.awaitsEnd (x : Site) (pl : Placement) : Bool :=
  x.realTime && x.pan.cfg.elastic && x.burst && pl.atFrame.isNone && !pl.kind.isHalt && decide (x.cutoff < pl.arrival)

/-- At the end of an ELASTIC frame, now before the current one, what came after its burst's cutoff and falls in it is late (R224). -/
def Site.lateAtEnd (old : Pan) (x : Site) : List Placement :=
  (x.inQ ++ x.plQ).filter (fun pl => x.awaitsEnd pl && decide (x.cycleAt pl.place < x.pan.frameStart) && decide (old.frame < x.pan.frame))

/-- Those placements are handled as late. -/
def Site.sweepLate (old : Pan) (x : Site) : Site :=
  (x.lateAtEnd old).foldl (fun y pl => (y.unqueue pl).acceptLate (y.latePos old.frame pl) pl) x

/-- The first frame a free-run pan begins from now on. -/
def Site.freshFrame (x : Site) : Nat := if x.pan.frameCyc = 0 then x.pan.frame else x.pan.frame + 1

/-- A placement with an arrival time accepted by the pan: placement time arrival + `INPUT_DELAY` unless given (R221,
R226). A free-run pan places it at pan-cycle 0 of the first frame it begins (R94, R223). -/
def Site.accept (arrival place : Nat) (k : PlaceKind) (x : Site) : Site :=
  let pl : Placement :=
    { arrival := arrival, place := place, order := x.order, atFrame := none, atCyc := 0, late := false, bracketed := false, logged := false,
      kind := k }
  if x.realTime then x.acceptLive pl
  else if x.freeRun then x.enqueue { pl with atFrame := some x.freshFrame }
  else x.enqueue pl

/-- Where a mode command that arrives now is placed (R94, R196): the frame it counts from, and in real time, unless it comes late,
its placement time. -/
def Site.modePlace (now : Nat) (x : Site) : Nat × Option Nat :=
  let pl : Placement :=
    { arrival := now, place := now + x.inputDelay, order := x.order, atFrame := none, atCyc := 0, late := false, bracketed := false, logged := false,
      kind := .nmi }
  if x.realTime then
    if (x.lateFrame pl).isSome then (x.nextFrame, none) else (x.pan.frame, some pl.place)
  else (x.freshFrame, none)

/-- The coming latch of the pan is the first after the placement of a waiting mode command, or a later one (R196). -/
def Site.modePlaced (w : Waiting) (x : Site) : Bool :=
  match w.place.filter (fun _ => x.realTime) with
  | some t => decide (w.fromFrame ≤ x.pan.frame) && decide (x.cycleAt t < x.pan.latchAt)
  | none => decide (w.fromFrame < x.pan.frame) || (w.fromFrame == x.pan.frame && decide (x.pan.frameStart < x.pan.latchAt))

/-- A placement of a command, reply or deadline (R226). -/
def Site.acceptAt (arrival : Nat) (k : PlaceKind) (x : Site) : Site :=
  let y := match k with
    | .detach s => x.beforeDetach s arrival
    | _ => x
  y.accept arrival (arrival + x.inputDelay) k

end Sys2Proof.Machine
end

