-- ==== Sys2Proof/Machine/Observe.lean ====
section
/-!
DEFINITION. The observation writer: crop, scale and colour conversion of a composed frame (R250 to R253), the data area of a
ring (R253, R256), and the records of a frame (R242, R255 to R257).
-/
namespace Sys2Proof.Machine

/-! ### Colour conversion (R250) -/

/-- Red, green and blue of a pixel. -/
def rgbOf (c : BitVec 24) : Nat × Nat × Nat := (bits c 23 16, bits c 15 8, bits c 7 0)

/-- Weighted sum of a pixel's components. -/
def weigh (k : Int × Int × Int) (c : BitVec 24) : Int :=
  let v := rgbOf c
  k.1 * v.1 + k.2.1 * v.2.1 + k.2.2 * v.2.2

/-- Coefficients of Y, Cb and Cr. -/
def yuvRows (bt601 : Bool) : (Int × Int × Int) × (Int × Int × Int) × (Int × Int × Int) :=
  if bt601 then ((263, 516, 100), (-152, -298, 450), (450, -377, -73))
  else ((187, 629, 63), (-103, -347, 450), (450, -409, -41))

/-- Y of a pixel. -/
def lumaOf (bt601 : Bool) (c : BitVec 24) : Int := 16 + fdiv (weigh (yuvRows bt601).1 c + 512) 1024

/-- Cb or Cr of a 2 × 2 block. -/
def chromaOf (row : Int × Int × Int) (block : List (BitVec 24)) : Int :=
  128 + fdiv ((block.map (weigh row)).foldl (· + ·) 0 + 2048) 4096

/-! ### Crop and scale (R252) -/

/-- A pixel of a composed frame. -/
def Picture.at (pic : Picture) (x y : Nat) : BitVec 24 := pic.pixels.getD (y * pic.w + x) 0

/-- The average of a block of pixels, per channel (R252). -/
def averageOf (px : List (BitVec 24)) : BitVec 24 :=
  let n := px.length
  let ch := fun f => ((px.map f).foldl (· + ·) 0 + n / 2) / n
  BitVec.ofNat 24 (ch (fun c => bits c 23 16) * 65536 + ch (fun c => bits c 15 8) * 256 + ch (fun c => bits c 7 0))

/-- The pixels of an n × n block at a position. -/
def Picture.block (pic : Picture) (x y n : Nat) : List (BitVec 24) :=
  (List.range n).flatMap (fun j => (List.range n).map (fun i => pic.at (x + i) (y + j)))

/-- Crop width, the whole frame's for 0. -/
def Obs.cropW (o : Obs) (pic : Picture) : Nat := if o.w = 0 then pic.w else o.w
/-- Crop height. -/
def Obs.cropH (o : Obs) (pic : Picture) : Nat := if o.w = 0 then pic.h else o.h

/-- The picture cropped and scaled. -/
def Obs.scaled (o : Obs) (pic : Picture) : Picture :=
  let w := o.cropW pic / o.scale
  let h := o.cropH pic / o.scale
  let ox := if o.w = 0 then 0 else o.x
  let oy := if o.w = 0 then 0 else o.y
  { pic with w := w, h := h,
             pixels := (List.range h).flatMap (fun j => (List.range w).map (fun i =>
               averageOf (pic.block (ox + i * o.scale) (oy + j * o.scale) o.scale))) }

/-! ### Payloads (R253) -/

/-- One plane of a picture. -/
def Picture.plane (pic : Picture) (f : BitVec 24 → Nat) : List Byte := pic.pixels.map (fun c => BitVec.ofNat 8 (f c))

/-- The 2 × 2 blocks of a picture in raster order. -/
def Picture.blocks2 (pic : Picture) : List (List (BitVec 24)) :=
  (List.range (pic.h / 2)).flatMap (fun j => (List.range (pic.w / 2)).map (fun i => pic.block (2 * i) (2 * j) 2))

/-- The rows of a tap, padded to the pitch. -/
def Picture.tap (pic : Picture) (pitch : Nat) (f : BitVec 24 → List Byte) : List Byte :=
  (List.range pic.h).flatMap (fun j =>
    let row := (List.range pic.w).flatMap (fun i => f (pic.at i j))
    row ++ List.replicate (pitch - row.length) 0)

/-- Row bytes of a tap format. -/
def tapRow (fmt w : Nat) : Nat := if fmt = 4 then 3 * w else 4 * w

/-- Pitch in force: the row length rounded up to 64 unless given (R251). -/
def Obs.pitchFor (o : Obs) (w : Nat) : Nat := if o.pitch = 0 then ceilDiv (tapRow o.fmt w) 64 * 64 else o.pitch

/-- Y plane bytes. -/
def Picture.luma (pic : Picture) (bt601 : Bool) : List Byte := pic.plane (fun c => (lumaOf bt601 c).toNat)

/-- The picture in YCbCr 4:2:0 (R250). -/
def Picture.yuv (pic : Picture) (bt601 : Bool) : Yuv :=
  let rows := yuvRows bt601
  let chroma := fun row => pic.blocks2.map (fun b => BitVec.ofInt 8 (chromaOf row b))
  { w := pic.w, h := pic.h, y := pic.luma bt601, cb := chroma rows.2.1, cr := chroma rows.2.2 }

/-- The payload of a picture record. -/
def Obs.payload (o : Obs) (whole : Picture) : List Byte :=
  let pic := o.scaled whole
  match o.fmt with
  | 1 => pic.plane (fun c => bits c 23 16) ++ pic.plane (fun c => bits c 15 8) ++ pic.plane (fun c => bits c 7 0)
  | 2 => (pic.yuv o.bt601).y ++ (pic.yuv o.bt601).cb ++ (pic.yuv o.bt601).cr
  | 3 => pic.luma o.bt601
  | 4 => pic.tap (o.pitchFor pic.w) (fun c => pixelBytes [c])
  | 5 => pic.tap (o.pitchFor pic.w) (fun c => (pixelBytes [c]).reverse ++ [0])
  | _ => []

/-- Samples as bytes: 16-bit, left first. -/
def sampleBytes (ss : List (Int × Int)) : List Byte :=
  ss.flatMap (fun s => leBytes 2 (BitVec.ofInt 16 s.1).toNat ++ leBytes 2 (BitVec.ofInt 16 s.2).toNat)

/-! ### The data area (R253, R256) -/

/-- Where a payload of a length goes: at the head, or at offset 0 when the end is too short; none without room. -/
def Ring.dataPlace (r : Ring) (len : Nat) : Option Nat :=
  let size := 2 ^ r.dataLog2
  match r.dataUse with
  | [] => if r.dataHead + len ≤ size then some r.dataHead else if len ≤ size then some 0 else none
  | u :: _ =>
    if u.2.1 < r.dataHead then
      if r.dataHead + len ≤ size then some r.dataHead else if len ≤ u.2.1 then some 0 else none
    else if r.dataHead + len ≤ u.2.1 then some r.dataHead else none

/-- The ring with a payload placed for the record it writes next. -/
def Ring.dataTaken (r : Ring) (off len : Nat) : Ring :=
  { r with dataHead := ceilDiv (off + len) 64 * 64, dataUse := r.dataUse ++ [(r.dev, off, off + len)] }

/-- One record to be written: bytes 0 to 11, 12 to 19 and 20 to 23, the stamp of a log record, the payload, and where its
offset goes (12, 24, or 0 for a record without one). -/
structure ObsItem where
  pre : List Byte
  mid : List Byte
  low : List Byte
  stamp : Option Nat
  payload : List Byte
  dataAt : Nat
  deriving DecidableEq, Repr

/-- The 32 bytes of a record whose payload lies at an offset. -/
def ObsItem.bytes (i : ObsItem) (off now : Nat) : List Byte :=
  slice i.pre 0 12 ++ (if i.dataAt = 12 then leBytes 8 off else slice i.mid 0 8) ++ slice i.low 0 4 ++
    leBytes 8 (if i.dataAt = 24 then off else i.stamp.getD now)

/-- The ring as it stands after an item, or none where there is no room for it (R257). -/
def Ring.takes (r : Ring) (i : ObsItem) : Option Ring :=
  if r.full then none
  else if i.dataAt = 0 then some { r with dev := r.dev + 1 }
  else (r.dataPlace i.payload.length).map (fun o => { r.dataTaken o i.payload.length with dev := r.dev + 1 })

/-- The ring and data area have room for all of some items. -/
def Ring.takesAll (r : Ring) : List ObsItem → Bool
  | [] => true
  | i :: is =>
    match r.takes i with
    | some q => q.takesAll is
    | none => false

/-- An item written: payload, entry, index, source (R339). -/
def State.writeItem (n : Nat) (i : ObsItem) (s : State) : State :=
  match s.ring n with
  | none => s
  | some r =>
    let off := (r.dataPlace i.payload.length).getD 0
    let t := if i.dataAt = 0 then s
      else (s.hostWrite (r.dataBase + off) i.payload).putRing n (r.dataTaken off i.payload.length)
    t.pushEntry n (i.bytes off s.now)

/-- Items written in order. -/
def State.writeItems (n : Nat) (is : List ObsItem) (s : State) : State := is.foldl (fun t i => t.writeItem n i) s

/-! ### The records of a frame (R242, R255) -/

/-- A log record as it is written. -/
def LogRec.item (l : LogRec) : ObsItem :=
  { pre := leBytes 4 l.frame ++ leBytes 4 l.cyc ++ [l.kind, l.arg, l.flags, l.conf], mid := l.payload,
    low := leBytes 4 l.seq, stamp := some l.stamp, payload := l.bytes, dataAt := if l.kind = 0x0A then 24 else 0 }

/-- FLAGS of a picture, audio or hash record. -/
def obsFlags (redo confDiff late gap : Bool) : Byte := setBit (setBit (setBit (setBit 0 0 redo) 1 confDiff) 2 late) 3 gap

/-- A record of the observation writer. -/
def obsItem (frame aux : Nat) (kind fmt flags : Byte) (payload : List Byte) : ObsItem :=
  { pre := leBytes 4 frame ++ leBytes 4 aux ++ [kind, fmt, flags, 0], mid := [], low := leBytes 4 payload.length,
    stamp := none, payload := payload, dataAt := 12 }

/-- Picture, audio and hash records of a frame, with the flags the first and the others carry. -/
def FrameRecords.bodyItems (f : FrameRecords) (flag : Bool → Byte) (gap : Bool) : List ObsItem :=
  let pic := match f.picture with
    | some p => [fun g => obsItem f.frame p.crc.toNat 0x10 (BitVec.ofNat 8 (f.obs.fmt - 1)) (flag g) (f.obs.payload p)]
    | none => []
  let aud := if f.audio.isEmpty then []
    else [fun g => obsItem f.frame f.audio.length 0x11 0 (flag g) (sampleBytes f.audio)]
  let hash := match f.hash with
    | some h => [fun g => { obsItem f.frame 0 0x12 0 (flag g) [] with mid := leBytes 8 h.toNat, dataAt := 0 }]
    | none => []
  ((pic ++ aud ++ hash).zipIdx).map (fun e => e.1 (gap && e.2 == 0))

/-- All records of a frame in the order of R256. -/
def FrameRecords.items (f : FrameRecords) (confDiff gap : Bool) : List ObsItem :=
  f.logs.map LogRec.item ++ f.bodyItems (obsFlags f.redo confDiff f.late) gap

/-- Items of the oldest frame whose records a pan owes. -/
def Site.owedItems (x : Site) : List ObsItem :=
  match x.obsQ with
  | f :: _ => f.items x.heap.confDiff (x.gap || f.gap)
  | [] => []

/-- The ring the pan's records go to: the one it has named, unless that has been destroyed since, even where one of that number is created
again (R251). -/
def State.obsRing (s : State) (x : Site) : Option Ring := if x.ringLost then none else x.obs.ring.bind s.ring

/-- The ring has room for the oldest frame's records. -/
def State.oldestFits (s : State) (x : Site) : Bool := (s.obsRing x).any (fun r => r.takesAll x.owedItems)

/-- Whether every frame's records are accepted: nothing is owed, the pan has no ring, or the ring has room for all of them (R15, R251,
R257). -/
def State.accepts (s : State) (x : Site) : Bool :=
  x.obsQ.isEmpty || x.obs.ring.isNone ||
    (s.obsRing x).any (fun r => r.takesAll (x.obsQ.flatMap (fun f => f.items x.heap.confDiff f.gap)))

/-- The oldest frame's records leave the queue. -/
def Site.recordsDone (x : Site) : Site :=
  match x.obsQ with
  | [] => x
  | f :: r =>
    let body := f.picture.isSome || !f.audio.isEmpty || f.hash.isSome
    { x with obsQ := r, gap := x.gap && !body }

/-- The ring as it stands after some items, or none where there is no room for all of them. -/
def Ring.after (r : Ring) : List ObsItem → Option Ring
  | [] => some r
  | i :: is => (r.takes i).bind (fun q => q.after is)

/-- At the end of a real-time burst (R257): the frames whose records are accepted stay to be written, the others are
skipped; the first frame kept after a skip carries GAP. Answers the frames kept, the number skipped, and a GAP still owed. -/
def sortFrames (conf : Bool) : Option Ring → Bool → List FrameRecords → List FrameRecords × Nat × Bool
  | _, gap, [] => ([], 0, gap)
  | r, gap, f :: fs =>
    match r.bind (fun q => q.after (f.items conf gap)) with
    | some q =>
      let t := sortFrames conf (some q) false fs
      ({ f with gap := gap || f.gap } :: t.1, t.2.1, t.2.2)
    | none =>
      let t := sortFrames conf r true fs
      (t.1, t.2.1 + 1, t.2.2)

/-- A real-time pan's unaccepted records are skipped and counted (R257); without a ring there are none (R251). -/
def State.skipRecords (p : Nat) (s : State) : State :=
  s.modSite p (fun x =>
    if x.obs.ring.isNone then { x with obsQ := [] }
    else
      let t := sortFrames x.heap.confDiff (s.obsRing x) false x.obsQ
      { x with obsQ := t.1, gap := x.gap || t.2.2, ctr := { x.ctr with obsSkips := x.ctr.obsSkips + t.2.1 } })

/-- The oldest frame's records written, if they are accepted. -/
def State.writeFrame (p : Nat) (s : State) : State :=
  match s.site p with
  | none => s
  | some x =>
    match x.obs.ring with
    | none => s
    | some n => if x.obsQ.isEmpty || !s.oldestFits x then s else (s.writeItems n x.owedItems).putSite p x.recordsDone

end Sys2Proof.Machine
end

