-- ==== Sys2Proof/Machine/Lifecycle.lean ====
section
/-!
DEFINITION. What happens to a pan at the device's hands: host-calls posted and ended (R55 to R59, R237, R341, R343), mode
changes that end a run, faults (R199), commands that wait on a pan and are aborted (R375, R407), and handing on what a pan
has put out.
-/
namespace Sys2Proof.Machine

/-! ### Commands that wait (R360, R372, R407) -/

/-- A part of a commit has landed, been lost, or timed out; with the last one the commit completes (R360, R372, R375). -/
def State.partDone (t status : Nat) (s : State) : State :=
  match Table.get s.commits t with
  | none => s
  | some m =>
    let q :=
      if status = stOk then { m with applied := m.applied + 1 }
      else if status = stTimeout then { m with timedOut := m.timedOut + 1 } else { m with discarded := m.discarded + 1 }
    if q.parts ≤ q.applied + q.discarded + q.timedOut then
      ({ s with commits := Table.drop s.commits t }).complete q.c q.cpl 0x0A02
        (if q.discarded ≠ 0 then stAborted else if q.timedOut ≠ 0 then stTimeout else stOk)
        (leBytes 8 q.epoch ++ leBytes 2 q.applied ++ leBytes 2 q.discarded)
    else { s with commits := Table.put s.commits t q }

/-- A waiting command is over: it completes, or counts as a part of its commit. -/
def State.finish (w : Waiting) (status : Nat) (result : List Byte) (s : State) : State :=
  match w.txn with
  | some t => s.partDone t status
  | none => s.complete w.c w.cpl w.opcode status result

/-- Commands whose target is a pan: groups 0x03xx, 0x04xx, 0x05xx, 0x07xx. -/
def targetsPan (opcode : Nat) : Bool := [3, 4, 5, 7].contains (opcode / 256)

/-- A waiting command stands on a pan. -/
def Waiting.onPan (p : Nat) (w : Waiting) : Bool := targetsPan w.opcode && w.c.target.toNat == p

/-- Waiting commands a test picks leave the queue and complete with a status. -/
def State.dropWaiting (f : Waiting → Bool) (status : Nat) (s : State) : State :=
  (s.waiting.filter f).foldl (fun t w => t.finish w status [])
    { s with waiting := s.waiting.filter (fun w => !f w) }

/-- Frame number and pan-cycle at which a pan stands. -/
def Pan.stand (p : Pan) : List Byte := leBytes 4 p.frame ++ leBytes 4 p.frameCyc

/-- Halts of a pan that wait for their position. -/
def Site.halts (x : Site) : List Placement := x.plQ.filter (fun q => q.kind.isHalt)

/-- A halt completes. -/
def State.finishHalt (p : Pan) (status : Nat) (met : Bool) (pl : Placement) (s : State) : State :=
  match pl.kind with
  | .halt _ c cpl => s.complete c cpl 0x0306 status (p.stand ++ [if met then 1 else 0])
  | _ => s

/-- Every waiting halt of a pan completes with `ST_ABORTED` and MET = 0 (R407). -/
def State.abortHalts (p : Nat) (s : State) : State :=
  match s.site p with
  | none => s
  | some x => (x.halts.foldl (fun t pl => t.finishHalt x.pan stAborted false pl) s).putSite p
      { x with plQ := x.plQ.filter (fun q => !q.kind.isHalt) }

/-- Bytes into host memory or device DRAM (SPACE, R365). -/
def State.spaceWrite (space a : Nat) (bs : List Byte) (s : State) : State :=
  if space = 0 then s.hostWrite a bs else { s with dram := s.dram.writeBytes a bs }

/-- Bytes of host memory or device DRAM. -/
def State.spaceRead (s : State) (space a n : Nat) : List Byte := if space = 0 then s.host.readBytes a n else s.dram.readBytes a n

/-- RESULT of a save: FRAME, bytes, HASH (R365). -/
def Pan.saveResult (kpa conf : Byte) (p : Pan) : List Byte :=
  leBytes 4 p.frame ++ leBytes 4 p.saveBytes ++ leBytes 8 (p.hash kpa conf).toNat

/-- A save copies an image, under the KPA and CONF it was made under, to the destination its command names (R207, R244, R245); the
device has produced it (R62). -/
def State.saveTo (q : Snapshot) (c : Packet) (s : State) : State :=
  let n := fun o k => leNat (slice c.params (o - 12) k)
  let img := q.pan.saveImage q.kpa q.conf
  { s.spaceWrite (n 28 1) (n 20 8) img with made := { image := img, pan := q.pan.plain } :: s.made }

/-- A waiting save of a pan. -/
def Waiting.isSave (p : Nat) (w : Waiting) : Bool := w.opcode == 0x0405 && w.onPan p

/-- Waiting saves of a pan copy the image as it stands and complete (R245, R407). -/
def State.finishSaves (p : Nat) (s : State) : State :=
  match s.site p with
  | none => s
  | some x =>
    (s.waiting.filter (Waiting.isSave p)).foldl
      (fun t w => (t.saveTo { frame := x.pan.frame, kpa := s.kpa, conf := s.conf, pan := x.pan } w.c).finish w stOk (x.pan.saveResult s.kpa s.conf))
      { s with waiting := s.waiting.filter (fun w => !w.isSave p) }

/-- Every command that waits on the pan completes with `ST_ABORTED` (R407). -/
def State.abortWaiting (p : Nat) (s : State) : State := (s.dropWaiting (Waiting.onPan p) stAborted).abortHalts p

/-! ### Leaving a mode (R58, R95, R196, R223) -/

/-- The outstanding host-call ends as a timeout (R58): in a synchronous mode C is set too. The log holds it, at the pan-cycle that would
come next (R59; DESIGN CHOICE for an asynchronous call: the spec gives it no placement pan-cycle, notes/assumptions/48.md). -/
def Site.endCall (now : Nat) (x : Site) : Site :=
  if x.pan.hc.pend then
    Site.log [LogRec.of x.pan.frame x.pan.frameCyc 0x07 x.pan.hc.seq [] now]
      { x with callOut := none, pan := if x.pan.core.hcWait then x.pan.syncTimeout else x.pan.modHc HostCall.timedOut }
  else { x with callOut := none }

/-- Queued input records, those that wait for a rewind among them, are discarded and counted (R223). -/
def Site.dropInputs (x : Site) : Site :=
  { x with inQ := [], lateRecords := x.lateRecords.filter (fun q => !q.kind.isInput),
           ctr := { x.ctr with rejects := x.ctr.rejects + x.inputsWaiting } }

/-- To IDLE or FAULTED: input records and queued placements are discarded, undelivered messages too, and their credits
return (R95, R223). -/
def Site.dropQueues (x : Site) : Site :=
  { x.dropInputs with plQ := [], lateRecords := [], mbHolding := [], pan := x.pan.modMb (fun b => { b with queue := [] }) }

/-- The I2S port without a pan (R302). -/
def I2s.without (p : Nat) (i : I2s) : I2s :=
  { i with pan := if i.pan = some p then none else i.pan, leaving := i.leaving.filter (fun e => e.1 != p) }

/-- The pan is in no engine: no boiler, no slot, no burst. -/
def Site.offEngine (x : Site) : Site :=
  { x with boiler := none, slot := none, burst := false, endedE := none, newFrame := none, resFrames := 0, dirty := false,
           waitObs := false }

/-- A channel of a chain with cleared state and a gain in force (R291). -/
def Channel.reset (g : Int) : Channel :=
  { dx := 0, dy := 0, rx1 := 0, rx2 := 0, ry1 := 0, ry2 := 0, gx := 0, gain := g, step := none, peak := 0, hold := -230400,
    clips := 0, blocks := [] }

/-- A chain cleared by a reset or a stop (R291): settings, routes and the samples of a block not yet whole stand. -/
def Audio.cleared (a : Audio) : Audio :=
  { a with left := Channel.reset a.cfg.gain, right := Channel.reset a.cfg.gain, silBlocks := 0, silence := false, clip := false,
           fade := 0, opusStart := 0, opusFill := 0 }

/-- The pan emits no samples any more until it is resumed: the block that holds the next one joins every sink (R303). -/
def Audio.pause (a : Audio) : Audio := { a with rejoin := some (a.block + a.queue.length / 48) }

/-- The pan is in `IDLE`, its image as it stands (R196): the phase index is free (R187). -/
def Site.toIdle (now : Nat) (x : Site) : Site :=
  { ((x.endCall now).dropQueues).offEngine with
    mode := .idle, phase := none, nextBay := none, parked := false, stepLeft := 0, stopAt := none, modeReq := none,
    audio := x.audio.cleared }

/-- Calls that wait for ring space are dropped with their pan's call. -/
def State.dropCalls (p : Nat) (s : State) : State := { s with waitCalls := s.waitCalls.filter (fun w => w.pan != p) }

/-- A pan goes to `IDLE`: waiting commands are aborted first. -/
def State.idlePan (p : Nat) (s : State) : State := ((s.abortWaiting p).dropCalls p).modSite p (Site.toIdle s.now)

/-- The record of a fault (R344). -/
def Pan.faultData (p : Pan) (cause : Byte) (pc : Word) : List Byte :=
  [cause, 0] ++ leBytes 2 pc.toNat ++ p.position p.lastCyc

/-- CONF_DIFF and REDO flags of a pan's events. -/
def Site.eventFlags (x : Site) (redo : Bool) : Byte := setBit (setBit 0 0 redo) 1 x.heap.confDiff

/-- The pan enters `FAULTED` (R199): saves copy its image, commands that wait are aborted, its call ends, its queues are
discarded, and the event is posted. It keeps its phase index (R198). -/
def State.faultPan (p : Nat) (cause : Byte) (pc : Word) (redo : Bool) (s : State) : State :=
  match s.site p with
  | none => s
  | some x =>
    let t := ((((s.finishSaves p).abortWaiting p).dropCalls p).modSite p
      (fun y => { (y.endCall s.now).dropQueues.offEngine with
        mode := .faulted, parked := false, stopAt := none, modeReq := none, phase := if y.keepsPhase then y.phase else none, audio := y.audio.pause }))
    t.post 0x0002 (some p) (x.eventFlags redo) (x.pan.faultData cause pc)

/-! ### Host-calls (R55 to R59, R237, R343) -/

/-- An HCALL entry as the device writes it (R343). -/
def hcallEntry (pan : Nat) (request : List Byte) (frame cyc posted deadline fcount : Nat) (redo : Bool) : List Byte :=
  leBytes 2 pan ++ slice request 0 14 ++ leBytes 4 frame ++ leBytes 4 cyc ++ leBytes 8 posted ++ leBytes 8 deadline ++
    [1, 0, if redo then 1 else 0] ++ List.replicate 13 0 ++ leBytes 4 fcount ++ [0, 0, 0, 0]

/-- A request goes to the HCALL ring that serves the pan, or waits (R341). -/
def State.sendCall (pan : Nat) (entry : List Byte) (s : State) : State :=
  match s.serving 2 (some pan) with
  | some n => if s.room n && s.waitCalls.all (fun w => w.pan != pan) then s.pushCall n entry
              else { s with waitCalls := s.waitCalls ++ [{ pan := pan, entry := entry }] }
  | none => { s with waitCalls := s.waitCalls ++ [{ pan := pan, entry := entry }] }

/-- A call is posted in the image: PEND, CALL, SEQ; in a real-time mode C clears (R56). -/
def Pan.postCall (call seq : Byte) (sync : Bool) (p : Pan) : Pan :=
  let q := p.modHc (fun h => { h with pend := true, call := call.setWidth 3, seq := seq, sync := sync })
  if sync then q.modCore (fun k => { k with hcWait := true }) else q.modCpu (Cpu.setC false)

/-- An asynchronous call is refused because one is outstanding (R56). -/
def Pan.rejectCall (p : Pan) : Pan := (p.modHc (fun h => { h with rej := true })).modCpu (Cpu.setC true)

/-- The mode a pan runs in, or has been halted in: entering HALTED is not leaving it (R58). -/
def Site.runMode (x : Site) : PanMode := if x.mode = .halted then x.leftMode else x.mode

/-- Host-calls of the pan are asynchronous (R56); a halted pan that is stepped posts them as the mode it left does. -/
def Site.callsAsync (x : Site) : Bool := x.runMode == .locked || x.runMode == .elastic

/-- The recorded reply or timeout of a call in the log being replayed (R59). -/
def Site.recorded (x : Site) (seq : Byte) : Option LogRec :=
  if x.runMode = .replay then x.heap.replay.find? (fun r => r.arg == seq && (r.kind == 0x06 || r.kind == 0x07)) else none

/-- The record lies at the pan-cycle that is next to run: it is the answer of a synchronous call, which a log holds at the pan-cycle
after the host-call's final one, and a later record that of an asynchronous call (R59; DESIGN CHOICE: an asynchronous answer placed on
that very pan-cycle is told from a synchronous one by nothing in the log, and counts as one; notes/assumptions/49.md). -/
def Site.answersNow (x : Site) (r : LogRec) : Bool := r.frame == x.pan.frame && r.cyc == x.pan.frameCyc

/-- The call of the timeline being replaced that a re-run makes again, with the same SEQ, number and request (R237). -/
def Site.sameCall (x : Site) (call seq : Byte) (request : List Byte) : Option CallOut :=
  x.heap.oldCalls.find? (fun c => c.call == call && c.seq == seq && c.request == request)

/-- That call is a call of the timeline that the re-run makes. -/
def HeapSt.madeAgain (c : CallOut) (h : HeapSt) : HeapSt := { h with calls := h.calls ++ [c], oldCalls := h.oldCalls.erase c }

/-- A re-run begins from a position: calls made from there on are the replaced timeline's. -/
def HeapSt.replaceCalls (pos : Nat × Nat) (h : HeapSt) : HeapSt :=
  { h with calls := h.calls.filter (fun c => posBefore (c.frame, c.cyc) pos),
           oldCalls := h.calls.filter (fun c => !posBefore (c.frame, c.cyc) pos) }

/-- A reply or deadline of the call with a number. -/
def PlaceKind.answers (seq : Byte) : PlaceKind → Bool
  | .hcReply q _ => q == seq
  | .hcTimeout q => q == seq
  | _ => false

/-- The pan runs again what it had run before a store error: nothing goes out a second time (R202). -/
def Site.rerunning (x : Site) : Bool := decide (x.pan.clk ≤ x.heap.rerunClk) && decide (0 < x.heap.rerunClk)

/-- What a host-call request of the pan does (R56, R59, R237). Where the reply or deadline of the call outstanding falls on the
host-call's final pan-cycle, PEND is judged after it (DESIGN CHOICE: R56 does not order the two; notes/assumptions/50.md). -/
def State.takeCall (p : Nat) (redo : Bool) (call seq : Byte) (request : List Byte) (frame cyc fcount : Nat) (s : State) : State :=
  match s.site p with
  | none => s
  | some x =>
    if x.pan.hc.pend then s.putSite p (x.modPan Pan.rejectCall)
    else match x.recorded seq with
    | some r => s.putSite p (x.modPan (Pan.postCall call seq (x.answersNow r)))
    | none =>
      match (x.sameCall call seq request).filter (fun _ => redo || x.rerunning) with
      | some old => s.putSite p { x.modPan (Pan.postCall call seq (!x.callsAsync)) with heap := x.heap.madeAgain old }
      | none =>
        let out : CallOut :=
          { call := call, seq := seq, request := request, posted := s.now, deadline := s.now + x.hcTimeout, frame := frame,
            cyc := cyc, reply := none, placed := false }
        (s.putSite p { x.modPan (Pan.postCall call seq (!x.callsAsync)) with
          callOut := some out, plQ := x.plQ.filter (fun q => !(q.logged && q.kind.answers seq)), heap := { x.heap with calls := x.heap.calls ++ [out] } }).sendCall p
          (hcallEntry p request frame cyc s.now out.deadline fcount redo)

/-! ### Handing on what a pan has put out -/

/-- One thing a pan hands to the device. -/
def State.takeOut (p : Nat) (redo : Bool) (s : State) (o : PanOut) : State :=
  match o with
  | .event code data =>
    if (s.site p).any Site.rerunning then s else s.post code (some p) ((s.site p).elim 0 (fun x => x.eventFlags redo)) data
  | .hostCall call seq a b pp q arg frame cyc fcount =>
    s.takeCall p redo call seq ([call, seq, a, b] ++ leBytes 2 pp.toNat ++ leBytes 2 q.toNat ++ arg) frame cyc fcount
  | .fault cause pc => s.faultPan p cause pc redo

/-- Numbers of the messages of a pan that are not yet delivered: placed, or waiting for their pan-cycle or a rewind. -/
def Site.undelivered (x : Site) : List Byte :=
  x.pan.mb.queue.map (fun m => m.num) ++ (x.plQ ++ x.lateRecords).filterMap (fun q => match q.kind with
    | .message m => some m.num
    | _ => none)

/-- Credits of delivered messages return (R95). -/
def Site.settleCredits (x : Site) : Site :=
  { x with mbHolding := x.mbHolding.filter (fun n => x.undelivered.contains n) }

/-- The pan's outbox emptied into the device. -/
def State.flush (p : Nat) (redo : Bool) (s : State) : State :=
  match s.site p with
  | none => s
  | some x =>
    let y := x.settleCredits.modPan (fun q => { q with out := [] })
    x.pan.out.foldl (State.takeOut p redo) (s.putSite p y)

end Sys2Proof.Machine
end

