-- ==== Sys2Proof/Machine/Swap.lean ====
section
/-!
DEFINITION. A pan's image in its slot and in DRAM (R184 to R186): dirty grains, write-back, what is kept for a re-run (R202), and the slots
real-time pans hold.
-/
namespace Sys2Proof.Machine

/-- The pans of a bay, by number. -/
def State.pansOf (s : State) (bay : Fin 8) : List (Nat × Site) := s.sites.filter (fun e => e.2.bay == bay)

/-- The first frame that placements and calls are kept from: the oldest snapshot's, and the written-back image's. -/
def Site.keepFrom (x : Site) : Nat :=
  let a := (x.heap.snaps.map (fun s => s.frame)).foldl min x.pan.frame
  match x.heap.written with
  | some w => min a w.frame
  | none => a

/-- History that no rewind and no re-run can need is dropped. -/
def Site.prune (x : Site) : Site :=
  let k := x.keepFrom
  { x with heap := { x.heap with applied := x.heap.applied.filter (fun a => decide (k ≤ a.frame)),
                                 calls := x.heap.calls.filter (fun c => decide (k ≤ c.frame)) } }

/-- The dirty grains of the slot image: those of work RAM, VRAM and cartridge RAM by number, and the 16 of the register image as soon as
anything of the pan has changed (R184; DESIGN CHOICE for the latter: the place of most of its state is not given, notes/assumptions/54.md). -/
def Site.dirtyGrains (x : Site) : List Nat := (if x.dirty then List.range 16 else []) ++ x.pan.dirty

/-- A memory whose bytes of some grains are a newer one's; its grains are numbered from `base` on. -/
def Memory.overlay (base : Nat) (grains : List Nat) (new old : Memory) : Memory :=
  let isIn := fun e : Host.Cell => grains.contains (base + e.1 / 256)
  (new.filter isIn).foldl (fun m e => m.write e.1 e.2) (old.filter (fun e => !isIn e))

/-- The image in DRAM after a write-back of some grains over the one that lies there. -/
def Pan.overlay (grains : List Nat) (new old : Pan) : Pan :=
  let base := if grains.contains 0 then new else { old with media := new.media, cfg := new.cfg }
  { base.stored with
              wram := Memory.overlay 16 grains new.wram old.wram
              vram := Memory.overlay 144 grains new.vram old.vram
              cram := Memory.overlay 400 grains new.cram old.cram }

/-- The pan's image is in DRAM: its dirty grains written back over the last image there, with the placements and calls that follow it
(R184, R202). -/
def Site.writeBack (x : Site) : Site :=
  let old := x.heap.written.getD x.pan
  ({ x with dirty := false, pan := { x.pan with dirty := [] },
            heap := { x.heap with written := some (x.pan.overlay x.dirtyGrains old) } }).prune

/-- The whole image is read from DRAM: nothing of it is dirty (R184). -/
def Site.readIn (x : Site) : Site :=
  ({ x with dirty := false, pan := { x.pan with dirty := [] },
            heap := { x.heap with written := some x.pan.stored } }).prune

/-- The pan leaves its slot, its dirty grains written back. -/
def Site.swapOut (x : Site) : Site := { x.writeBack with slot := none, resFrames := 0 }

/-- The pan takes a slot. -/
def Site.swapIn (k now : Nat) (x : Site) : Site :=
  { x.readIn with slot := some k, resFrames := 0, swappedAt := now }

/-- Slots of a bay that hold a real-time pan. -/
def State.rtSlots (s : State) (bay : Fin 8) : Nat :=
  ((s.pansOf bay).filter (fun e => e.2.realTime && e.2.slot.isSome)).length

end Sys2Proof.Machine
end

