-- ==== Sys2Proof/Machine/Frames.lean ====
section
/-!
DEFINITION. The end of a pan's frame on the device's side (R14, R101, R176, R178, R231, R240, R241, R257, R409), the pan's
virtual time moving on, and one pan-cycle of a pan with its placements.
-/
namespace Sys2Proof.Machine

/-! ### The crust (R249) -/

/-- Lines the rake has served from the crust are counted for the bay (R249). -/
def State.crystallize (p : Nat) (s : State) : State :=
  match s.site p with
  | none => s
  | some x =>
    if x.pan.crust.served = 0 then s
    else
      let t := s.putSite p (x.modPan (fun q => { q with crust := { q.crust with served := 0 } }))
      { t with crystal := vmod t.crystal x.bay (fun k => k + x.pan.crust.served) }

/-! ### What a frame leaves (R135, R176, R231, R256) -/

/-- Samples of the frame that has ended, oldest first, taken out of the image. -/
def Site.takeSamples (x : Site) : Site := x.modPan (fun p => p.modSnd (fun s => { s with samples := [] }))

/-- A sample faded into the timeline a rewind left: j counts from the first sample after it (R236). -/
def fadeSample (fade : Nat) (h new : Int) : Int := if fade = 0 then new else fdiv (new * (49 - fade : Int) + h * (fade - 1 : Int)) 48

/-- The chain receives one sample: faded after a rewind from the last sample of the old timeline (R236). -/
def Audio.receive (l r : Int) (t frame : Nat) (a : Audio) : Audio :=
  let e := (fadeSample a.fade a.fadeFrom.1 l, fadeSample a.fade a.fadeFrom.2 r)
  { a with queue := a.queue ++ [(e.1, e.2, t, frame)], last := e, fade := a.fade - 1 }

/-- A real-time frame's samples go to the audio delivery chain, each with the end of its emitting pan-cycle (R178, R228). -/
def Site.deliverSamples (old : Pan) (ss : List (Nat × Int × Int)) (x : Site) : Site :=
  let at_ := { x with pan := old }
  { x with audio := ss.foldl (fun a s => a.receive s.2.1 s.2.2 (at_.beginsAt s.1) old.frame) x.audio }

/-- The heap takes the snapshot of the start of the next frame and frees the oldest (R231). -/
def Site.snapshot (kpa conf : Byte) (x : Site) : Site :=
  if x.heap.depth = 0 then x
  else
    let k := x.pan.frame
    let keep := x.heap.snaps.filter (fun s => decide (s.frame < k) && decide (k ≤ s.frame + x.heap.depth))
    { x with heap := { x.heap with snaps := keep ++ [{ frame := k, kpa := kpa, conf := conf, pan := x.pan.stored }] } }

/-- The hash of a frame, where the interval asks for one (R240). -/
def Site.hashDue (kpa conf : Byte) (frame : Nat) (x : Site) : Option (BitVec 64) :=
  if x.heap.hashEvery ≠ 0 ∧ (frame + 1) % x.heap.hashEvery = 0 then some (x.pan.hash kpa conf) else none

/-- The pan parks (R195): it stays in its mode, leaves its slot, and posts an event; waiting halts are aborted (R407). -/
def State.park (p frame reason : Nat) (redo : Bool) (s : State) : State :=
  match s.site p with
  | none => s
  | some x =>
    ((s.abortHalts p).modSite p (fun y => { y.offEngine with parked := true })).post 0x0003 (some p) (x.eventFlags redo)
      (leBytes 4 frame ++ leBytes 1 reason)

/-- A hash compared with the reference (R241): a mismatch is reported, and parks a free-run pan under PARK; the end of the
reference is reported once. -/
def State.compareHash (p frame : Nat) (h : BitVec 64) (redo : Bool) (s : State) : State :=
  match s.site p with
  | none => s
  | some x =>
    let flags := x.eventFlags redo
    let s := match x.heap.refs.find? (fun e => e.1 == frame) with
      | some e =>
        if e.2 = h then s
        else
          let t := s.post 0x0006 (some p) flags (leBytes 8 frame ++ leBytes 8 e.2.toNat ++ leBytes 8 h.toNat)
          if x.heap.refMode = 2 ∧ x.freeRun then t.park p frame 3 redo else t
      | none => s
    let spent := x.heap.refs.all (fun e => decide (e.1 ≤ frame))
    if spent && !x.heap.refDone then
      (s.modSite p (fun y => { y with heap := { y.heap with refDone := true, refAt := none } })).post 0x0007 (some p) flags (leBytes 4 frame)
    else s

/-- The records of the frame wait for the observation writer; without an OBS ring there are none (R251). A frame run again after a store
error gives nothing a second time: log records made since are those of the frame that was in progress, and wait for its end (R202,
R242). -/
def Site.queueRecords (k : Nat) (pic : Picture) (ss : List (Nat × Int × Int)) (h : Option (BitVec 64)) (redo : Bool)
    (x : Site) : Site :=
  let recs : FrameRecords :=
    { frame := k, obs := x.obs, logs := x.heap.logs, hash := h, redo := redo, late := false, gap := false,
      picture := if x.obs.fmt ≠ 0 ∧ k % x.obs.every = 0 then some pic else none,
      audio := if x.obs.audio then ss.map (fun s => s.2) else [] }
  let y := { x with heap := { x.heap with logs := [] } }
  if x.rerunning then x
  else if x.obs.ring.isNone ||
      (recs.logs.isEmpty && recs.picture.isNone && recs.audio.isEmpty && h.isNone) then y
  else { y with obsQ := y.obsQ ++ [recs] }

/-- The log's header for the frame that begins now (R242). -/
def Site.openLog (kpa conf : Byte) (now : Nat) (x : Site) : Site :=
  if x.heap.logOn && !x.heap.logOpen then
    let h : LogRec := { LogRec.of x.pan.frame 0 0 kpa (leBytes 8 x.pan.cfg.titleId.toNat) now with conf := conf }
    { x with heap := { x.heap with logOpen := true, lseq := 1, logs := x.heap.logs ++ [h] } }
  else x

/-! ### Virtual time moves on (R218, R219) -/

/-- The pan as its frame's latch leaves it, where that latch is still to come at its line 0 (R105). -/
def Pan.atLineZero (p : Pan) : Pan := if p.cfg.elastic && !p.beam.latchDone then p.latchBegin else p

/-- E_min of the frame the pan stands at, under the VBLANK_MIN in force at its line 0 (R101, R219). -/
def Site.minEnd (x : Site) : Nat :=
  x.beginsAt (x.pan.frameStart + (x.pan.vActive + x.pan.atLineZero.ras.frameVbMin) * x.pan.cpl)

/-- The device times of the next frame; E of the ended one is kept until its burst ends. -/
def Site.nextTimes (x : Site) : Site :=
  let e := if x.burst then some x.frameE else none
  if x.pan.cfg.elastic then { x with frameE := x.minEnd, endedE := e }
  else { x with frameS := x.frameE, frameE := x.frameE + x.pan.cfg.fp, endedE := e }

/-- A halt named beyond a frame's length stands for pan-cycle 0 of the next frame (R197). -/
def Placement.carryHalt (frame len : Nat) (pl : Placement) : Placement :=
  match pl.kind with
  | .halt (some (f, c)) k cpl => if f = frame ∧ len ≤ c then { pl with kind := .halt (some (f + 1, 0)) k cpl } else pl
  | _ => pl

/-- φ of a phase index of a bay (R188). -/
def phaseOffset (k bay fp : Nat) : Nat := (8 * rev8 k + bay) * fp / 2048

/-- The first time from `t` on that is φ modulo FP. -/
def firstEnd (t phi fp : Nat) : Nat := t + (phi + fp - t % fp) % fp

/-- The home bay of a pan, or the one a commit is giving it (R187). -/
def Site.homeBay (x : Site) : Fin 8 := x.nextBay.getD x.bay

/-- The lowest k of a bay that no pan holds (R187). -/
def State.freePhase (s : State) (bay : Fin 8) : Option Nat :=
  (List.range 256).find? (fun k => s.sites.all (fun e => !(e.2.homeBay == bay && e.2.phase == some k)))

/-- A mode is real time. -/
def PanMode.isRt (m : PanMode) : Bool := m == .locked || m == .elastic

/-- A start or a change to a real-time mode that the pan has been admitted for is still to come (R187). -/
def State.reservesPhase (p : Nat) (s : State) : Bool :=
  s.waiting.any (fun w => (w.opcode == 0x0304 || w.opcode == 0x0305) && w.onPan p && decide (leNat (slice w.c.params 0 1) ≤ 2)) ||
    (s.site p).any (fun x => x.modeReq.any (fun m => m.1.isRt))

/-- A phase index that neither the pan's mode nor a change to come holds is free again (R187). -/
def State.tidyPhase (p : Nat) (s : State) : State :=
  s.modSite p (fun x => if x.keepsPhase || s.reservesPhase p then x else { x with phase := none })

/-- Mixer samples emitted from reset to the start of the frame the image stands in (R175, R289). -/
def Pan.samplesBefore (p : Pan) : Nat := p.snd.emitted - p.snd.samples.length

/-- The chain numbers its samples from reset (R289): where the pan ran on outside real time, the block in progress starts again
at the next sample's own, and samples the chain never received stand as zeros. A block the pan was to join with joins there (R303). -/
def Audio.align (n now frame : Nat) (a : Audio) : Audio :=
  if 48 * a.block + a.queue.length = n then a
  else { a with block := n / 48, queue := List.replicate (n % 48) (0, 0, now, frame), rejoin := a.rejoin.map (fun _ => n / 48) }

/-- The chain of a pan that enters real time: no block of it is due at the I2S port before its first has been played (R303). -/
def Audio.enter (n now frame : Nat) (a : Audio) : Audio := { a.align n now frame with i2sDue := false, i2sMissed := 0 }

/-- A pan enters real time, or resumes in it, at an epoch: its first frame end is chosen under R188 and the mapping starts at
pan-cycle 0 of the frame it stands in (R218, R219, R410). -/
def Site.enterRt (epoch w : Nat) (x : Site) : Site :=
  let fp := x.pan.cfg.fp
  let e := firstEnd (epoch + fp + w * Config.usUnits) (phaseOffset (x.phase.getD 0) x.bay.val fp) fp
  let y := { x with frameS := e - fp, frameE := e, mapFrame := x.pan.frame, mapClk := x.pan.frameStart, burst := false, boiler := none,
                    endedE := none, audio := x.audio.enter x.pan.samplesBefore epoch x.pan.frame }
  if y.pan.cfg.elastic then { y with frameE := y.minEnd } else y

/-- Leaving real time (R223): input records discarded, placements of commands kept for the first
frame in the new mode; replies and deadlines end with their call. -/
def Site.leaveRt (x : Site) : Site :=
  let y := x.dropInputs
  { y with burst := false, endedE := none, newFrame := none, boiler := none, lateRecords := [],
           plQ := ((y.plQ ++ y.lateRecords).filter (fun q => match q.kind with
             | .hcReply _ _ => false
             | .hcTimeout _ => false
             | _ => true)).map (fun q => { q with atFrame := some (max y.pan.frame (q.atFrame.getD y.pan.frame)) }) }

/-- The epoch boundary at or after a time. -/
def epochFrom (t : Nat) : Nat := ceilDiv t Config.epochUnits * Config.epochUnits

/-- A mode decided at the frame's latch applies from the following frame on (R196); a change of mode ends the host-call
(R58). -/
def Site.newMode (now w : Nat) (x : Site) : Site :=
  match x.modeReq with
  | none => x
  | some (m, n) =>
    let y := { (if m = x.mode then x else x.endCall now) with
      modeReq := none, stepLeft := if m = PanMode.step then n else 0, parked := false, waitObs := false }
    if m = PanMode.locked ∨ m = PanMode.elastic then
      if x.realTime then { y with mode := m } else ({ y with mode := m }).enterRt (epochFrom now) w
    else { (if x.realTime then y.leaveRt else y) with mode := m }

/-! ### The frame's end (R14, R409) -/

/-- A frame is the pan's newest whole one, which the harvester has not taken (R262, R264, R268). -/
def Site.setLast (pic : Picture) (x : Site) : Site :=
  { x with lastFrame := some pic, prevFrame := x.lastFrame, stream := x.stream.map (fun t => { t with seen := none }) }

/-- A real-time frame whose burst is over (R191): late after E, when it is counted, an event is posted and the previous whole
frame stands; in time, it is the pan's newest whole frame. Its records bear LATE, and those not accepted are skipped. -/
def State.settleFrame (p : Nat) (s : State) : State :=
  match s.site p with
  | none => s
  | some x =>
    match x.endedE, x.newFrame with
    | some e, some pic =>
      if e < s.now then
        let n := x.ctr.late + 1
        let y := { x with
          ctr := { x.ctr with late := n }, newFrame := none, endedE := none,
          audio := { x.audio with lateFrames := pic.frame :: x.audio.lateFrames },
          obsQ := x.obsQ.map (fun f => if f.frame = pic.frame then { f with late := true } else f),
          stream := x.stream.map (fun t => { t with lateCnt := (t.lateCnt + 1) % 2 ^ 32 }) }
        ((s.putSite p y).post 0x0001 (some p) (x.eventFlags false) (leBytes 4 pic.frame ++ leBytes 4 n)).skipRecords p
      else
        (s.putSite p { x.setLast pic with lastEnd := x.beginsAt x.pan.frameStart, newFrame := none, endedE := none }).skipRecords p
    | _, _ => s

/-- A pending stop is met at the end of a frame, in real time of the frame whose virtual interval held the command's device time (R409):
saves land first, then the pan is IDLE and the stop completes. -/
def State.stopsHere (p frame : Nat) (s : State) : State :=
  match s.site p with
  | none => s
  | some x =>
    match x.stopAt with
    | none => s.finishSaves p
    | some e =>
      let t := s.finishSaves p
      if e.1 ≤ frame ∧ (!x.realTime || e.2.all (fun at_ => decide (at_ < x.beginsAt x.pan.frameStart))) then
        let t := t.settleFrame p
        let stops := t.waiting.filter (fun w => w.opcode == 0x0308 && w.onPan p)
        let u := ({ t with waiting := t.waiting.filter (fun w => !(w.opcode == 0x0308 && w.onPan p)) }).idlePan p
        stops.foldl (fun v w => v.finish w stOk []) u
      else t

/-- A free-run pan at a frame end goes on only once its frame's records are accepted (R15). -/
def State.waitsForRecords (p : Nat) (s : State) : State :=
  s.modSite p (fun x => if x.freeRun && x.pan.frameCyc == 0 && !s.accepts x then { x with waitObs := true } else x)

/-- A replay in which a record was out of order or failed its check parks at the frame end (R243). -/
def State.parkOnError (p frame : Nat) (s : State) : State :=
  match s.site p with
  | none => s
  | some x =>
    if x.mode = .replay ∧ x.heap.replayErr ≠ 0 then
      (s.putSite p { x with heap := { x.heap with replayErr := 0, replay := [] } }).park p frame x.heap.replayErr false
    else s

/-- A mode decided at the latch takes over (R196); the frame of a pan that leaves real time is settled first. A pan that enters it leaves
its slot where 24 of the bay hold real-time pans (R186). -/
def State.takeMode (p : Nat) (s : State) : State :=
  let leaves := fun x : Site => x.realTime && x.modeReq.any (fun m => m.1 != .locked && m.1 != .elastic)
  let t := if (s.site p).any leaves then s.settleFrame p else s
  let full := (t.site p).any (fun x => !x.realTime && x.slot.isSome && decide (24 ≤ t.rtSlots x.bay))
  (t.modSite p (fun x =>
    let y := (x.newMode t.now t.dev.w).openLog t.kpa t.conf t.now
    if full && y.realTime then y.swapOut else y)).tidyPhase p

/-- What the frame that has ended leaves in the pan's record: samples, snapshot, records, picture, times. -/
def Site.endFrame (kpa conf : Byte) (old : Pan) (redo : Bool) (x : Site) : Site :=
  let live := !redo && !x.rerunning
  let pic := old.composedFrame
  let ss := x.pan.snd.samples.reverse
  let y := x.takeSamples
  let y := if y.realTime && live then y.deliverSamples old ss else y
  let y := ((y.snapshot kpa conf).prune).queueRecords old.frame pic ss (y.hashDue kpa conf old.frame) redo
  let y := { y with plQ := y.plQ.map (Placement.carryHalt old.frame (y.pan.frameStart - old.frameStart)),
                    resFrames := y.resFrames + 1, prevLen := some (old.frame, y.pan.frameStart - old.frameStart),
                    stepLeft := if y.mode = .step ∧ live then y.stepLeft - 1 else y.stepLeft }
  if redo then y
  else if y.realTime then ({ y with newFrame := some pic }).nextTimes
  else if y.freeRun && live then y.setLast pic else y

/-- A late placement counts in the flow entry of its slot (R225, R326). -/
def State.countLate (p : Nat) (s : State) (r : Placement) : State :=
  match r.kind with
  | .input k _ =>
    match Table.get s.flows (16 * p + k.val) with
    | some f => { s with flows := Table.put s.flows (16 * p + k.val) { f with ctr := { f.ctr with latePlaced := (f.ctr.latePlaced + 1) % 2 ^ 32 } } }
    | none => s
  | _ => s

/-- At the end of a real-time frame, placements that turn out late in it are handled so and counted (R224, R225, R326). -/
def State.sweepLate (p : Nat) (old : Pan) (s : State) : State :=
  match s.site p with
  | none => s
  | some x =>
    let y := x.sweepLate old
    (((x.lateAtEnd old).filter (fun pl => !y.lateRecords.any (fun q => q.order == pl.order))).foldl (State.countLate p) s).putSite p y

/-- The device's part of a frame's end: the image stands at the start of the next frame. -/
def State.frameDone (p : Nat) (old : Pan) (redo : Bool) (s : State) : State :=
  match s.site p with
  | none => s
  | some x =>
    let k := old.frame
    let t := s.putSite p (x.endFrame s.kpa s.conf old redo)
    let t := if redo then t else (t.sweepLate p old).takeMode p
    let t := match x.takeSamples.hashDue s.kpa s.conf k with
      | some v => if x.heap.refMode = 0 ∨ x.rerunning then t else t.compareHash p k v redo
      | none => t
    if redo then t else ((t.waitsForRecords p).parkOnError p k).stopsHere p k

/-- The frame-end actions, where the pan's frame number has moved on. -/
def State.afterPan (p : Nat) (old : Pan) (redo : Bool) (s : State) : State :=
  let t := (s.crystallize p).flush p redo
  if (t.site p).any (fun x => decide (old.frame < x.pan.frame)) then t.frameDone p old redo else t

/-! ### One pan-cycle of a pan with its placements -/

/-- A placement leaves the queue once the engine has applied it, with its log record and history. -/
def Site.noteApplied (x : Site) (e : Nat × Placement) : Site :=
  let frame := x.pan.frame
  let cyc := e.1 - x.pan.frameStart
  ((((x.unqueue e.2).endsCall e.2.kind).log (if e.2.logged then [] else e.2.logRecs frame cyc)).remember
    { frame := frame, cyc := cyc, p := e.2 })

/-- A pan's next pan-cycle, with every placement that falls on it. -/
def State.panCycle (p : Nat) (redo : Bool) (s : State) : State :=
  match s.site p with
  | none => s
  | some x =>
    let due := x.dueNow (x.inQ.length + x.plQ.length)
    let ext := fun q : Pan => due.foldl (fun r e => r.place e.2.kind e.2.late) q
    let y := due.foldl Site.noteApplied x
    (s.putSite p { y.modPan (Pan.cycle ext) with dirty := true }).afterPan p x.pan redo

/-- Frames re-run until a frame number, or until the pan stops, within `n` pan-cycles (R234). -/
def State.rerunTo (p frame : Nat) : Nat → State → State
  | 0, s => s
  | n + 1, s =>
    match s.site p with
    | none => s
    | some x =>
      if frame ≤ x.pan.frame ∨ !x.running ∨ x.pan.core.fault ≠ 0 then s else State.rerunTo p frame n (s.panCycle p true)

end Sys2Proof.Machine
end

