-- ==== Sys2Proof/Machine/Live.lean ====
section
/-!
DEFINITION. When a pan can advance (R11, R12, R15, R195, R197), and what carries one event of its virtual time out.
-/
namespace Sys2Proof.Machine

/-- What every meaning answers. -/
abbrev Result := Host.Outcome State Fault Refusal

/-! ### Positions and halts (R197) -/

/-- The position a halt's placement falls on, once the pan has reached its frame. -/
def Site.haltPlace (x : Site) (pl : Placement) : Option (Nat × Nat) :=
  (x.slotClk pl).map (fun c => if c < x.pan.frameStart then (x.pan.frame, 0) else (x.pan.frame, c - x.pan.frameStart))

/-- The position at or after which a halt takes effect, and whether it is the named one (R197). -/
def Site.haltPos (x : Site) (pl : Placement) : Option ((Nat × Nat) × Bool) :=
  match pl.kind with
  | .halt named _ _ =>
    (x.haltPlace pl).map (fun c =>
      match named with
      | some n => if posBefore n c then (c, false) else (n, true)
      | none => (c, false))
  | _ => none

/-- The last pan-cycle the pan has run lies at or after a position. -/
def Pan.ranPast (p : Pan) (pos : Nat × Nat) : Bool :=
  decide (pos.1 < p.frame) || (p.frame == pos.1 && decide (p.frameStart + pos.2 < p.clk))

/-- A halt's position has come. -/
def Site.haltMet (x : Site) (pl : Placement) : Bool := (x.haltPos pl).any (fun e => x.pan.ranPast e.1)

/-- Some halt's position has come: the pan halts at the end of the instruction in progress. -/
def Site.haltDue (x : Site) : Bool := x.halts.any (fun pl => x.haltMet pl)

/-- The `REP` pan-cycle has run and no iteration since: K stands as it stood before it (R46). -/
def Pan.atPrefix (p : Pan) : Bool := p.core.rep && p.core.saved.k == p.cpu.k

/-- The pan stands at the end of an instruction, or idles in `WAI`; a point between two iterations of `REP` is such an end, the
end of the `REP` pan-cycle is not (R46, R196). -/
def Pan.atBoundary (p : Pan) : Bool :=
  p.core.wait || (p.core.cyc == 0 && p.core.entry == 0 && p.core.resetLeft == 0 && !p.atPrefix)

/-! ### Running (R11 to R15) -/

/-- A halt has come and the pan stands where it takes effect. -/
def Site.haltsHere (x : Site) : Bool := x.haltDue && x.pan.atBoundary

/-- The device's engines run: supplied, out of reset and of D3hot, not stopped. -/
def State.engines (s : State) : Bool :=
  s.pwr.supplied && !s.pwr.sysRst && !s.pwr.d3hot && !s.pwr.tripped && !s.dev.status.getLsbD 31

/-- A burst at the start of its frame carries late records: the rewind comes first (R225, R234). -/
def Site.rewindOwed (x : Site) : Bool :=
  x.realTime && x.burst && x.endedE.isNone && x.pan.frameCyc == 0 && x.lateRecords.any (fun r => decide (r.arrival ≤ x.cutoff))

/-- A free-run pan has frames, or a log, left to run (R195). -/
def Site.hasWork (x : Site) : Bool :=
  match x.mode with
  | .step => decide (0 < x.stepLeft)
  | .replay => !x.heap.replay.isEmpty || x.heap.replayErr != 0
  | _ => true

/-- A boiler runs the pan and the pan advances: a real-time pan within the burst of its frame, a free-run pan that waits for
nothing. -/
def Site.live (x : Site) : Bool :=
  x.boiler.isSome && !x.parked && !x.waitObs && !x.pan.core.hcWait && x.pan.core.fault == 0 &&
    ((x.realTime && x.burst && x.endedE.isNone && !x.rewindOwed) || (x.freeRun && x.hasWork))

/-- A pan that free-run scheduling may run: it has work and waits for nothing. -/
def Site.canRun (x : Site) : Bool :=
  x.freeRun && !x.parked && !x.waitObs && !x.pan.core.hcWait && x.pan.core.fault == 0 && x.hasWork

/-- A run may end before its 20 µs: a wait, a batch done, a park, a synchronous host-call (R194). -/
def Site.runOver (batch : Nat) (x : Site) : Bool := !x.canRun || decide (batch ≤ x.resFrames)

/-- A free-run run is over: it has one of those ends, or has lasted 20 µs (R13, R194). -/
def State.runDone (s : State) (x : Site) : Bool :=
  x.freeRun && x.boiler.isSome && (x.runOver s.dev.batch || decide (x.runStart + 20 * Config.usUnits ≤ s.now))

/-- Every free-run run that is over ends. -/
def State.endRuns (s : State) : State :=
  { s with sites := s.sites.map (fun e => (e.1, if s.runDone e.2 then { e.2 with boiler := none } else e.2)) }

/-- A pan that a boiler runs and that advances. -/
def State.runs (s : State) (x : Site) : Bool := s.engines && x.live && !s.runDone x

/-- The record of a pan that advances. -/
def State.liveSite (s : State) (p : Nat) : Option Site := (s.site p).filter s.runs

/-- A step of a pan's image, where the pan advances and the step is due; what the pan puts out is handed on (R29, R95). -/
def State.panStep (p : Nat) (f : Pan → Option Pan) (s : State) : Result :=
  match s.liveSite p with
  | none => .next s
  | some x =>
    match f x.pan with
    | none => .next s
    | some q => .next ((s.putSite p { x with pan := q, dirty := true }).afterPan p x.pan false)

/-- One instruction of the pan's program, where the one at PC is of the operation and form asked for and no halt is due. -/
def State.instruct (p : Nat) (o : Op) (m : Mode) (s : State) : Result :=
  if (s.site p).any Site.haltsHere then .next s else s.panStep p (Pan.execOp o m)

/-- A register access in one pan-cycle. -/
def State.access (p : Nat) (f : Pan → Pan) (s : State) : Result := s.panStep p (fun q => some (f q))

/-- A write that means what its row says only where a condition on the byte holds. -/
def State.accessIf (b : Bool) (p : Nat) (f : Pan → Pan) (s : State) : Result := if b then s.access p f else .next s

/-- A placement of a kind, where it is the next and its pan-cycle has come. -/
def State.placeStep (p : Nat) (ok : PlaceKind → Bool) (s : State) : Result :=
  match s.liveSite p with
  | none => .next s
  | some x =>
    match x.placeNext ok with
    | none => .next s
    | some y => .next ((s.putSite p { y with dirty := true }).afterPan p x.pan false)

end Sys2Proof.Machine
end

