-- ==== Sys2Proof/Machine/Packets.lean ====
section
/-!
DEFINITION. What every host command shares: reading parameters (R355, R356), reserved bytes (R7), readiness (R331), the
admission checks of the real-time class (R192), and the form in which each command states its checks, boundary and landing
(R358 to R360).
-/
namespace Sys2Proof.Machine

/-! ### Parameters (R355, R356) -/

/-- The command with the parameter bytes the device reads: 12 to 11 + min(8 × PLEN, 52), the others 0. -/
def packetRead (c : Packet) : Packet := { c with params := slice (c.params.take (min (8 * c.plen.toNat) 52)) 0 52 }

/-- The parameter of `k` bytes at packet offset `o`, unsigned. -/
def argOf (c : Packet) (o k : Nat) : Nat := leNat (slice c.params (o - 12) k)
/-- The parameter read as a signed number. -/
def argInt (c : Packet) (o k : Nat) : Int := signedOf (8 * k) (argOf c o k)
/-- The bytes of a parameter. -/
def argBytes (c : Packet) (o k : Nat) : List Byte := slice c.params (o - 12) k
/-- A bit of the parameter byte at an offset. -/
def argBit (c : Packet) (o i : Nat) : Bool := (argOf c o 1).testBit i
/-- The target as a number. -/
def targetOf (c : Packet) : Nat := c.target.toNat
/-- The target that stands for the device. -/
def deviceTarget : Nat := 0xFFFFFFFF

/-- Every parameter byte that no field names is 0 (R7). -/
def reservedZero (fields : List (Nat × Nat)) (c : Packet) : Bool :=
  (c.params.zipIdx).all (fun e => e.1 == 0 || fields.any (fun f => decide (f.1 ≤ e.2 + 12) && decide (e.2 + 12 < f.1 + f.2)))

/-! ### Readiness (R330, R331) -/

/-- Bits of `DEV_READY` a command may need. -/
def rdyTb : Nat := 2
/-- `DRAM0` to `DRAM3`. -/
def rdyDram : List Nat := [3, 4, 5, 6]
/-- The bit of a bay. -/
def rdyBay (b : Nat) : Nat := 7 + b
/-- The bit of a port. -/
def rdyEth (e : Nat) : Nat := 15 + e
/-- The bit of a head. -/
def rdyHead (h : Nat) : Nat := 17 + h
/-- `SLUICE`. -/
def rdySluice : Nat := 19

/-- All bits of a list are set. -/
def State.readyFor (s : State) (l : List Nat) : Bool := l.all (fun i => s.dev.ready.getLsbD i)

/-- The bits a command on a pan needs: its home bay's, if it exists. -/
def State.panNeeds (s : State) (c : Packet) : List Nat := (s.site (targetOf c)).elim [] (fun x => [rdyBay x.bay.val])

/-- `DEV_STATUS.FATAL`. -/
def State.fatal (s : State) : Bool := s.dev.status.getLsbD 31

/-! ### Admission (R192) -/

/-- Frames per second. -/
def Pan.rate (p : Pan) : Rat := (16000000000 : Rat) / (p.cfg.fp : Rat)

/-- The burst charge Tb in microseconds. -/
def Pan.burstCharge (p : Pan) : Nat := ceilDiv (p.cfg.lb * p.cpl) 1500 + ceilDiv (p.cfg.lb * 64) 1000 + 4

/-- The pan counts as admitted: in the real-time class, or halted or faulted with a phase index. -/
def Site.admitted (x : Site) : Bool := x.realTime || x.phase.isSome

/-- Admitted pans of a bay. -/
def State.bayPans (s : State) (b : Nat) : List Site :=
  (s.sites.map (fun e => e.2)).filter (fun x => x.admitted && x.bay.val == b)

/-- Sum of a charge over pans. -/
def sumRat (f : Site → Rat) (l : List Site) : Rat := (l.map f).foldl (· + ·) 0

/-- Harvester check of a bay (R192, R266). -/
def State.harvesterFits (s : State) (b : Nat) : Bool :=
  decide (sumRat (fun x => x.pan.rate * (Config.harvesterCharge x.pan.cfg.profile : Rat))
    ((s.sites.map (fun e => e.2)).filter (fun x => x.stream.isSome && x.bay.val == b)) ≤ 900000000)

/-- Boiler, slot and phase checks of a bay, and the window check of its pans. -/
def State.bayFits (s : State) (b : Nat) : Bool :=
  let l := s.bayPans b
  let run := sumRat (fun x => x.pan.rate * (x.pan.burstCharge : Rat)) l
  let deep := (l.map (fun x => x.pan.rate * (x.heap.depth : Rat) * (x.pan.burstCharge : Rat))).foldl max 0
  decide (run + deep ≤ 3000000) &&
    decide (sumRat (fun x => x.pan.rate) l * (s.dev.w : Rat) / 1000000 ≤ 24) &&
    decide (l.length ≤ 256) && l.all (fun x => x.phase.isSome) &&
    l.all (fun x => decide ((x.heap.depth + 1) * x.pan.burstCharge + 20 ≤ s.dev.w))

/-- Memory check of the device. -/
def State.memoryFits (s : State) : Bool :=
  decide (sumRat (fun x => 512 * (x.pan.grains : Rat) * x.pan.rate)
    ((s.sites.map (fun e => e.2)).filter Site.admitted) ≤ 51200000000)

/-- Every admission check holds. -/
def State.admits (s : State) : Bool :=
  (List.range 8).all (fun b => s.harvesterFits b && s.bayFits b) && s.memoryFits

/-! ### The form of a command -/

/-- What a landing leaves: the state, the status and the result. -/
structure Landed where
  state : State
  status : Nat
  result : List Byte

/-- A landing that succeeds. -/
def okWith (s : State) (result : List Byte) : Landed := { state := s, status := stOk, result := result }
/-- A landing that succeeds without a result. -/
def okOnly (s : State) : Landed := okWith s []

/-- A host command: opcode; parameter fields (offset, size); reserved bits within them are 0; `DEV_READY` bits needed, and a
further condition of check 2; checks 3 to 5, check 3 with what it judges on the settings the command leaves (R366); whether admission is judged on the state it leaves; the boundary it waits for
(none: at once); whether it answers for its own completion; what accepting it already counts for (R359); the object it
changes (R372); whether it may be staged (R370); what it does on acceptance, ahead of its boundary; and its landing. -/
structure CmdSpec where
  opcode : Nat
  fields : List (Nat × Nat)
  tidy : Packet → Bool
  needs : State → Packet → List Nat
  up : State → Packet → Bool
  range : State → Packet → Bool
  orders : State → Packet → Bool
  allows : State → Packet → Bool
  fits : State → Packet → Bool
  loads : Packet → Bool
  boundary : State → Packet → Option Boundary
  own : Bool
  object : Packet → Option Nat
  stages : Bool
  begins : Packet → State → State
  land : Packet → Nat → State → Landed
  counts : Packet → State → State

/-- Whether a command, landing alone, waits for the device epoch before its boundary counts (R251, R289, R213). -/
def waitsEpoch (opcode : Nat) : Bool := [0x0311, 0x0502, 0x0701, 0x0702].contains opcode

/-! ### Objects of transactions (R372) -/

/-- A pan. -/
def objPan (c : Packet) : Option Nat := some (targetOf c)
/-- A flow entry. -/
def objFlow (c : Packet) : Option Nat := some (10000 + targetOf c)
/-- A port. -/
def objPort (c : Packet) : Option Nat := some (50000 + targetOf c)
/-- A head. -/
def objHead (c : Packet) : Option Nat := some (50010 + targetOf c)
/-- A device-wide setting. -/
def objSetting (c : Packet) : Option Nat := some (50020 + argOf c 12 2)
/-- A timebase command. -/
def objTb (opcode : Nat) (_ : Packet) : Option Nat := some (120000 + opcode)

/-- A change of an object counted. -/
def State.touchObject (o : Option Nat) (s : State) : State :=
  match o with
  | none => s
  | some k => { s with versions := Table.put s.versions k ((Table.get s.versions k).getD 0 + 1) }

/-- How often an object has changed. -/
def State.version (s : State) (k : Nat) : Nat := (Table.get s.versions k).getD 0

/-! ### Common checks -/

/-- A pan number in range. -/
def panRange (_ : State) (c : Packet) : Bool := decide (targetOf c < 2048)
/-- The target is the device. -/
def deviceRange (_ : State) (c : Packet) : Bool := decide (targetOf c = deviceTarget)
/-- The pan exists. -/
def State.hasPan (s : State) (c : Packet) : Bool := (s.site (targetOf c)).isSome
/-- The pan exists and a test holds of it. -/
def State.panIs (s : State) (c : Packet) (f : Site → Bool) : Bool := (s.site (targetOf c)).any f
/-- A result address: aligned to 64 bytes and not 0 (R358). -/
def raddrOk (c : Packet) : Bool := decide (argOf c 12 8 ≠ 0) && decide (argOf c 12 8 % 64 = 0)

/-- A long result goes to host memory at RADDR (R358). -/
def State.longResult (c : Packet) (bs : List Byte) (s : State) : Landed := okOnly (s.hostWrite (argOf c 12 8) bs)

/-- The fields most commands share: no reserved bits, nothing needed, allowed and fitting, no load, at once. -/
def CmdSpec.plain (opcode : Nat) (fields : List (Nat × Nat)) (land : Packet → Nat → State → Landed) : CmdSpec :=
  { opcode := opcode, fields := fields, tidy := fun _ => true, needs := fun _ _ => [], up := fun _ _ => true,
    range := deviceRange, orders := fun _ _ => true, allows := fun _ _ => true, fits := fun _ _ => true, loads := fun _ => false,
    boundary := fun _ _ => none, own := false, object := fun _ => none, stages := false, begins := fun _ s => s, land := land,
    counts := fun c s => (land c 0 s).state }

/-- A command on a pan that exists. -/
def CmdSpec.onPan (opcode : Nat) (fields : List (Nat × Nat)) (land : Packet → Nat → State → Landed) : CmdSpec :=
  { CmdSpec.plain opcode fields land with
    needs := State.panNeeds, range := panRange, allows := fun s c => s.hasPan c, object := objPan }

end Sys2Proof.Machine
end

