-- ==== Sys2Proof/Machine/DeviceCommands.lean ====
section
/-!
DEFINITION. The commands of groups 0x00xx to 0x02xx, 0x09xx, 0x0Cxx and 0x0Dxx (R362, R367, R368): device, rings, titles,
memory, timebase, firmware and microcode, and starting a sluice chain.
-/
namespace Sys2Proof.Machine

/-! ### DRAM (R232, R362, R380) -/

/-- Bytes of the heap region that no pan has reserved. -/
def State.heapFree (s : State) : Nat :=
  s.dev.heapBytes - ((s.sites.map (fun e => e.2.pan.heapNeed e.2.heap.depth)).foldl (· + ·) 0)

/-- DRAM outside the heap region. -/
def State.openDram (s : State) : Nat := Config.dramBytes - s.dev.heapBytes

/-- Bytes of DRAM outside the heap region that pans and allocations leave. -/
def State.dramFree (s : State) : Nat :=
  s.openDram - ((s.allocs.map (fun e => e.2)).foldl (· + ·) 0 +
    (s.sites.map (fun e => (e.2.pan.grains + e.2.pan.cfg.mediaLen / 256) * 256)).foldl (· + ·) 0)

/-- Two ranges of bytes share one. -/
def overlaps (a n b m : Nat) : Bool := decide (a < b + m) && decide (b < a + n)

/-- A range of DRAM that no allocation holds. -/
def State.dramOpen (s : State) (a n : Nat) : Bool :=
  decide (a + n ≤ s.openDram) && s.allocs.all (fun e => !overlaps a n e.1 e.2)

/-- The address `MEM_ALLOC` gives: the preferred one if it is free, else the lowest free one after an allocation or 0. -/
def State.allocFor (s : State) (n : Nat) : Option Nat :=
  (Config.allocAddr s.free / 4096 * 4096 :: 0 :: s.allocs.map (fun e => e.1 + e.2)).find? (fun a => s.dramOpen a n)

/-- A range in use by a title, a pan's media region, a log or a hash reference (R362). -/
def State.dramInUse (s : State) (a n : Nat) : Bool :=
  s.titles.any (fun e => overlaps a n e.2.addr e.2.size) ||
    s.sites.any (fun e =>
      let x := e.2
      (decide (0 < x.pan.cfg.mediaLen) && overlaps a n x.staging x.pan.cfg.mediaLen) ||
        x.heap.refAt.any (fun r => overlaps a n r.1 r.2) || x.heap.replayAt.any (fun r => overlaps a n r.1 r.2))

/-- `DEV_QUERY` (R362). -/
def devQuerySpec : CmdSpec :=
  { CmdSpec.plain 0x0001 [(12, 8)] (fun c _ s =>
      s.drawn.longResult c (leBytes 4 Config.devId.toNat ++ leBytes 4 s.dev.ucode.toNat ++ leBytes 4 s.dev.fwBuild.toNat ++
        leBytes 4 (Config.dramBytes / 1048576) ++ leBytes 4 (s.dev.heapBytes / 1048576) ++ leBytes 4 (s.heapFree / 1048576) ++
        leBytes 2 (BitVec.ofInt 16 s.pwr.tj).toNat ++ leBytes 2 (Config.readIout s.free) ++ leBytes 4 s.pwr.episodes)) with
    range := fun s c => deviceRange s c && raddrOk c }

/-- The value of a `DEV_SET` is in range. -/
def devSetRange (id v : Nat) : Bool :=
  match id with
  | 1 => decide (250 ≤ v) && decide (v ≤ 4000)
  | 2 => decide (1 ≤ v) && decide (v ≤ 64)
  | 3 => decide (500 ≤ v) && decide (v ≤ 20000)
  | 4 => decide (v ≤ 1)
  | _ => false

/-- A device-wide setting in force. -/
def DevRegs.set (id v : Nat) (d : DevRegs) : DevRegs :=
  match id with
  | 1 => { d with w := v }
  | 2 => { d with batch := v }
  | 3 => { d with i2sDelay := v }
  | 4 => { d with srtpRequired := decide (v = 1) }
  | _ => d

/-- `DEV_SET` (R362, R186, R189, R302, R309). -/
def devSetSpec : CmdSpec :=
  { CmdSpec.plain 0x0002 [(12, 2), (16, 8)] (fun c _ s => okOnly (s.modDev (DevRegs.set (argOf c 12 2) (argOf c 16 8)))) with
    range := fun s c => deviceRange s c && devSetRange (argOf c 12 2) (argOf c 16 8),
    loads := fun c => decide (argOf c 12 2 = 1), boundary := fun _ _ => some .epoch, object := objSetting, stages := true }

/-! ### Rings (R335, R336, R411) -/

/-- Kinds with a data area. -/
def hasData (kind : Nat) : Bool := kind == 3 || kind == 4

/-- OWNER is in the range its kind gives. -/
def ownerRange (kind owner : Nat) : Bool :=
  match kind with
  | 0 => decide (owner < 16384)
  | 2 => decide (owner < 2048) || owner == 0xFFFF
  | 3 => decide (owner < 2048) || owner == 0xFFFF
  | 5 => decide (owner < 2)
  | 6 => decide (owner < 2048) || owner == 0xFFFF
  | _ => decide (owner = 0)

/-- INT: reserved bits 0, and a source of rings when enabled. -/
def intRange (v : Nat) : Bool := decide (v / 256 % 128 = 0) && (decide (v < 32768) || decide (80 ≤ v % 256))

/-- Ring of a 48-byte context. -/
def ringOf (ctx : List Byte) : Ring :=
  let n := fun o k => leNat (slice ctx o k)
  { base := n 0 8, idxAddr := n 8 8, dataBase := n 16 8, kind := n 24 1, log2 := n 25 1, dataLog2 := n 26 1,
    int := BitVec.ofNat 16 (n 28 2), count := n 30 2, time := n 32 2, owner := n 34 2, dev := 0, hst := 0, taken := 0,
    dataHead := 0, dataUse := [], unsig := 0, oldest := 0, open_ := 0 }

/-- A context keeps the ranges of R336. -/
def Ring.inRange (r : Ring) : Bool :=
  decide (r.base % 64 = 0) && decide (r.idxAddr % 8 = 0) && decide (r.kind ≤ 7) && decide (4 ≤ r.log2) && decide (r.log2 ≤ 16) &&
    (if hasData r.kind then decide (r.dataBase % 4096 = 0) && decide (16 ≤ r.dataLog2) && decide (r.dataLog2 ≤ 32)
     else decide (r.dataBase = 0) && decide (r.dataLog2 = 0)) &&
    intRange r.int.toNat && decide (1 ≤ r.count) && decide (r.time ≤ 1023) && ownerRange r.kind r.owner

/-- The checks of R362 and R411 on a ring to be created. -/
def State.ringAllowed (s : State) (r : Ring) : Bool :=
  let same := s.rings.any (fun e => e.2.kind == r.kind && e.2.owner == r.owner)
  match r.kind with
  | 0 => (s.ring r.owner).any (fun q => q.kind == 1)
  | 2 => !same
  | 6 => !same
  | 7 => !(s.rings.any (fun e => e.2.kind == 7))
  | _ => true

/-- The context a `RING_CREATE` carries. -/
def ringArg (c : Packet) : Ring := ringOf (argBytes c 12 48)

/-- A ring created: its index writeback starts at 0. Waiting requests and lost events go to it by rows of their own. -/
def State.createRing (n : Nat) (r : Ring) (s : State) : State := s.putRing n r

/-- A ring destroyed; a bittern assignment goes with it (R325). -/
def State.destroyRing (n : Nat) (s : State) : State :=
  { s with rings := Table.drop s.rings n, bittern := if s.bittern = some n then none else s.bittern,
           held := s.held.filter (fun h => h.cpl != n),
           sites := s.sites.map (fun e => (e.1, { e.2 with ringLost := e.2.ringLost || e.2.obs.ring == some n })) }

/-- A ring a command may destroy: not 0 or 1, not one of the command's own, not a CPL ring some CMD ring names. -/
def State.ringFree (s : State) (c : Packet) (n : Nat) : Bool :=
  decide (2 ≤ n) && decide (n ≠ c.ring) && !((s.ring c.ring).any (fun r => r.owner == n)) &&
    !(s.rings.any (fun e => e.2.kind == 0 && e.2.owner == n && (s.ring n).any (fun q => q.kind == 1)))

/-- A ring number in range. -/
def ringRange (_ : State) (c : Packet) : Bool := decide (targetOf c < 16384)

/-- `RING_CREATE` (R336, R411). -/
def ringCreateSpec : CmdSpec :=
  { CmdSpec.plain 0x0101 [(12, 8), (20, 8), (28, 8), (36, 1), (37, 1), (38, 1), (40, 2), (42, 2), (44, 2), (46, 2)]
      (fun c _ s => okOnly (s.createRing (targetOf c) (ringArg c))) with
    range := fun s c => ringRange s c && (ringArg c).inRange,
    allows := fun s c => !(s.ring (targetOf c)).isSome && s.ringAllowed (ringArg c) }

/-- `RING_DESTROY` (R362). -/
def ringDestroySpec : CmdSpec :=
  { CmdSpec.plain 0x0102 [] (fun c _ s => okOnly (s.destroyRing (targetOf c))) with
    range := ringRange, allows := fun s c => (s.ring (targetOf c)).isSome && s.ringFree c (targetOf c) }

/-- Bytes of the data area that hold no payload in use. -/
def Ring.dataFree (r : Ring) : Nat :=
  let size := if hasData r.kind then 2 ^ r.dataLog2 else 0
  match r.dataUse with
  | [] => size
  | u :: _ => if u.2.1 < r.dataHead then size - (r.dataHead - u.2.1) else u.2.1 - r.dataHead

/-- `RING_QUERY` (R362). -/
def ringQuerySpec : CmdSpec :=
  { CmdSpec.plain 0x0103 [] (fun c _ s =>
      match s.ring (targetOf c) with
      | some r => okWith s (leBytes 4 r.dev.toNat ++ leBytes 4 r.hst.toNat ++ leBytes 4 r.unsig ++ leBytes 4 r.dataFree)
      | none => okOnly s) with
    range := ringRange, allows := fun s c => (s.ring (targetOf c)).isSome }

/-- `RING_MOD` (R362): a count in progress runs on. -/
def ringModSpec : CmdSpec :=
  { CmdSpec.plain 0x0104 [(12, 2), (14, 2), (16, 2)] (fun c _ s =>
      match s.ring (targetOf c) with
      | some r => okOnly (s.putRing (targetOf c)
          { r with int := BitVec.ofNat 16 (argOf c 12 2), count := argOf c 14 2, time := argOf c 16 2 })
      | none => okOnly s) with
    range := fun s c => ringRange s c && intRange (argOf c 12 2) && decide (1 ≤ argOf c 14 2) && decide (argOf c 16 2 ≤ 1023),
    allows := fun s c => (s.ring (targetOf c)).isSome }

/-! ### Titles and memory (R74, R362) -/

/-- A title handle in range. -/
def titleRange (_ : State) (c : Packet) : Bool := decide (targetOf c < 1024)
/-- The image a `TITLE_LOAD` names. -/
def State.titleImage (s : State) (c : Packet) : List Byte := s.dram.readBytes (argOf c 12 8) (argOf c 20 4)
/-- A range of DRAM. -/
def dramRange (a n : Nat) : Bool := decide (a + n ≤ Config.dramBytes)

/-- `TITLE_LOAD` (R74). -/
def titleLoadSpec : CmdSpec :=
  { CmdSpec.plain 0x0201 [(12, 8), (20, 4)] (fun c _ s =>
      let t := titleOf (argOf c 12 8) (s.titleImage c)
      okWith { s with titles := Table.put s.titles (targetOf c) t } (leBytes 8 t.id.toNat)) with
    needs := fun _ _ => rdyDram,
    range := fun s c => titleRange s c && decide (argOf c 20 4 ≤ 16777280) && dramRange (argOf c 12 8) (argOf c 20 4) &&
      titleOk (s.titleImage c),
    allows := fun s c => !Table.has s.titles (targetOf c) }

/-- `TITLE_UNLOAD` (R362). -/
def titleUnloadSpec : CmdSpec :=
  { CmdSpec.plain 0x0202 [] (fun c _ s => okOnly { s with titles := Table.drop s.titles (targetOf c) }) with
    needs := fun _ _ => rdyDram, range := titleRange,
    allows := fun s c => Table.has s.titles (targetOf c) && !(s.sites.any (fun e => e.2.title == targetOf c)) }

/-- `MEM_ALLOC` (R362). -/
def memAllocSpec : CmdSpec :=
  { CmdSpec.plain 0x0203 [(12, 8)] (fun c _ s =>
      match s.allocFor (argOf c 12 8) with
      | some a => okWith { s.drawn with allocs := Table.put s.allocs a (argOf c 12 8) } (leBytes 8 a)
      | none => { state := s, status := stNoCapacity, result := [] }) with
    needs := fun _ _ => rdyDram,
    range := fun s c => deviceRange s c && decide (0 < argOf c 12 8) && decide (argOf c 12 8 % 4096 = 0),
    fits := fun s c => decide (argOf c 12 8 ≤ s.dramFree) && (s.allocFor (argOf c 12 8)).isSome }

/-- `MEM_FREE` (R362). -/
def memFreeSpec : CmdSpec :=
  { CmdSpec.plain 0x0204 [(12, 8)] (fun c _ s => okOnly { s with allocs := Table.drop s.allocs (argOf c 12 8) }) with
    needs := fun _ _ => rdyDram,
    allows := fun s c =>
      match Table.get s.allocs (argOf c 12 8) with
      | some n => !s.dramInUse (argOf c 12 8) n
      | none => false }

/-! ### Timebase (R211, R212, R216) -/

/-- `TB_RATE`. -/
def tbRateSpec : CmdSpec :=
  { CmdSpec.plain 0x0901 [(12, 4)] (fun c _ s => okOnly (s.modTb (fun t => { t with rate := argInt c 12 4 }))) with
    needs := fun _ _ => [rdyTb],
    range := fun s c => deviceRange s c && decide (-1600000 ≤ argInt c 12 4) && decide (argInt c 12 4 ≤ 1600000),
    boundary := fun _ _ => some .epoch, object := objTb 1, stages := true }

/-- `TB_SLEW`: the new offset replaces what is left of the old one. -/
def tbSlewSpec : CmdSpec :=
  { CmdSpec.plain 0x0902 [(12, 8)] (fun c _ s =>
      okOnly (s.modTb (fun t => { t with slew := argInt c 12 8, slewing := decide (argInt c 12 8 ≠ 0), slewAcc := 0 }))) with
    needs := fun _ _ => [rdyTb],
    range := fun s c => deviceRange s c && decide (-16000000000 ≤ argInt c 12 8) && decide (argInt c 12 8 ≤ 16000000000),
    boundary := fun _ _ => some .epoch, object := objTb 2, stages := true }

/-- No pan holds a phase index, and no packet or PPS-out edge, rising or falling, is scheduled (R212). -/
def State.mayStep (s : State) : Bool :=
  s.sites.all (fun e => e.2.phase.isNone) && s.packets.isEmpty && s.copies.isEmpty && !s.tb.ppsEn && !s.tb.ppsOut

/-- Device time takes a value, and epoch numbering restarts from it; what is counted from a time before the step moves along (R212, R216,
R382). -/
def State.stepTime (v : Nat) (s : State) : State :=
  (s.modPwr (fun p => { p with vddAt := p.vddAt.map (fun t => t + ((v : Int) - (s.now : Int))) })).modTb
    (fun t => { t with time := v, epochAt := v, ppsRise := none })

/-- `TB_STEP`. -/
def tbStepSpec : CmdSpec :=
  { CmdSpec.plain 0x0903 [(12, 8)] (fun c _ s => okOnly (s.stepTime (argOf c 12 8))) with
    needs := fun _ _ => [rdyTb], allows := fun s _ => s.mayStep, boundary := fun _ _ => some .epoch,
    object := fun _ => none, counts := fun _ s => s }

/-- `TB_PPS`. -/
def tbPpsSpec : CmdSpec :=
  { CmdSpec.plain 0x0904 [(12, 1), (16, 8), (24, 4)] (fun c _ s =>
      okOnly (s.modTb (fun t => { t with ppsEn := argBit c 12 0, ppsOffset := argOf c 16 8, ppsHigh := argOf c 24 4 * 16000 }))) with
    tidy := fun c => decide (argOf c 12 1 ≤ 1), needs := fun _ _ => [rdyTb],
    range := fun s c => deviceRange s c && decide (argOf c 16 8 < 16000000000) && decide (1 ≤ argOf c 24 4) &&
      decide (argOf c 24 4 ≤ 500000),
    boundary := fun _ _ => some .epoch, object := objTb 4, stages := true }

/-! ### Firmware and microcode (R203, R204, R379) -/

/-- The bytes a firmware or patch command names. -/
def State.upload (s : State) (c : Packet) : List Byte := s.host.readBytes (argOf c 12 8) (argOf c 20 4)

/-- The checks of R379 on a firmware image. -/
def fwAccepted (img : List Byte) : Bool :=
  !img.isEmpty && decide (img.length ≤ 4194304) && Config.fwSignatureOk img && decide (Config.fusedMinimum ≤ Config.fwSecurityVersion img)

/-- The firmware banks' places in the boot flash and the size of a bank (R378). -/
def flashBank (n : Nat) : Nat := if n = 0 then 0x100000 else 0x500000
/-- 4 MiB. -/
def flashBankSize : Nat := 0x400000
/-- The size of CONFIG, which lies at 0. -/
def flashConfigSize : Nat := 0x10000

/-- A byte of the boot flash as the device reads it (R378): CONFIG, BANK0, BANK1; a cell that nothing has been written to reads 0xFF, as NOR
flash does (PRESUMED: notes/assumptions/59.md). -/
def Flash.byteAt (f : Flash) (a : Nat) : Byte :=
  if a < flashConfigSize then f.config.getD a 0xFF
  else if flashBank 0 ≤ a ∧ a < flashBank 0 + flashBankSize then f.bank0.getD (a - flashBank 0) 0xFF
  else if flashBank 1 ≤ a ∧ a < flashBank 1 + flashBankSize then f.bank1.getD (a - flashBank 1) 0xFF
  else 0xFF

/-- `FW_WRITE`: the bank that runs is never written. The write is one step, which no reset interrupts (R379; DESIGN CHOICE:
notes/assumptions/59.md). -/
def fwWriteSpec : CmdSpec :=
  { CmdSpec.plain 0x0C01 [(12, 8), (20, 4), (24, 1)] (fun c _ s =>
      okOnly { s with flash := if argOf c 24 1 = 0 then { s.flash with bank0 := s.upload c }
                               else { s.flash with bank1 := s.upload c } }) with
    range := fun s c => deviceRange s c && decide (argOf c 24 1 ≤ 1) && decide (argOf c 20 4 ≤ 4194304) && fwAccepted (s.upload c),
    allows := fun s c => decide (argOf c 24 1 ≠ s.flash.running) }

/-- `UCODE_PATCH`: the patch is staged at once and in force after the switch. -/
def ucodePatchSpec : CmdSpec :=
  { CmdSpec.plain 0x0C02 [(12, 8), (20, 4)] (fun _ _ s =>
      match s.patch with
      | some b => okWith { s.modDev (fun d => { d with ucode := Config.patchVersion b }) with boilerPatch := b }
                    (leBytes 4 (Config.patchVersion b).toNat)
      | none => okWith s (leBytes 4 s.dev.ucode.toNat)) with
    needs := fun _ _ => (List.range 8).map rdyBay,
    range := fun s c => deviceRange s c && decide (argOf c 20 4 ≤ 2048) && decide (argOf c 20 4 % 8 = 0) &&
      Config.patchWellFormed (s.upload c) &&
      decide (bits (Config.patchVersion (s.upload c)) 31 24 = bits s.dev.ucode 31 24),
    allows := fun s c => decide (bits (Config.patchVersion (s.upload c)) 23 16 = bits s.dev.ucode 23 16) ||
      s.sites.all (fun e => e.2.mode == .idle),
    boundary := fun _ _ => some .switch, begins := fun c s => { s with patch := some (s.upload c) }, counts := fun _ s => s }

/-! ### Starting a chain (R348, R352) -/

/-- A sluice channel. -/
def chanOf (c : Packet) : Fin 64 := ⟨targetOf c % 64, by omega⟩

/-- `SLUICE_START`: completes when the chain ends. -/
def sluiceStartSpec : CmdSpec :=
  { CmdSpec.plain 0x0D01 [(12, 8)] (fun _ _ s => okOnly s) with
    needs := fun _ _ => [rdySluice],
    range := fun _ c => decide (targetOf c < 64) && decide (argOf c 12 8 % 32 = 0),
    allows := fun s c => !(s.sluice[chanOf c]).busy,
    boundary := fun _ c => some (.chain (targetOf c)),
    begins := fun c s =>
      let start := fun q : Sluice => { q with busy := true, descs := 0, done := 0, next := some (argOf c 12 8) }
      { s with sluice := vmod s.sluice (chanOf c) start },
    counts := fun _ s => s }

end Sys2Proof.Machine
end

