-- ==== Sys2Proof/Machine/PanCommands.lean ====
section
/-!
DEFINITION. The pan lifecycle commands (R364): creation and configuration (R72, R75, R98, R99), changes of mode (R196), halts
and debug steps (R197, R198), placements (R92, R94 to R96, R84), input, host-call and observation settings (R220, R57, R251).
-/
namespace Sys2Proof.Machine

/-! ### Creation and configuration (R98, R99) -/

/-- Settings of an audio chain by default (R290). -/
def AudioCfg.reset : AudioCfg :=
  { dcCut := 10, rumble := 0, gain := 0, gainTimeout := 10, silLevel := -60, silTime := 10, clipCount := 1, opusRate := 96,
    opusVbr := 1 }

/-- An audio chain at the creation of its pan. -/
def Audio.reset : Audio :=
  { cfg := AudioCfg.reset, left := Channel.reset 0, right := Channel.reset 0, routes := ⟨false, false, false, 0xFFFF⟩,
    nextRoutes := none, queue := [], block := 0, silBlocks := 0, silence := false, clip := false, last := (0, 0), fade := 0, fadeFrom := (0, 0),
    opusStart := 0, opusFill := 0, opusOn := false, opusEnd := 0, opusEnding := false, opusRate := 96, opusVbr := 1,
    stream := none, lastBlock := 0, rejoin := none, pcmGap := false, lateFrames := [], i2sDue := false, i2sMissed := 0 }

/-- Heap settings by default (R230, R240, R241). -/
def HeapSt.reset : HeapSt :=
  { depth := 0, snaps := [], hashEvery := 0, refMode := 0, refs := [], refDone := false, refAt := none, replayAt := none,
    logOn := false, logOpen := false, lseq := 0, logs := [], replay := [], replayOn := false, replayErr := 0, replayPos := (0, 0),
    confDiff := false, applied := [], calls := [], oldCalls := [], written := none, rerunClk := 0 }

/-- Observation settings by default (R251). -/
def Obs.reset : Obs :=
  { ring := none, fmt := 0, every := 1, x := 0, y := 0, w := 0, h := 0, scale := 1, bt601 := false, audio := true, pitch := 0 }

/-- The record of a new pan: in `IDLE`, with every setting at its default (R57, R220). -/
def Site.create (pan : Pan) (title : Nat) (bay : Fin 8) (staging : Nat) : Site :=
  { pan := pan, mode := .idle, leftMode := .idle, title := title, bay := bay, nextBay := none, slot := none, resFrames := 0, swappedAt := 0,
    dirty := false, boiler := none, runStart := 0, phase := none, frameS := 0, frameE := 0, endedE := none, mapFrame := 0,
    mapClk := 0, prevLen := none, burst := false, cutoff := 0, parked := false, stepLeft := 0, waitObs := false, stopAt := none,
    modeReq := none, mbHolding := [], mbNext := 0, inQ := [], plQ := [], order := 0, inputDelay := 16000000,
    slotPlace := Vector.replicate 16 { client := false, offset := 0, window := 80000000 },
    attached := 0, hcTimeout := 160000000, callOut := none, heap := HeapSt.reset, obs := Obs.reset, obsQ := [], gap := false,
    ringLost := false,
    ctr := { late := 0, rewinds := 0, obsSkips := 0, hcDiscarded := 0, reruns := 0, rejects := 0, latePlaced := 0 },
    lastFrame := none, prevFrame := none, lastEnd := 0, newFrame := none,
    stream := none, audio := Audio.reset, staging := staging, lateRecords := [] }

/-- Frame period of a title's rate (R99). -/
def fpOfRate (rate : Nat) : Nat := ceilDiv 16000000000000 rate

/-- Profile, frame period and line budget given or taken from the title and the profile (R98, R99). -/
def profileArg (t : Title) (v : Nat) : Nat := if v = 0xFF then t.profile else v
/-- Frame period. -/
def fpArg (t : Title) (v : Nat) : Nat := if v = 0 then fpOfRate t.rate else v
/-- Line budget. -/
def lbArg (profile v : Nat) : Nat := if v = 0 then Config.nominalVtotal profile else v

/-- Values a pan may have (R98, R99). -/
def profileOk (v : Nat) : Bool := decide (v ≤ 3) || v == 0xFF
/-- Frame periods. -/
def fpOk (v : Nat) : Bool := v == 0 || (decide (133333334 ≤ v) && decide (v ≤ 666666667))
/-- Line budgets. -/
def lbOk (profile v : Nat) : Bool := decide (Config.vActive profile + 4 ≤ v) && decide (v ≤ 1023)

/-- The title a command's handle names. -/
def State.titleOf (s : State) (c : Packet) : Option Title := Table.get s.titles (argOf c 12 2)

/-- The fixed part of the pan a `PAN_CREATE` describes. -/
def createCfg (t : Title) (c : Packet) : PanCfg :=
  let p := profileArg t (argOf c 15 1)
  { profile := p, fp := fpArg t (argOf c 16 4), lb := lbArg p (argOf c 20 2), elastic := decide (argOf c 22 1 = 1),
    titleId := t.id, minKpa := t.minKpa, rewindFlag := t.rewind, romLen := t.romLen, rom := t.rom,
    cramSize := cramBytes t.cramCode, mediaLen := argOf c 44 4 }

/-- The record of the pan a `PAN_CREATE` describes (R67, R84). -/
def State.createSite (s : State) (t : Title) (c : Packet) : Site :=
  let cfg := createCfg t c
  let cram := if argOf c 28 8 = 0 then [] else memoryOf (s.dram.readBytes (argOf c 28 8) cfg.cramSize)
  let media := memoryOf (s.dram.readBytes (argOf c 36 8) cfg.mediaLen)
  Site.create (Pan.reset cfg (BitVec.ofNat 16 (argOf c 24 2)) cram media) (argOf c 12 2)
    ⟨argOf c 14 1 % 8, by omega⟩ (argOf c 36 8)

/-- The bay a `PAN_CREATE` or `PAN_CONFIG` names must be ready, if it is a bay. -/
def bayNeeds (_ : State) (c : Packet) : List Nat := if argOf c 14 1 < 8 then [rdyBay (argOf c 14 1)] else []

/-- `PAN_CREATE`. -/
def panCreateSpec : CmdSpec :=
  { CmdSpec.onPan 0x0301 [(12, 2), (14, 1), (15, 1), (16, 4), (20, 2), (22, 1), (24, 2), (28, 8), (36, 8), (44, 4)]
      (fun c _ s =>
        match s.titleOf c with
        | some t => okOnly (s.putSite (targetOf c) (s.createSite t c))
        | none => { state := s, status := stBadState, result := [] }) with
    needs := bayNeeds,
    range := fun s c =>
      panRange s c && decide (argOf c 12 2 < 1024) && decide (argOf c 14 1 < 8) && profileOk (argOf c 15 1) &&
        fpOk (argOf c 16 4) && decide (argOf c 22 1 ≤ 1) && decide (argOf c 44 4 ≤ 4194304) && decide (argOf c 44 4 % 256 = 0) &&
        dramRange (argOf c 36 8) (argOf c 44 4) &&
        (match s.titleOf c with
         | some t => let g := createCfg t c; lbOk g.profile g.lb && dramRange (argOf c 28 8) g.cramSize
         | none => true),
    allows := fun s c => !s.hasPan c && (s.titleOf c).isSome,
    fits := fun s c => (s.titleOf c).all (fun t => decide (((s.createSite t c).pan.grains + argOf c 44 4 / 256) * 256 ≤ s.dramFree)) }

/-- `PAN_DESTROY`: what waits on the pan no longer holds. -/
def panDestroySpec : CmdSpec :=
  { CmdSpec.onPan 0x0302 [] (fun c _ s =>
      let p := targetOf c
      let t := (s.dropWaiting (Waiting.onPan p) stBadState).dropCalls p
      okOnly { t with sites := Table.drop t.sites p, i2s := t.i2s.without p }) with
    allows := fun s c => s.panIs c (fun x => x.mode == .idle),
    counts := fun c s => { s with sites := Table.drop s.sites (targetOf c) } }

/-- A bit of MASK. -/
def maskBit (c : Packet) (i : Nat) : Bool := argBit c 12 i

/-- The fixed part of a pan as a `PAN_CONFIG` leaves it. -/
def configCfg (t : Title) (c : Packet) (g : PanCfg) : PanCfg :=
  let p := if maskBit c 4 then profileArg t (argOf c 15 1) else g.profile
  { g with profile := p, fp := if maskBit c 3 then fpArg t (argOf c 16 4) else g.fp,
           lb := if maskBit c 2 then lbArg p (argOf c 20 2) else g.lb,
           elastic := if maskBit c 1 then decide (argOf c 22 1 = 1) else g.elastic }

/-- The pan's title. -/
def State.siteTitle (s : State) (x : Site) : Title :=
  (Table.get s.titles x.title).getD
    { addr := 0, size := 0, id := 0, profile := 0, minKpa := 0, romLen := 0, rom := [], cramCode := 0, rewind := false, rate := 60000 }

/-- `PAN_CONFIG` on a pan. The tag is latched with it for a read of PAN_TAG_H that comes before one of PAN_TAG_L (DESIGN CHOICE: R72
does not speak of the latch; notes/assumptions/51.md). -/
def Site.configure (t : Title) (c : Packet) (x : Site) : Site :=
  let g := configCfg t c x.pan.cfg
  let tag : Word := BitVec.ofNat 16 (argOf c 24 2)
  let sys : SysRegs → SysRegs := fun r => if maskBit c 0 then { r with tag := tag, tagLatch := tag.hi } else r
  let y := x.modPan (fun q => { q.withCfg g with sys := sys q.sys })
  { y with bay := if maskBit c 5 then ⟨argOf c 14 1 % 8, by omega⟩ else x.bay, nextBay := none }

/-- The bay a `PAN_CONFIG` gives counts for a phase index from its acceptance on (R187, R372). -/
def Site.stageBay (c : Packet) (x : Site) : Site :=
  if maskBit c 5 then { x with nextBay := some ⟨argOf c 14 1 % 8, by omega⟩ } else x

/-- `PAN_CONFIG`. -/
def panConfigSpec : CmdSpec :=
  { CmdSpec.onPan 0x0303 [(12, 1), (14, 1), (15, 1), (16, 4), (20, 2), (22, 1), (24, 2)] (fun c _ s =>
      okOnly (s.modSite (targetOf c) (fun x => x.configure (s.siteTitle x) c))) with
    tidy := fun c => decide (argOf c 12 1 < 64),
    needs := fun s c => s.panNeeds c ++ (if maskBit c 5 then bayNeeds s c else []),
    range := fun s c =>
      panRange s c && (!maskBit c 5 || decide (argOf c 14 1 < 8)) && (!maskBit c 4 || profileOk (argOf c 15 1)) &&
        (!maskBit c 3 || fpOk (argOf c 16 4)) && (!maskBit c 1 || decide (argOf c 22 1 ≤ 1)) &&
        (s.site (targetOf c)).all (fun x => let g := configCfg (s.siteTitle x) c x.pan.cfg; lbOk g.profile g.lb),
    allows := fun s c => s.panIs c (fun x => x.mode == .idle), stages := true,
    begins := fun c s => s.modSite (targetOf c) (Site.stageBay c) }

/-! ### Modes (R196) -/

/-- The mode a number names. -/
def modeOf : Nat → PanMode
  | 1 => .locked | 2 => .elastic | 3 => .free | 4 => .step | 5 => .replay | 6 => .halted | 7 => .faulted | _ => .idle

/-- A real-time target matches the pan's blanking kind. -/
def kindMatches (x : Site) (m : Nat) : Bool := !(m == 1 && x.pan.cfg.elastic) && !(m == 2 && !x.pan.cfg.elastic)

/-- MODE 1 to 4, and a number of frames where the mode is `STEP`. -/
def modeRange (s : State) (c : Packet) : Bool :=
  panRange s c && decide (1 ≤ argOf c 12 1) && decide (argOf c 12 1 ≤ 4) && (argOf c 12 1 != 4 || decide (1 ≤ argOf c 16 4))

/-- The pan holds the lowest free phase index of its bay (R187). -/
def State.givePhase (p : Nat) (s : State) : State :=
  s.modSite p (fun x => if x.phase.isSome then x else { x with phase := s.freePhase x.homeBay })

/-- A phase index for a real-time target. -/
def beginRt (c : Packet) (s : State) : State := if argOf c 12 1 ≤ 2 then s.givePhase (targetOf c) else s

/-- The pan leaves `IDLE` at an epoch: FAULT clears, a real-time pan's first frame end is chosen (R188, R199). -/
def Site.start (m : PanMode) (frames epoch w : Nat) (x : Site) : Site :=
  let y := { x.modPan (fun q => q.modCore (fun k => { k with fault := 0 })) with
    mode := m, parked := false, waitObs := false, stepLeft := if m = PanMode.step then frames else 0 }
  if m = PanMode.locked ∨ m = PanMode.elastic then y.enterRt epoch w else y

/-- A log that is enabled begins with the frame the pan begins now (R242). -/
def State.openLogAt (p : Nat) (s : State) : State :=
  s.modSite p (fun x => if x.pan.frameCyc = 0 then x.openLog s.kpa s.conf s.now else x)

/-- `PAN_START`. -/
def panStartSpec : CmdSpec :=
  { CmdSpec.onPan 0x0304 [(12, 1), (16, 4)] (fun c _ s =>
      okOnly ((((beginRt c s).modSite (targetOf c) (Site.start (modeOf (argOf c 12 1)) (argOf c 16 4) s.tb.epochAt s.dev.w)).openLogAt
        (targetOf c)).waitsForRecords (targetOf c))) with
    range := modeRange, allows := fun s c => s.panIs c (fun x => x.mode == .idle && kindMatches x (argOf c 12 1)),
    loads := fun c => decide (argOf c 12 1 ≤ 2), boundary := fun _ _ => some .epoch, stages := true, begins := beginRt }

/-- The mode a `PAN_MODE` asks for, decided at the latch; a pan that does not run takes it at once (R360). -/
def State.changeMode (c : Packet) (s : State) : State :=
  let p := targetOf c
  let t := (beginRt c s).modSite p (fun x => { x with modeReq := some (modeOf (argOf c 12 1), argOf c 16 4) })
  if (t.site p).any (fun x => x.parked) then ((t.modSite p (Site.newMode s.now s.dev.w)).tidyPhase p).waitsForRecords p else t

/-- `PAN_MODE` (R196, R364). DEDUCED: naming the mode the pan is in is no error; it sets the frame count of `STEP` anew. -/
def panModeSpec : CmdSpec :=
  { CmdSpec.onPan 0x0305 [(12, 1), (16, 4)] (fun c _ s => okOnly (s.changeMode c)) with
    range := modeRange,
    allows := fun s c => s.panIs c (fun x =>
      x.running && kindMatches x (argOf c 12 1)),
    loads := fun c => decide (argOf c 12 1 ≤ 2), boundary := fun _ c => some (.latch (targetOf c)), stages := true,
    begins := beginRt,
    counts := fun c s => (beginRt c s).modSite (targetOf c) (fun x =>
      if x.running then { x with mode := modeOf (argOf c 12 1), phase := if argOf c 12 1 ≤ 2 then x.phase else none } else x) }

/-- A position named at or beyond the length of the last frame that has ended is pan-cycle 0 of the next (R197). -/
def Site.carried (x : Site) (n : Nat × Nat) : Nat × Nat :=
  if x.prevLen.any (fun e => e.1 == n.1 && decide (e.2 ≤ n.2)) then (n.1 + 1, 0) else n

/-- A halt placed as an input record arriving now; one that comes late is placed at pan-cycle 0 of the frame whose burst has
not started (R94, R197). -/
def Site.placeHalt (now : Nat) (c : Packet) (cpl : Nat) (x : Site) : Site :=
  let k := PlaceKind.halt (if argBit c 12 0 then some (x.carried (argOf c 16 4, argOf c 20 4)) else none) c cpl
  let pl : Placement := { arrival := now, place := now + x.inputDelay, order := x.order, atFrame := none, atCyc := 0,
                          late := false, bracketed := false, logged := false, kind := k }
  if x.realTime then
    if (x.lateFrame pl).isSome then x.enqueue { pl with atFrame := some x.nextFrame } else x.enqueue pl
  else x.enqueue { pl with atFrame := some x.freshFrame }

/-- A named pan-cycle beyond the length of the frame the pan stands in is carried over at that frame's end. -/
def panHaltSpec : CmdSpec :=
  { CmdSpec.onPan 0x0306 [(12, 1), (16, 4), (20, 4)] (fun c cpl s =>
      okOnly (s.modSite (targetOf c) (fun x => x.placeHalt s.now c cpl))) with
    tidy := fun c => decide (argOf c 12 1 ≤ 1), allows := fun s c => s.panIs c Site.running, own := true,
    counts := fun _ s => s }

/-- Placements that waited through a halt are mapped by their placement times under the mapping the resume sets: none of them is late
or fixed to a frame any more, but for those a re-run repeats at their own pan-cycles (R410). -/
def Site.remap (x : Site) : Site :=
  let free := fun q : Placement => if q.logged then q else { q with atFrame := none, atCyc := 0, late := false }
  { x with inQ := (x.inQ ++ x.lateRecords.filter (fun q => q.kind.isInput)).map free,
           plQ := (x.plQ ++ x.lateRecords.filter (fun q => !q.kind.isInput)).map free, lateRecords := [] }

/-- `PAN_RESUME`: back to the mode it left; a real-time pan's next frame end is chosen from the resume epoch. -/
def Site.resume (epoch w : Nat) (x : Site) : Site :=
  let y := { x with mode := x.leftMode }
  if y.realTime then (y.remap).enterRt epoch w else y

/-- `PAN_RESUME`. -/
def panResumeSpec : CmdSpec :=
  { CmdSpec.onPan 0x0307 [] (fun c _ s => 
      okOnly ((s.modSite (targetOf c) (Site.resume s.tb.epochAt s.dev.w)).waitsForRecords (targetOf c))) with
    allows := fun s c => s.panIs c (fun x => x.mode == .halted), boundary := fun _ _ => some .epoch }

/-- The frame whose virtual interval holds a device time has ended: its burst has run, and the pan stands at its end (R409). -/
def Site.standsAtEnd (now : Nat) (x : Site) : Bool :=
  x.realTime && decide (now < x.beginsAt x.pan.frameStart) && x.pan.frameCyc == 0 && decide (x.mapFrame < x.pan.frame)

/-- The pan runs and the frame it is to stop at has not ended. -/
def Site.stopWaits (now : Nat) (x : Site) : Bool := x.running && !x.parked && !x.standsAtEnd now

/-- The stop that is to come: at the end of the frame in progress, or of the first whose virtual interval holds the device time, which is a
later one for a real-time pan that is behind (R409). -/
def Site.stopFrom (now : Nat) (x : Site) : Nat × Option Nat := (x.pan.frame, if x.realTime then some now else none)

/-- A stop that is accepted takes the pan's load off admission, though the pan runs on to the end of its frame (R192, R372). -/
def Site.unload (x : Site) : Site :=
  if x.realTime then { x with mode := .free, phase := none } else if x.running then x else { x with mode := .idle, phase := none }

/-- `PAN_STOP`. -/
def panStopSpec : CmdSpec :=
  { CmdSpec.onPan 0x0308 [] (fun c _ s =>
      okOnly ((s.settleFrame (targetOf c)).idlePan (targetOf c))) with
    boundary := fun s c => if s.panIs c (Site.stopWaits s.now) then some (.frameEnd (targetOf c)) else none,
    begins := fun c s => s.modSite (targetOf c) (fun x => if x.stopWaits s.now then { x with stopAt := some (x.stopFrom s.now) } else x),
    stages := true, counts := fun c s => s.modSite (targetOf c) Site.unload }

/-- The pan at reset (R26, R67, R84, R95, R242, R249, R291): cartridge RAM, title, sizes and settings stand. -/
def State.resetSite (x : Site) (s : State) : Site :=
  let pan := Pan.reset x.pan.cfg x.pan.sys.tag x.pan.cram (memoryOf (s.dram.readBytes x.staging x.pan.cfg.mediaLen))
  let y := { x with
    pan := pan, mbNext := 0, attached := 0, prevLen := none, lastFrame := none, prevFrame := none,
    audio := { x.audio with queue := [], block := 0, lastBlock := 0, lateFrames := [], rejoin := x.audio.rejoin.map (fun _ => 0) },
    heap := { x.heap with snaps := [], applied := [], calls := [], oldCalls := [], written := none, rerunClk := 0, confDiff := false,
                          replay := [], replayOn := false, replayErr := 0, replayPos := (0, 0), replayAt := none, logOpen := false } }
  y.openLog s.kpa s.conf s.now

/-- A pan goes to `IDLE` with the reset state. -/
def State.resetPan (p : Nat) (s : State) : State :=
  let t := s.idlePan p
  t.modSite p (fun x => t.resetSite x)

/-- `PAN_RESET`. -/
def panResetSpec : CmdSpec := CmdSpec.onPan 0x0309 [] (fun c _ s => okOnly (s.resetPan (targetOf c)))

/-! ### Debug steps (R149, R198) -/

/-- One pan-cycle of a halted pan; placements wait. -/
def State.debugCycle (p : Nat) (s : State) : State :=
  match s.site p with
  | none => s
  | some x =>
    if x.mode ≠ .halted ∨ x.pan.core.hcWait then s
    else (s.putSite p { x.modPan (fun q => ({ q with stepping := true }.cycle id)) with dirty := true }).afterPan p x.pan false

/-- Pan-cycles until the pan stands at the end of an instruction, within `n`. -/
def State.debugInstr (p : Nat) : Nat → State → State
  | 0, s => s
  | n + 1, s =>
    let t := s.debugCycle p
    if (t.site p).any (fun x => x.pan.atBoundary || x.mode != .halted || x.pan.core.hcWait) then t else State.debugInstr p n t

/-- A step of one unit. -/
def State.debugUnit (p unit : Nat) (s : State) : State := if unit = 0 then s.debugCycle p else s.debugInstr p 1000000

/-- A number of units. -/
def State.debugUnits (p unit : Nat) : Nat → State → State
  | 0, s => s
  | n + 1, s => State.debugUnits p unit n (s.debugUnit p unit)

/-- `PAN_DEBUG`. -/
def panDebugSpec : CmdSpec :=
  { CmdSpec.onPan 0x030A [(12, 1), (16, 2)] (fun c _ s =>
      let p := targetOf c
      let t := State.debugUnits p (argOf c 12 1) (argOf c 16 2) s
      let u := t.modSite p (Site.modPan (fun q => { q with stepping := false }))
      okWith u ((u.site p).elim [] (fun x => x.pan.procImage.take 16))) with
    range := fun s c => panRange s c && decide (argOf c 12 1 ≤ 1) && decide (1 ≤ argOf c 16 2),
    allows := fun s c => s.panIs c (fun x => x.mode == .halted), counts := fun _ s => s }

/-! ### Placements (R84, R92, R94 to R96, R129) -/

/-- A client slot. -/
def slotArg (c : Packet) : Fin 16 := ⟨argOf c 12 1 % 16, by omega⟩

/-- The pan's flow entry for a slot accepts any alive counter next (R314). -/
def State.clearAlive (e : Nat) (s : State) : State :=
  match Table.get s.flows e with
  | some f => { s with flows := Table.put s.flows e { f with last := none } }
  | none => s

/-- `PAN_ATTACH`. -/
def panAttachSpec : CmdSpec :=
  { CmdSpec.onPan 0x030B [(12, 1)] (fun c _ s =>
      okOnly ((s.clearAlive (16 * targetOf c + (slotArg c).val)).modSite (targetOf c) (fun x =>
        { x.acceptAt s.now (.attach (slotArg c)) with attached := setBit x.attached (slotArg c).val true }))) with
    range := fun s c => panRange s c && decide (argOf c 12 1 < 16), allows := fun s c => s.panIs c Site.running }

/-- `PAN_DETACH`. -/
def panDetachSpec : CmdSpec :=
  { CmdSpec.onPan 0x030C [(12, 1)] (fun c _ s =>
      okOnly (s.modSite (targetOf c) (fun x =>
        { x.acceptAt s.now (.detach (slotArg c)) with attached := setBit x.attached (slotArg c).val false }))) with
    range := fun s c => panRange s c && decide (argOf c 12 1 < 16), allows := fun s c => s.panIs c Site.running }

/-- A message accepted: it is numbered and takes a credit (R95). -/
def Site.takeMessage (now : Nat) (bytes : List Byte) (nmi : Bool) (x : Site) : Site :=
  let n := x.mbNext + 1
  { x with mbNext := n, mbHolding := x.mbHolding ++ [n] }.acceptAt now (.message { bytes := byteVec 6 bytes, num := n, nmi := nmi })

/-- `PAN_MAILBOX`. -/
def panMailboxSpec : CmdSpec :=
  { CmdSpec.onPan 0x030D [(12, 6), (18, 1)] (fun c _ s =>
      let p := targetOf c
      if argBit c 18 1 then
        let t := s.modSite p (Site.takeMessage s.now (argBytes c 12 6) (argBit c 18 0))
        okWith t ((t.site p).elim [] (fun x => [x.mbNext]))
      else okWith (s.modSite p (fun x => x.acceptAt s.now .nmi)) [0]) with
    tidy := fun c => decide (argOf c 18 1 ≤ 3), range := fun s c => panRange s c && decide (1 ≤ argOf c 18 1),
    allows := fun s c => s.panIs c Site.running,
    fits := fun s c => !argBit c 18 1 || s.panIs c (fun x => decide (x.mbHolding.length < 4)) }

/-- The movie command as a placement: ready bits, offset and the staging bytes as they stand (R84). -/
def State.movieOf (x : Site) (c : Packet) (s : State) : PlaceKind :=
  .movie (BitVec.ofNat 4 (argOf c 12 1)) (argOf c 16 4) (s.dram.readBytes (x.staging + argOf c 16 4) (argOf c 20 4))

/-- `PAN_MOVIE`: placed; for a pan that does not run, a commit alone applies at once. -/
def panMovieSpec : CmdSpec :=
  { CmdSpec.onPan 0x030E [(12, 1), (16, 4), (20, 4)] (fun c _ s =>
      okOnly (s.modSite (targetOf c) (fun x =>
        let k := s.movieOf x c
        if x.running then x.acceptAt s.now k
        else x.apply x.pan.clk { arrival := s.now, place := s.now, order := x.order, atFrame := none, atCyc := 0, late := false,
                                 bracketed := false, logged := false, kind := k }))) with
    tidy := fun c => decide (argOf c 12 1 < 16),
    range := fun s c =>
      panRange s c && decide (argOf c 16 4 % 256 = 0) && decide (argOf c 20 4 % 256 = 0) &&
        decide (0 < argOf c 12 1 + argOf c 20 4) &&
        (s.site (targetOf c)).all (fun x => decide (argOf c 16 4 + argOf c 20 4 ≤ x.pan.cfg.mediaLen)),
    allows := fun s c => s.panIs c (fun x => x.running || argOf c 12 1 == 0) }

/-! ### Settings (R57, R220, R251) -/

/-- The settings a `PAN_INPUT` gives. -/
def Site.setInput (c : Packet) (x : Site) : Site :=
  let i : Fin 16 := ⟨argOf c 16 1 % 16, by omega⟩
  let place := fun q : SlotPlace =>
    { q with client := argBit c 17 0, offset := argInt c 20 8, window := argOf c 28 4 * Config.usUnits }
  { x with inputDelay := if argBit c 17 7 then argOf c 12 4 * Config.usUnits else x.inputDelay,
           slotPlace := if argBit c 17 6 then vmod x.slotPlace i place else x.slotPlace }

/-- `PAN_INPUT`. -/
def panInputSpec : CmdSpec :=
  { CmdSpec.onPan 0x030F [(12, 4), (16, 1), (17, 1), (20, 8), (28, 4)] (fun c _ s =>
      okOnly (s.modSite (targetOf c) (Site.setInput c))) with
    tidy := fun c => decide (argOf c 17 1 / 2 % 32 = 0),
    range := fun s c => panRange s c && (!argBit c 17 7 || decide (argOf c 12 4 ≤ 50000)) &&
      (!argBit c 17 6 || (decide (argOf c 16 1 < 16) && decide (argOf c 28 4 ≤ 50000))),
    boundary := fun _ _ => some .epoch, stages := true }

/-- `PAN_HCALL`. -/
def panHcallSpec : CmdSpec :=
  { CmdSpec.onPan 0x0310 [(12, 4)] (fun c _ s =>
      okOnly (s.modSite (targetOf c) (fun x => { x with hcTimeout := argOf c 12 4 * Config.usUnits }))) with
    range := fun s c => panRange s c && decide (10 ≤ argOf c 12 4) && decide (argOf c 12 4 ≤ 1000000),
    boundary := fun _ _ => some .epoch, stages := true }

/-- The settings a `PAN_OBS` gives. -/
def obsArg (c : Packet) : Obs :=
  { ring := if argOf c 12 2 = 0xFFFF then none else some (argOf c 12 2), fmt := argOf c 14 1, every := argOf c 15 1,
    x := argOf c 16 2, y := argOf c 18 2, w := argOf c 20 2, h := argOf c 22 2, scale := argOf c 24 1, bt601 := argBit c 25 1,
    audio := argBit c 25 0, pitch := argOf c 28 4 }

/-- A tap format. -/
def Obs.isTap (o : Obs) : Bool := o.fmt == 4 || o.fmt == 5

/-- The constraints of R251 and R252 on a composed frame of a size. -/
def Obs.valid (o : Obs) (fw fh : Nat) : Bool :=
  let w := if o.w = 0 then fw else o.w
  let h := if o.w = 0 then fh else o.h
  decide (o.fmt ≤ 5) && decide (1 ≤ o.every) && decide (1 ≤ o.scale) && decide (o.scale ≤ 4) &&
    (decide (o.w = 0) || (decide (o.x % 2 = 0) && decide (o.y % 2 = 0) && decide (o.w % 2 = 0) && decide (o.h % 2 = 0) &&
      decide (0 < o.h) && decide (o.x + o.w ≤ fw) && decide (o.y + o.h ≤ fh))) &&
    decide (w % o.scale = 0) && decide (h % o.scale = 0) &&
    (o.fmt != 2 || (decide (w / o.scale % 2 = 0) && decide (h / o.scale % 2 = 0))) &&
    (!o.isTap || o.pitch == 0 || (decide (o.pitch % 64 = 0) && decide (tapRow o.fmt (w / o.scale) ≤ o.pitch)))

/-- Pans but one that use a tap format (R254). -/
def State.taps (s : State) (p : Nat) : Nat := (s.sites.filter (fun e => e.1 != p && e.2.obs.isTap)).length

/-- The pan's observation from now on. Records that wait go to the ring now named, or are dropped where none is (R251). -/
def Site.observeAs (o : Obs) (x : Site) : Site :=
  { x with obs := o, ringLost := false, obsQ := if o.ring.isNone then [] else x.obsQ }

/-- `PAN_OBS`. -/
def panObsSpec : CmdSpec :=
  { CmdSpec.onPan 0x0311 [(12, 2), (14, 1), (15, 1), (16, 2), (18, 2), (20, 2), (22, 2), (24, 1), (25, 1), (28, 4)]
      (fun c _ s => okOnly (s.modSite (targetOf c) (Site.observeAs (obsArg c)))) with
    tidy := fun c => decide (argOf c 25 1 ≤ 3),
    range := fun s c => panRange s c && (decide (argOf c 12 2 < 16384) || decide (argOf c 12 2 = 0xFFFF)) &&
      (s.site (targetOf c)).all (fun x => (obsArg c).valid x.pan.hActive x.pan.vActive),
    allows := fun s c => s.panIs c (fun x =>
      match (obsArg c).ring with
      | none => true
      | some n => (s.ring n).any (fun r => r.kind == 3 && r.owner == targetOf c) && !(x.audio.routes.pcm && x.audio.routes.pcmRing == n)),
    fits := fun s c => !(obsArg c).isTap || decide (s.taps (targetOf c) < 64),
    boundary := fun _ c => some (.latch (targetOf c)), stages := true }

/-- The phase index the pan holds; one reserved for a start or change of mode yet to come does not show (R187). -/
def Site.heldPhase (x : Site) : Option Nat := x.phase.filter (fun _ => x.keepsPhase)

/-- The result of a `PAN_QUERY`. -/
def Site.queryBytes (x : Site) : List Byte :=
  let p := x.pan
  leBytes 1 x.mode.code ++ [p.core.fault] ++ leBytes 2 (x.heldPhase.elim 0xFFFF (fun k => 8 * k + x.bay.val)) ++ leBytes 4 p.frame ++
    leBytes 4 x.ctr.late ++ leBytes 4 x.ctr.rewinds ++ leBytes 4 x.ctr.obsSkips ++ leBytes 4 x.ctr.hcDiscarded ++
    leBytes 4 x.ctr.reruns ++ leBytes 4 x.ctr.rejects ++ leBytes 4 p.sys.frameCount.toNat ++ leBytes 4 0

/-- `PAN_QUERY`. -/
def panQuerySpec : CmdSpec :=
  { CmdSpec.onPan 0x0312 [(12, 8)] (fun c _ s => (s.longResult c ((s.site (targetOf c)).elim [] Site.queryBytes))) with
    range := fun s c => panRange s c && raddrOk c, object := fun _ => none }

end Sys2Proof.Machine
end

