-- ==== Sys2Proof/Machine/HeapCommands.lean ====
section
/-!
DEFINITION. The heap and stream commands (R365): depth, hash, reference and log (R230, R240 to R242), save, restore and replay
(R243 to R246), streams (R266, R267, R270, R277, R278).
-/
namespace Sys2Proof.Machine

/-! ### Heap settings -/

/-- Heap bytes that the other pans leave. -/
def State.heapFreeFor (s : State) (p : Nat) : Nat :=
  s.dev.heapBytes -
    (((s.sites.filter (fun e => e.1 != p)).map (fun e => e.2.pan.heapNeed e.2.heap.depth)).foldl (· + ·) 0)

/-- `HEAP_DEPTH` (R75, R230 to R232). -/
def heapDepthSpec : CmdSpec :=
  { CmdSpec.onPan 0x0401 [(12, 1)] (fun c _ s =>
      okOnly (s.modSite (targetOf c) (fun x =>
        if x.heap.depth = argOf c 12 1 then x else { x with heap := { x.heap with depth := argOf c 12 1, snaps := [] } }))) with
    range := fun s c => panRange s c && decide (argOf c 12 1 ≤ 16) &&
      (argOf c 12 1 == 0 || (s.site (targetOf c)).all (fun x => x.pan.cfg.rewindFlag)),
    fits := fun s c => s.panIs c (fun x => decide (x.pan.heapNeed (argOf c 12 1) ≤ s.heapFreeFor (targetOf c))),
    loads := fun _ => true, boundary := fun _ _ => some .epoch, stages := true }

/-- `HEAP_HASH` (R240). -/
def heapHashSpec : CmdSpec :=
  { CmdSpec.onPan 0x0402 [(12, 2)] (fun c _ s =>
      okOnly (s.modSite (targetOf c) (fun x => { x with heap := { x.heap with hashEvery := argOf c 12 2 } }))) with
    boundary := fun _ _ => some .epoch, stages := true }

/-- A range in host memory, or in DRAM. -/
def spaceOk (space a n : Nat) : Bool := space == 0 || (space == 1 && dramRange a n)

/-- The entries of a hash reference (R241). -/
def refEntries : List Byte → Nat → List (Nat × BitVec 64)
  | _, 0 => []
  | bs, n + 1 => (leNat (slice bs 0 4), BitVec.ofNat 64 (leNat (slice bs 8 8))) :: refEntries (bs.drop 16) n

/-- `HEAP_HASHREF` (R241). -/
def heapHashrefSpec : CmdSpec :=
  { CmdSpec.onPan 0x0403 [(12, 8), (20, 1), (21, 1), (24, 4)] (fun c _ s =>
      let n := argOf c 24 4
      let m := argOf c 21 1
      let refs := if m = 0 then [] else refEntries (s.spaceRead (argOf c 20 1) (argOf c 12 8) (16 * n)) n
      okOnly (s.modSite (targetOf c) (fun x => { x with heap := { x.heap with
        refMode := m, refs := refs, refDone := false,
        refAt := if m ≠ 0 ∧ argOf c 20 1 = 1 then some (argOf c 12 8, 16 * n) else none } }))) with
    range := fun s c => panRange s c && decide (argOf c 21 1 ≤ 2) && spaceOk (argOf c 20 1) (argOf c 12 8) (16 * argOf c 24 4),
    boundary := fun _ _ => some .epoch, stages := true }

/-- The log enabled or disabled (R242). -/
def HeapSt.setLog (on : Bool) (h : HeapSt) : HeapSt := { h with logOn := on, logOpen := h.logOpen && on && h.logOn }

/-- `HEAP_LOG` (R242). -/
def heapLogSpec : CmdSpec :=
  { CmdSpec.onPan 0x0404 [(12, 1)] (fun c _ s =>
      okOnly (s.modSite (targetOf c) (fun x => { x with heap := x.heap.setLog (argBit c 12 0) }))) with
    tidy := fun c => decide (argOf c 12 1 ≤ 1), boundary := fun _ _ => some .epoch, stages := true }

/-! ### Save and restore (R244 to R246) -/

/-- The image a save copies now, with the KPA and CONF it was made under: a named snapshot, or the image as it stands (R207). -/
def State.savedImage (s : State) (c : Packet) (x : Site) : Option Snapshot :=
  if argOf c 12 1 = 0 then x.heap.snaps.find? (fun q => q.frame == argOf c 16 4)
  else some { frame := x.pan.frame, kpa := s.kpa, conf := s.conf, pan := x.pan }

/-- `HEAP_SAVE`. -/
def heapSaveSpec : CmdSpec :=
  { CmdSpec.onPan 0x0405 [(12, 1), (16, 4), (20, 8), (28, 1)] (fun c _ s =>
      match (s.site (targetOf c)).bind (s.savedImage c) with
      | some q => okWith (s.saveTo q c) (q.pan.saveResult q.kpa q.conf)
      | none => { state := s, status := stBadState, result := [] }) with
    range := fun s c => panRange s c && decide (argOf c 12 1 ≤ 1) &&
      (s.site (targetOf c)).all (fun x => spaceOk (argOf c 28 1) (argOf c 20 8) x.pan.saveBytes),
    allows := fun s c => s.panIs c (fun x => (s.savedImage c x).isSome),
    boundary := fun s c =>
      if argOf c 12 1 = 1 ∧ s.panIs c (fun x => x.running && !x.parked) then some (.frameEnd (targetOf c)) else none,
    object := fun _ => none, counts := fun _ s => s }

/-- Bytes 0 to 63 and the body of the save image a command names. -/
def State.imageAt (s : State) (space a n : Nat) : List Byte := s.spaceRead space a n

/-- The pan stands as a save image gives it; snapshots and history go, the log starts afresh (R242, R246, R249). -/
def Site.loadImage (inner : Pan) (kpa conf : Byte) (now : Nat) (img : List Byte) (x : Site) : Site :=
  let pan := Pan.load inner (leNat (slice img 16 4)) (img.drop 64) x.pan
  let y := { x with
    pan := pan, prevLen := none,
    heap := { x.heap with snaps := [], applied := [], calls := [], oldCalls := [], written := none, rerunClk := 0, replay := [],
                          replayOn := false, replayErr := 0, replayPos := (0, 0), replayAt := none, logOpen := false,
                          confDiff := img.getD 7 0 != conf } }
  y.openLog kpa conf now

/-- A pan goes to `IDLE` with its audio chain as it was: a restore does not reset it (R291). -/
def State.idleForImage (p : Nat) (s : State) : State :=
  (s.idlePan p).modSite p (fun x => { x with audio := ((s.site p).map (fun y => y.audio)).getD x.audio })

/-- `HEAP_RESTORE`: RESULT byte 0 carries CONF_DIFF (notes/assumptions/37.md). -/
def heapRestoreSpec : CmdSpec :=
  { CmdSpec.onPan 0x0406 [(12, 8), (20, 1), (24, 4)] (fun c _ s =>
      let p := targetOf c
      let img := s.imageAt (argOf c 20 1) (argOf c 12 8) (argOf c 24 4)
      let t := (s.idleForImage p).modSite p (fun x => x.loadImage (s.internalState img x.pan) s.kpa s.conf s.now img)
      okWith t [if (img.getD 7 0) = s.conf then 0 else 2]) with
    range := fun s c => panRange s c && spaceOk (argOf c 20 1) (argOf c 12 8) (argOf c 24 4) &&
      (s.site (targetOf c)).all (fun x => decide (argOf c 24 4 = x.pan.saveBytes) &&
        x.pan.acceptsImage s.kpa s.made (s.imageAt (argOf c 20 1) (argOf c 12 8) (argOf c 24 4))),
    allows := fun s c => s.panIs c (fun x => x.mode == .idle || x.mode == .faulted), counts := fun _ s => s }

/-! ### Replay (R243) -/

/-- A log record from its 32 bytes, with the bytes that follow it. -/
def logRecOf (b rest : List Byte) : LogRec :=
  { frame := leNat (slice b 0 4), cyc := leNat (slice b 4 4), kind := b.getD 8 0, arg := b.getD 9 0, flags := b.getD 10 0,
    conf := b.getD 11 0, payload := slice b 12 8, stamp := leNat (slice b 24 8), bytes := rest, seq := leNat (slice b 20 4) }

/-- Bytes of media a record of kind 0x0A carries. -/
def commitLen (b : List Byte) : Nat := if b.getD 8 0 = 0x0A then leNat (slice b 14 2) * 256 else 0

/-- The records of a log presented for replay, within `n` records; a record that the buffer cuts off ends it. -/
def parseLog : Nat → List Byte → List LogRec
  | 0, _ => []
  | n + 1, bs =>
    if bs.length < 32 then []
    else
      let len := commitLen bs
      if bs.length < 32 + len then [] else logRecOf (bs.take 32) (slice (bs.drop 32) 0 len) :: parseLog n (bs.drop (32 + len))

/-- The log a `HEAP_REPLAY` names. -/
def State.replayLog (s : State) (c : Packet) : List LogRec :=
  let bs := s.spaceRead (argOf c 32 1 % 2) (argOf c 20 8) (argOf c 28 4)
  parseLog (bs.length / 32) bs

/-- CONT. -/
def replayCont (c : Packet) : Bool := argBit c 33 0
/-- The save image a `HEAP_REPLAY` names. -/
def State.replayImage (s : State) (x : Site) (c : Packet) : List Byte :=
  s.imageAt (argOf c 32 1 / 16) (argOf c 12 8) x.pan.saveBytes

/-- The frame the header must name, where the image is acceptable. -/
def State.replayFrame (s : State) (x : Site) (c : Packet) : Option Nat :=
  if replayCont c then some x.pan.frame
  else if argOf c 12 8 = 0 then some 0
  else if x.pan.acceptsImage s.kpa s.made (s.replayImage x c) then some (leNat (slice (s.replayImage x c) 16 4)) else none

/-- The log begins with a header that fits pan, image and KPA. -/
def State.replayFits (s : State) (c : Packet) (x : Site) : Bool :=
  match s.replayLog c with
  | h :: _ => h.kind == 0 && some h.frame == s.replayFrame x c && decide (leNat h.payload = x.pan.cfg.titleId.toNat) && h.arg == s.kpa
  | [] => false

/-- The pan enters `REPLAY`, or goes on in it, with the records of a log. -/
def Site.replayWith (c : Packet) (kpa conf : Byte) (l : List LogRec) (x : Site) : Site :=
  let diff := l.headD (LogRec.of 0 0 0 0 [] 0)
  { x.modPan (fun q => q.modCore (fun k => { k with fault := 0 })) with
    mode := .replay, parked := false, waitObs := false,
    heap := { x.heap with replay := l.tail, replayOn := true, replayErr := 0, replayPos := (x.pan.frame, x.pan.frameCyc), confDiff := x.heap.confDiff || diff.conf != conf || diff.arg != kpa,
                          replayAt := if argOf c 32 1 % 2 = 1 then some (argOf c 20 8, argOf c 28 4) else none } }

/-- The pan as the replay starts from it. -/
def State.replayStart (s : State) (c : Packet) (x : Site) : Site :=
  if replayCont c then x
  else if argOf c 12 8 = 0 then s.resetSite x
  else x.loadImage (s.internalState (s.replayImage x c) x.pan) s.kpa s.conf s.now (s.replayImage x c)

/-- `HEAP_REPLAY` at its epoch, with the event of R344. -/
def State.landReplay (c : Packet) (s : State) : Landed :=
  match s.site (targetOf c) with
  | none => { state := s, status := stBadState, result := [] }
  | some x =>
    if !s.replayFits c x then { state := s, status := stBadParam, result := [] }
    else
      let l := s.replayLog c
      let h := l.headD (LogRec.of 0 0 0 0 [] 0)
      let y := (s.replayStart c x).replayWith c s.kpa s.conf l
      okOnly (((s.putSite (targetOf c) y).post 0x0008 (some (targetOf c)) (y.eventFlags false)
        (leBytes 4 y.pan.frame ++ [h.arg, h.conf])).waitsForRecords (targetOf c))

/-- `HEAP_REPLAY`. -/
def heapReplaySpec : CmdSpec :=
  { CmdSpec.onPan 0x0407 [(12, 8), (20, 8), (28, 4), (32, 1), (33, 1)] (fun c _ s => s.landReplay c) with
    tidy := fun c => decide (argOf c 32 1 % 16 ≤ 1) && decide (argOf c 32 1 / 16 ≤ 1) && decide (argOf c 33 1 ≤ 1),
    range := fun s c => panRange s c && spaceOk (argOf c 32 1 % 2) (argOf c 20 8) (argOf c 28 4) &&
      (s.site (targetOf c)).all (s.replayFits c),
    allows := fun s c => s.panIs c (fun x => if replayCont c then x.mode == .replay && x.parked else x.mode == .idle),
    boundary := fun _ _ => some .epoch,
    counts := fun c s => s.modSite (targetOf c) (fun x => { x with mode := .replay, parked := false }) }

/-! ### Streams (R266, R267, R270, R317) -/

/-- The levels of the AV1 specification up to 5.1: `seq_level_idx`, picture size, width, height, display rate, decode rate,
header rate, and Main tier bits per second (PRESUMED: notes/assumptions/38.md). -/
def av1Levels : List (Nat × Nat × Nat × Nat × Nat × Nat × Nat × Nat) :=
  [(0, 147456, 2048, 1152, 4423680, 5529600, 150, 1500000), (1, 278784, 2816, 1584, 8363520, 10454400, 150, 3000000),
   (4, 665856, 4352, 2448, 19975680, 24969600, 150, 6000000), (5, 1065024, 5504, 3096, 31950720, 39938400, 150, 10000000),
   (8, 2359296, 6144, 3456, 70778880, 77856768, 300, 12000000), (9, 2359296, 6144, 3456, 141557760, 155713536, 300, 20000000),
   (12, 8912896, 8192, 4352, 267386880, 273715200, 300, 30000000),
   (13, 8912896, 8192, 4352, 534773760, 547430400, 300, 40000000)]

/-- The lowest level that admits a pan's picture, rate and a bit rate ceiling in kbit/s (R270). -/
def Pan.level (ceil : Nat) (p : Pan) : Nat :=
  let w := p.hActive
  let h := p.vActive
  let f := 16000000000
  ((av1Levels.find? (fun l =>
      decide (w * h ≤ l.2.1) && decide (w ≤ l.2.2.1) && decide (h ≤ l.2.2.2.1) &&
        decide (w * h * f ≤ l.2.2.2.2.1 * p.cfg.fp) && decide (w * h * f ≤ l.2.2.2.2.2.1 * p.cfg.fp) &&
        decide (f ≤ l.2.2.2.2.2.2.1 * p.cfg.fp) && decide (ceil * 1000 ≤ l.2.2.2.2.2.2.2))).map (fun l => l.1)).getD 13

/-- The stream a `STREAM_CREATE` makes, its other settings at their defaults. -/
def streamOf (c : Packet) (p : Pan) : Stream :=
  let ceil := argOf c 16 4
  { bt601 := argBit c 12 1, rateCeil := ceil, deblockOff := argBit c 12 0, rcMode := 1, qp := 100, qpKeyDelta := -16,
    qpMin := 20, qpMax := 220, rate := min 1500 ceil, rateMax := ceil, buf := 100, keyInterval := 0, recInterval := 10,
    holdRefresh := 30, mtu := argOf c 20 2, gap := 2000, extId := argOf c 22 1, emitDelay := 2000,
    opus10 := decide (argOf c 23 1 = 1), level := p.level ceil }

/-- A stream that has encoded nothing. -/
def StreamSt.new (now : Nat) (g : Stream) : StreamSt :=
  { cfg := g, staged := g, slot0 := none, slot1 := none, slot2 := none, obus := [], header := none, seen := none, lastEnc := none, sinceKey := 0,
    sinceRec := 0, held := 0, bucket := 0, bucketMax := 0, bucketAt := now, keyReqs := [], losses := [], changedFor := none,
    keyDue := true, recDue := false, enc := none, emitted := Vector.replicate 4 0, heldCnt := 0, lateCnt := 0, answered := 0,
    ignored := 0, keyReqCnt := 0, overruns := 0, slow := 0 }

/-- The clip counters count from the creation of the stream (R296). -/
def Audio.newStream (a : Audio) : Audio := { a with left := { a.left with clips := 0 }, right := { a.right with clips := 0 } }

/-- `STREAM_CREATE`. -/
def streamCreateSpec : CmdSpec :=
  { CmdSpec.onPan 0x0501 [(12, 1), (16, 4), (20, 2), (22, 1), (23, 1)] (fun c _ s =>
      match s.site (targetOf c) with
      | some x =>
        let g := streamOf c x.pan
        okWith (s.putSite (targetOf c) { x with audio := x.audio.newStream, stream := some { StreamSt.new s.now g with seen := x.lastFrame.map (fun f => f.frame) } })
          (leBytes 1 g.level)
      | none => { state := s, status := stBadState, result := [] }) with
    tidy := fun c => decide (argOf c 12 1 ≤ 3),
    range := fun s c => panRange s c && decide (64 ≤ argOf c 16 4) && decide (argOf c 16 4 ≤ 40000) && decide (1024 ≤ argOf c 20 2) &&
      decide (argOf c 20 2 ≤ 9146) && decide (argOf c 22 1 ≤ 14) && decide (argOf c 23 1 ≤ 1),
    allows := fun s c => s.panIs c (fun x => x.stream.isNone), loads := fun _ => true, boundary := fun _ _ => some .epoch,
    stages := true }

/-- The ID and VALUE pairs of a `STREAM_SET` or an `AUDIO_SET` (R365, R366). -/
def pairsOf (c : Packet) : List (Nat × Nat) := (List.range 6).map (fun i => (argOf c (12 + 8 * i) 2, argOf c (16 + 8 * i) 4))

/-- Parameter fields of six pairs. -/
def pairFields : List (Nat × Nat) := (List.range 6).flatMap (fun i => [(12 + 8 * i, 2), (16 + 8 * i, 4)])

/-- A signed pair value. -/
def pairInt (v : Nat) : Int := signedOf 32 v

/-- One pair lies in its range. -/
def streamPairOk (profile : Nat) (e : Nat × Nat) : Bool :=
  let v := e.2
  match e.1 with
  | 0 => true
  | 1 => decide (v ≤ 2)
  | 2 => decide (1 ≤ v) && decide (v ≤ 255)
  | 3 => decide (-64 ≤ pairInt v) && decide (pairInt v ≤ 0)
  | 4 => decide (1 ≤ v) && decide (v ≤ 255)
  | 5 => decide (1 ≤ v) && decide (v ≤ 255)
  | 6 => decide (64 ≤ v)
  | 7 => true
  | 8 => decide (20 ≤ v) && decide (v ≤ 1000)
  | 9 => decide (v ≤ 65535)
  | 10 => decide (v ≤ 255)
  | 11 => decide (1 ≤ v) && decide (v ≤ 255)
  | 12 => decide (v ≤ 100000)
  | 13 => decide (Config.minEmitDelay profile ≤ v) && decide (v ≤ 20000)
  | _ => false

/-- One pair set. -/
def Stream.setPair (g : Stream) (e : Nat × Nat) : Stream :=
  let v := e.2
  match e.1 with
  | 1 => { g with rcMode := v }
  | 2 => { g with qp := v }
  | 3 => { g with qpKeyDelta := pairInt v }
  | 4 => { g with qpMin := v }
  | 5 => { g with qpMax := v }
  | 6 => { g with rate := v }
  | 7 => { g with rateMax := v }
  | 8 => { g with buf := v }
  | 9 => { g with keyInterval := v }
  | 10 => { g with recInterval := v }
  | 11 => { g with holdRefresh := v }
  | 12 => { g with gap := v }
  | 13 => { g with emitDelay := v }
  | _ => g

/-- The settings a `STREAM_SET` leaves. -/
def Stream.setAll (c : Packet) (g : Stream) : Stream := (pairsOf c).foldl Stream.setPair g

/-- The orderings of R267. -/
def Stream.ordered (g : Stream) : Bool :=
  decide (g.qpMin ≤ g.qpMax) && decide (g.rate ≤ g.rateCeil) && decide (g.rate ≤ g.rateMax) && decide (g.rateMax ≤ g.rateCeil)

/-- The pairs that swap at the epoch itself: GAP and `EMIT_DELAY` (R227, R317). -/
def epochPair (e : Nat × Nat) : Bool := e.1 == 12 || e.1 == 13

/-- A `STREAM_SET` at its epoch: GAP and `EMIT_DELAY` are in force, the others are staged. -/
def StreamSt.stage (t : StreamSt) (c : Packet) : StreamSt :=
  let now := fun g : Stream => ((pairsOf c).filter epochPair).foldl Stream.setPair g
  { t with cfg := now t.cfg, staged := t.staged.setAll c }

/-- A `STREAM_SET` has no pair that waits for a harvester frame. -/
def onlyEpochPairs (c : Packet) : Bool := (pairsOf c).all (fun e => e.1 == 0 || epochPair e)

/-- A pan's stream changed. -/
def State.modStream (p : Nat) (f : StreamSt → StreamSt) (s : State) : State :=
  s.modSite p (fun x => { x with stream := x.stream.map f })

/-- The pan has a stream. -/
def State.hasStream (s : State) (c : Packet) : Bool := s.panIs c (fun x => x.stream.isSome)

/-- `STREAM_SET`: it lands at the harvester frame that takes the staged settings. -/
def streamSetSpec : CmdSpec :=
  { CmdSpec.onPan 0x0502 pairFields (fun c _ s => okOnly (s.modStream (targetOf c) (fun t => let u := t.stage c; { u with cfg := u.staged }))) with
    range := fun s c => panRange s c &&
      (match s.site (targetOf c) with
       | some x => (pairsOf c).all (streamPairOk x.pan.cfg.profile)
       | none => true),
    orders := fun s c => (s.site (targetOf c)).all (fun x => x.stream.all (fun t => (t.staged.setAll c).ordered)),
    allows := fun s c => s.hasStream c, boundary := fun _ c => some (.harvester (targetOf c)), stages := true,
    counts := fun c s => s.modStream (targetOf c) (fun t => t.stage c) }

/-- Routes without `OPUS`. -/
def Audio.dropOpus (a : Audio) : Audio :=
  let r := a.nextRoutes.getD a.routes
  { a with nextRoutes := if a.routes.opus || r.opus then some { r with opus := false } else a.nextRoutes }

/-- The pan without its stream; `OPUS` leaves the route set at the next block (R299). -/
def Site.deleteStream (x : Site) : Site := { x with stream := none, audio := x.audio.dropOpus }

/-- `STREAM_DELETE`. -/
def streamDeleteSpec : CmdSpec :=
  { CmdSpec.onPan 0x0503 [] (fun c _ s => okOnly (s.modSite (targetOf c) Site.deleteStream)) with
    allows := fun s c => s.hasStream c, boundary := fun _ _ => some .epoch, stages := true }

/-- `STREAM_KEY`: counted, and answered by the harvester frame it takes effect at (R276, R278). -/
def streamKeySpec : CmdSpec :=
  { CmdSpec.onPan 0x0504 [] (fun c _ s =>
      okOnly (s.modStream (targetOf c) (fun t => { t with keyReqs := t.keyReqs ++ [s.now], keyReqCnt := (t.keyReqCnt + 1) % 2 ^ 32 }))) with
    allows := fun s c => s.hasStream c, boundary := fun _ c => some (.harvester (targetOf c)), stages := true }

/-- `STREAM_LOSS` (R277, R278). -/
def streamLossSpec : CmdSpec :=
  { CmdSpec.onPan 0x0505 [(12, 4)] (fun c _ s =>
      okOnly (s.modStream (targetOf c) (fun t => { t with losses := t.losses ++ [(s.now, argOf c 12 4)] }))) with
    allows := fun s c => s.hasStream c, boundary := fun _ c => some (.harvester (targetOf c)), stages := true }

/-- The counters of R287 in their order. -/
def StreamSt.queryBytes (t : StreamSt) : List Byte :=
  (t.emitted.toList ++ [t.heldCnt, t.lateCnt, t.answered, t.ignored, t.keyReqCnt, t.overruns, t.slow, 0]).flatMap (leBytes 4)

/-- `STREAM_QUERY`. -/
def streamQuerySpec : CmdSpec :=
  { CmdSpec.onPan 0x0506 [(12, 8)] (fun c _ s =>
      s.longResult c (((s.site (targetOf c)).bind (fun x => x.stream)).elim [] StreamSt.queryBytes)) with
    range := fun s c => panRange s c && raddrOk c, allows := fun s c => s.hasStream c, object := fun _ => none }

end Sys2Proof.Machine
end

