-- ==== Sys2Proof/Machine/UnitCommands.lean ====
section
/-!
DEFINITION. The commands of groups 0x06xx to 0x08xx (R367): ports and flows (R305, R308 to R310, R325, R326), the audio chain
(R290, R295, R298 to R300), heads (R259 to R261, R265).
-/
namespace Sys2Proof.Machine

/-! ### Ports (R305, R325) -/

/-- A port. -/
def portArg (c : Packet) : Fin 2 := ⟨targetOf c % 2, by omega⟩
/-- A port number in range. -/
def portRange (_ : State) (c : Packet) : Bool := decide (targetOf c < 2)
/-- A port's `DEV_READY` bit. -/
def portNeeds (_ : State) (c : Packet) : List Nat := if targetOf c < 2 then [rdyEth (targetOf c)] else []
/-- A port changed. -/
def State.modPort (e : Fin 2) (f : Port → Port) (s : State) : State := { s with ports := vmod s.ports e f }

/-- A link that was up goes down: counted, and an event posted (R305, R332). -/
def State.dropLink (e : Fin 2) (s : State) : State :=
  if s.ports[e].up then
    (((s.modPort e (fun p => { p with up := false, ctr := { p.ctr with downs := (p.ctr.downs + 1) % 2 ^ 32 } })).raise (4 + e.val)).postDev
      0x000C [BitVec.ofNat 8 e.val, 0])
  else s

/-- `PORT_SET`: a change of mode or FEC retrains the link. -/
def portSetSpec : CmdSpec :=
  { CmdSpec.plain 0x0601 [(12, 1), (13, 1), (16, 6)] (fun c _ s =>
      let e := portArg c
      let p := s.ports[e]
      let t := if p.mode = argOf c 12 1 ∧ p.fec = argOf c 13 1 then s else s.dropLink e
      okOnly (t.modPort e (fun q => { q with mode := argOf c 12 1, fec := argOf c 13 1, mac := argBytes c 16 6 }))) with
    needs := portNeeds, range := fun s c => portRange s c && decide (argOf c 12 1 ≤ 4) && decide (argOf c 13 1 ≤ 2),
    boundary := fun _ _ => some .epoch, object := objPort, stages := true }

/-- Bytes of a flow entry as a number. -/
def Flow.num (f : Flow) (o k : Nat) : Nat := leNat (slice f.bytes o k)
/-- A bit of a flow entry's byte. -/
def Flow.bit (f : Flow) (o i : Nat) : Bool := (f.num o 1).testBit i
/-- VALID. -/
def Flow.valid (f : Flow) : Bool := f.bit 0 7
/-- IPV6. -/
def Flow.ipv6 (f : Flow) : Bool := f.bit 0 6
/-- VLAN. -/
def Flow.vlan (f : Flow) : Bool := f.bit 0 5
/-- RX. -/
def Flow.rx (f : Flow) : Bool := f.bit 0 4
/-- TXV. -/
def Flow.txv (f : Flow) : Bool := f.bit 0 3
/-- TXA. -/
def Flow.txa (f : Flow) : Bool := f.bit 0 2
/-- SUITE. -/
def Flow.suite (f : Flow) : Nat := f.num 1 1 / 64
/-- INTAG. -/
def Flow.intag (f : Flow) : Bool := f.bit 1 5
/-- PORT. -/
def Flow.port (f : Flow) : Fin 2 := if f.bit 2 7 then 1 else 0
/-- LADDR. -/
def Flow.laddr (f : Flow) : Fin 4 := ⟨f.num 2 1 % 4, by omega⟩
/-- VID, or untagged. -/
def Flow.vid (f : Flow) : Option Nat := if f.vlan then some (f.num 4 2 % 4096) else none

/-- `PORT_ADDR`: address number, VALID with IPV6, and the address. -/
def addrArg (c : Packet) : Option (Bool × List Byte) := if argBit c 13 7 then some (argBit c 13 6, argBytes c 16 16) else none

/-- A valid entry uses an address of a port with another IP version (R367). -/
def State.addrInUse (s : State) (e n : Nat) (v6 : Bool) : Bool :=
  s.flows.any (fun q => q.2.valid && q.2.port.val == e && q.2.laddr.val == n && q.2.ipv6 != v6)

/-- `PORT_ADDR`. -/
def portAddrSpec : CmdSpec :=
  { CmdSpec.plain 0x0602 [(12, 1), (13, 1), (16, 16)] (fun c _ s =>
      okOnly (s.modPort (portArg c) (fun q => { q with addrs := vmod q.addrs ⟨argOf c 12 1 % 4, by omega⟩ (fun _ => addrArg c) }))) with
    tidy := fun c => decide (argOf c 13 1 % 64 = 0), needs := portNeeds,
    range := fun s c => portRange s c && decide (argOf c 12 1 < 4) && (argBit c 13 6 || allZero (argBytes c 16 12)),
    allows := fun s c => !s.addrInUse (targetOf c) (argOf c 12 1) (argBit c 13 6), boundary := fun _ _ => some .epoch,
    object := objPort, stages := true }

/-- `PORT_RINGS`. -/
def portRingsSpec : CmdSpec :=
  { CmdSpec.plain 0x0603 [(12, 2), (14, 2)] (fun c _ s =>
      okOnly { (s.modPort (portArg c) (fun q => { q with rxRing := argOf c 12 2 })) with
        bittern := if argOf c 14 2 = 0xFFFF then none else some (argOf c 14 2) }) with
    needs := portNeeds,
    range := fun s c => portRange s c && decide (argOf c 12 2 < 16384) && (decide (argOf c 14 2 < 16384) || argOf c 14 2 == 0xFFFF),
    allows := fun s c => (s.ring (argOf c 12 2)).any (fun r => r.kind == 4) &&
      (argOf c 14 2 == 0xFFFF || (s.ring (argOf c 14 2)).any (fun r => r.kind == 7)),
    boundary := fun _ _ => some .epoch, object := objPort, stages := true }

/-! ### Flow entries (R308 to R310) -/

/-- Counters of an entry at reset. -/
def FlowCtr.zero : FlowCtr := ⟨0, 0, 0, 0, 0, 0, 0, 0, Vector.replicate 8 0, 0, 0, 0, 0⟩

/-- An entry nothing has written. -/
def Flow.empty : Flow :=
  { bytes := List.replicate 48 0, masterKey := List.replicate 32 0, masterSalt := List.replicate 12 0,
    inKey := List.replicate 32 0, inSalt := List.replicate 12 0, last := none, sentV := 0, sentA := 0, rocV := 0, rocA := 0,
    ctr := FlowCtr.zero }

/-- A flow entry. -/
def State.flow (s : State) (e : Nat) : Flow := (Table.get s.flows e).getD Flow.empty
/-- A flow entry put. -/
def State.putFlow (e : Nat) (f : Flow) (s : State) : State := { s with flows := Table.put s.flows e f }

/-- The receive key of an entry on the addresses in force (R309). -/
def State.flowKey (s : State) (f : Flow) : Nat × Option Nat × Option (Bool × List Byte) × List Byte × Nat × Nat :=
  (f.port.val, f.vid, s.ports[f.port].addrs[f.laddr], slice f.bytes 16 16, f.num 14 2, f.num 32 2)

/-- The entry a `FLOW_SET` describes, over the one in force. -/
def flowArg (c : Packet) (f : Flow) : Flow := { f with bytes := argBytes c 12 48 }

/-- Alive state and rollover counters start again (R310). -/
def Flow.renewed (f : Flow) : Flow := { f with last := none, rocV := 0, rocA := 0 }

/-- An entry after a swap of its bytes: renewed when peer or VALID changes; a new SSRC starts its sequence and its rollover counter (R310,
R318, R321). -/
def Flow.swap (g f : Flow) : Flow :=
  let peer := fun q : Flow => (slice q.bytes 8 6, slice q.bytes 16 18, q.valid)
  let h := if peer f = peer g then g else g.renewed
  let v := f.num 36 4 = g.num 36 4
  let a := f.num 40 4 = g.num 40 4
  { h with sentV := if v then h.sentV else 0, sentA := if a then h.sentA else 0, rocV := if v then h.rocV else 0,
           rocA := if a then h.rocA else 0 }

/-- Entries that are valid, accepted or staged, by number: those in force, then waiting and staged commands. -/
def State.flowsSeen (s : State) : List (Nat × Flow) :=
  s.flows ++ ((s.waiting.filter (fun w => w.opcode == 0x0604)).map (fun w => (targetOf w.c, flowArg w.c Flow.empty))) ++
    (s.txns.flatMap (fun t => (t.2.cmds.filter (fun e => e.1 == 0x0604)).map (fun e => (targetOf e.2, flowArg e.2 Flow.empty))))

/-- The refusals of R309. -/
def State.flowOk (s : State) (e : Nat) (f : Flow) : Bool :=
  decide (f.suite ≠ 3) && decide (1 ≤ f.num 7 1) && decide (1 ≤ f.num 14 2) && decide (1 ≤ f.num 32 2) &&
    (f.ipv6 || allZero (slice f.bytes 16 12)) &&
    !(f.valid && s.flowsSeen.any (fun q => q.1 != e && q.2.valid && s.flowKey q.2 == s.flowKey f)) &&
    (s.ports[f.port].addrs[f.laddr]).all (fun a => a.1 == f.ipv6) && !(f.intag && f.suite == 0) &&
    !((f.txv || f.txa) && f.suite == 0 && s.dev.srtpRequired)

/-- A flow entry number in range. -/
def flowRange (_ : State) (c : Packet) : Bool := decide (targetOf c < 32768)

/-- Reserved bits of a flow entry are 0 (R308). -/
def flowTidy (c : Packet) : Bool :=
  decide (argOf c 12 1 % 4 = 0) && decide (argOf c 13 1 % 32 = 0) && decide (argOf c 14 1 / 4 % 32 = 0) && decide (argOf c 15 1 < 128) &&
    decide (argOf c 18 1 % 4 = 0) && decide (argOf c 56 1 < 128)

/-- `FLOW_SET`. -/
def flowSetSpec : CmdSpec :=
  { CmdSpec.plain 0x0604 [(12, 1), (13, 1), (14, 1), (15, 1), (16, 2), (18, 1), (19, 1), (20, 6), (26, 2), (28, 16), (44, 2), (48, 4),
      (52, 4), (56, 1)] (fun c _ s => okOnly (s.putFlow (targetOf c) (Flow.swap (flowArg c (s.flow (targetOf c))) (s.flow (targetOf c))))) with
    tidy := flowTidy, range := fun s c => flowRange s c && s.flowOk (targetOf c) (flowArg c Flow.empty),
    boundary := fun _ _ => some .epoch, object := objFlow, stages := true }

/-- An entry with a key written. -/
def Flow.setKey (c : Packet) (f : Flow) : Flow :=
  let g := if argOf c 12 1 = 0 then { f with masterKey := argBytes c 16 32, masterSalt := argBytes c 48 12 }
    else { f with inKey := argBytes c 16 32, inSalt := argBytes c 48 12 }
  let keys := fun q : Flow => (q.masterKey, q.masterSalt, q.inKey, q.inSalt)
  if keys g = keys f then g else g.renewed

/-- `FLOW_KEY`. -/
def flowKeySpec : CmdSpec :=
  { CmdSpec.plain 0x0605 [(12, 1), (16, 32), (48, 12)] (fun c _ s => okOnly (s.putFlow (targetOf c) ((s.flow (targetOf c)).setKey c))) with
    range := fun s c => flowRange s c && decide (argOf c 12 1 ≤ 1), boundary := fun _ _ => some .epoch, object := objFlow, stages := true }

/-! ### Network counters (R326) -/

/-- Counters of a port: byte and FEC counters of 8 bytes, others of 4. -/
def PortCtr.bytes (k : PortCtr) : List Byte :=
  leBytes 4 k.rxFrames ++ leBytes 8 k.rxBytes ++ leBytes 4 k.txFrames ++ leBytes 8 k.txBytes ++
    [k.fcs, k.size, k.foreign, k.macCtl, k.toRing, k.ringFull, k.ups, k.downs].flatMap (leBytes 4) ++ leBytes 8 k.fecCorr ++ leBytes 8 k.fecUncorr

/-- Counters of an entry. -/
def FlowCtr.bytes (k : FlowCtr) : List Byte :=
  leBytes 4 k.vCopies ++ leBytes 4 k.aCopies ++ leBytes 8 k.vBytes ++ leBytes 8 k.aBytes ++
    ([k.displaced, k.lateDep, k.linkDown, k.accepted] ++ k.rejects.toList ++ [k.future, k.stale, k.latePlaced, k.toHost]).flatMap (leBytes 4)

/-- The counters of the scope a query names. -/
def State.netCounters (s : State) (c : Packet) : List Byte :=
  match argOf c 20 1 with
  | 0 => s.ports[portArg c].ctr.bytes
  | 1 => (s.flow (targetOf c)).ctr.bytes
  | _ => leBytes 4 s.bitternWritten ++ leBytes 4 s.bitternCounted

/-- `NET_QUERY`. -/
def netQuerySpec : CmdSpec :=
  { CmdSpec.plain 0x0606 [(12, 8), (20, 1)] (fun c _ s => s.longResult c (s.netCounters c)) with
    range := fun s c => raddrOk c &&
      (match argOf c 20 1 with
       | 0 => portRange s c
       | 1 => flowRange s c
       | 2 => deviceRange s c
       | _ => false) }

/-! ### Audio chain (R290, R295, R299, R300) -/

/-- One pair of an `AUDIO_SET` lies in its range. -/
def audioPairOk (e : Nat × Nat) : Bool :=
  let v := e.2
  let i := pairInt v
  match e.1 with
  | 0 => true
  | 1 => [5, 10, 20, 40].contains v
  | 2 => [0, 60, 90, 120].contains v
  | 3 => decide (-120 ≤ i) && decide (i ≤ 24)
  | 4 => decide (1 ≤ v) && decide (v ≤ 50)
  | 5 => decide (-90 ≤ i) && decide (i ≤ -30)
  | 6 => decide (1 ≤ v) && decide (v ≤ 60)
  | 7 => decide (1 ≤ v) && decide (v ≤ 4800)
  | 8 => decide (48 ≤ v) && decide (v ≤ 256)
  | 9 => decide (v ≤ 1)
  | _ => false

/-- One pair set. -/
def AudioCfg.setPair (g : AudioCfg) (e : Nat × Nat) : AudioCfg :=
  let v := e.2
  match e.1 with
  | 1 => { g with dcCut := v }
  | 2 => { g with rumble := v }
  | 3 => { g with gain := pairInt v }
  | 4 => { g with gainTimeout := v }
  | 5 => { g with silLevel := pairInt v }
  | 6 => { g with silTime := v }
  | 7 => { g with clipCount := v }
  | 8 => { g with opusRate := v }
  | 9 => { g with opusVbr := v }
  | _ => g

/-- A new gain at sample `n` (R295): a pending step takes the new target, a channel with none gets one. -/
def Channel.newGain (g : Int) (n : Nat) (k : Channel) : Channel :=
  match k.step with
  | some (_, s0) => { k with step := some (g, s0) }
  | none => { k with step := some (g, n) }

/-- Memories of a rumble filter that starts (R293). -/
def Channel.rumbleOn (k : Channel) : Channel := { k with rx1 := 0, rx2 := 0, ry1 := 0, ry2 := 0 }

/-- An `AUDIO_SET` at a block. -/
def Audio.setAll (c : Packet) (a : Audio) : Audio :=
  let g := (pairsOf c).foldl AudioCfg.setPair a.cfg
  let named := fun i => (pairsOf c).any (fun e => e.1 == i)
  let gain := fun k : Channel => if named 3 then k.newGain g.gain (48 * a.block) else k
  let rum := fun k : Channel => if a.cfg.rumble = 0 ∧ g.rumble ≠ 0 then k.rumbleOn else k
  { a with cfg := g, left := rum (gain a.left), right := rum (gain a.right) }

/-- A pan's chain changed. -/
def State.modAudio (p : Nat) (f : Audio → Audio) (s : State) : State := s.modSite p (fun x => { x with audio := f x.audio })

/-- `AUDIO_SET`. -/
def audioSetSpec : CmdSpec :=
  { CmdSpec.onPan 0x0701 pairFields (fun c _ s => okOnly (s.modAudio (targetOf c) (Audio.setAll c))) with
    range := fun s c => panRange s c && (pairsOf c).all audioPairOk, boundary := fun _ c => some (.audio (targetOf c)), stages := true }

/-- The routes a command names. -/
def routesArg (c : Packet) : Routes := { opus := argBit c 12 2, pcm := argBit c 12 1, i2s := argBit c 12 0, pcmRing := argOf c 14 2 }

/-- The chain feeds the I2S port no more. -/
def Audio.cutI2s (a : Audio) : Audio :=
  { a with routes := { a.routes with i2s := false }, nextRoutes := a.nextRoutes.map (fun r => { r with i2s := false }) }

/-- The pan that was leaving the I2S port is cut off where it leaves no longer. -/
def State.cutLeft (old : Option (Nat × Option Nat)) (s : State) : State :=
  match old with
  | some (q, _) => if s.i2s.leaving.any (fun e => e.1 == q) then s else s.modAudio q Audio.cutI2s
  | none => s

/-- The I2S port moves to a pan: the old one feeds it up to the block at which the new one joins (R302). -/
def State.moveI2s (p : Nat) (on : Bool) (s : State) : State :=
  if !on then { s with i2s := s.i2s.without p }
  else if s.i2s.pan = some p then s
  else ({ s with i2s := { s.i2s with pan := some p, leaving := s.i2s.pan.map (fun q => (q, none)) } }).cutLeft s.i2s.leaving

/-- `AUDIO_ROUTE`: the block about to begin applies it. -/
def audioRouteSpec : CmdSpec :=
  { CmdSpec.onPan 0x0702 [(12, 1), (14, 2)] (fun c _ s =>
      okOnly ((s.moveI2s (targetOf c) (argBit c 12 0)).modAudio (targetOf c) (fun a => { a with nextRoutes := some (routesArg c) }))) with
    tidy := fun c => decide (argOf c 12 1 < 8), range := fun s c => panRange s c && (!argBit c 12 1 || decide (argOf c 14 2 < 16384)),
    allows := fun s c => s.panIs c (fun x =>
      (!argBit c 12 2 || x.stream.isSome) &&
        (!argBit c 12 1 || ((s.ring (argOf c 14 2)).any (fun r => r.kind == 3) && x.obs.ring != some (argOf c 14 2)))),
    boundary := fun _ c => some (.audio (targetOf c)), stages := true,
    counts := fun c s => s.modAudio (targetOf c) (fun a => { a with routes := routesArg c }) }

/-! ### Gauges (R296, R298) -/

/-- |v|² scaled: a level below a number of hundredths of a decibel is found by exact powers. `a` over `b` is at least
10^(k/2000): a^2000 · 10^j ≥ b^2000, split by sign of k. -/
def dbAtLeast (a b : Nat) (k : Int) : Bool :=
  if 0 ≤ k then decide (b ^ 2000 * 10 ^ k.toNat ≤ a ^ 2000) else decide (b ^ 2000 ≤ a ^ 2000 * 10 ^ (-k).toNat)

/-- The greatest number of hundredths from `lo` to `lo + n` that a ratio reaches. -/
def dbSearch (a b : Nat) : Nat → Int → Int → Int
  | 0, lo, _ => lo
  | f + 1, lo, hi =>
    if hi ≤ lo + 1 then lo
    else
      let m := (lo + hi) / 2
      if dbAtLeast a b m then dbSearch a b f m hi else dbSearch a b f lo m

/-- 20·log10(a / b) in hundredths of a decibel, -9600 for 0: the floor, or the next unit where the free rounding takes it. -/
def dbOf (a b draw : Nat) : Int :=
  if a = 0 then -9600
  else
    let k := dbSearch a b 15 (-9600) 1
    if a = b then 0 else if Config.dbRoundsUp (draw + a * 65536 + b) then min 0 (k + 1) else k

/-- The level of a sample. -/
def sampleDb (v : Nat) : Int := dbOf v 32768 0

/-- A mean square `a` over `b` is at least 10^(k/1000). -/
def squareAtLeast (a b : Nat) (k : Int) : Bool :=
  if 0 ≤ k then decide (b ^ 1000 * 10 ^ k.toNat ≤ a ^ 1000) else decide (b ^ 1000 ≤ a ^ 1000 * 10 ^ (-k).toNat)

/-- The greatest number of hundredths of a decibel a mean square reaches, between bounds. -/
def squareSearch (a b : Nat) : Nat → Int → Int → Int
  | 0, lo, _ => lo
  | f + 1, lo, hi =>
    if hi ≤ lo + 1 then lo
    else
      let m := (lo + hi) / 2
      if squareAtLeast a b m then squareSearch a b f m hi else squareSearch a b f lo m

/-- Sum of squares of 4,800 samples at full scale. -/
def fullSquares : Nat := 4800 * 32768 * 32768

/-- 20·log10 of an RMS value given by its sum of squares over 4,800 samples: 10·log10 of the mean square. -/
def rmsDb (sum : Nat) : Int :=
  if sum = 0 then -9600
  else
    let k := squareSearch sum fullSquares 15 (-12800) 1
    if sum = fullSquares then 0 else if Config.dbRoundsUp sum then min 0 (k + 1) else k

/-- Sum of squares of the last 4,800 samples of a channel. -/
def Channel.squares (k : Channel) : Nat := ((k.blocks.take 100).map (fun e => e.1)).foldl (· + ·) 0
/-- Clipped samples among the last 4,800. -/
def Channel.clipped (k : Channel) : Nat := ((k.blocks.take 100).map (fun e => e.2)).foldl (· + ·) 0

/-- The gauge record of R298. -/
def Audio.gauges (a : Audio) : List Byte :=
  let w := fun v : Int => leBytes 2 (BitVec.ofInt 16 v).toNat
  leBytes 4 a.lastBlock ++ w (sampleDb a.left.peak) ++ w (sampleDb a.right.peak) ++ w (rmsDb a.left.squares) ++ w (rmsDb a.right.squares) ++
    w (fdiv a.left.hold 24) ++ w (fdiv a.right.hold 24) ++ leBytes 4 a.left.clips ++ leBytes 4 a.right.clips ++
    [setBit (setBit 0 0 a.silence) 1 a.clip] ++ List.replicate 7 0

/-- Both peaks zeroed. -/
def Audio.clearPeaks (a : Audio) : Audio := { a with left := { a.left with peak := 0 }, right := { a.right with peak := 0 } }

/-- `AUDIO_GAUGE`. -/
def audioGaugeSpec : CmdSpec :=
  { CmdSpec.onPan 0x0703 [(12, 8), (20, 1)] (fun c _ s =>
      let t := s.hostWrite (argOf c 12 8) ((s.site (targetOf c)).elim [] (fun x => x.audio.gauges))
      okOnly (if argBit c 20 0 then t.modAudio (targetOf c) Audio.clearPeaks else t)) with
    tidy := fun c => decide (argOf c 20 1 ≤ 1), range := fun s c => panRange s c && raddrOk c, object := fun _ => none }

/-! ### Heads (R259 to R261) -/

/-- A head. -/
def headArg (c : Packet) : Fin 2 := ⟨targetOf c % 2, by omega⟩
/-- A head number in range. -/
def headRange (_ : State) (c : Packet) : Bool := decide (targetOf c < 2)
/-- A head's `DEV_READY` bit. -/
def headNeeds (_ : State) (c : Packet) : List Nat := if targetOf c < 2 then [rdyHead (targetOf c)] else []
/-- A head changed. -/
def State.modHead (h : Fin 2) (f : Head → Head) (s : State) : State := { s with heads := vmod s.heads h f }

/-- Link rate of a code in 10 kb/s. -/
def linkRate : Nat → Nat
  | 0 => 162000 | 1 => 270000 | 2 => 540000 | _ => 810000

/-- A pixel clock fits a link (R260): clock × 24 ≤ lanes × rate × 0.8 × 0.99. -/
def linkFits (kHz lanes rate : Nat) : Bool := decide (kHz * 24 * 1000 * 1000 ≤ lanes * linkRate rate * 10000 * 792)

/-- A lane count the link can train to. -/
def laneCount (n : Nat) : Nat := if 4 ≤ n then 4 else if 2 ≤ n then 2 else if 1 ≤ n then 1 else 0

/-- A head trains to what its settings and its sink both allow. -/
def Head.train (k : Head) : Head :=
  let lanes := laneCount (min k.cfg.maxLanes k.sinkLanes)
  if k.hpd ∧ k.cfg.enable ∧ 0 < lanes then { k with trained := true, lanes := lanes, rate := min k.cfg.maxRate k.sinkRate }
  else { k with trained := false, lanes := 0, rate := 0 }

/-- The settings of a `HEAD_TIMING`. -/
def HeadCfg.setTiming (c : Packet) (g : HeadCfg) : HeadCfg :=
  { g with pixelKHz := argOf c 12 4, hActive := argOf c 16 2, vActive := argOf c 24 2,
           timing := [argOf c 18 2, argOf c 20 2, argOf c 22 2, argOf c 26 2, argOf c 28 2, argOf c 30 2, argOf c 32 1],
           maxLanes := argOf c 33 1, maxRate := argOf c 34 1, enable := argBit c 35 0 }

/-- `HEAD_TIMING` at the vertical blank: the link retrains, and a clock it cannot carry is refused (R260). -/
def State.landTiming (c : Packet) (s : State) : Landed :=
  let h := headArg c
  let k := ({ s.heads[h] with cfg := s.heads[h].cfg.setTiming c }).train
  if k.trained && !linkFits k.cfg.pixelKHz k.lanes k.rate then { state := s, status := stBadParam, result := [] }
  else okWith (s.modHead h (fun _ => k)) (leBytes 1 k.lanes ++ leBytes 1 k.rate)

/-- `HEAD_TIMING`. -/
def headTimingSpec : CmdSpec :=
  { CmdSpec.plain 0x0801 [(12, 4), (16, 2), (18, 2), (20, 2), (22, 2), (24, 2), (26, 2), (28, 2), (30, 2), (32, 1), (33, 1), (34, 1), (35, 1)]
      (fun c _ s => s.landTiming c) with
    tidy := fun c => decide (argOf c 32 1 ≤ 3) && decide (argOf c 35 1 ≤ 1), needs := headNeeds,
    range := fun s c => headRange s c && decide (25000 ≤ argOf c 12 4) && decide (argOf c 12 4 ≤ 600000) &&
      decide (1 ≤ argOf c 16 2) && decide (argOf c 16 2 ≤ 3840) && decide (1 ≤ argOf c 24 2) && decide (argOf c 24 2 ≤ 2160) &&
      [1, 2, 4].contains (argOf c 33 1) && decide (argOf c 34 1 ≤ 3),
    boundary := fun _ c => some (.headVb (headArg c)), object := objHead, stages := true }

/-- `HEAD_LAYOUT`. -/
def headLayoutSpec : CmdSpec :=
  { CmdSpec.plain 0x0802 [(12, 1), (13, 1), (14, 1), (16, 2), (18, 2), (20, 3), (24, 2), (26, 2)] (fun c _ s =>
      let b := argBytes c 20 3
      let layout := fun g : HeadCfg =>
        { g with mosaic := decide (argOf c 12 1 = 1), c := argOf c 13 1, r := argOf c 14 1, pitchX := argOf c 16 2, pitchY := argOf c 18 2,
                 border := BitVec.ofNat 24 (beNat b), x := argOf c 24 2, y := argOf c 26 2 }
      okOnly (s.modHead (headArg c) (fun k => { k with cfg := layout k.cfg }))) with
    needs := headNeeds,
    range := fun s c => headRange s c && decide (argOf c 12 1 ≤ 1) &&
      (argOf c 12 1 == 0 || (decide (1 ≤ argOf c 13 1) && decide (argOf c 13 1 ≤ 16) && decide (1 ≤ argOf c 14 1) && decide (argOf c 14 1 ≤ 16))),
    boundary := fun _ c => some (.headVb (headArg c)), object := objHead, stages := true }

/-- The layout of a head that a command meets: the last one accepted or staged, else the one in force: whether it is `MOSAIC`, and its
tiles. -/
def State.layoutAhead (s : State) (c : Packet) : Bool × Nat :=
  let named := (s.waiting.map (fun w => (w.opcode, w.c))) ++ ((Table.get s.txns c.txid.toNat).elim [] (fun t => t.cmds))
  let g := s.heads[headArg c].cfg
  match (named.filter (fun e => e.1 == 0x0802 && e.2.target == c.target)).getLast? with
  | some e => (decide (argOf e.2 12 1 = 1), argOf e.2 13 1 * argOf e.2 14 1)
  | none => (g.mosaic, g.c * g.r)

/-- A tile number: 0 in `SINGLE`, one of the C × R tiles in `MOSAIC` (R367). -/
def tileOk (g : Bool × Nat) (n : Nat) : Bool := if g.1 then decide (n < g.2) else n == 0

/-- A SCALE byte: a factor of 1 to 8, or a reduction by 2 or 4 in `MOSAIC`. -/
def scaleOk (mosaic : Bool) (v : Nat) : Bool :=
  if v < 128 then decide (1 ≤ v) && decide (v ≤ 8) else mosaic && (v == 130 || v == 132)

/-- `HEAD_TILE`. -/
def headTileSpec : CmdSpec :=
  { CmdSpec.plain 0x0803 [(12, 1), (14, 2), (16, 1)] (fun c _ s =>
      okOnly (s.modHead (headArg c) (fun k =>
        if argOf c 14 2 = 0xFFFF then { k with cfg := { k.cfg with tiles := Table.drop k.cfg.tiles (argOf c 12 1) } }
        else { k with cfg := { k.cfg with tiles := Table.put k.cfg.tiles (argOf c 12 1) (argOf c 14 2, BitVec.ofNat 8 (argOf c 16 1)) } }))) with
    needs := headNeeds,
    range := fun s c => headRange s c && (decide (argOf c 14 2 < 2048) || argOf c 14 2 == 0xFFFF) && scaleOk (s.layoutAhead c).1 (argOf c 16 1) &&
      tileOk (s.layoutAhead c) (argOf c 12 1),
    allows := fun s c => argOf c 14 2 == 0xFFFF || (s.site (argOf c 14 2)).isSome,
    boundary := fun _ c => some (.headVb (headArg c)), object := objHead, stages := true }

/-- `HEAD_STATUS`. -/
def headStatusSpec : CmdSpec :=
  { CmdSpec.plain 0x0804 [] (fun c _ s =>
      let k := s.heads[headArg c]
      okWith s (leBytes 4 k.crc.toNat ++ leBytes 4 k.frames ++ leBytes 4 k.readErr ++
        leBytes 4 (k.rate * 256 + k.lanes * 16 + (if k.trained then 2 else 0) + (if k.hpd then 1 else 0)))) with
    needs := headNeeds, range := headRange }

/-- `HEAD_SIDEBAND`: the bytes are the monitor's. -/
def headSidebandSpec : CmdSpec :=
  { CmdSpec.plain 0x0805 [(12, 8), (20, 1), (24, 4), (28, 2)] (fun c _ s =>
      let byte := fun i => Config.sidebandByte (2 * s.free + targetOf c) (argOf c 20 1) (argOf c 24 4 + i)
      s.drawn.longResult c ((List.range (argOf c 28 2)).map byte)) with
    needs := headNeeds, up := fun s c => !(decide (targetOf c < 2)) || s.heads[headArg c].hpd,
    range := fun s c => headRange s c && raddrOk c && decide (argOf c 20 1 ≤ 1) && decide (1 ≤ argOf c 28 2) && decide (argOf c 28 2 ≤ 4096) }

end Sys2Proof.Machine
end

