-- ==== Sys2Proof/Machine/Commands.lean ====
section
/-!
DEFINITION. How a command is taken from its ring (R342), checked (R359), staged (R371), begun or made to wait, and landed (R360,
R407); and the meaning of each command of groups 0x00xx to 0x09xx, 0x0Cxx and 0x0Dxx.
-/
namespace Sys2Proof.Machine

/-! ### The table of commands -/

/-- Every command that may wait on a boundary or be staged, and those that act at once. -/
def cmdSpecs : List CmdSpec :=
  [devQuerySpec, devSetSpec, ringCreateSpec, ringDestroySpec, ringQuerySpec, ringModSpec, titleLoadSpec,
    titleUnloadSpec, memAllocSpec, memFreeSpec, panCreateSpec, panDestroySpec, panConfigSpec, panStartSpec,
    panModeSpec, panHaltSpec, panResumeSpec, panStopSpec, panResetSpec, panDebugSpec, panAttachSpec, panDetachSpec,
    panMailboxSpec, panMovieSpec, panInputSpec, panHcallSpec, panObsSpec, panQuerySpec, heapDepthSpec, heapHashSpec,
    heapHashrefSpec, heapLogSpec, heapSaveSpec, heapRestoreSpec, heapReplaySpec, streamCreateSpec, streamSetSpec,
    streamDeleteSpec, streamKeySpec, streamLossSpec, streamQuerySpec, portSetSpec, portAddrSpec, portRingsSpec,
    flowSetSpec, flowKeySpec, netQuerySpec, audioSetSpec, audioRouteSpec, audioGaugeSpec, headTimingSpec,
    headLayoutSpec, headTileSpec, headStatusSpec, headSidebandSpec, tbRateSpec, tbSlewSpec, tbStepSpec, tbPpsSpec,
    fwWriteSpec, ucodePatchSpec, sluiceStartSpec]

/-- The command of an opcode. -/
def specOf (opcode : Nat) : Option CmdSpec := cmdSpecs.find? (fun k => k.opcode == opcode)

/-! ### What is accepted already (R359) -/

/-- What an accepted or staged command counts for. -/
def countsFor (opcode : Nat) (c : Packet) (s : State) : State := (specOf opcode).elim s (fun k => k.counts c s)

/-- The state with every setting already accepted counted, in the order of acceptance. -/
def State.projected (s : State) : State := s.waiting.foldl (fun t w => countsFor w.opcode w.c t) s

/-- The state with the commands staged in a transaction counted. -/
def State.withStaged (t : Nat) (s : State) : State :=
  ((Table.get s.txns t).elim [] (fun q => q.cmds)).foldl (fun u e => countsFor e.1 e.2 u) s

/-! ### Taking a command (R331, R341, R342) -/

/-- The control core runs and interprets commands. -/
def State.listens (s : State) : Bool :=
  s.pwr.supplied && !s.pwr.sysRst && !s.pwr.d3hot && !s.pwr.tripped && s.dev.ready.getLsbD 1

/-- A completion can be written to a CPL ring: it has room, and no earlier completion is held back. -/
def State.cplFree (s : State) (n : Nat) : Bool :=
  (s.ring n).any (fun q => q.kind == 1 && !q.full) && !s.held.any (fun h => h.cpl == n)

/-- A CMD ring has a command that can be taken: its doorbell covers an entry not yet taken, and its CPL ring has space. -/
def State.offers (s : State) (r : Ring) : Bool := r.kind == 0 && r.hst != r.dev && s.cplFree r.owner

/-- One number comes before another in the round that starts above a third. -/
def turnBefore (last a b : Nat) : Bool := if last < b then decide (last < a) && decide (a < b) else decide (last < a) || decide (a < b)

/-- It is the turn of a CMD ring: none that comes before it offers a command and waits for no earlier one of its own, as a FENCE could
(R342). -/
def State.turnOf (s : State) (n : Nat) : Bool :=
  s.rings.all (fun e => e.1 == n || !(turnBefore s.rrCmd e.1 n && s.offers e.2 && e.2.open_ == 0))

/-- The ring an abort is taken from: with FENCE no command of it is still open (R342). -/
def State.takesAbort (s : State) (c : Packet) : Option Ring :=
  (s.ring c.ring).filter (fun r => s.listens && s.offers r && (!c.flags.getLsbD 2 || r.open_ == 0))

/-- The ring any other command is taken from, in its turn. -/
def State.takes (s : State) (c : Packet) : Option Ring := (s.takesAbort c).filter (fun _ => s.turnOf c.ring)

/-- The entry is consumed: the index moves on and is written back (R338), and the ring has had its turn. -/
def State.consume (n : Nat) (r : Ring) (s : State) : State :=
  let q := { r with dev := r.dev + 1, open_ := r.open_ + 1 }
  { (s.putRing n q).hostWrite r.idxAddr (leBytes 4 q.dev.toNat) with rrCmd := n }

/-! ### Checks (R359) -/

/-- TXN. -/
def isStaged (c : Packet) : Bool := c.flags.getLsbD 0

/-- Check 1 on what all commands share: reserved flags, PLEN. -/
def formatOk (c : Packet) : Bool := decide (c.flags.toNat < 8) && decide (c.plen.toNat ≤ 7)

/-- TXID names an open transaction when TXN = 1, and is 0 otherwise. -/
def State.txidOk (s : State) (c : Packet) : Bool := if isStaged c then Table.has s.txns c.txid.toNat else c.txid == 0

/-- Check 1. -/
def CmdSpec.formed (k : CmdSpec) (s : State) (c : Packet) : Bool :=
  formatOk c && s.txidOk c && (!isStaged c || k.stages) && k.tidy c && reservedZero k.fields c

/-- Checks 1 to 3 and the state of the device: the status of the first that fails. A staged command is held against what its
transaction already stages; orderings are held on what the command leaves of every setting accepted before it (R366). -/
def CmdSpec.early (k : CmdSpec) (s : State) (c : Packet) : Option Nat :=
  if s.fatal then some stFault
  else if !k.formed s c then some stBadParam
  else if !(s.readyFor (k.needs s c) && k.up s c) then some stNotReady
  else if !k.range (if isStaged c then s.withStaged c.txid.toNat else s) c then some stBadParam
  else if !k.orders (if isStaged c then s.projected.withStaged c.txid.toNat else s.projected) c then some stBadParam
  else none

/-- Checks 4 and 5 on a state that counts every setting already accepted. -/
def CmdSpec.late (k : CmdSpec) (t : State) (c : Packet) : Option Nat :=
  if !k.allows t c then some stBadState
  else if !k.fits t c || (k.loads c && !(k.counts c t).admits) then some stNoCapacity
  else none

/-! ### Acceptance and staging (R358, R360, R371) -/

/-- A command that waits; `PAN_MODE` is placed (R196). -/
def CmdSpec.waits (k : CmdSpec) (c : Packet) (cpl : Nat) (b : Boundary) (s : State) : State :=
  let m : Nat × Option Nat := if k.opcode = 0x0305 then (s.site (targetOf c)).elim (0, none) (Site.modePlace s.now) else (0, none)
  { s with waiting := s.waiting ++ [{ opcode := k.opcode, c := c, accepted := s.now, cpl := cpl, at_ := b, epochDone := false,
                                      epochTime := 0, txn := none, fromFrame := m.1, place := m.2 }] }

/-- A command that acts at once: it lands and completes. -/
def CmdSpec.acts (k : CmdSpec) (c : Packet) (cpl : Nat) (s : State) : State :=
  let l := k.land c cpl s
  let t := if l.status = stOk then l.state.touchObject (k.object c) else l.state
  if k.own then t else t.complete c cpl k.opcode l.status l.result

/-- A command that passed its checks. -/
def CmdSpec.accept (k : CmdSpec) (c : Packet) (cpl : Nat) (s : State) : State :=
  match k.boundary s c with
  | none => k.acts c cpl (k.begins c s)
  | some b => k.waits c cpl b ((k.begins c s).touchObject (k.object c))

/-- A transaction with one more command. -/
def Txn.add (opcode : Nat) (c : Packet) (now : Nat) (o : Option (Nat × Nat)) (t : Txn) : Txn :=
  { cmds := t.cmds ++ [(opcode, c)], lastAt := now,
    objs := match o with
      | some e => if t.objs.any (fun q => q.1 == e.1) then t.objs else t.objs ++ [e]
      | none => t.objs }

/-- A command staged in its transaction (R371). -/
def CmdSpec.stage (k : CmdSpec) (c : Packet) (cpl : Nat) (s : State) : State :=
  match Table.get s.txns c.txid.toNat with
  | none => s.complete c cpl k.opcode stBadParam []
  | some t =>
    if 256 ≤ t.cmds.length then s.complete c cpl k.opcode stTxnFull []
    else
      let u := t.add k.opcode c s.now ((k.object c).map (fun o => (o, s.version o)))
      { s with txns := Table.put s.txns c.txid.toNat u }.complete c cpl k.opcode stOk (leBytes 2 u.cmds.length)

/-- Checks 4 and 5 at acceptance. A command that acts at once is held against the state as it stands, too. -/
def CmdSpec.judged (k : CmdSpec) (s : State) (c : Packet) : Option Nat :=
  if (k.boundary s c).isNone && !k.allows s c then some stBadState else k.late s.projected c

/-- A command taken: checked, then staged or accepted. -/
def CmdSpec.run (k : CmdSpec) (c : Packet) (cpl : Nat) (s : State) : State :=
  match k.early s c with
  | some e => s.complete c cpl k.opcode e []
  | none =>
    if isStaged c then k.stage c cpl s
    else
      match k.judged s c with
      | some e => s.complete c cpl k.opcode e []
      | none => k.accept c cpl s

/-- What a command's row does: where the control core can take it, it is taken and run; otherwise nothing changes. -/
def State.takeWith (f : Packet → Nat → State → State) (c : Packet) (s : State) : Result :=
  match s.takes c with
  | none => .next s
  | some r => .next (f (packetRead c) r.owner (s.consume c.ring r))

/-- What an abort's row does: it starts as soon as a doorbell covers it. -/
def State.takeAbort (f : Packet → Nat → State → State) (c : Packet) (s : State) : Result :=
  match s.takesAbort c with
  | none => .next s
  | some r => .next (f (packetRead c) r.owner (s.consume c.ring r))

/-- The row of a command. -/
def State.command (k : CmdSpec) (c : Packet) (s : State) : Result := s.takeWith k.run c

/-! ### Landing (R360, R407) -/

/-- A waiting command that has no effect: it completes with a status, and what was reserved for it is free again (R187). -/
def State.fails (w : Waiting) (status : Nat) (s : State) : State :=
  let t := if w.opcode = 0x0304 ∨ w.opcode = 0x0305 then s.tidyPhase (targetOf w.c)
    else if w.opcode = 0x0303 then s.modSite (targetOf w.c) (fun x => { x with nextBay := none }) else s
  t.finish w status []

/-- A flow entry invalidated: its VALID changes, so it starts again when it is next set (R310). -/
def Flow.invalidated (f : Flow) : Flow := Flow.swap { f with bytes := (f.bytes.headD 0 &&& 0x7F) :: f.bytes.tail } f

/-- A flow entry that an abort removes: one of its pan's 16, or any (R374). -/
def Waiting.removes (w : Waiting) (entry : Nat) : Bool := w.opcode == 0x0B05 || entry / 16 == targetOf w.c

/-- The flow entries an abort removes at the epoch; each is an object changed (R372, R374). -/
def State.dropFlows (w : Waiting) (s : State) : State :=
  (s.flows.filter (fun e => w.removes e.1)).foldl (fun t e => t.touchObject (some (10000 + e.1)))
    { s with flows := s.flows.map (fun e => if w.removes e.1 then (e.1, e.2.invalidated) else e) }

/-- A waiting command lands: its state check is made again, and it completes or counts as a part of its commit. -/
def State.landWaiting (w : Waiting) (s : State) : State :=
  match specOf w.opcode with
  | none => s.dropFlows w
  | some k =>
    if !k.allows s w.c then s.fails w stBadState
    else
      let l := k.land w.c w.cpl s
      l.state.finish w l.status l.result

/-- The oldest waiting commands a test picks land in turn, at most `n`. -/
def State.landSome (f : Waiting → Bool) : Nat → State → State
  | 0, s => s
  | n + 1, s =>
    match s.waiting.find? f with
    | none => s
    | some w => State.landSome f n (State.landWaiting w { s with waiting := s.waiting.erase w })

/-- Every waiting command a test picks lands, in the order of acceptance. -/
def State.landAll (f : Waiting → Bool) (s : State) : State := State.landSome f s.waiting.length s

/-! ### The commands -/

/-- `DEV_QUERY`: Returns device identity and status (R362). -/
def execDevQuery (c : Packet) (s : State) : Result := s.command devQuerySpec c

/-- `DEV_SET`: Sets W, BATCH_FRAMES, the I2S delay or SRTP_REQUIRED at the epoch (R362). -/
def execDevSet (c : Packet) (s : State) : Result := s.command devSetSpec c

/-- `RING_CREATE`: Creates a ring from its context (R336). -/
def execRingCreate (c : Packet) (s : State) : Result := s.command ringCreateSpec c

/-- `RING_DESTROY`: Destroys a ring after its entries in flight are written (R362). -/
def execRingDestroy (c : Packet) (s : State) : Result := s.command ringDestroySpec c

/-- `RING_QUERY`: Returns a ring's indices and space (R362). -/
def execRingQuery (c : Packet) (s : State) : Result := s.command ringQuerySpec c

/-- `RING_MOD`: Changes a ring's moderation (R362). -/
def execRingMod (c : Packet) (s : State) : Result := s.command ringModSpec c

/-- `TITLE_LOAD`: Checks a Stoanua image and loads it into a title handle (R74). -/
def execTitleLoad (c : Packet) (s : State) : Result := s.command titleLoadSpec c

/-- `TITLE_UNLOAD`: Empties a title handle (R362). -/
def execTitleUnload (c : Packet) (s : State) : Result := s.command titleUnloadSpec c

/-- `MEM_ALLOC`: Allocates device DRAM (R362). -/
def execMemAlloc (c : Packet) (s : State) : Result := s.command memAllocSpec c

/-- `MEM_FREE`: Frees device DRAM (R362). -/
def execMemFree (c : Packet) (s : State) : Result := s.command memFreeSpec c

/-- `PAN_CREATE`: Creates a pan in IDLE (R364). -/
def execPanCreate (c : Packet) (s : State) : Result := s.command panCreateSpec c

/-- `PAN_DESTROY`: Destroys an IDLE pan (R364). -/
def execPanDestroy (c : Packet) (s : State) : Result := s.command panDestroySpec c

/-- `PAN_CONFIG`: Changes an IDLE pan's bay, profile, period, budget, kind or tag (R364). -/
def execPanConfig (c : Packet) (s : State) : Result := s.command panConfigSpec c

/-- `PAN_START`: Starts an IDLE pan in a real-time or free-run mode at the epoch, after admission (R196). -/
def execPanStart (c : Packet) (s : State) : Result := s.command panStartSpec c

/-- `PAN_MODE`: Changes a running pan's mode at a frame latch, or resumes a parked STEP pan (R196). -/
def execPanMode (c : Packet) (s : State) : Result := s.command panModeSpec c

/-- `PAN_HALT`: Requests a halt at a named position or at placement (R197). -/
def execPanHalt (c : Packet) (s : State) : Result := s.command panHaltSpec c

/-- `PAN_RESUME`: Returns a HALTED pan to the mode it left (R196). -/
def execPanResume (c : Packet) (s : State) : Result := s.command panResumeSpec c

/-- `PAN_STOP`: Stops a pan at the end of its current frame, or at once if not running (R409). -/
def execPanStop (c : Packet) (s : State) : Result := s.command panStopSpec c

/-- `PAN_RESET`: Resets a pan to IDLE with the reset state (R196). -/
def execPanReset (c : Packet) (s : State) : Result := s.command panResetSpec c

/-- `PAN_DEBUG`: Steps a HALTED pan by pan-cycles or instructions (R198). -/
def execPanDebug (c : Packet) (s : State) : Result := s.command panDebugSpec c

/-- `PAN_ATTACH`: Attaches a client slot, placed as an input (R92). -/
def execPanAttach (c : Packet) (s : State) : Result := s.command panAttachSpec c

/-- `PAN_DETACH`: Detaches a client slot, placed as an input (R92). -/
def execPanDetach (c : Packet) (s : State) : Result := s.command panDetachSpec c

/-- `PAN_MAILBOX`: Sends a message and/or NMI, taking a credit (R95). -/
def execPanMailbox (c : Packet) (s : State) : Result := s.command panMailboxSpec c

/-- `PAN_MOVIE`: Marks movie buffers ready and/or commits staged media bytes (R84). -/
def execPanMovie (c : Packet) (s : State) : Result := s.command panMovieSpec c

/-- `PAN_INPUT`: Sets INPUT_DELAY and a slot's placement settings (R220). -/
def execPanInput (c : Packet) (s : State) : Result := s.command panInputSpec c

/-- `PAN_HCALL`: Sets the pan's host-call timeout (R57). -/
def execPanHcall (c : Packet) (s : State) : Result := s.command panHcallSpec c

/-- `PAN_OBS`: Sets the pan's OBS ring and observation settings (R251). -/
def execPanObs (c : Packet) (s : State) : Result := s.command panObsSpec c

/-- `PAN_QUERY`: Returns a pan's mode, frame and counters (R364). -/
def execPanQuery (c : Packet) (s : State) : Result := s.command panQuerySpec c

/-- `HEAP_DEPTH`: Sets the rewind depth D after reservation and admission (R230). -/
def execHeapDepth (c : Packet) (s : State) : Result := s.command heapDepthSpec c

/-- `HEAP_HASH`: Sets the hash interval (R240). -/
def execHeapHash (c : Packet) (s : State) : Result := s.command heapHashSpec c

/-- `HEAP_HASHREF`: Sets the hash reference and comparison mode (R241). -/
def execHeapHashref (c : Packet) (s : State) : Result := s.command heapHashrefSpec c

/-- `HEAP_LOG`: Enables or disables the input log (R242). -/
def execHeapLog (c : Packet) (s : State) : Result := s.command heapLogSpec c

/-- `HEAP_SAVE`: Copies a snapshot or current image to a save image (R245). -/
def execHeapSave (c : Packet) (s : State) : Result := s.command heapSaveSpec c

/-- `HEAP_RESTORE`: Loads a save image into an IDLE or FAULTED pan (R246). -/
def execHeapRestore (c : Packet) (s : State) : Result := s.command heapRestoreSpec c

/-- `HEAP_REPLAY`: Puts an IDLE pan into REPLAY from an image and log, or continues a parked replay (R243). -/
def execHeapReplay (c : Packet) (s : State) : Result := s.command heapReplaySpec c

/-- `STREAM_CREATE`: Creates the pan's stream after the harvester check (R266). -/
def execStreamCreate (c : Packet) (s : State) : Result := s.command streamCreateSpec c

/-- `STREAM_SET`: Sets stream rate and packet settings at the epoch (R267). -/
def execStreamSet (c : Packet) (s : State) : Result := s.command streamSetSpec c

/-- `STREAM_DELETE`: Deletes the stream (R365). -/
def execStreamDelete (c : Packet) (s : State) : Result := s.command streamDeleteSpec c

/-- `STREAM_KEY`: Requests a key frame (R278). -/
def execStreamKey (c : Packet) (s : State) : Result := s.command streamKeySpec c

/-- `STREAM_LOSS`: Delivers a loss report with lowest lost frame L (R278). -/
def execStreamLoss (c : Packet) (s : State) : Result := s.command streamLossSpec c

/-- `STREAM_QUERY`: Returns the stream counters (R365). -/
def execStreamQuery (c : Packet) (s : State) : Result := s.command streamQuerySpec c

/-- `PORT_SET`: Sets a port's mode, FEC and MAC address (R305). -/
def execPortSet (c : Packet) (s : State) : Result := s.command portSetSpec c

/-- `PORT_ADDR`: Sets a port's local IP address (R305). -/
def execPortAddr (c : Packet) (s : State) : Result := s.command portAddrSpec c

/-- `PORT_RINGS`: Assigns a port's PKT_RX ring and the device bittern ring (R325). -/
def execPortRings (c : Packet) (s : State) : Result := s.command portRingsSpec c

/-- `FLOW_SET`: Writes a flow entry (R309). -/
def execFlowSet (c : Packet) (s : State) : Result := s.command flowSetSpec c

/-- `FLOW_KEY`: Writes a flow entry's SRTP or input key (R308). -/
def execFlowKey (c : Packet) (s : State) : Result := s.command flowKeySpec c

/-- `NET_QUERY`: Returns port, entry or device network counters (R326). -/
def execNetQuery (c : Packet) (s : State) : Result := s.command netQuerySpec c

/-- `AUDIO_SET`: Sets audio chain settings (R290). -/
def execAudioSet (c : Packet) (s : State) : Result := s.command audioSetSpec c

/-- `AUDIO_ROUTE`: Sets the audio route set (R299). -/
def execAudioRoute (c : Packet) (s : State) : Result := s.command audioRouteSpec c

/-- `AUDIO_GAUGE`: Returns the gauge record, optionally clearing peaks (R298). -/
def execAudioGauge (c : Packet) (s : State) : Result := s.command audioGaugeSpec c

/-- `HEAD_TIMING`: Sets a head's timing and link limits and retrains (R260). -/
def execHeadTiming (c : Packet) (s : State) : Result := s.command headTimingSpec c

/-- `HEAD_LAYOUT`: Sets a head's layout (R261). -/
def execHeadLayout (c : Packet) (s : State) : Result := s.command headLayoutSpec c

/-- `HEAD_TILE`: Sets a tile's pan and scale (R261). -/
def execHeadTile (c : Packet) (s : State) : Result := s.command headTileSpec c

/-- `HEAD_STATUS`: Returns a head's output CRC, frame count and state (R265). -/
def execHeadStatus (c : Packet) (s : State) : Result := s.command headStatusSpec c

/-- `HEAD_SIDEBAND`: Returns EDID or DPCD bytes (R259). -/
def execHeadSideband (c : Packet) (s : State) : Result := s.command headSidebandSpec c

/-- `TB_RATE`: Sets the timebase rate adjustment (R211). -/
def execTbRate (c : Packet) (s : State) : Result := s.command tbRateSpec c

/-- `TB_SLEW`: Sets a slew offset (R211). -/
def execTbSlew (c : Packet) (s : State) : Result := s.command tbSlewSpec c

/-- `TB_STEP`: Steps device time at the epoch (R212). -/
def execTbStep (c : Packet) (s : State) : Result := s.command tbStepSpec c

/-- `TB_PPS`: Sets PPS out enable, offset and high time (R216). -/
def execTbPps (c : Packet) (s : State) : Result := s.command tbPpsSpec c

/-- `FW_WRITE`: Checks, writes and verifies a firmware image in a flash bank (R379). -/
def execFwWrite (c : Packet) (s : State) : Result := s.command fwWriteSpec c

/-- `UCODE_PATCH`: Stages a microcode patch for the next epoch (R203). -/
def execUcodePatch (c : Packet) (s : State) : Result := s.command ucodePatchSpec c

/-- `SLUICE_START`: Starts a descriptor chain on a sluice channel (R348). -/
def execSluiceStart (c : Packet) (s : State) : Result := s.command sluiceStartSpec c

end Sys2Proof.Machine
end

