-- ==== Sys2Proof/Machine/Transactions.lean ====
section
/-!
DEFINITION. Transactions (R369 to R373) and the time-out of commands that wait on a boundary (R360).
-/
namespace Sys2Proof.Machine

/-- What every command outside the table of `cmdSpecs` is checked for: it is not staged, and its parameters are its own. -/
def bareOk (fields : List (Nat × Nat)) (c : Packet) : Bool := formatOk c && !isStaged c && reservedZero fields c

/-- A device-time event: it happens where the timebase counts, and device time has then reached its instant. -/
def State.atTime (t : Nat) (f : State → State) (s : State) : Result := if s.tb.counting then .next (f (s.reach t)) else .next s

/-! ### Opening and discarding (R369, R373) -/

/-- A TXID from 1 to 65,535 that no open transaction holds. -/
def State.freshTxid (s : State) : Nat :=
  ((Config.txidChoice s.free :: (List.range 65).map (fun i => i + 1)).find?
    (fun i => decide (1 ≤ i) && decide (i ≤ 65535) && !Table.has s.txns i)).getD 1

/-- `TXN_BEGIN` taken. -/
def beginTxn (c : Packet) (cpl : Nat) (s : State) : State :=
  let done := fun (st : Nat) (r : List Byte) (t : State) => t.complete c cpl 0x0A01 st r
  if s.fatal then done stFault [] s
  else if !(bareOk [] c && c.txid == 0 && deviceRange s c) then done stBadParam [] s
  else if 64 ≤ s.txns.length then done stTxnFull [] s
  else
    let i := s.freshTxid
    done stOk (leBytes 2 i) { s.drawn with txns := Table.put s.txns i { cmds := [], lastAt := s.now, objs := [] } }

/-- A commit or rollback names an open transaction. -/
def State.txnNamed (s : State) (c : Packet) : Bool := bareOk [] c && deviceRange s c && Table.has s.txns c.txid.toNat

/-- `TXN_ROLLBACK` taken. -/
def rollbackTxn (c : Packet) (cpl : Nat) (s : State) : State :=
  if s.fatal then s.complete c cpl 0x0A03 stFault []
  else if !s.txnNamed c then s.complete c cpl 0x0A03 stBadParam []
  else { s with txns := Table.drop s.txns c.txid.toNat }.complete c cpl 0x0A03 stOk []

/-! ### Committing (R372) -/

/-- The first staged command whose state or reservation check fails, with its position, and the state all of them leave. -/
def judge : Nat → List (Nat × Packet) → State → State × Option (Nat × Nat)
  | _, [], t => (t, none)
  | pos, e :: es, t =>
    match specOf e.1 with
    | none => judge (pos + 1) es t
    | some k =>
      if !k.allows t e.2 then (t, some (stBadState, pos))
      else if !k.fits t e.2 then (t, some (stNoCapacity, pos))
      else judge (pos + 1) es (k.counts e.2 t)

/-- How many staged commands the longest prefix that admission passes holds. -/
def lastAdmitted : Nat → Nat → List (Nat × Packet) → State → Nat
  | pos, best, [], t => if t.admits then pos else best
  | pos, best, e :: es, t => lastAdmitted (pos + 1) (if t.admits then pos else best) es (countsFor e.1 e.2 t)

/-- A staged command is one that admission judges. -/
def loadsAdmission (e : Nat × Packet) : Bool := (specOf e.1).any (fun k => k.loads e.2)

/-- The failure of a commit: status and staging position, from 1. -/
def State.commitFails (s : State) (cmds : List (Nat × Packet)) : Option (Nat × Nat) :=
  let r := judge 1 cmds s.projected
  match r.2 with
  | some f => some f
  | none =>
    if cmds.any loadsAdmission && !r.1.admits then some (stNoCapacity, lastAdmitted 0 0 cmds s.projected + 1) else none

/-- An object was changed from outside since the transaction first touched it. -/
def State.conflicts (s : State) (t : Txn) : Bool := t.objs.any (fun o => s.version o.1 != o.2)

/-- The boundary a part of a commit waits for (R4, R372): pan parts the pan's frame latch, device parts the epoch. -/
def CmdSpec.partAt (k : CmdSpec) (s : State) (c : Packet) : Boundary :=
  match k.boundary s c with
  | some .epoch => if [3, 4, 5].contains (k.opcode / 256) then .latch (targetOf c) else .epoch
  | some (.frameEnd p) => .latch p
  | some b => b
  | none => .latch (targetOf c)

/-- A staged command becomes a waiting part of commit `m`; a stop begins only at its latch. -/
def State.addPart (m cpl : Nat) (s : State) (e : Nat × Packet) : State :=
  match specOf e.1 with
  | none => s
  | some k =>
    let t := (if e.1 = 0x0308 then s else k.begins e.2 s).touchObject (k.object e.2)
    { t with waiting := t.waiting ++ [{ opcode := e.1, c := e.2, accepted := s.now, cpl := cpl, at_ := k.partAt s e.2,
                                        epochDone := false, epochTime := 0, txn := some m, fromFrame := 0, place := none }] }

/-- A commit accepted: every staged command is a part that waits. -/
def State.acceptCommit (c : Packet) (cpl : Nat) (cmds : List (Nat × Packet)) (s : State) : State :=
  let m := (s.commits.map (fun e => e.1)).foldl max 0 + 1
  let k : Commit := { c := c, cpl := cpl, parts := cmds.length, applied := 0, discarded := 0, timedOut := 0, epoch := 0 }
  cmds.foldl (State.addPart m cpl) { s with commits := Table.put s.commits m k }

/-- `TXN_COMMIT` taken: the transaction is freed in every case. -/
def commitTxn (c : Packet) (cpl : Nat) (s : State) : State :=
  if s.fatal then s.complete c cpl 0x0A02 stFault []
  else if !s.txnNamed c then s.complete c cpl 0x0A02 stBadParam []
  else
    match Table.get s.txns c.txid.toNat with
    | none => s.complete c cpl 0x0A02 stBadParam []
    | some t =>
      let u := { s with txns := Table.drop s.txns c.txid.toNat }
      if s.conflicts t then u.complete c cpl 0x0A02 stTxnConflict []
      else
        match u.commitFails t.cmds with
        | some f => u.complete c cpl 0x0A02 f.1 (List.replicate 12 0 ++ leBytes 2 f.2)
        | none => u.acceptCommit c cpl t.cmds

/-! ### The commands -/

/-- `TXN_BEGIN`: Opens a transaction (R369). -/
def execTxnBegin (c : Packet) (s : State) : Result := s.takeWith beginTxn c

/-- The opcodes that R369 to R374 define beside those of `cmdSpecs`: their commands have rows of their own. -/
def controlOpcodes : List Nat := [0x0A01, 0x0A02, 0x0A03, 0x0B01, 0x0B02, 0x0B03, 0x0B04, 0x0B05]

/-- `TXN_STAGE`: A command with TXN = 1 is staged in its transaction (R371); an opcode that may not be staged, and one that is not defined,
be TXN 1 or 0, is refused (R359, R370). -/
def execTxnStage (opcode : Word) (c : Packet) (s : State) : Result :=
  match specOf opcode.toNat with
  | some k => s.command k c
  | none =>
    if !isStaged c && controlOpcodes.contains opcode.toNat then .next s
    else s.takeWith (fun d cpl t => t.complete d cpl opcode.toNat (if t.fatal then stFault else stBadParam) []) c

/-- `TXN_COMMIT`: Checks and lands a transaction's staged commands together (R372). -/
def execTxnCommit (c : Packet) (s : State) : Result := s.takeWith commitTxn c

/-- `TXN_ROLLBACK`: Discards a transaction (R373). -/
def execTxnRollback (c : Packet) (s : State) : Result := s.takeWith rollbackTxn c

/-- `TXN_EXPIRY`: A transaction idle for 10 s is rolled back (R371). -/
def execTxnExpiry (txid : Word) (s : State) : Result :=
  match Table.get s.txns txid.toNat with
  | none => .next s
  | some t => s.atTime (t.lastAt + 160000000000) (fun u => { u with txns := Table.drop u.txns txid.toNat })

/-- A command that waits on a frame latch or a head's vertical blank, after the epoch that followed its acceptance (R360). -/
def Waiting.canTimeOut (w : Waiting) : Bool :=
  w.epochDone &&
    (match w.at_ with
     | .latch _ => true
     | .headVb _ => true
     | _ => false)

/-- `COMMAND_TIMEOUT`: A boundary does not come within 1 s and the waiting command completes with ST_TIMEOUT (R360). -/
def execCommandTimeout (k : Nat) (s : State) : Result :=
  match s.waiting[k]? with
  | none => .next s
  | some w =>
    if w.canTimeOut then
      s.atTime (w.epochTime + 16000000000) (fun t => State.fails w stTimeout { t with waiting := t.waiting.erase w })
    else .next s

end Sys2Proof.Machine
end

