-- ==== Sys2Proof/Machine/Aborts.lean ====
section
/-!
DEFINITION. The aborts of R374 and R375: commands they interrupt complete first, with `ST_ABORTED`.
-/
namespace Sys2Proof.Machine

/-! ### Sluice -/

/-- The command that runs a channel's chain. -/
def Waiting.runs (n : Nat) (w : Waiting) : Bool := w.at_ == .chain n

/-- A chain's command completes with a status and the bytes written (R351, R353). -/
def State.endChain (n : Fin 64) (status : Nat) (f : Sluice → Sluice) (s : State) : State :=
  let q := s.sluice[n]
  let t := { s with sluice := vmod s.sluice n (fun k => { f k with busy := false }), waiting := s.waiting.filter (fun w => !w.runs n.val) }
  (s.waiting.filter (Waiting.runs n.val)).foldl (fun u w => u.finish w status (leBytes 8 q.done)) t

/-- A chain stopped by an abort, where its last completion left it (notes/assumptions/39.md). -/
def State.stopChain (n : Fin 64) (s : State) : State :=
  if s.sluice[n].busy then s.endChain n stAborted (fun k => { k with aborted := true }) else s

/-! ### Pans -/

/-- A pan's run stops and the pan goes to `IDLE`; of a pan already there only commands that wait are stopped. -/
def State.stopPan (p : Nat) (s : State) : State :=
  match s.site p with
  | none => s
  | some x =>
    (if x.mode = .idle then (s.abortWaiting p).modSite p (fun y => { y with phase := none }) else s.idlePan p).touchObject (some p)

/-- A chain with no route, encoding nothing. -/
def Audio.unrouted (a : Audio) : Audio :=
  { a with routes := ⟨false, false, false, 0xFFFF⟩, nextRoutes := none, opusOn := false, opusFill := 0, opusEnding := false,
           stream := none }

/-- The pan's stream, packets and routes are gone. -/
def State.clearSession (p : Nat) (s : State) : State :=
  let t := s.modSite p (fun x => { x with stream := none, audio := x.audio.unrouted })
  { t with packets := t.packets.filter (fun k => k.pan != p), copies := t.copies.filter (fun k => k.entry / 16 != p),
           i2s := t.i2s.without p }

/-- A removal of flow entries waits for the next epoch. -/
def State.dropAtEpoch (opcode : Nat) (c : Packet) (cpl : Nat) (s : State) : State :=
  { s with waiting := s.waiting ++ [{ opcode := opcode, c := c, accepted := s.now, cpl := cpl, at_ := .epoch, epochDone := false,
                                      epochTime := 0, txn := none, fromFrame := 0, place := none }] }

/-- The pan stopped with its session. -/
def State.stopSession (p : Nat) (s : State) : State := if (s.site p).isSome then (s.stopPan p).clearSession p else s

/-! ### The form of an abort -/

/-- An abort taken: no parameters, a target in range, a test of the target's state, an action. -/
def abortWith (opcode : Nat) (range allows : State → Packet → Bool) (f : Packet → Nat → State → State) (c : Packet) (cpl : Nat)
    (s : State) : State :=
  if s.fatal then s.complete c cpl opcode stFault []
  else if !(bareOk [] c && c.txid == 0 && range s c) then s.complete c cpl opcode stBadParam []
  else if !allows s c then s.complete c cpl opcode stBadState []
  else (f c cpl s).complete c cpl opcode stOk []

/-- Every channel's chain stopped. -/
def State.stopChains (s : State) : State := (List.finRange 64).foldl (fun t n => t.stopChain n) s

/-- Every pan stopped with its session. -/
def State.stopSessions (s : State) : State := (s.sites.map (fun e => e.1)).foldl (fun t p => t.stopSession p) s

/-- Every ring destroyed but those a test keeps. -/
def State.dropRings (keep : Nat → Bool) (s : State) : State :=
  ((s.rings.map (fun e => e.1)).filter (fun n => !keep n)).foldl (fun t n => t.destroyRing n) s

/-- A removal of flow entries that an abort asked for. -/
def Waiting.isRemoval (w : Waiting) : Bool := w.opcode == 0x0B04 || w.opcode == 0x0B05

/-- What `ABORT_ALL` does beside the flow entries: of the commands that wait only removals of flow entries stand (R374, R375). -/
def State.stopAll (keep : Nat → Bool) (s : State) : State :=
  ({ ((s.stopSessions).stopChains).dropWaiting (fun w => !w.isRemoval) stAborted with txns := [] }).dropRings keep

/-! ### The commands -/

/-- `ABORT_SLUICE`: Stops a sluice chain (R374). -/
def execAbortSluice (c : Packet) (s : State) : Result :=
  s.takeAbort (abortWith 0x0B01 (fun _ d => decide (targetOf d < 64)) (fun _ _ => true) (fun d _ t => t.stopChain (chanOf d))) c

/-- `ABORT_PAN`: Stops a pan's run and puts it in IDLE (R374). -/
def execAbortPan (c : Packet) (s : State) : Result :=
  s.takeAbort (abortWith 0x0B02 panRange (fun _ _ => true) (fun d _ t => t.stopPan (targetOf d))) c

/-- `ABORT_RING`: Destroys a ring at once (R374). -/
def execAbortRing (c : Packet) (s : State) : Result :=
  s.takeAbort (abortWith 0x0B03 ringRange (fun t d => t.ringFree d (targetOf d)) (fun d _ t => t.destroyRing (targetOf d))) c

/-- `ABORT_SESSION`: Aborts a pan with its stream, routes and flows (R374). -/
def execAbortSession (c : Packet) (s : State) : Result :=
  s.takeAbort (abortWith 0x0B04 panRange (fun _ _ => true) (fun d cpl t =>
    if t.hasPan d then (t.stopSession (targetOf d)).dropAtEpoch 0x0B04 d cpl else t)) c

/-- `ABORT_ALL`: Aborts every pan, chain, transaction and ring but the boot and abort rings (R374). -/
def execAbortAll (c : Packet) (s : State) : Result :=
  s.takeAbort (abortWith 0x0B05 deviceRange (fun _ _ => true) (fun d cpl t =>
    (t.stopAll (fun n => decide (n < 2) || n == d.ring || n == cpl)).dropAtEpoch 0x0B05 d cpl)) c

end Sys2Proof.Machine
end

