-- ==== Sys2Proof/Machine/Accesses.lean ====
section
/-!
DEFINITION. The meanings of the register accesses that have rows of their own: each is one pan-cycle of the pan in which the
byte is read or written at the register's address, with the register's side effects (R28, R29, R69). A row that names a bit
of the byte acts only where the byte has it. The byte a read returns is left in the image's `bus`.
-/
namespace Sys2Proof.Machine

/-- `IC_CLAIM_READ`: A read of IC_CLAIM returns the locked source or the legacy winner and pushes it onto the priority stack (R155). -/
def execIcClaimRead (p : PanNo) (s : State) : Result :=
  s.access p (Pan.busRead 0xE1DC)

/-- `IC_COMPLETE_WRITE`: A write of IC_COMPLETE pops the stack in native mode or removes the entry in legacy mode (R157). -/
def execIcCompleteWrite (p : PanNo) (v : Byte) (s : State) : Result :=
  s.access p (Pan.busWrite 0xE1DD v)

/-- `IC_SOFT`: A write of IC_CTL.SOFT = 1 raises source 30 (R151). -/
def execIcSoft (p : PanNo) (v : Byte) (s : State) : Result :=
  s.accessIf (v.getLsbD 6) p (Pan.busWrite 0xE1DE v)

/-- `ROMBANK_H_WRITE`: A write of ROMBANK_H loads the whole bank mapping from it and the holding byte (R65). -/
def execRombankHWrite (p : PanNo) (v : Byte) (s : State) : Result :=
  s.access p (Pan.busWrite 0xE2C2 v)

/-- `REGISTER_WRITE`: A write to any register without a row of its own, W1C clears and holding-byte writes included, takes effect at the end of its pan-cycle (R29). -/
def execRegisterWrite (p : PanNo) (a : Word) (v : Byte) (s : State) : Result :=
  s.accessIf (decide (0xE000 ≤ a.toNat) && decide (a.toNat < 0xF000)) p (Pan.busWrite a v)

/-- `FRAME_COUNT_READ`: A read of FRAME_COUNT_0 latches the upper bytes (R70). -/
def execFrameCountRead (p : PanNo) (s : State) : Result :=
  s.access p (Pan.busRead 0xE2C6)

/-- `FLIP_TIME_READ`: A read of FLIP_TIME_0 latches the upper bytes (R70). -/
def execFlipTimeRead (p : PanNo) (s : State) : Result :=
  s.access p (Pan.busRead 0xE2CA)

/-- `PAN_TAG_READ`: A read of PAN_TAG_L latches the high byte (R70). -/
def execPanTagRead (p : PanNo) (s : State) : Result :=
  s.access p (Pan.busRead 0xE2C4)

/-- `DMA_START`: DMAn_CTL.START loads REM, clears HALF and FULL, sets BUSY and arms the channel, or sets ERR for a bad setting (R79). -/
def execDmaStart (p : PanNo) (n : Fin 4) (v : Byte) (s : State) : Result :=
  s.accessIf (v.getLsbD 7) p (Pan.busWrite (regOf 0xE200 n.val 11) v)

/-- `DMA_STOP`: DMAn_CTL.STOP lets the current byte finish, then clears BUSY and REM (R79). -/
def execDmaStop (p : PanNo) (n : Fin 4) (v : Byte) (s : State) : Result :=
  s.accessIf (v.getLsbD 6) p (Pan.busWrite (regOf 0xE200 n.val 11) v)

/-- `CRC_DATA_WRITE`: A write of CRC_DATA folds its byte into CTX (R87). -/
def execCrcDataWrite (p : PanNo) (v : Byte) (s : State) : Result :=
  s.access p (Pan.busWrite 0xE2A1 v)

/-- `CRC_CTL_WRITE`: A write of CRC_CTL selects the algorithm and loads its initial value (R85). -/
def execCrcCtlWrite (p : PanNo) (v : Byte) (s : State) : Result :=
  s.access p (Pan.busWrite 0xE2A0 v)

/-- `CRC_INIT`: CRC_CMD.INIT loads the initial value into CTX (R85). -/
def execCrcInit (p : PanNo) (s : State) : Result :=
  s.access p (Pan.busWrite 0xE2A6 0x40)

/-- `CRC_START`: CRC_CMD.START begins a block read, stealing free pan-cycles (R88). -/
def execCrcStart (p : PanNo) (s : State) : Result :=
  s.access p (Pan.busWrite 0xE2A6 0x80)

/-- `CRC_RES_READ`: A read of CRC_RES_0 latches the upper result bytes (R85). -/
def execCrcResRead (p : PanNo) (s : State) : Result :=
  s.access p (Pan.busRead 0xE2A8)

/-- `INPUT_SLOT_READ`: A read of INn_BTN_L latches offsets 1 to 6 of the slot (R90). -/
def execInputSlotRead (p : PanNo) (k : Fin 16) (s : State) : Result :=
  s.access p (Pan.busRead (BitVec.ofNat 16 (0xE300 + 8 * k.val)))

/-- `INPUT_STAT_READ`: A read of INn_STAT clears NEW, CHG and LATE (R91). -/
def execInputStatRead (p : PanNo) (k : Fin 16) (s : State) : Result :=
  s.access p (Pan.busRead (BitVec.ofNat 16 (0xE307 + 8 * k.val)))

/-- `MB_INACK`: MB_CTL.INACK clears INFULL and delivers any waiting message (R95). -/
def execMbInack (p : PanNo) (s : State) : Result :=
  s.access p (Pan.busWrite 0xE2FF 0x80)

/-- `MB_SEND`: MB_CTL.SEND increments MB_OUT_SEQ and posts a mailbox-send event (R97). -/
def execMbSend (p : PanNo) (s : State) : Result :=
  s.access p (Pan.busWrite 0xE2FF 0x40)

/-- `MV_READY_WRITE`: A game write setting an MV_READY bit marks a buffer ready and raises source 22 (R129). -/
def execMvReadyWrite (p : PanNo) (v : Byte) (s : State) : Result :=
  s.access p (Pan.busWrite 0xE071 v)

/-- `FRAME_COMMIT`: A write of FRAME_COMMIT.ARM arms a copy of the shadows (R105). -/
def execFrameCommit (p : PanNo) (v : Byte) (s : State) : Result :=
  s.accessIf (v.getLsbD 7) p (Pan.busWrite 0xE011 v)

/-- `SPR_STAT_READ`: A read of SPR_STAT waits for the rake and clears OVF and COLL (R122). -/
def execSprStatRead (p : PanNo) (s : State) : Result :=
  s.access p (Pan.busRead 0xE061)

/-- `BEAM_READ`: A read of BEAM_0 latches the rest of the beam position (R111). -/
def execBeamRead (p : PanNo) (s : State) : Result :=
  s.access p (Pan.busRead 0xE008)

/-- `TIMER_CAPNOW`: A write of TMn_CAPSRC.CAPNOW captures at once (R147). -/
def execTimerCapnow (p : PanNo) (n : Fin 4) (v : Byte) (s : State) : Result :=
  s.accessIf (v.getLsbD 7) p (Pan.busWrite (regOf 0xE180 n.val 8) v)

/-- `TIMER_CNT_H_WRITE`: A write of TMn_CNT_H loads the counter (R137). -/
def execTimerCntHWrite (p : PanNo) (n : Fin 4) (v : Byte) (s : State) : Result :=
  s.access p (Pan.busWrite (regOf 0xE180 n.val 1) v)

/-- `TIMER_CMP_H_WRITE`: A write of TMn_CMP_H loads the compare value (R137). -/
def execTimerCmpHWrite (p : PanNo) (n : Fin 4) (v : Byte) (s : State) : Result :=
  s.access p (Pan.busWrite (regOf 0xE180 n.val 3) v)

/-- `TIMER_CTL_WRITE`: A write of TMn_CTL starts or stops the timer and resets the prescale count when CLK or PRE changes (R138). -/
def execTimerCtlWrite (p : PanNo) (n : Fin 4) (v : Byte) (s : State) : Result :=
  s.access p (Pan.busWrite (regOf 0xE180 n.val 6) v)

/-- `TIMER_CAPL_READ`: A read of TMn_CAPL latches the high byte and clears CAP_NEW (R148). -/
def execTimerCaplRead (p : PanNo) (n : Fin 4) (s : State) : Result :=
  s.access p (Pan.busRead (regOf 0xE180 n.val 4))

/-- `VOICE_KEYON`: Vv_CTL.KEYON resets the phase, LFSR and envelope and sweep counts (R167). -/
def execVoiceKeyon (p : PanNo) (k : Fin 7) (v : Byte) (s : State) : Result :=
  s.accessIf (v.getLsbD 6) p (Pan.busWrite (regOf 0xE100 k.val 0) v)

/-- `VOICE_ENV_WRITE`: A write of Vv_ENV resets the envelope tick count (R168). -/
def execVoiceEnvWrite (p : PanNo) (k : Fin 7) (v : Byte) (s : State) : Result :=
  s.access p (Pan.busWrite (regOf 0xE100 k.val 4) v)

/-- `VOICE_SWEEP_WRITE`: A write of Vv_SWEEP resets the sweep tick count (R169). -/
def execVoiceSweepWrite (p : PanNo) (k : Fin 7) (v : Byte) (s : State) : Result :=
  s.access p (Pan.busWrite (regOf 0xE100 k.val 6) v)

/-- `S0_CTL_WRITE`: A write of S0_CTL enables or disables S0, taking or releasing TM3 and channel 3 under timer pacing (R171). -/
def execS0CtlWrite (p : PanNo) (v : Byte) (s : State) : Result :=
  s.access p (Pan.busWrite 0xE170 v)

/-- `S0_DATA_WRITE`: A write of S0_DATA pushes a byte, or sets OVR when the FIFO is full (R172). -/
def execS0DataWrite (p : PanNo) (v : Byte) (s : State) : Result :=
  s.access p (Pan.busWrite 0xE178 v)

end Sys2Proof.Machine
end

