-- ==== Sys2Proof/Machine/Arithmetic.lean ====
section
/-!
DEFINITION. The meanings of ALU instructions, compares and tests (R33, R34). Each runs the instruction at PC from its first pan-cycle to
its last, where the byte at PC encodes the operation and form of the row (R28, R32).
-/
namespace Sys2Proof.Machine

/-- `ADD`: adds the operand to A and sets N, V, H, Z and C (R33). -/
def execAdd (p : PanNo) (m : Mode) (s : State) : Result := s.instruct p .add m

/-- `ADC`: adds the operand and C to A and sets N, V, H, Z and C (R33). -/
def execAdc (p : PanNo) (m : Mode) (s : State) : Result := s.instruct p .adc m

/-- `SUB`: subtracts the operand from A, with C meaning no borrow (R33). -/
def execSub (p : PanNo) (m : Mode) (s : State) : Result := s.instruct p .sub m

/-- `SBC`: subtracts the operand and the borrow from A (R33). -/
def execSbc (p : PanNo) (m : Mode) (s : State) : Result := s.instruct p .sbc m

/-- `AND`: forms A AND the operand and sets N and Z (R33). -/
def execAnd (p : PanNo) (m : Mode) (s : State) : Result := s.instruct p .and m

/-- `OR`: forms A OR the operand and sets N and Z (R33). -/
def execOr (p : PanNo) (m : Mode) (s : State) : Result := s.instruct p .or m

/-- `XOR`: forms A XOR the operand and sets N and Z (R33). -/
def execXor (p : PanNo) (m : Mode) (s : State) : Result := s.instruct p .xor m

/-- `CMP`: compares A with the operand and sets flags only (R33). -/
def execCmp (p : PanNo) (m : Mode) (s : State) : Result := s.instruct p .cmp m

/-- `CPX`: compares X with the operand (R33). -/
def execCpx (p : PanNo) (m : Mode) (s : State) : Result := s.instruct p .cpx m

/-- `CPY`: compares Y with the operand (R33). -/
def execCpy (p : PanNo) (m : Mode) (s : State) : Result := s.instruct p .cpy m

/-- `CPP`: compares P with a 16-bit immediate (R33). -/
def execCpp (p : PanNo) (s : State) : Result := s.instruct p .cpp .imm16

/-- `CPQ`: compares Q with a 16-bit immediate (R33). -/
def execCpq (p : PanNo) (s : State) : Result := s.instruct p .cpq .imm16

/-- `TST`: tests memory, setting N and Z and clearing V and C (R33). -/
def execTst (p : PanNo) (m : Mode) (s : State) : Result := s.instruct p .tst m

/-- `BIT`: tests A AND memory, copying M bits 7 and 6 to N and V (R33). -/
def execBit (p : PanNo) (m : Mode) (s : State) : Result := s.instruct p .bit m

/-- `NEG_A`: negates A (R33). -/
def execNegA (p : PanNo) (s : State) : Result := s.instruct p .negA .implied

/-- `NOT_A`: complements A (R33). -/
def execNotA (p : PanNo) (s : State) : Result := s.instruct p .notA .implied

/-- `DAA`: decimal-adjusts A after a BCD addition (R34). -/
def execDaa (p : PanNo) (s : State) : Result := s.instruct p .daa .implied

end Sys2Proof.Machine
end

