-- ==== Sys2Proof/Machine/Boundaries.lean ====
section
/-!
DEFINITION. The boundaries at which accepted commands land (R4, R213, R360, R372): the device epoch and the pan frame latch.
The head's vertical blank, the audio block, the harvester frame, the end of a chain and the microcode switch call the same
operations from their own files.
-/
namespace Sys2Proof.Machine

/-! ### Landing parts -/

/-- A stop that is a part of a commit takes hold: a pan that runs stops at the end of its current frame (R409). -/
def State.landStop (w : Waiting) (s : State) : State :=
  let p := targetOf w.c
  if s.panIs w.c (Site.stopWaits s.now) then
    let t := panStopSpec.begins w.c s
    { t with waiting := t.waiting ++ [{ w with at_ := .frameEnd p }] }
  else State.landWaiting w s

/-- The oldest waiting command a test picks leaves the queue and lands; `n` at most. -/
def State.landParts (f : Waiting → Bool) : Nat → State → State
  | 0, s => s
  | n + 1, s =>
    match s.waiting.find? f with
    | none => s
    | some w =>
      let t := { s with waiting := s.waiting.erase w }
      State.landParts f n (if w.opcode = 0x0308 then t.landStop w else State.landWaiting w t)

/-! ### The device epoch (R213) -/

/-- The instant of the next epoch: the first boundary after the last one entered, or the latest that has passed. -/
def State.nextEpoch (s : State) : Nat :=
  let e := (s.tb.epochAt / Config.epochUnits + 1) * Config.epochUnits
  if s.now < e then e else s.now / Config.epochUnits * Config.epochUnits

/-- The pan does not run: it is missing, in a mode that does not run, or parked. -/
def State.still (s : State) (p : Nat) : Bool := !(s.site p).any (fun x => x.running && !x.parked)

/-- A command accepted before the epoch that has not met an epoch yet. -/
def Waiting.meets (e : Nat) (w : Waiting) : Bool :=
  decide (w.accepted < e) && !w.epochDone &&
    (match w.at_ with
     | .frameEnd _ => false
     | .chain _ => false
     | .switch => false
     | _ => true)

/-- A pan whose setting need not wait for a latch: one that does not run (R360). DEDUCED: `PAN_MODE` sent alone waits for the
latch of a halted pan, and lands at the epoch on a parked one; the observation of a pan that waits under R15 lands there too,
since no latch would come (R251). -/
def State.needsNoLatch (s : State) (w : Waiting) (p : Nat) : Bool :=
  if w.opcode = 0x0305 ∧ w.txn.isNone then (s.site p).any (fun x => x.running && x.parked)
  else s.still p || (w.opcode == 0x0311 && (s.site p).any (fun x => x.waitObs))

/-- Whether a command lands at the epoch itself. -/
def State.landsAtEpoch (s : State) (w : Waiting) : Bool :=
  match w.at_ with
  | .epoch => true
  | .latch p => s.needsNoLatch w p
  | .harvester _ => w.opcode == 0x0502 && onlyEpochPairs w.c && s.hasStream w.c
  | _ => false

/-- A command that goes on waiting has met its epoch; a `STREAM_SET` is staged for the harvester (R267). -/
def State.passEpoch (e : Nat) (w : Waiting) (s : State) : State :=
  let t := if w.opcode = 0x0502 then s.modStream (targetOf w.c) (fun g => g.stage w.c) else s
  { t with waiting := t.waiting.map (fun q => if q = w then { q with epochDone := true, epochTime := e } else q) }

/-- One command meets the epoch. -/
def State.meetEpoch (e : Nat) (w : Waiting) (s : State) : State :=
  if s.landsAtEpoch w then
    let t := { s with waiting := s.waiting.erase w }
    if w.opcode = 0x0308 then t.landStop w else State.landWaiting w t
  else s.passEpoch e w

/-- Commands meet the epoch in the order of their acceptance; `n` at most. -/
def State.epochLandings (e : Nat) : Nat → State → State
  | 0, s => s
  | n + 1, s =>
    match s.waiting.find? (Waiting.meets e) with
    | none => s
    | some w => State.epochLandings e n (s.meetEpoch e w)

/-- Commits take the epoch they wait for; one without a part completes (R372). -/
def State.stampCommits (e : Nat) (s : State) : State :=
  let mine := fun (m : Nat) (k : Commit) => k.epoch == 0 && (k.parts == 0 || s.waiting.any (fun w => w.txn == some m && decide (w.accepted < e)))
  let t := { s with commits := s.commits.map (fun (q : Nat × Commit) => if mine q.1 q.2 then (q.1, { q.2 with epoch := e }) else q) }
  (t.commits.filter (fun (q : Nat × Commit) => q.2.parts == 0)).foldl
    (fun u q => { u with commits := Table.drop u.commits q.1 }.complete q.2.c q.2.cpl 0x0A02 stOk (leBytes 8 e)) t

/-- A device epoch: device-wide settings accepted before it take effect in the order of acceptance. -/
def State.epoch (s : State) : State :=
  let e := s.nextEpoch
  let t := (s.reach e).modTb (fun b => { b with epochAt := e })
  (t.stampCommits e).epochLandings e t.waiting.length

/-- `DEVICE_EPOCH`: Every 250 µs device-wide settings accepted since the last epoch take effect (R213). -/
def execDeviceEpoch (s : State) : Result := if s.tb.counting then .next s.epoch else .next s

/-! ### The frame latch (R106, R360) -/

/-- A command that lands at the latch of a pan: `PAN_MODE` on its own is placed first (R196). -/
def Waiting.atLatch (p : Nat) (x : Site) (w : Waiting) : Bool :=
  w.at_ == .latch p && (w.epochDone || !(waitsEpoch w.opcode || w.txn.isSome)) &&
    (w.opcode != 0x0305 || w.txn.isSome || x.modePlaced w)

/-- Commands that wait for the latch of a pan land. -/
def State.landLatch (p : Nat) (s : State) : State :=
  match s.site p with
  | none => s
  | some x => if x.rerunning then s else s.landParts (Waiting.atLatch p x) s.waiting.length

/-- A pan's image has passed its latch. -/
def Pan.latched (old : Pan) (p : Pan) : Bool := !old.beam.latchDone && p.beam.latchDone

/-- `FRAME_LATCH`: At the latch pan-cycle an armed copy moves all shadows into force, counts the frame and raises FLIP (R106);
commands that wait for it land. -/
def execFrameLatch (p : PanNo) (s : State) : Result :=
  match s.panStep p Pan.latchStep with
  | .next t =>
    match s.site p, t.site p with
    | some x, some y => if x.pan.latched y.pan then .next (t.landLatch p) else .next t
    | _, _ => .next t
  | r => r

end Sys2Proof.Machine
end

