-- ==== Sys2Proof/Machine/Clock.lean ====
section
/-!
DEFINITION. The timebase (R208 to R217, R389): reads, steering, PPS, reference clock; and `DEV_READY` bits (R331).
-/
namespace Sys2Proof.Machine

/-- The device answers on its pins and on PCIe: supplied, out of reset, its clocks running. -/
def State.awake (s : State) : Bool := s.pwr.supplied && !s.pwr.sysRst && !s.pwr.tripped

/-- A read or write of BAR 0. -/
def State.onBar (f : State → State) (s : State) : Result := if s.awake && !s.pwr.perst then .next (f s) else .next s

/-- Bits of `DEV_READY` set, each raising event source 0 (R331). -/
def State.setReady (l : List Nat) (s : State) : State :=
  l.foldl (fun t i =>
    if t.dev.ready.getLsbD i then t else (t.modDev (fun d => { d with ready := setBit d.ready i true })).raise 0) s

/-! ### Reads (R209, R210) -/

/-- Low and high word of a 64-bit value. -/
def words (v : Nat) : BitVec 32 × BitVec 32 := (BitVec.ofNat 32 v, BitVec.ofNat 32 (v / 2 ^ 32))

/-- `TB_TIME_READ`: A read of TB_TIME_LO returns device time and latches the high word (R210). -/
def execTbTimeRead (s : State) : Result :=
  s.onBar (fun t => { t.modTb (fun b => { b with timeLatch := (words b.time).2 }) with barRead := (words t.tb.time).1 })

/-- `TB_PPSIN_READ`: A read of TB_PPSIN_LO latches the high word and clears PPSIN_NEW (R209). -/
def execTbPpsinRead (s : State) : Result :=
  s.onBar (fun t => { t.modTb (fun b => { b with stampLatch := (words b.stamp).2, ppsNew := false }) with barRead := (words t.tb.stamp).1 })

/-- The slew offset still to absorb as a 64-bit value. -/
def Timebase.slewRem (b : Timebase) : Nat := (BitVec.ofInt 64 b.slew).toNat

/-- `TB_SLEW_READ`: A read of TB_SLEW_LO latches the high word (R209). -/
def execTbSlewRead (s : State) : Result :=
  s.onBar (fun t => { t.modTb (fun b => { b with slewLatch := (words b.slewRem).2 }) with barRead := (words t.tb.slewRem).1 })

/-! ### Steering (R211) -/

/-- Device time at which what is left of a slew is absorbed, at the rate in force. -/
def Timebase.slewEnd (b : Timebase) : Nat :=
  b.time + ceilDiv ((b.slew.natAbs * unitParts - b.slewAcc) * b.speed) (unitParts * 1600000)

/-- `SLEW_ABSORBED`: The remaining slew offset reaches zero and SLEWING clears (R211). -/
def execSlewAbsorbed (s : State) : Result :=
  if s.tb.slewing then s.atTime s.tb.slewEnd (fun t => t.modTb (fun b => { b with slew := 0, slewing := false, slewAcc := 0 })) else .next s

/-! ### PPS (R216, R217) -/

/-- The period of PPS. -/
def ppsPeriod : Nat := 16000000000

/-- `PPS_OUT_EDGE`: PPS out drives a rising edge at its offset in each second (R216). -/
def execPpsOutEdge (s : State) : Result :=
  if s.tb.ppsEn && !s.tb.ppsOut then
    let e := firstEnd (s.tb.ppsRise.elim s.now (fun r => max s.now (r + 1))) s.tb.ppsOffset ppsPeriod
    s.atTime e (fun t => t.modTb (fun b => { b with ppsOut := true, ppsRise := some e }))
  else .next s

/-- `PPS_OUT_FALL`: PPS out returns low once its configured high time has elapsed after the rising edge (R216). -/
def execPpsOutFall (s : State) : Result :=
  if s.tb.ppsOut then s.atTime (s.tb.ppsRise.getD 0 + s.tb.ppsHigh) (fun t => t.modTb (fun b => { b with ppsOut := false })) else .next s

/-- `PPS_IN_EDGE`: A rising PPS-in edge is stamped and raises event source 3 (R217). -/
def execPpsInEdge (s : State) : Result :=
  if s.tb.counting then
    .next ((s.modTb (fun b => { b with stamp := b.time, ppsNew := true, ppsOvr := b.ppsOvr || b.ppsNew })).raise 3)
  else .next s

/-! ### Reference clock (R389) -/

/-- `TB_REFCLK_LOCK`: TB_REFCLK arrives and the timebase locks to it, setting REFLOCK (R389). -/
def execTbRefclkLock (s : State) : Result :=
  if s.tb.counting then .next (s.modTb (fun b => { b with refLock := true })) else .next s

/-- `TB_REFCLK_LOSS`: Loss or change of TB_REFCLK clears REFLOCK and device time runs on from SYS_REFCLK (R389). -/
def execTbRefclkLoss (s : State) : Result := .next (s.modTb (fun b => { b with refLock := false }))

/-- `TIMEBASE_COUNTING`: At CTRL + 10 ms the timebase starts counting TB_TIME from 0, from TB_REFCLK or SYS_REFCLK, and DEV_READY.TB
sets (R377); one that counts already counts on (R208), and TB sets again after CMD (R376). -/
def execTimebaseCounting (refclk : Bool) (s : State) : Result :=
  if s.awake && s.dev.ready.getLsbD 0 && !s.dev.ready.getLsbD rdyTb && (!s.tb.counting || s.dev.ready.getLsbD 1) then
    let t := if s.tb.counting then s else s.modTb (fun b => { b with counting := true, time := 0, refLock := refclk, epochAt := 0 })
    .next (t.setReady [rdyTb])
  else .next s

end Sys2Proof.Machine
end

