-- ==== Sys2Proof/Machine/Heads.lean ====
section
/-!
DEFINITION. The heads (R259 to R265): hot plug, the vertical blank, what each tile shows, composition, picture checking and the
output CRC.
-/
namespace Sys2Proof.Machine

/-! ### Hot plug (R260) -/

/-- The device drives its heads. -/
def State.headUp (h : Fin 2) (s : State) : Bool := s.awake && s.dev.ready.getLsbD (rdyHead h.val)

/-- A change of HPD raises the head's source and posts its event. -/
def State.hpdEvent (h : Fin 2) (level : Byte) (s : State) : State :=
  (s.raise (6 + h.val)).postDev 0x000B [BitVec.ofNat 8 h.val, level]

/-- `HPD_RISE`: HPD rises and the head retrains and resumes at its next vertical blank (R260). `lanes` and `rate` are what the sink and
the cable carry. -/
def execHpdRise (h : Fin 2) (lanes : Nat) (rate : Fin 4) (s : State) : Result :=
  if s.headUp h && !s.heads[h].hpd then
    .next ((s.modHead h (fun k => ({ k with hpd := true, sinkLanes := lanes, sinkRate := rate.val }).train)).hpdEvent h 1)
  else .next s

/-- `HPD_FALL`: HPD falls, the head stops driving, keeps its settings and posts an event (R260). -/
def execHpdFall (h : Fin 2) (s : State) : Result :=
  if s.heads[h].hpd then
    .next ((s.modHead h (fun k => { k with hpd := false, trained := false, lanes := 0, rate := 0, driving := false })).hpdEvent h 0)
  else .next s

/-! ### Composition (R261) -/

/-- A box of a picture reduced by `n`, as far as the picture goes. -/
def Picture.box (pic : Picture) (x y n : Nat) : List (BitVec 24) :=
  (List.range n).flatMap (fun j => ((List.range n).filter (fun i => decide (x + i < pic.w) && decide (y + j < pic.h))).map
    (fun i => pic.at (x + i) (y + j)))

/-- Width or height a reduction leaves. -/
def reducedSize (v n : Nat) : Nat := if Config.partialBoxShown then ceilDiv v n else v / n

/-- The pixel of a scaled picture at an offset from its origin, if the picture reaches there (R252, R261). -/
def Picture.scaledAt (pic : Picture) (scale : Byte) (x y : Nat) : Option (BitVec 24) :=
  let n := max 1 (bits scale 6 0)
  if scale.getLsbD 7 then
    if x < reducedSize pic.w n ∧ y < reducedSize pic.h n then some (averageOf (pic.box (x * n) (y * n) n)) else none
  else if x < pic.w * n ∧ y < pic.h * n then some (pic.at (x / n) (y / n)) else none

/-- The tile that holds a dot of the head's active area, with the dot's offset from the tile's origin. -/
def HeadCfg.tileAt (g : HeadCfg) (x y : Nat) : Option (Nat × Nat × Nat) :=
  if g.mosaic then
    let i := x / g.pitchX
    let j := y / g.pitchY
    if 0 < g.pitchX ∧ 0 < g.pitchY ∧ i < g.c ∧ j < g.r then some (j * g.c + i, x % g.pitchX, y % g.pitchY) else none
  else if g.x ≤ x ∧ g.y ≤ y then some (0, x - g.x, y - g.y) else none

/-- The pixel a head sends at a dot: its tile's picture, or the border. -/
def Head.pixel (k : Head) (x y : Nat) : BitVec 24 :=
  match k.cfg.tileAt x y with
  | none => k.cfg.border
  | some (t, dx, dy) =>
    match Table.get k.cfg.tiles t, Table.get k.shown t with
    | some e, some pic => (pic.scaledAt e.2 dx dy).getD k.cfg.border
    | _, _ => k.cfg.border

/-- The pixels of a head frame in raster order. -/
def Head.pixels (k : Head) : List (BitVec 24) :=
  (List.range k.cfg.vActive).flatMap (fun y => (List.range k.cfg.hActive).map (fun x => k.pixel x y))

/-- The head frame that was being sent is complete: its output CRC and the frame count (R265). -/
def Head.complete (k : Head) : Head :=
  if k.driving then { k with crc := crc32 (pixelBytes k.pixels), frames := (k.frames + 1) % 2 ^ 32 } else k

/-! ### What each tile takes (R262, R264) -/

/-- The tiles the layout shows. -/
def HeadCfg.inLayout (g : HeadCfg) (t : Nat) : Bool := if g.mosaic then decide (t < g.c * g.r) else t == 0

/-- A picture's recorded CRC agrees with the one its pixels give. -/
def Picture.intact (pic : Picture) : Bool := pic.crc == crc32 (pixelBytes pic.pixels)

/-- The whole frames of a pan, newest first: where it is not known to be on time before its burst ends, the frame in progress does not
count; else it does once its last active dot is composed (R135, R191, R262). -/
def Site.wholeFrames (x : Site) : List Picture :=
  (if x.realTime then none else x.pan.wholeFrame).toList ++ x.lastFrame.toList ++ x.prevFrame.toList

/-- One tile at the start of a head frame: the newest whole frame of its pan; one whose CRC differs is counted, reported, and the pan's
whole frame before it is shown (R262, R264). -/
def State.takeTile (h : Fin 2) (s : State) (e : Nat × Nat × Byte) : State :=
  let put := fun (pic : Picture) (t : State) => t.modHead h (fun k => { k with shown := Table.put k.shown e.1 pic })
  match (s.site e.2.1).elim [] Site.wholeFrames with
  | [] => s
  | pic :: older =>
    if pic.intact then put pic s
    else
      let t := (s.modHead h (fun k => { k with readErr := (k.readErr + 1) % 2 ^ 32 })).post 0x000A (some e.2.1) 0
        ([BitVec.ofNat 8 h.val, 0, 0, 0] ++ leBytes 4 pic.frame ++ leBytes 4 pic.crc.toNat ++ leBytes 4 (crc32 (pixelBytes pic.pixels)).toNat)
      older.head?.elim t (fun q => put q t)

/-- The head takes its tiles' pictures and sends a frame of them. -/
def State.startFrame (h : Fin 2) (s : State) : State :=
  let k := s.heads[h]
  if k.trained then
    let t := s.modHead h (fun q => { q with shown := [], driving := true })
    (k.cfg.tiles.filter (fun e => k.cfg.inLayout e.1)).foldl (State.takeTile h) t
  else s.modHead h (fun q => { q with driving := false })

/-! ### The vertical blank (R4, R261) -/

/-- A command that lands at the vertical blank of a head; a part of a commit, once its epoch has passed. -/
def Waiting.atBlank (h : Fin 2) (w : Waiting) : Bool := w.at_ == .headVb h && (w.epochDone || w.txn.isNone)

/-- `HEAD_VBLANK`: A head's frame ends and the next starts: commands that wait for it land, and each tile takes its pan's newest whole
frame (R261, R262). -/
def execHeadVblank (h : Fin 2) (s : State) : Result :=
  if s.headUp h && !s.pwr.d3hot && s.heads[h].hpd then
    let t := s.modHead h Head.complete
    .next ((t.landParts (Waiting.atBlank h) t.waiting.length).startFrame h)
  else .next s

end Sys2Proof.Machine
end

