-- ==== Sys2Proof/Machine/Audio.lean ====
section
/-!
DEFINITION. The audio delivery chain (R289 to R303): filters, session gain, gauges and alarms of a block, the sinks routed, Opus
frames and the I2S output.
-/
namespace Sys2Proof.Machine

/-! ### Filters (R292, R293) -/

/-- round(2^30 · exp(-2π · DC_CUT / 48000)). -/
def dcCoef : Nat → Int
  | 5 => 1073039292 | 10 => 1072337219 | 20 => 1070934451 | _ => 1068134418

/-- Rounded half up from 30 fractional bits, saturated. -/
def fromQ30 (v : Int) : Int := sat16 (fdiv (v + 536870912) 1073741824)

/-- The DC-blocking filter: the last output is kept to 30 fractional bits. -/
def Channel.dcBlock (cut : Nat) (x : Int) (c : Channel) : Channel × Int :=
  let acc := (x - c.dx) * 1073741824 + fdiv (dcCoef cut * c.dy) 1073741824
  ({ c with dx := x, dy := acc }, fromQ30 acc)

/-- Coefficients b0, b1, b2, a1, a2 of the second-order Butterworth high-pass, in 2^-30. -/
def rumbleCoef : Nat → Int × Int × Int × Int × Int
  | 60 => (1067795215, -2135590430, 1067795215, -2135557497, 1061881540)
  | 90 => (1064834272, -2129668544, 1064834272, -2129594647, 1056000616)
  | _ => (1061881538, -2123763076, 1061881538, -2123632067, 1050152262)

/-- The rumble filter in direct form I; samples pass unchanged while it is off. -/
def Channel.highPass (rumble : Nat) (x : Int) (c : Channel) : Channel × Int :=
  if rumble = 0 then (c, x)
  else
    let k := rumbleCoef rumble
    let y := fromQ30 (k.1 * x + k.2.1 * c.rx1 + k.2.2.1 * c.rx2 - k.2.2.2.1 * c.ry1 - k.2.2.2.2 * c.ry2)
    ({ c with rx1 := x, rx2 := c.rx1, ry1 := y, ry2 := c.ry1 }, y)

/-! ### Session gain (R294, R295) -/

/-- round(65536 · 10^(g / 40)) for g from -120. -/
def gainTable : List Int :=
  [66, 69, 74, 78, 83, 87, 93, 98, 104, 110, 117, 123, 131, 139, 147, 155, 165, 174, 185, 196, 207, 220, 233, 246, 261,
   276, 293, 310, 328, 348, 369, 390, 414, 438, 464, 491, 521, 551, 584, 619, 655, 694, 735, 779, 825, 874, 926, 981,
   1039, 1100, 1165, 1234, 1308, 1385, 1467, 1554, 1646, 1744, 1847, 1957, 2072, 2195, 2325, 2463, 2609, 2764, 2927,
   3101, 3285, 3479, 3685, 3904, 4135] ++
  [4380, 4640, 4915, 5206, 5514, 5841, 6187, 6554, 6942, 7353, 7789, 8250, 8739, 9257, 9806, 10387, 11002, 11654, 12345,
   13076, 13851, 14672, 15541, 16462, 17437, 18471, 19565, 20724, 21952, 23253, 24631, 26090, 27636, 29274, 31008, 32846,
   34792, 36854, 39037, 41350, 43801, 46396, 49145, 52057, 55142, 58409, 61870, 65536, 69419, 73533, 77890, 82505, 87394,
   92572, 98057, 103868, 110022, 116541, 123447, 130762, 138510, 146717, 155410, 164619, 174373, 184706, 195650, 207243,
   219523, 232531, 246309, 260904]

/-- Glin of a gain code. -/
def glin (g : Int) : Int := gainTable.getD (g + 120).toNat 65536

/-- A zero crossing at a sample: 0, or opposite signs. -/
def crosses (before x : Int) : Bool := x == 0 || (decide (before < 0) && decide (0 < x)) || (decide (0 < before) && decide (x < 0))

/-- The timeout sample of a step that became pending at sample `s0`. -/
def timeoutSample (s0 timeout : Nat) : Nat := s0 + 48 * timeout - 1

/-- A pending step at sample `n`: taken at a zero crossing or at the timeout. -/
def Channel.stepGain (timeout n : Nat) (x : Int) (c : Channel) : Channel :=
  match c.step with
  | some (g, s0) =>
    if s0 ≤ n ∧ (crosses c.gx x ∨ timeoutSample s0 timeout ≤ n) then { c with gain := g, step := none } else c
  | none => c

/-- The gain stage: the output, and whether the sample clipped. -/
def Channel.amplify (timeout n : Nat) (x : Int) (c : Channel) : Channel × Int × Bool :=
  let d := c.stepGain timeout n x
  let v := fdiv (x * glin d.gain + 32768) 65536
  ({ d with gx := x }, sat16 v, decide (v ≠ sat16 v))

/-! ### Gauges (R296) -/

/-- Peak, peak hold (units of 1/24 of 0.01 dB) and clip counter after a sample. -/
def Channel.gauge (v : Int) (clip : Bool) (c : Channel) : Channel :=
  { c with peak := max c.peak v.natAbs, hold := max (24 * sampleDb v.natAbs) (c.hold - 1),
           clips := if clip then (c.clips + 1) % 2 ^ 32 else c.clips }

/-- One sample through the four stages. -/
def Channel.sample (g : AudioCfg) (n : Nat) (x : Int) (c : Channel) : Channel × Int × Bool :=
  let d := c.dcBlock g.dcCut x
  let r := d.1.highPass g.rumble d.2
  let a := r.1.amplify g.gainTimeout n r.2
  (a.1.gauge a.2.1 a.2.2, a.2.1, a.2.2)

/-- The samples of a block in turn: the channel, the output (latest first), the sum of squares and the clipped samples. -/
def Channel.run (g : AudioCfg) : Nat → List Int → Channel × List Int × Nat × Nat → Channel × List Int × Nat × Nat
  | _, [], q => q
  | n, x :: xs, q =>
    let r := q.1.sample g n x
    Channel.run g (n + 1) xs (r.1, r.2.1 :: q.2.1, q.2.2.1 + r.2.1.natAbs * r.2.1.natAbs, q.2.2.2 + (if r.2.2 then 1 else 0))

/-- A block through a channel: the channel with its last 100 blocks kept, and its output. -/
def Channel.block (g : AudioCfg) (n : Nat) (xs : List Int) (c : Channel) : Channel × List Int :=
  let r := Channel.run g n xs (c, [], 0, 0)
  ({ r.1 with blocks := ((r.2.2.1, r.2.2.2) :: r.1.blocks).take 100 }, r.2.1.reverse)

/-! ### Alarms (R297) -/

/-- The RMS of a channel lies below a level. -/
def Channel.quiet (level : Int) (c : Channel) : Bool := !squareAtLeast c.squares fullSquares (100 * level)

/-- The alarms at the end of a block. -/
def Audio.alarms (a : Audio) : Audio :=
  let quiet := a.left.quiet a.cfg.silLevel && a.right.quiet a.cfg.silLevel
  let n := if quiet then a.silBlocks + 1 else 0
  { a with silBlocks := n, silence := quiet && (a.silence || decide (1000 * a.cfg.silTime ≤ n)),
           clip := decide (a.cfg.clipCount ≤ a.left.clipped) || decide (a.cfg.clipCount ≤ a.right.clipped) }

/-- The event of an alarm that has raised or cleared. -/
def State.alarmEvent (p : Nat) (kind : Byte) (was is : Bool) (block : Nat) (s : State) : State :=
  if was = is then s
  else s.post 0x000D (some p) ((s.site p).elim 0 (fun x => x.eventFlags false)) ([kind, if is then 1 else 0, 0, 0] ++ leBytes 4 block)

/-! ### Sinks (R299) -/

/-- A block with each sample scaled by a 48th that its place gives. -/
def fadeBlock (k : Nat → Int) (xs : List (Int × Int)) : List (Int × Int) :=
  (xs.zipIdx).map (fun e => (fdiv (e.1.1 * k e.2) 48, fdiv (e.1.2 * k e.2) 48))

/-- What a sink receives of a block: as it is, faded in where it joins, faded out where it leaves. -/
def sinkBlock (was is join : Bool) (xs : List (Int × Int)) : Option (List (Int × Int)) :=
  if was && !is then some (fadeBlock (fun j => 47 - (j : Int)) xs)
  else if is && (join || !was) then some (fadeBlock (fun j => (j : Int) + 1) xs)
  else if is then some xs else none

/-! ### Opus (R290, R300) -/

/-- Samples of an Opus frame. -/
def Stream.opusSize (g : Stream) : Nat := if g.opus10 then 480 else 960

/-- A block goes to the Opus sink: the first starts a frame, with the rate in force then. -/
def Audio.opusBlock (g : Option Stream) (leaving : Bool) (t : Nat) (a : Audio) : Audio :=
  let b := if a.opusFill = 0 then
      { a with opusStart := 48 * a.block, opusRate := a.cfg.opusRate, opusVbr := a.cfg.opusVbr, stream := g.or a.stream }
    else a
  { b with opusOn := true, opusFill := b.opusFill + 48, opusEnd := t, opusEnding := leaving }

/-- An Opus frame is due: full, or the last one. -/
def Audio.opusDue (a : Audio) : Bool := a.opusOn && a.stream.any (fun g => decide (g.opusSize ≤ a.opusFill) || a.opusEnding)

/-- The Opus sink after a frame has been encoded. -/
def Audio.opusDone (a : Audio) : Audio :=
  if a.opusEnding then { a with opusOn := false, opusEnding := false, opusFill := 0, stream := none } else { a with opusFill := 0 }

/-- Bytes of an Opus packet: CBR gives them, the next whole number of bytes below or above where they are not whole; at most MTU - 28
(R300, R320). -/
def opusPacketBytes (rate vbr : Nat) (g : Stream) (draw : Nat) : Nat :=
  let ms := g.opusSize / 48
  min (if vbr ≠ 0 then Config.opusBytes draw else if rate * ms % 8 = 0 then rate * ms / 8 else rate * ms / 8 + Config.opusBytes draw % 2) (g.mtu - 28)

/-- The Opus frame in progress encoded: a packet that departs EMIT_DELAY after its last sample (R228). -/
def State.encodeOpus (p : Nat) (s : State) : State :=
  match s.site p with
  | none => s
  | some x =>
    match x.audio.stream with
    | none => s
    | some g =>
      let a := x.audio
      let delay := (x.stream.map (fun t => t.cfg.emitDelay)).getD g.emitDelay
      let k : NetPacket :=
        { pan := p, video := false, unit := s.free, index := 0, first := true, last := true, cont := false, more := false,
          elems := [(some (if g.opus10 then 0xF4 else 0xFC), opusPacketBytes a.opusRate a.opusVbr g s.free)], ext := 0, frame := 0, ts := BitVec.ofNat 32 a.opusStart,
          dep := a.opusEnd + delay * Config.usUnits, ready := s.now, gone := 0 }
      { (s.drawn.putSite p { x with audio := a.opusDone }) with packets := s.packets ++ [k] }

/-! ### PCM and I2S (R301, R302, R303) -/

/-- A frame was late, or is so already: its burst still runs past its E (R191). -/
def Site.lateAt (now frame : Nat) (x : Site) : Bool :=
  x.audio.lateFrames.contains frame || (x.newFrame.any (fun pic => pic.frame == frame) && x.endedE.any (fun e => decide (e < now)))

/-- A block goes to its PCM ring, or is skipped and counted with the pan's other skips (R257, R301). -/
def State.pcmBlock (p n frame : Nat) (xs : List (Int × Int)) (s : State) : State :=
  match s.site p with
  | none => s
  | some x =>
    let i := obsItem frame 48 0x11 0 (obsFlags false x.heap.confDiff (x.lateAt s.now frame) x.audio.pcmGap) (sampleBytes xs)
    if (s.ring n).any (fun r => r.takesAll [i]) then
      (s.writeItem n i).modAudio p (fun a => { a with pcmGap := false })
    else s.modSite p (fun x => { x with audio := { x.audio with pcmGap := true }, ctr := { x.ctr with obsSkips := x.ctr.obsSkips + 1 } })

/-- Device time of 48 samples. -/
def blockUnits : Nat := 16000000

/-- Two blocks summed and saturated. -/
def sumBlocks (a b : List (Int × Int)) : List (Int × Int) := (a.zip b).map (fun e => (sat16 (e.1.1 + e.2.1), sat16 (e.1.2 + e.2.2)))

/-- A block waits for its play time, in order of time. -/
def I2s.put (b : Nat × Nat × List (Int × Int)) (i : I2s) : I2s :=
  { i with blocks := i.blocks.filter (fun c => decide (c.2.1 ≤ b.2.1)) ++ b :: i.blocks.filter (fun c => decide (b.2.1 < c.2.1)) }

/-- The first block of a pan the port has moved to plays at a time: the old pan's block then playing fades out, to be summed into it, and what
the old pan has beyond is not played (R302). Answers the block to play. -/
def I2s.handOver (at_ : Nat) (xs : List (Int × Int)) (i : I2s) : I2s × List (Int × Int) :=
  match i.leaving with
  | some (q, none) =>
    let beyond := i.blocks.filter (fun b => b.1 == q && decide (at_ < b.2.1 + blockUnits))
    ({ i with blocks := i.blocks.filter (fun b => !(b.1 == q && decide (at_ < b.2.1 + blockUnits))),
              leaving := if beyond.isEmpty then some (q, some at_) else none },
      (beyond.head?).elim xs (fun b => sumBlocks xs (fadeBlock (fun j => 47 - (j : Int)) b.2.2)))
  | _ => (i, xs)

/-- The block of the leaving pan that fades out into the new pan's first, where that has not been played (R302). -/
def I2s.fadeInto (at_ : Nat) (xs : List (Int × Int)) (i : I2s) : I2s :=
  { i with leaving := none,
           blocks := i.blocks.map (fun b => if b.2.1 = at_ then (b.1, b.2.1, sumBlocks b.2.2 (fadeBlock (fun j => 47 - (j : Int)) xs)) else b) }

/-- A block arrives in time for its play time, or is discarded, and counted as an underrun unless its zeros have been (R303). -/
def State.i2sArrive (p at_ : Nat) (xs : List (Int × Int)) (s : State) : State :=
  if s.now ≤ at_ then { s with i2s := s.i2s.put (p, at_, xs) }
  else if (s.site p).any (fun x => decide (0 < x.audio.i2sMissed)) then s.modAudio p (fun a => { a with i2sMissed := a.i2sMissed - 1 })
  else { s with i2s := { s.i2s with underruns := s.i2s.underruns + 1 } }

/-- A block of a pan goes to the I2S output, to be played the I2S delay after its last sample (R302). -/
def State.i2sBlock (p t : Nat) (xs : List (Int × Int)) (s : State) : State :=
  let at_ := t + s.dev.i2sDelay * Config.usUnits
  match s.i2s.leaving with
  | some (q, some from_) =>
    if q = p ∧ from_ < at_ + blockUnits then ({ s with i2s := s.i2s.fadeInto from_ xs }).cutLeft s.i2s.leaving else s.i2sArrive p at_ xs
  | _ =>
    if s.i2s.pan = some p then
      let r := s.i2s.handOver at_ xs
      (({ s with i2s := r.1 }).cutLeft s.i2s.leaving).i2sArrive p at_ r.2
    else s.i2sArrive p at_ xs

/-! ### A block -/

/-- The pan's chain can process a block: 48 samples are in, and no Opus frame is due. -/
def Audio.blockReady (a : Audio) : Bool := decide (48 ≤ a.queue.length) && !a.opusDue

/-- A setting that lands at the block about to begin. -/
def Waiting.atBlock (p : Nat) (w : Waiting) : Bool := w.at_ == .audio p && w.epochDone

/-- The chain after its block has passed through filters, gain and gauges, with the block's output. -/
def Audio.process (a : Audio) : Audio × List (Int × Int) :=
  let xs := a.queue.take 48
  let l := a.left.block a.cfg (48 * a.block) (xs.map (fun e => e.1))
  let r := a.right.block a.cfg (48 * a.block) (xs.map (fun e => e.2.1))
  ({ a with left := l.1, right := r.1, queue := a.queue.drop 48 }, l.2.zip r.2)

/-- Device time of the last sample of the block, and the frame that emitted it. -/
def Audio.blockEnd (a : Audio) : Nat × Nat := ((a.queue.getD 47 (0, 0, 0, 0)).2.2.1, (a.queue.getD 47 (0, 0, 0, 0)).2.2.2)

/-- A processed block copied to the sinks, `b` the chain before it. -/
def State.toSinks (p : Nat) (b : Audio) (xs : List (Int × Int)) (s : State) : State :=
  let was := b.routes
  let is := b.nextRoutes.getD b.routes
  let join := b.rejoin == some b.block
  let t := b.blockEnd
  let u := if (sinkBlock was.opus is.opus join xs).isSome then
      s.modSite p (fun x => { x with audio := x.audio.opusBlock (x.stream.map (fun g => g.cfg)) (was.opus && !is.opus) t.1 })
    else s
  let v := match sinkBlock was.pcm is.pcm join xs with
    | some ys => u.pcmBlock p (if is.pcm then is.pcmRing else was.pcmRing) t.2 ys
    | none => u
  match sinkBlock was.i2s is.i2s join xs with
  | some ys => v.i2sBlock p t.1 ys
  | none => v

/-- A block ends: routes in force, number counted; late frames whose samples are all processed are forgotten. -/
def Audio.endBlock (a : Audio) : Audio :=
  { a with routes := a.nextRoutes.getD a.routes, nextRoutes := none, rejoin := a.rejoin.filter (fun n => decide (a.block < n)),
           lastBlock := a.block, block := a.block + 1,
           lateFrames := a.lateFrames.filter (fun f => a.queue.head?.all (fun e => decide (e.2.2.2 ≤ f))) }

/-- One audio block of a pan: settings land, the block passes the stages, alarms are checked, sinks receive it. -/
def State.block (p : Nat) (s : State) : State :=
  let t := s.landParts (Waiting.atBlock p) s.waiting.length
  match t.site p with
  | none => t
  | some x =>
    let b := x.audio
    let r := b.process
    let c := r.1.alarms
    let u := (t.modAudio p (fun _ => c)).toSinks p b r.2
    ((u.alarmEvent p 0 b.silence c.silence b.block).alarmEvent p 1 b.clip c.clip b.block).modAudio p Audio.endBlock

/-- A pan's chain runs: the device works, and a block is ready. -/
def State.chainReady (p : Nat) (s : State) : Bool :=
  s.awake && !s.pwr.d3hot && !s.fatal && (s.site p).any (fun x => x.audio.blockReady)

/-- `AUDIO_BLOCK`: A 48-sample block passes through the chain's filters, gain and gauges to its routed sinks (R289). -/
def execAudioBlock (p : PanNo) (s : State) : Result := if s.chainReady p then .next (s.block p) else .next s

/-- The block about to be processed takes the channel's pending step at its timeout sample. -/
def Audio.timesOut (right : Bool) (a : Audio) : Bool :=
  let before := if right then a.right else a.left
  match before.step with
  | none => false
  | some (_, s0) =>
    let n := timeoutSample s0 a.cfg.gainTimeout
    let xs := (a.queue.take 48).take (n - 48 * a.block)
    let early := (Channel.run a.cfg (48 * a.block) (xs.map (fun e => if right then e.2.1 else e.1)) (before, [], 0, 0)).1
    decide (48 * a.block ≤ n) && decide (n < 48 * a.block + 48) && early.step.isSome

/-- `GAIN_TIMEOUT`: A pending gain step applies at the timeout sample (R295): the block that holds this sample is processed. -/
def execGainTimeout (p : PanNo) (right : Bool) (s : State) : Result :=
  if s.chainReady p && (s.site p).any (fun x => x.audio.timesOut right) then .next (s.block p) else .next s

/-- `OPUS_FRAME_ENCODE`: An Opus frame of 480 or 960 samples fills and is encoded into a packet (R300). -/
def execOpusFrameEncode (p : PanNo) (s : State) : Result :=
  if s.awake && !s.pwr.d3hot && !s.fatal && (s.site p).any (fun x => x.audio.opusDue) then .next (s.encodeOpus p) else .next s

/-! ### The I2S output (R302, R303) -/

/-- A block of zeros. -/
def silentBlock : List (Int × Int) := List.replicate 48 (0, 0)

/-- A block is played at its time: its pan's next one is due. -/
def State.i2sPlay (b : Nat × Nat × List (Int × Int)) (rest : List (Nat × Nat × List (Int × Int))) (s : State) : State :=
  ({ s with i2s := { s.i2s with blocks := rest, played := b.2.2, playAt := b.2.1 } }).modAudio b.1 (fun a => { a with i2sDue := true })

/-- Pans that feed the port, run in real time and have a block due (R303). -/
def State.i2sDuePans (s : State) : List Nat :=
  (s.i2s.pan.toList ++ (s.i2s.leaving.map (fun e => e.1)).toList).filter (fun p =>
    (s.site p).any (fun x => x.realTime && x.audio.routes.i2s && x.audio.i2sDue))

/-- Zeros are played: an underrun where a block is due, which is discarded when it arrives. -/
def State.i2sIdle (t : Nat) (s : State) : State :=
  (s.i2sDuePans).foldl (fun u p => u.modAudio p (fun a => { a with i2sMissed := a.i2sMissed + 1 }))
    { s with i2s := { s.i2s with played := silentBlock, playAt := t, underruns := s.i2s.underruns + (if s.i2sDuePans.isEmpty then 0 else 1) } }

/-- The word-select and data lines in bit clock n of the block played: 32-bit slots, left first with word select low, the 16 bits of a sample
most significant first from one bit clock after the edge (R302); the slot's other bits are 0 (PRESUMED: notes/assumptions/60.md). -/
def I2s.lines (n : Nat) (i : I2s) : Bool × Bool :=
  let x := i.played.getD (n / 64) (0, 0)
  let k := n % 32
  let v : Word := BitVec.ofInt 16 (if n % 64 < 32 then x.1 else x.2)
  (decide (32 ≤ n % 64), decide (1 ≤ k) && decide (k ≤ 16) && v.getLsbD (16 - k))

/-- The two lines at a device time within that block: 3,072 bit clocks in 1 ms. -/
def I2s.linesAt (t : Nat) (i : I2s) : Bool × Bool := i.lines ((t - i.playAt) * 3072 / blockUnits)

/-- `I2S_BLOCK_PLAY`: An audio block plays on I2S at its play time, or zeros are played as an underrun (R302, R303). -/
def execI2sBlockPlay (s : State) : Result :=
  match s.i2s.blocks with
  | b :: rest => s.atTime b.2.1 (State.i2sPlay b rest)
  | [] =>
    let at_ := max s.now (s.i2s.playAt + blockUnits)
    s.atTime at_ (State.i2sIdle at_)

end Sys2Proof.Machine
end

