-- ==== Sys2Proof/Machine/Sched.lean ====
section
/-!
DEFINITION. Slots, boilers and runs: swapping (R183 to R186), bursts (R190, R191), free-run runs (R194, R195), halts (R196, R197),
store errors (R202), the microcode switch (R203) and the records a run leaves (R257). Device time moves up to the earliest instant
at which an event may happen.
-/
namespace Sys2Proof.Machine

/-! ### Boilers and slots -/

/-- A boiler of a bay. -/
def boilerIx (bay : Fin 8) (k : Fin 4) : Fin 32 := ⟨4 * bay.val + k.val, by omega⟩

/-- A boiler of a bay runs no pan and reloads nothing. -/
def State.boilerFree (s : State) (bay : Fin 8) (k : Fin 4) : Bool :=
  !(s.boilers[boilerIx bay k]).reloading && (s.pansOf bay).all (fun e => e.2.boiler != some k)

/-- The instant from which the burst of a real-time pan's frame may start. -/
def State.burstFrom (s : State) (x : Site) : Nat := x.frameE - s.dev.w * Config.usUnits

/-- A real-time pan whose burst is not running and not done. -/
def Site.wantsBurst (x : Site) : Bool := x.realTime && x.boiler.isNone && x.endedE.isNone && (x.burst || x.resFrames == 0)

/-- A burst of a bay is due at a device time. -/
def State.burstDue (s : State) (bay : Fin 8) (t : Nat) : Bool :=
  (s.pansOf bay).any (fun e => e.2.wantsBurst && decide (s.burstFrom e.2 ≤ t))

/-! ### Swapping (R184 to R186) -/

/-- The pan of a bay a slot holds. -/
def State.slotOf (s : State) (bay : Fin 8) (k : Nat) : Option (Nat × Site) :=
  (s.pansOf bay).find? (fun e => e.2.slot == some k)

/-- The free-run pan that gives way: resident, not running, resident longest. -/
def State.victim (s : State) (bay : Fin 8) : Option Nat :=
  ((s.pansOf bay).filter (fun e => e.2.freeRun && e.2.boiler.isNone && e.2.slot.isSome)).foldl
    (fun v e => match v with
      | none => some e.1
      | some n => if (s.site n).any (fun y => decide (y.swappedAt ≤ e.2.swappedAt)) then some n else some e.1) none

/-- Every slot of a bay is taken. -/
def State.slotsFull (s : State) (bay : Fin 8) : Bool := (List.range 32).all (fun k => (s.slotOf bay k).isSome)

/-- The next of some pans in round-robin order: the first above the last one started, else the lowest (R194). -/
def State.inTurn (s : State) (bay : Fin 8) (q : List Nat) : Option Nat := (q.find? (fun n => decide (s.rrFree[bay] < n))).or q.head?

/-- The free-run pan of a bay that is swapped in next, in round-robin order of those that can run and are not resident (R194). -/
def State.swapNext (s : State) (bay : Fin 8) : Option Nat :=
  s.inTurn bay (((s.pansOf bay).filter (fun e => e.2.canRun && e.2.slot.isNone)).map (fun e => e.1))

/-- `SWAP_IN`: The scheduler reads a pan's image into a free slot of its home bay, evicting a free-run pan if needed (R185). -/
def execSwapIn (p : PanNo) (k : Fin 32) (s : State) : Result :=
  match s.site p with
  | none => .next s
  | some x =>
    let bay := x.bay
    if !s.engines || x.slot.isSome || !x.running || x.parked then .next s
    else if x.realTime then
      let t := (s.reach (s.burstFrom x)).endRuns
      if !x.wantsBurst || decide (24 ≤ s.rtSlots bay) then .next s
      else
        match s.slotOf bay k.val with
        | none => .next (t.putSite p (x.swapIn k.val t.now))
        | some v =>
          if s.slotsFull bay && t.victim bay == some v.1 then
            .next ((t.modSite v.1 Site.swapOut).putSite p (x.swapIn k.val t.now))
          else .next s
    else if s.swapNext bay == some p && (s.slotOf bay k.val).isNone then .next (s.putSite p (x.swapIn k.val s.now))
    else .next s

/-- When a pan may leave its slot: a real-time pan after its burst; a free-run pan with its batch done, at a wait, or with a
synchronous call outstanding for 100 µs (R185). -/
def State.leavesAt (s : State) (x : Site) : Option Nat :=
  if x.boiler.isSome || x.slot.isNone then none
  else if x.realTime then (if x.burst || x.resFrames == 0 then none else some s.now)
  else if decide (s.dev.batch ≤ x.resFrames) || x.waitObs then some s.now
  else if x.pan.core.hcWait then x.callOut.map (fun c => c.posted + 100 * Config.usUnits)
  else none

/-- `SWAP_OUT`: A pan's dirty grains are written back and it leaves its slot (R184). -/
def execSwapOut (p : PanNo) (s : State) : Result :=
  match s.site p with
  | none => .next s
  | some x =>
    match s.leavesAt x with
    | none => .next s
    | some t => if s.engines then .next ((s.reach t).putSite p x.swapOut) else .next s

/-! ### Bursts (R190, R191) -/

/-- No other burst of the bay that is due at a time comes first: earlier E, then lower number (R190). -/
def State.burstFirst (s : State) (p : Nat) (x : Site) (t : Nat) : Bool :=
  (s.pansOf x.bay).all (fun e =>
    e.1 == p || !e.2.wantsBurst || decide (t < s.burstFrom e.2) || decide (x.frameE < e.2.frameE) ||
      (e.2.frameE == x.frameE && decide (p < e.1)))

/-- A boiler takes up a burst at a time: a new one fixes its cutoff, one that was interrupted goes on. -/
def Site.takeBurst (k : Fin 4) (now : Nat) (x : Site) : Site :=
  if x.burst then { x with boiler := some k, runStart := now }
  else { x with boiler := some k, runStart := now, burst := true, cutoff := now }

/-- The start of a burst, where the pan is resident, the boiler free and the burst first in order; a free-run run holds the boiler for its
20 µs at most (R13). -/
def State.startBurst (p : Nat) (k : Fin 4) (delay : Nat) (s : State) : State :=
  match s.site p with
  | none => s
  | some x =>
    let t := (s.reach (s.burstFrom x + delay)).endRuns
    if s.engines && x.slot.isSome && x.wantsBurst && t.boilerFree x.bay k && s.burstFirst p x t.now then
      t.putSite p (x.takeBurst k t.now)
    else s

/-- `BURST_START`: A boiler starts a real-time pan's burst, fixing the input cutoff (R190). -/
def execBurstStart (p : PanNo) (k : Fin 4) (s : State) : Result := .next (s.startBurst p k 0)

/-- `BURST_END`: A burst finishes; a frame ending after its E is late and its records may be skipped (R191). -/
def execBurstEnd (p : PanNo) (s : State) : Result :=
  match s.site p with
  | none => .next s
  | some x =>
    if x.realTime && x.burst && x.endedE.isSome then
      .next ((s.settleFrame p).modSite p (fun y => { y with burst := false, boiler := none, endedE := none, newFrame := none }))
    else .next s

/-! ### Free-run runs (R194) -/

/-- Free-run pans of a bay that may take a boiler. -/
def State.freeQueue (s : State) (bay : Fin 8) : List (Nat × Site) :=
  (s.pansOf bay).filter (fun e => e.2.canRun && e.2.boiler.isNone && e.2.slot.isSome && decide (e.2.resFrames < s.dev.batch))

/-- The free-run pan of a bay that runs next. -/
def State.freeNext (s : State) (bay : Fin 8) : Option Nat := s.inTurn bay ((s.freeQueue bay).map (fun e => e.1))

/-- The start of a free-run run. -/
def State.startFree (p : Nat) (k : Fin 4) (delay : Nat) (s : State) : State :=
  let t := (s.reach (s.now + delay)).endRuns
  match t.site p with
  | none => s
  | some x =>
    if t.engines && t.boilerFree x.bay k && t.freeNext x.bay == some p && !t.burstDue x.bay t.now then
      { t.putSite p { x with boiler := some k, runStart := t.now } with rrFree := vmod s.rrFree x.bay (fun _ => p) }
    else s

/-- `FREE_RUN_START`: A free boiler starts a run of a free-run pan in round-robin order (R194). -/
def execFreeRunStart (p : PanNo) (k : Fin 4) (s : State) : Result := .next (s.startFree p k 0)

/-- `FREE_RUN_END`: A free-run run ends after 20 µs or at a wait, batch end, park or host-call (R194). -/
def execFreeRunEnd (p : PanNo) (s : State) : Result :=
  match s.site p with
  | none => .next s
  | some x =>
    if x.freeRun && x.boiler.isSome then
      let t := if x.runOver s.dev.batch then s else s.reach (x.runStart + 20 * Config.usUnits)
      .next (t.putSite p { x with boiler := none })
    else .next s

/-- `FREE_RUN_WAIT_END`: A free-run pan waiting at a frame end continues once its records are accepted (R15). -/
def execFreeRunWaitEnd (p : PanNo) (s : State) : Result :=
  match s.site p with
  | none => .next s
  | some x => if x.waitObs && s.accepts x then .next (s.putSite p { x with waitObs := false }) else .next s

/-- The lowest boiler of a bay that is free. -/
def State.anyBoiler (s : State) (bay : Fin 8) : Option (Fin 4) := (List.finRange 4).find? (fun k => s.boilerFree bay k)

/-- `GOVERNOR_START_DELAY`: A held engine start waiting on slew or ICC_MAX is released (R384): the pan's burst or run starts, 2 µs
after it could have, on the lowest free boiler (notes/assumptions/40.md). -/
def execGovernorStartDelay (p : PanNo) (s : State) : Result :=
  match s.site p with
  | none => .next s
  | some x =>
    match (s.reach ((if x.realTime then s.burstFrom x else s.now) + 2 * Config.usUnits)).endRuns.anyBoiler x.bay with
    | none => .next s
    | some k => .next (if x.realTime then s.startBurst p k (2 * Config.usUnits) else s.startFree p k (2 * Config.usUnits))

/-! ### Step count and records -/

/-- `STEP_COUNT_DONE`: A STEP pan completes its frame count and parks (R195). -/
def execStepCountDone (p : PanNo) (s : State) : Result :=
  match s.site p with
  | none => .next s
  | some x =>
    if x.mode == .step && decide (x.stepLeft = 0) && !x.parked && !x.waitObs then .next (s.park p (x.pan.frame - 1) 0 false) else .next s

/-- Records of a real-time frame wait until its burst has ended, but for those of a re-run. -/
def Site.recordsReady (x : Site) : Bool :=
  match x.obsQ with
  | [] => false
  | f :: _ => f.redo || !(x.realTime && x.burst && x.endedE.isSome)

/-- The pans whose oldest frame's records the observation writer can write. -/
def State.obsQueue (s : State) : List Nat := (s.sites.filter (fun e => e.2.recordsReady && s.oldestFits e.2)).map (fun e => e.1)

/-- The pan it serves next: the first above the one it served last, else the lowest (R258). -/
def State.obsNext (s : State) : Option Nat := (s.obsQueue.find? (fun n => decide (s.rrObs < n))).or s.obsQueue.head?

/-- `OBS_RECORD_WRITE`: The observation writer writes a frame's log, picture, audio and hash records, in round-robin order of the pans
(R256, R258). -/
def execObsRecordWrite (p : PanNo) (s : State) : Result :=
  if s.engines && s.obsNext == some p then .next { s.writeFrame p with rrObs := p } else .next s

/-! ### Halts (R196, R197, R407) -/

/-- An idling pan that runs is carried up to the position of a halt in its frame. -/
def Site.haltReach (x : Site) : Site :=
  (x.halts.filterMap (fun pl => x.haltPos pl)).foldl
    (fun y e => if e.1.1 = y.pan.frame then y.modPan (fun q => q.reach (q.frameStart + e.1.2 + 1)) else y) x

/-- The pan is halted: it keeps its image, phase index, queues and call, and its last whole frame stands. -/
def Site.haltNow (x : Site) : Site :=
  { x.offEngine with mode := .halted, leftMode := x.mode, audio := x.audio.pause, plQ := x.plQ.filter (fun q => !q.kind.isHalt) }

/-- A halt that was met completes with its outcome, one that was not with `ST_ABORTED`. -/
def State.endHalt (x : Site) (s : State) (pl : Placement) : State :=
  match x.haltPos pl with
  | some e => if x.pan.ranPast e.1 then s.finishHalt x.pan stOk e.2 pl else s.finishHalt x.pan stAborted false pl
  | none => s.finishHalt x.pan stAborted false pl

/-- `HALT_REACHED`: The pan reaches its named halt position or placement pan-cycle and enters HALTED (R197). -/
def execHaltReached (p : PanNo) (s : State) : Result :=
  match s.site p with
  | none => .next s
  | some x =>
    let y := if s.runs x then x.haltReach else x
    if y.running && y.haltsHere then
      let t := ((s.putSite p y).settleFrame p).finishSaves p
      .next (y.halts.foldl (State.endHalt y) (t.modSite p Site.haltNow))
    else .next s

/-! ### Store errors and microcode (R202, R203) -/

/-- A frame that had ended in a burst still running is to be run again. -/
def Site.reopen (x : Site) : Site :=
  match x.endedE with
  | none => x
  | some e =>
    let y := { x with endedE := none, newFrame := none, frameE := e }
    if x.pan.cfg.elastic then y else { y with frameS := e - x.pan.cfg.fp }

/-- What an abandoned run leaves: the last written-back image, with everything applied since placed again. -/
def Site.abandon (x : Site) : Site :=
  match x.heap.written with
  | none => { x with boiler := none, slot := none, resFrames := 0 }
  | some w =>
    let again := (x.heap.applied.filter (fun a => decide (w.frame ≤ a.frame) && (decide (w.frame < a.frame) || decide (w.frameCyc ≤ a.cyc)))).map
      (fun a => { a.p with atFrame := some a.frame, atCyc := a.cyc, logged := true })
    let keep := x.heap.applied.filter (fun a => decide (a.frame < w.frame) || (a.frame == w.frame && decide (a.cyc < w.frameCyc)))
    { x.reopen with
      pan := w, plQ := again ++ x.plQ, boiler := none, slot := none, resFrames := 0, dirty := false,
      heap := ({ x.heap with applied := keep, rerunClk := max x.heap.rerunClk x.pan.clk }).replaceCalls (w.frame, w.frameCyc),
      ctr := { x.ctr with reruns := x.ctr.reruns + 1 } }

/-- The pan a boiler runs. -/
def State.runOn (s : State) (bay : Fin 8) (k : Fin 4) : Option Nat :=
  ((s.pansOf bay).find? (fun e => e.2.boiler == some k)).map (fun e => e.1)

/-- `STORE_ERROR`: A store error is corrected, or the run is abandoned and the pan re-run from its last written-back image (R202). -/
def execStoreError (bay : Fin 8) (k : Fin 4) (store : Fin 5) (corrected : Bool) (s : State) : Result :=
  if !s.engines then .next s
  else
    let data := [BitVec.ofNat 8 bay.val, BitVec.ofNat 8 k.val, BitVec.ofNat 8 store.val, if corrected then 1 else 0]
    let pan := s.runOn bay k
    let t := if corrected then s.modDev (fun d => { d with correctable := d.correctable + 1 })
      else
        let u := pan.elim s (fun p => s.modSite p Site.abandon)
        { u with boilers := vmod u.boilers (boilerIx bay k) (fun b => { b with reloading := true }) }
    .next ((t.raise 8).post 0x0009 pan 0 data)

/-- `BOILER_RELOAD`: An affected boiler finishes reloading its stores (R202). -/
def execBoilerReload (bay : Fin 8) (k : Fin 4) (s : State) : Result :=
  .next { s with boilers := vmod s.boilers (boilerIx bay k) (fun _ => { reloading := false, stack := [] }) }

/-- The epoch at which the oldest patch waiting switches. -/
def State.switchAt (s : State) : Option Nat :=
  (s.waiting.find? (fun w => w.at_ == .switch)).map (fun w => (w.accepted / Config.epochUnits + 1) * Config.epochUnits)

/-- Every boiler ends its run at a pan-cycle boundary. -/
def State.quiesce (s : State) : State := { s with sites := s.sites.map (fun e => (e.1, { e.2 with boiler := none })) }

/-- `PATCH_SWITCH`: At the epoch after a patch every boiler quiesces and switches to the patched microcode (R203). -/
def execPatchSwitch (s : State) : Result :=
  match s.switchAt with
  | none => .next s
  | some e => s.atTime e (fun t => (t.quiesce).landAll (fun w => w.at_ == .switch && decide (w.accepted < e)))

end Sys2Proof.Machine
end

