-- ==== Sys2Proof/Machine/Rewind.lean ====
section
/-!
DEFINITION. Rewind (R225, R234 to R238) and replay (R59, R243).
-/
namespace Sys2Proof.Machine

/-! ### Rewind -/

/-- Late records a burst takes: those that arrived up to its cutoff. -/
def Site.joining (x : Site) : List Placement := x.lateRecords.filter (fun r => decide (r.arrival ≤ x.cutoff))

/-- The frame a late record falls in. -/
def Placement.lateAt (r : Placement) : Nat := r.atFrame.getD 0

/-- A late record's frame lies within the depth and its snapshot is held (R225, R234). -/
def Site.joins (x : Site) (r : Placement) : Bool :=
  decide (x.pan.frame - r.lateAt ≤ x.heap.depth) && x.heap.snaps.any (fun q => q.frame == r.lateAt)

/-- Late records outside the condition are placed at pan-cycle 0 of the frame and counted (R225). -/
def Site.placeLate (rs : List Placement) (x : Site) : Site :=
  let put := fun r : Placement => { r with atFrame := some x.pan.frame, atCyc := 0, late := true }
  { x with inQ := x.inQ ++ (rs.filter (fun r => r.kind.isInput)).map put,
           plQ := x.plQ ++ (rs.filter (fun r => !r.kind.isInput)).map put,
           ctr := { x.ctr with latePlaced := x.ctr.latePlaced + rs.length } }

/-- What was applied from a frame on, to be applied again at its own pan-cycle. -/
def Site.again (f : Nat) (x : Site) : List Placement :=
  (x.heap.applied.filter (fun a => decide (f ≤ a.frame))).map
    (fun a => { a.p with atFrame := some a.frame, atCyc := a.cyc, logged := true })

/-- Queued records of a slot that a late detach came after: they are applied at its pan-cycle, before it (R91). -/
def Site.pulled (late : List Placement) (x : Site) : List Placement :=
  x.inQ.filter (fun q => match q.kind with
    | .input s _ => late.any (fun d => d.kind == .detach s && decide (q.order < d.order))
    | _ => false)

/-- The pan at the start of the earliest frame, with only the old and the late placements queued, and the queued records that a late
detach comes after. The snapshot is the image in DRAM that a store error in this burst goes back to (R202); the crust goes (R249). -/
def Site.restart (f : Nat) (image : Pan) (late : List Placement) (x : Site) : Site :=
  { x with pan := { image with dirty := [] }, dirty := false, inQ := x.pulled late, plQ := x.again f ++ late,
           heap := ({ x.heap with applied := x.heap.applied.filter (fun a => decide (a.frame < f)), rerunClk := 0,
                                  written := some image.stored }).replaceCalls (f, 0) }

/-- Pan-cycles within which `n` frames have certainly ended: 1,023 lines of 300 pan-cycles, with room for waits (R102). -/
def rerunFuel (n : Nat) : Nat := n * 1024 * 300 * 2

/-- The call outstanding, if the re-run made it again, or a call made in its place (R237). -/
def Site.callNow (x : Site) : Option CallOut :=
  x.callOut.filter (fun c => x.heap.calls.any (fun k => k.seq == c.seq && k.posted == c.posted && k.request == c.request))

/-- A queued reply or deadline is that of a call the re-run has not made again (R237). -/
def Site.orphan (old x : Site) (q : Placement) : Bool :=
  match q.kind with
  | .hcReply _ _ => !(x.callNow.any (fun c => old.callOut.any (fun o => o.posted == c.posted && o.seq == c.seq)))
  | .hcTimeout _ => !(x.callNow.any (fun c => old.callOut.any (fun o => o.posted == c.posted && o.seq == c.seq)))
  | _ => false

/-- Replies among some placements. -/
def replyCount (l : List Placement) : Nat :=
  (l.filter (fun q => match q.kind with
    | .hcReply _ _ => true
    | _ => false)).length

/-- What a rewind leaves for the frame to come: live queues, without the answers of calls not made again, the fade, a stream whose
frame F_n is marked changed, counters (R235 to R238). -/
def Site.afterRewind (old : Site) (late : List Placement) (x : Site) : Site :=
  let mark : StreamSt → StreamSt := fun g => { g with changedFor := some x.pan.frame }
  let y := { x with
    inQ := x.inQ ++ old.inQ.filter (fun q => !(old.pulled late).contains q), plQ := x.plQ ++ old.plQ.filter (fun q => !old.orphan x q),
    callOut := x.callNow, mbHolding := old.mbHolding, resFrames := 0,
    heap := { x.heap with oldCalls := [] },
    lateRecords := old.lateRecords.filter (fun r => !late.contains r && decide (old.cutoff < r.arrival)),
    audio := { x.audio with fade := 48, fadeFrom := x.audio.last },
    stream := x.stream.map mark,
    ctr := { x.ctr with rewinds := x.ctr.rewinds + 1,
                        hcDiscarded := x.ctr.hcDiscarded + replyCount (old.plQ.filter (fun q => old.orphan x q)) } }
  let z := y.settleCredits
  if z.pan.cfg.elastic then { z with frameE := z.minEnd } else z

/-- A rewind from the earliest joining frame (R234); without one, the records are only placed late. -/
def State.rewind (p : Nat) (x : Site) (s : State) : State :=
  let out := x.joining.filter (fun r => !x.joins r)
  let s := out.foldl (State.countLate p) s
  let late := x.joining.filter x.joins
  let old := { x.placeLate out with lateRecords := x.lateRecords.filter (fun r => !out.contains r) }
  let fn := x.pan.frame
  let fp := (late.map Placement.lateAt).foldl min fn
  match x.heap.snaps.find? (fun q => q.frame == fp) with
  | none => s.putSite p { old with lateRecords := old.lateRecords.filter (fun r => !late.contains r) }
  | some q =>
    if late.isEmpty then s.putSite p old
    else
      let t := (s.putSite p (old.restart fp q.pan late)).post 0x0004 (some p) (x.eventFlags false)
        (leBytes 4 fp ++ leBytes 4 fn ++ leBytes 2 late.length)
      (State.rerunTo p fn (rerunFuel (fn - fp)) t).modSite p (Site.afterRewind old late)

/-- `REWIND`: A burst restores a snapshot and re-runs frames with a late record at its own pan-cycle (R234). -/
def execRewind (p : PanNo) (s : State) : Result :=
  match s.site p with
  | none => .next s
  | some x => if s.engines && x.boiler.isSome && x.rewindOwed then .next (s.rewind p x) else .next s

/-! ### Replay (R59, R243) -/

/-- A client slot of a log record. -/
def LogRec.slot (r : LogRec) : Fin 16 := ⟨r.arg.toNat % 16, by omega⟩

/-- What a log record places; a reserved kind places nothing. -/
def LogRec.places (r : LogRec) : Option PlaceKind :=
  match r.kind.toNat with
  | 1 => some (.input r.slot (byteVec 7 r.payload))
  | 2 => some (.attach r.slot)
  | 3 => some (.detach r.slot)
  | 4 => some (.message { bytes := byteVec 6 r.payload, num := r.payload.getD 6 0, nmi := r.flags.getLsbD 1 })
  | 5 => some .nmi
  | 6 => some (.hcReply r.arg (byteVec 8 r.payload))
  | 7 => some (.hcTimeout r.arg)
  | 8 => some (.movie ((r.payload.getD 0 0).setWidth 4) 0 [])
  | 10 => some (.movie 0 (leNat (slice r.payload 0 2) * 256) r.bytes)
  | _ => none

/-- A media record whose bytes do not match its CRC-32. -/
def LogRec.corrupt (r : LogRec) : Bool := r.kind == 0x0A && decide (leNat (slice r.payload 4 4) ≠ (crc32 r.bytes).toNat)

/-- The record leaves the log to be applied. -/
def Site.nextRecord (pos : Nat × Nat) (x : Site) : Site :=
  { x with heap := { x.heap with replay := x.heap.replay.tail, replayPos := pos } }

/-- An error in the log: the pan parks at the current frame end, reason 2 `LOG_ORDER` or 4 `LOG_DATA`. -/
def Site.logError (reason : Nat) (x : Site) : Site := { x with heap := { x.heap with replayErr := reason } }

/-- A recorded reply or timeout that ends a synchronous wait (R56, R59). -/
def Site.endWait (k : PlaceKind) (x : Site) : Site :=
  match k with
  | .hcReply _ b => { x.modPan (Pan.syncReply b) with callOut := none }
  | .hcTimeout _ => { x.modPan Pan.syncTimeout with callOut := none }
  | _ => x

/-- The call outstanding, posted and waited for, is the one a placement answers. -/
def Site.awaits (x : Site) (k : PlaceKind) : Bool := x.pan.core.hcWait && k.answers x.pan.hc.seq

/-- A record applied at pan-cycle `c` of its frame, where that pan-cycle has run or is reached in `WAI`; a reply to a synchronous
call ends the wait at its position. -/
def Site.replayAt (r : LogRec) (k : PlaceKind) (x : Site) : Option Site :=
  let c := x.pan.frameStart + r.cyc
  let pl : Placement := { arrival := r.stamp, place := r.stamp, order := x.order, atFrame := some r.frame, atCyc := r.cyc,
                          late := r.flags.getLsbD 0, bracketed := false, logged := false, kind := k }
  if x.pan.frame < r.frame then none
  else if x.awaits k then
    (if c = x.pan.clk then some (((x.endWait k).log (pl.logRecs r.frame r.cyc)).remember { frame := r.frame, cyc := r.cyc, p := pl }) else none)
  else
    let q := x.pan.reach (c + 1)
    if c + 1 ≤ q.clk then some ({ x with pan := q }.apply c pl) else none

/-- One record of the log dealt with; none where its position has not come. -/
def Site.replayRecord (r : LogRec) (x : Site) : Option Site :=
  let pos := (r.frame, r.cyc)
  let y := x.nextRecord pos
  if r.frame < x.pan.frame ∨ posBefore pos x.heap.replayPos then some (y.logError 2)
  else if r.corrupt then (if x.pan.frame < r.frame then none else some (y.logError 4))
  else
    match r.places with
    | none => some y
    | some k => y.replayAt r k

/-- A `REPLAY` pan that a boiler runs, that waits for a synchronous reply, or whose log has run out; one that waits under R15 stands. -/
def State.replays (s : State) (x : Site) : Bool :=
  s.engines && x.mode == .replay && !x.parked && !x.waitObs && x.heap.replayErr == 0 &&
    (x.pan.core.hcWait || x.heap.replay.isEmpty || (x.boiler.isSome && !s.runDone x))

/-- The log has ended: no record is left, or a 0x09 record is next and its position has come. -/
def Site.logEnded (x : Site) : Bool :=
  match x.heap.replay with
  | [] => true
  | r :: _ => r.kind == 9 && decide (r.frame ≤ x.pan.frame) &&
      (decide (r.frame < x.pan.frame) || decide (x.pan.frameStart + r.cyc ≤ (x.pan.reach (x.pan.frameStart + r.cyc)).clk))

/-- `LOG_RECORD_APPLY`: A REPLAY pan applies a log record at its frame and pan-cycle, parking on order or data errors or at log end
(R243). -/
def execLogRecordApply (p : PanNo) (s : State) : Result :=
  match s.site p with
  | none => .next s
  | some x =>
    if !s.replays x then .next s
    else if x.logEnded then .next ((s.modSite p (fun y => { y with heap := { y.heap with replay := [] } })).park p x.pan.frame 1 false)
    else
      match x.heap.replay with
      | [] => .next s
      | r :: _ =>
        match x.replayRecord r with
        | none => .next s
        | some y => .next ((s.putSite p { y with dirty := true }).afterPan p x.pan false)

/-- A record or the end of the log is due before the pan's next pan-cycle. -/
def Site.recordDue (x : Site) : Bool :=
  x.mode == .replay && x.heap.replayErr == 0 &&
    (x.logEnded || x.heap.replay.head?.any (fun r => decide (r.frame < x.pan.frame) ||
      (r.frame == x.pan.frame && decide (x.pan.frameStart + r.cyc < x.pan.clk))))

end Sys2Proof.Machine
end

