-- ==== Sys2Proof/Machine/Calls.lean ====
section
/-!
DEFINITION. Host-calls on the device's side (R56 to R59, R226, R237, R341, R343): answers taken from HCALL rings, replies and timeouts
applied, requests that waited for space.
-/
namespace Sys2Proof.Machine

/-! ### Answers (R57, R338, R343) -/

/-- The entry the device takes next from an HCALL ring. -/
def State.answerEntry (s : State) (r : Ring) : List Byte := s.host.readBytes (r.entryAddr r.taken) 64

/-- The device has taken one more answer, and writes the index back. -/
def State.answerTaken (n : Nat) (r : Ring) (s : State) : State :=
  let q := { r with taken := r.taken + 1 }
  (s.putRing n q).hostWrite (r.idxAddr + 4) (leBytes 4 q.taken.toNat)

/-- An answer is the reply to the call outstanding: same number, same request, in time, and none taken before. -/
def Site.answers (now : Nat) (e : List Byte) (x : Site) : Bool :=
  x.callOut.any (fun c => c.seq == e.getD 41 0 && c.seq == e.getD 3 0 && slice e 2 14 == slice c.request 0 14 &&
    decide (now ≤ c.deadline) && !c.placed) && x.pan.callIs (e.getD 41 0)

/-- The call waits in a synchronous mode, or its reply is placed like an input record (R56, R226). -/
def Site.takeReply (now : Nat) (e : List Byte) (x : Site) : Site :=
  let res := byteVec 8 (slice e 48 8)
  let mark := fun c : CallOut => { c with placed := true, reply := if x.pan.hc.sync then some res else none }
  let y := { x with callOut := x.callOut.map mark }
  if x.pan.hc.sync then y else y.acceptAt now (.hcReply (e.getD 41 0) res)

/-- A reply that fits no outstanding call is discarded and counted (R57). -/
def Site.discardReply (x : Site) : Site := { x with ctr := { x.ctr with hcDiscarded := x.ctr.hcDiscarded + 1 } }

/-- `HCALL_REPLY`: The control core takes an answered HCALL ring entry, discarding it if it is stale or mismatched (R343). -/
def execHcallReply (ring : RingNo) (s : State) : Result :=
  match s.ring ring with
  | none => .next s
  | some r =>
    if !s.listens || s.fatal || r.kind != 2 || r.taken == r.hst then .next s
    else
      let e := s.answerEntry r
      let t := s.answerTaken ring r
      if e.getD 40 0 = 2 then
        .next (t.modSite (leNat (slice e 0 2)) (fun x => if x.answers t.now e then x.takeReply t.now e else x.discardReply))
      else .next t

/-! ### Replies and timeouts (R56, R58) -/

/-- A synchronous wait ends: the change is logged at the pan-cycle that comes next, and remembered (R59, R242). -/
def Site.endSync (k : PlaceKind) (stamp : Nat) (logged : Bool) (x : Site) : Site :=
  let pl : Placement := { arrival := stamp, place := stamp, order := x.order, atFrame := some x.pan.frame, atCyc := x.pan.frameCyc,
                          late := false, bracketed := false, logged := logged, kind := k }
  ((x.endWait k).log (if logged then [] else pl.logRecs x.pan.frame x.pan.frameCyc)).remember
    { frame := x.pan.frame, cyc := x.pan.frameCyc, p := pl }

/-- The answer a re-run finds at the position of its wait (R202, R237). -/
def Site.oldAnswer (x : Site) : Option Placement :=
  x.plQ.find? (fun q => q.logged && q.kind.answers x.pan.hc.seq && q.atFrame == some x.pan.frame && q.atCyc == x.pan.frameCyc)

/-- A pan in a synchronous wait that its mode lets go on. -/
def Site.syncWaits (x : Site) : Bool := x.freeRun && !x.parked && x.pan.core.hcWait && x.pan.hc.pend

/-- A reply taken ends the wait. -/
def Site.applyReply (now : Nat) (x : Site) : Option Site :=
  match x.oldAnswer with
  | some q => some ((x.unqueue q).endSync q.kind q.arrival true)
  | none => (x.callOut.bind (fun c => c.reply)).map (fun b => x.endSync (.hcReply x.pan.hc.seq b) now false)

/-- A reply's placement. -/
def PlaceKind.isReply : PlaceKind → Bool
  | .hcReply _ _ => true
  | _ => false

/-- A deadline's placement. -/
def PlaceKind.isDeadline : PlaceKind → Bool
  | .hcTimeout _ => true
  | _ => false

/-- `HCALL_REPLY_APPLY`: A reply is applied at its placement pan-cycle, or at the end of a synchronous wait (R56). -/
def execHcallReplyApply (p : PanNo) (s : State) : Result :=
  match s.site p with
  | none => .next s
  | some x =>
    if x.syncWaits && s.engines then
      match x.applyReply s.now with
      | some y => .next (s.putSite p { y with dirty := true })
      | none => .next s
    else s.placeStep p PlaceKind.isReply

/-- The deadline of the call outstanding, if no reply has come before it. -/
def Site.openDeadline (x : Site) : Option Nat := (x.callOut.filter (fun c => !c.placed)).map (fun c => c.deadline)

/-- The deadline of an asynchronous call is placed as if a record arrived at it (R56, R226). -/
def Site.placeDeadline (t : Nat) (x : Site) : Site :=
  let mark : CallOut → CallOut := fun c => { c with placed := true }
  ({ x with callOut := x.callOut.map mark }).acceptAt t (.hcTimeout x.pan.hc.seq)

/-- `HCALL_TIMEOUT`: A host-call deadline expires and the call ends with TMO (R56, R57): a synchronous wait ends at once; in a real-time
mode the deadline is placed first, and the row's next step ends the call on the pan-cycle of its placement. -/
def execHcallTimeout (p : PanNo) (s : State) : Result :=
  match s.site p with
  | none => .next s
  | some x =>
    match x.openDeadline with
    | none => s.placeStep p PlaceKind.isDeadline
    | some d =>
      if x.pan.hc.sync then
        (if x.syncWaits then s.atTime d (fun t => t.putSite p { x.endSync (.hcTimeout x.pan.hc.seq) d false with dirty := true }) else .next s)
      else s.atTime d (fun t => t.putSite p (x.placeDeadline d))

/-! ### Requests that waited (R341) -/

/-- `HCALL_REQUEST_WRITE`: A waiting host-call request is written once an HCALL ring has room or is created (R341). -/
def execHcallRequestWrite (ring : RingNo) (s : State) : Result :=
  match s.waitCalls.find? (fun w => s.serving 2 (some w.pan) == some ring) with
  | none => .next s
  | some w => if s.room ring then .next ({ s with waitCalls := s.waitCalls.erase w }.pushCall ring w.entry) else .next s

end Sys2Proof.Machine
end

