-- ==== Sys2Proof/Machine/Control.lean ====
section
/-!
DEFINITION. The meanings of branches, jumps, the stack, flags and interrupts of the processor (R35, R36, R38 to R48, R60). Each runs the instruction at PC from its first pan-cycle to
its last, where the byte at PC encodes the operation and form of the row (R28, R32).
-/
namespace Sys2Proof.Machine

/-- `NOP`: spends one pan-cycle and does nothing (R33). -/
def execNop (p : PanNo) (s : State) : Result := s.instruct p .nop .implied

/-- `BRA`: always branches (R35). -/
def execBra (p : PanNo) (s : State) : Result := s.instruct p (.branch .always) .rel

/-- `BEQ`: branches when Z = 1 (R35). -/
def execBeq (p : PanNo) (s : State) : Result := s.instruct p (.branch .eq) .rel

/-- `BNE`: branches when Z = 0 (R35). -/
def execBne (p : PanNo) (s : State) : Result := s.instruct p (.branch .ne) .rel

/-- `BCS`: branches when C = 1 (R35). -/
def execBcs (p : PanNo) (s : State) : Result := s.instruct p (.branch .cs) .rel

/-- `BCC`: branches when C = 0 (R35). -/
def execBcc (p : PanNo) (s : State) : Result := s.instruct p (.branch .cc) .rel

/-- `BMI`: branches when N = 1 (R35). -/
def execBmi (p : PanNo) (s : State) : Result := s.instruct p (.branch .mi) .rel

/-- `BPL`: branches when N = 0 (R35). -/
def execBpl (p : PanNo) (s : State) : Result := s.instruct p (.branch .pl) .rel

/-- `BVS`: branches when V = 1 (R35). -/
def execBvs (p : PanNo) (s : State) : Result := s.instruct p (.branch .vs) .rel

/-- `BVC`: branches when V = 0 (R35). -/
def execBvc (p : PanNo) (s : State) : Result := s.instruct p (.branch .vc) .rel

/-- `BHI`: branches when C = 1 and Z = 0 (R35). -/
def execBhi (p : PanNo) (s : State) : Result := s.instruct p (.branch .hi) .rel

/-- `BLS`: branches when C = 0 or Z = 1 (R35). -/
def execBls (p : PanNo) (s : State) : Result := s.instruct p (.branch .ls) .rel

/-- `BGE`: branches when N = V (R35). -/
def execBge (p : PanNo) (s : State) : Result := s.instruct p (.branch .ge) .rel

/-- `BLT`: branches when N differs from V (R35). -/
def execBlt (p : PanNo) (s : State) : Result := s.instruct p (.branch .lt) .rel

/-- `BGT`: branches when Z = 0 and N = V (R35). -/
def execBgt (p : PanNo) (s : State) : Result := s.instruct p (.branch .gt) .rel

/-- `BLE`: branches when Z = 1 or N differs from V (R35). -/
def execBle (p : PanNo) (s : State) : Result := s.instruct p (.branch .le) .rel

/-- `DJNZ`: decrements X and branches while X is not 0 (R35). -/
def execDjnz (p : PanNo) (s : State) : Result := s.instruct p .djnz .rel

/-- `JMP`: jumps to an absolute, indirect, indexed indirect or P target (R28). -/
def execJmp (p : PanNo) (m : Mode) (s : State) : Result := s.instruct p .jmp m

/-- `CALL`: pushes the return address and jumps (R36). -/
def execCall (p : PanNo) (m : Mode) (s : State) : Result := s.instruct p .call m

/-- `RET`: pops PC (R36). -/
def execRet (p : PanNo) (s : State) : Result := s.instruct p .ret .implied

/-- `RTI`: pops PC and then F, restoring the IRQ mask (R45). -/
def execRti (p : PanNo) (s : State) : Result := s.instruct p .rti .implied

/-- `PUSH`: pushes an 8-bit or 16-bit register (R36). -/
def execPush (p : PanNo) (r : StackReg) (s : State) : Result := s.instruct p (.push r) .implied

/-- `POP`: pops an 8-bit or 16-bit register; only POP F changes the flags (R36). -/
def execPop (p : PanNo) (r : StackReg) (s : State) : Result := s.instruct p (.pop r) .implied

/-- `CLC`: clears C (R33). -/
def execClc (p : PanNo) (s : State) : Result := s.instruct p .clc .implied

/-- `SEC`: sets C (R33). -/
def execSec (p : PanNo) (s : State) : Result := s.instruct p .sec .implied

/-- `CLI`: clears I, allowing IRQ from the next instruction's sampling point (R40). -/
def execCli (p : PanNo) (s : State) : Result := s.instruct p .cli .implied

/-- `SEI`: sets I (R40). -/
def execSei (p : PanNo) (s : State) : Result := s.instruct p .sei .implied

/-- `CLV`: clears V (R33). -/
def execClv (p : PanNo) (s : State) : Result := s.instruct p .clv .implied

/-- `WAI`: fetches and then idles pan-cycle by pan-cycle until an interrupt request is sampled (R38). -/
def execWai (p : PanNo) (s : State) : Result := s.instruct p .wai .implied

/-- `BRK`: pushes F and the return address, sets I and vectors through $FFFA (R44). -/
def execBrk (p : PanNo) (s : State) : Result := s.instruct p .brk .implied

/-- `WAI_WAKE`: an idling `WAI` samples a request and enters the interrupt, or with I = 1 goes on after `WAI` (R38). -/
def execWaiWake (p : PanNo) (s : State) : Result :=
  s.panStep p (fun q => let r := q.settle; if r.core.wait && (r.sampleNow.taken || r.sampleNow.req) then some r.wake else none)

/-- `REP` with its target: K iterations, or the skip (R46 to R48). -/
def execRep (p : PanNo) (s : State) : Result :=
  if (s.site p).any Site.haltsHere then .next s else s.panStep p Pan.execRep

/-- `ILLEGAL_OP`: the fetch of an undefined opcode faults the pan (R60). -/
def execIllegalOp (p : PanNo) (s : State) : Result :=
  if (s.site p).any Site.haltsHere then .next s
  else s.panStep p (fun q => let r := (q.settle).afterReset; if r.ready && r.opAt.isNone then some r.illegal else none)

/-- `IRQ_ENTRY`: a sampled IRQ pushes F and PC, sets I and vectors through $FFFC (R43, R155). -/
def execIrqEntry (p : PanNo) (s : State) : Result :=
  s.panStep p (fun q => if q.canEnter && !q.core.samp.nmi then some q.enter else none)

/-- `NMI_ENTRY`: a sampled NMI edge pushes F and PC, sets I and vectors through $FFF8 (R42, R43). -/
def execNmiEntry (p : PanNo) (s : State) : Result :=
  s.panStep p (fun q => if q.canEnter && q.core.samp.nmi then some q.enter else none)

end Sys2Proof.Machine
end

