-- ==== Sys2Proof/Machine/Counts.lean ====
section
/-!
DEFINITION. The meanings of increments, shifts and address arithmetic (R33). Each runs the instruction at PC from its first pan-cycle to
its last, where the byte at PC encodes the operation and form of the row (R28, R32).
-/
namespace Sys2Proof.Machine

/-- `INC`: increments memory or A modulo 256 with one read and one write (R31) (R33). -/
def execInc (p : PanNo) (m : Mode) (s : State) : Result := s.instruct p .inc m

/-- `DEC`: decrements memory or A modulo 256 (R33). -/
def execDec (p : PanNo) (m : Mode) (s : State) : Result := s.instruct p .dec m

/-- `ASL`: shifts memory or A left, bit 7 to C (R33). -/
def execAsl (p : PanNo) (m : Mode) (s : State) : Result := s.instruct p .asl m

/-- `LSR`: shifts memory or A right, bit 0 to C (R33). -/
def execLsr (p : PanNo) (m : Mode) (s : State) : Result := s.instruct p .lsr m

/-- `ROL`: rotates memory or A left through C (R33). -/
def execRol (p : PanNo) (m : Mode) (s : State) : Result := s.instruct p .rol m

/-- `ROR`: rotates memory or A right through C (R33). -/
def execRor (p : PanNo) (m : Mode) (s : State) : Result := s.instruct p .ror m

/-- `INX`: increments X (R33). -/
def execInx (p : PanNo) (s : State) : Result := s.instruct p .inx .implied

/-- `DEX`: decrements X (R33). -/
def execDex (p : PanNo) (s : State) : Result := s.instruct p .dex .implied

/-- `INY`: increments Y (R33). -/
def execIny (p : PanNo) (s : State) : Result := s.instruct p .iny .implied

/-- `DEY`: decrements Y (R33). -/
def execDey (p : PanNo) (s : State) : Result := s.instruct p .dey .implied

/-- `INP`: increments P modulo 65,536, setting Z (R33). -/
def execInp (p : PanNo) (s : State) : Result := s.instruct p .inp .implied

/-- `DEP`: decrements P (R33). -/
def execDep (p : PanNo) (s : State) : Result := s.instruct p .dep .implied

/-- `INQ`: increments Q (R33). -/
def execInq (p : PanNo) (s : State) : Result := s.instruct p .inq .implied

/-- `DEQ`: decrements Q (R33). -/
def execDeq (p : PanNo) (s : State) : Result := s.instruct p .deq .implied

/-- `ADPA`: adds A to P (R33). -/
def execAdpa (p : PanNo) (s : State) : Result := s.instruct p .adpa .implied

/-- `LEAP`: adds a sign-extended byte to P (R33). -/
def execLeap (p : PanNo) (s : State) : Result := s.instruct p .leap .simm

/-- `LEAQ`: adds a sign-extended byte to Q (R33). -/
def execLeaq (p : PanNo) (s : State) : Result := s.instruct p .leaq .simm

end Sys2Proof.Machine
end

