-- ==== Sys2Proof/Machine/Crypto.lean ====
section
/-!
DEFINITION. AES-GCM (R315) and the SRTP key derivation and AEAD transform (R321). The spec names the functions; their definitions are
those of FIPS 197, NIST SP 800-38D, RFC 3711, RFC 6188 and RFC 7714 (PRESUMED: notes/assumptions/56.md).
-/
namespace Sys2Proof.Machine

/-! ### AES -/

/-- Bytewise exclusive or, as long as the shorter list. -/
def xorBytes (a b : List Byte) : List Byte := List.zipWith (· ^^^ ·) a b

/-- The S-box, entry `i` in bits 8i to 8i + 7. -/
def sboxTable : Nat :=
  0x16bb54b00f2d99416842e6bf0d89a18cdf2855cee9871e9b948ed9691198f8e19e1dc186b95735610ef6034866b53e708a8bbd4b1f74dde8c6b4a61c2e2578ba08ae7a65eaf4566ca94ed58d6d37c8e779e4959162acd3c25c2406490a3a32e0db0b5ede14b8ee4688902a22dc4f816073195d643d7ea7c41744975fec130ccdd2f3ff1021dab6bcf5389d928f40a351a89f3c507f02f94585334d43fbaaefd0cf584c4a39becb6a5bb1fc20ed00d153842fe329b3d63b52a05a6e1b1a2c830975b227ebe28012079a059618c323c7041531d871f1e5a534ccf73f362693fdb7c072a49cafa2d4adf04759fa7dc982ca76abd7fe2b670130c56f6bf27b777c63

/-- `SubBytes` on a byte. -/
def aesSub (b : Byte) : Byte := BitVec.ofNat 8 (sboxTable >>> (8 * b.toNat))

/-- Multiplication by x modulo x^8 + x^4 + x^3 + x + 1. -/
def xtime (b : Byte) : Byte := if b.getLsbD 7 then (b <<< 1) ^^^ 0x1B else b <<< 1

/-- `MixColumns` on a column. -/
def mixColumn (c : List Byte) : List Byte :=
  let g := fun i => c.getD (i % 4) 0
  (List.range 4).map (fun i => xtime (g i) ^^^ xtime (g (i + 1)) ^^^ g (i + 1) ^^^ g (i + 2) ^^^ g (i + 3))

/-- `ShiftRows` on a state in column order. -/
def shiftRows (s : List Byte) : List Byte := [0, 5, 10, 15, 4, 9, 14, 3, 8, 13, 2, 7, 12, 1, 6, 11].map (fun i => s.getD i 0)

/-- `MixColumns` on a state. -/
def mixColumns (s : List Byte) : List Byte := (List.range 4).flatMap (fun i => mixColumn ((s.drop (4 * i)).take 4))

/-- The key schedule: `n` more words after those already made, latest first; `nk` words make the key. -/
def expandKey (nk : Nat) : Nat → Byte → List (List Byte) → List (List Byte)
  | 0, _, ws => ws
  | n + 1, rcon, ws =>
    let t := ws.headD []
    let i := ws.length
    let rot := (t.drop 1 ++ t.take 1).map aesSub
    let u := if i % nk = 0 then (rot.headD 0 ^^^ rcon) :: rot.tail else if nk = 8 ∧ i % 8 = 4 then t.map aesSub else t
    expandKey nk n (if i % nk = 0 then xtime rcon else rcon) (xorBytes (ws.getD (nk - 1) []) u :: ws)

/-- Rounds of AES for a key of `nk` words. -/
def aesRounds (nk : Nat) : Nat := nk + 6

/-- The round keys, 16 bytes each, first to last. -/
def roundKeys (key : List Byte) : List (List Byte) :=
  let nk := key.length / 4
  let ws := (expandKey nk (4 * (aesRounds nk + 1) - nk) 1 (((List.range nk).map (fun i => (key.drop (4 * i)).take 4)).reverse)).reverse
  (List.range (aesRounds nk + 1)).map (fun r => ((ws.drop (4 * r)).take 4).flatten)

/-- AES on a block under its round keys; the last round mixes no columns. -/
def aesRoundsOn : List (List Byte) → List Byte → List Byte
  | [], s => s
  | [k], s => xorBytes (shiftRows (s.map aesSub)) k
  | k :: ks, s => aesRoundsOn ks (xorBytes (mixColumns (shiftRows (s.map aesSub))) k)

/-- AES encryption of a block of 16 bytes under a key of 16 or 32. -/
def aesEncrypt (key block : List Byte) : List Byte :=
  match roundKeys key with
  | [] => block
  | k :: ks => aesRoundsOn ks (xorBytes block k)

/-! ### GCM -/

/-- A number of bits 8n as `n` bytes, most significant first. -/
def bytesOf (n v : Nat) : List Byte := (List.range n).map (fun i => BitVec.ofNat 8 (v >>> (8 * (n - 1 - i))))

/-- Bytes as a number, most significant first. -/
def numberOf (bs : List Byte) : Nat := bs.foldl (fun n b => 256 * n + b.toNat) 0

/-- The product in GF(2^128), the first bit of a block being its most significant. -/
def gcmMul (x y : BitVec 128) : BitVec 128 :=
  ((List.range 128).foldl (fun zv i =>
    (if x.getMsbD i then zv.1 ^^^ zv.2 else zv.1, if zv.2.getLsbD 0 then (zv.2 >>> 1) ^^^ (0xE1#128 <<< 120) else zv.2 >>> 1))
    (0#128, y)).1

/-- GHASH over `n` blocks of 16 bytes, the last one padded with zeros. -/
def ghash (h : BitVec 128) : Nat → List Byte → BitVec 128 → BitVec 128
  | 0, _, y => y
  | n + 1, bs, y =>
    let b := bs.take 16
    ghash h n (bs.drop 16) (gcmMul (y ^^^ BitVec.ofNat 128 (numberOf (b ++ List.replicate (16 - b.length) 0))) h)

/-- Blocks that hold `n` bytes. -/
def blocks16 (n : Nat) : Nat := (n + 15) / 16

/-- Bytes padded with zeros to whole blocks. -/
def padBlocks (bs : List Byte) : List Byte := bs ++ List.replicate (16 * blocks16 bs.length - bs.length) 0

/-- The key stream of a counter: `n` blocks from a 16-byte value on, of which the low `w` bits count. -/
def counterStream (key : List Byte) (w : Nat) (start : Nat) (n : Nat) : List Byte :=
  (List.range n).flatMap (fun i => aesEncrypt key (bytesOf 16 (start / 2 ^ w * 2 ^ w + (start + i) % 2 ^ w)))

/-- AES-GCM encryption: cipher text and the full 16-byte tag. -/
def gcmSeal (key iv aad plain : List Byte) : List Byte :=
  let h := BitVec.ofNat 128 (numberOf (aesEncrypt key (List.replicate 16 0)))
  let j := numberOf (iv ++ [0, 0, 0, 1])
  let c := xorBytes plain (counterStream key 32 (j + 1) (blocks16 plain.length))
  let all := padBlocks aad ++ padBlocks c ++ bytesOf 8 (8 * aad.length) ++ bytesOf 8 (8 * c.length)
  c ++ xorBytes (bytesOf 16 (ghash h (blocks16 all.length) all 0).toNat) (aesEncrypt key (bytesOf 16 j))

/-! ### SRTP (R321) -/

/-- Session key material of `n` bytes under a label: the counter-mode generator of RFC 3711 at a key derivation rate of 0; a salt of 12
bytes stands for one of 14 with zeros after it. -/
def srtpDerive (key salt : List Byte) (label : Byte) (n : Nat) : List Byte :=
  let s := (salt ++ List.replicate 14 0).take 14
  let x := xorBytes s (List.replicate 7 0 ++ [label] ++ List.replicate 6 0)
  (counterStream key 16 (numberOf (x ++ [0, 0])) (blocks16 n)).take n

/-- The payload of an SRTP packet and its tag: encrypted under the session key, with header and extension authenticated; the IV is the
session salt XOR two zeros, SSRC, rollover counter and sequence number (RFC 7714). -/
def srtpProtect (masterKey masterSalt : List Byte) (ssrc roc seq : Nat) (header payload : List Byte) : List Byte :=
  let key := srtpDerive masterKey masterSalt 0 masterKey.length
  let salt := srtpDerive masterKey masterSalt 2 12
  gcmSeal key (xorBytes salt ([0, 0] ++ bytesOf 4 ssrc ++ bytesOf 4 roc ++ bytesOf 2 seq)) header payload

end Sys2Proof.Machine
end

