-- ==== Sys2Proof/Machine/Harvest.lean ====
section
/-!
DEFINITION. The harvesters (R266 to R288): the change map, the kind of a harvester frame, rate control, still hold, and the packets
of a temporal unit (R317, R319). The headers and how each block is coded are given by R269 to R275; the AV1 bits that spell them, and
what quantisation leaves of a coded block, are free (R206): functions of the frame's input, so that equal histories give equal units
(R288).
-/
namespace Sys2Proof.Machine

/-- What the encoding of a frame depends on: headers, the frame in YCbCr, the blocks marked changed, and the reference predicted
from. -/
structure FrameInput where
  seq : SeqHeader
  head : FrameHeader
  src : Yuv
  changed : List Nat
  ref : Option RefSlot
  deriving DecidableEq, Repr

end Sys2Proof.Machine

namespace Sys2Proof.Config

/-- FREE: length in bytes of the sequence header OBU without `obu_size` (R284). -/
opaque seqHeaderBytes : Machine.SeqHeader → Nat

/-- FREE: whether intra costs fewer bits than inter with the vector chosen, for a changed block of a frame (R272). -/
opaque intraCheaper : Machine.FrameInput → Nat → Int × Int → Bool

/-- FREE: a sample of plane 0 to 2 that a coded block leaves in the reconstruction (AV1's transforms and quantiser are not given). -/
opaque reconByte : Machine.FrameInput → List Machine.BlockCode → Nat → Nat → Byte

/-- FREE: the entropy context a frame leaves in the slots it refreshes (R275). -/
opaque entropyContext : Machine.FrameInput → List Machine.BlockCode → Nat

/-- FREE: the number that names the bits of a frame's temporal unit. -/
opaque unitCode : Machine.FrameInput → List Machine.BlockCode → Nat

end Sys2Proof.Config

namespace Sys2Proof.Machine

/-! ### The change map (R271) -/

/-- 8 × 8 blocks of a picture, in raster order. -/
def Picture.blockCount (pic : Picture) : Nat := ceilDiv pic.w 8 * ceilDiv pic.h 8

/-- The pixels of a block that lie in the picture. -/
def Picture.block8 (pic : Picture) (b : Nat) : List (BitVec 24) :=
  pic.box (8 * (b % ceilDiv pic.w 8)) (8 * (b / ceilDiv pic.w 8)) 8

/-- The blocks that differ from the last frame encoded; all of them where there is none to compare with. -/
def changedBlocks (all : Bool) (last : Option Picture) (pic : Picture) : List Nat :=
  let every := List.range pic.blockCount
  match last with
  | some q => if all ∨ q.w ≠ pic.w ∨ q.h ≠ pic.h then every else every.filter (fun b => pic.block8 b != q.block8 b)
  | none => every

/-! ### Kinds (R275 to R277, R281) -/

/-- Kind codes in the order of R275. -/
def kindKey : Nat := 0
/-- A recovery frame. -/
def kindRecovery : Nat := 1
/-- An ordinary frame. -/
def kindOrdinary : Nat := 2
/-- A keep-alive. -/
def kindKeepAlive : Nat := 3

/-- How a loss report is answered: ignored, by a recovery frame from a slot, or by a key frame. -/
inductive LossAnswer where
  | ignore
  | recover (slot : Nat)
  | key
  deriving DecidableEq, Repr

/-- R277, with L the lowest frame reported lost. -/
def StreamSt.answer (t : StreamSt) (l : Nat) : LossAnswer :=
  match t.slot1, t.slot2 with
  | some g, some r =>
    if l < g.frame then .ignore else if r.frame < l then .recover 2 else if g.frame < l then .recover 1 else .key
  | _, _ => .key

/-- The lowest frame the reports waiting name. -/
def StreamSt.lost (t : StreamSt) : Option Nat :=
  match t.losses with
  | [] => none
  | e :: es => some (es.foldl (fun m q => min m q.2) e.2)

/-- The answer to the reports that take effect at this harvester frame. -/
def StreamSt.lossAnswer (t : StreamSt) : Option LossAnswer := t.lost.map t.answer

/-- KEY_INTERVAL frames have been emitted since the last key frame. -/
def StreamSt.keyByInterval (t : StreamSt) : Bool := decide (t.cfg.keyInterval ≠ 0) && decide (t.cfg.keyInterval ≤ t.sinceKey)

/-- The harvester frame is a key frame (R276). -/
def StreamSt.isKey (t : StreamSt) : Bool :=
  t.keyDue || t.slot1.isNone || !t.keyReqs.isEmpty || t.keyByInterval || t.lossAnswer == some .key

/-- The slot a recovery frame that answers a report predicts from. -/
def StreamSt.recoverySlot (t : StreamSt) : Option Nat :=
  match t.lossAnswer with
  | some (.recover n) => some n
  | _ => none

/-- A recovery frame is due under the interval (R275). -/
def StreamSt.recoveryByInterval (t : StreamSt) : Bool :=
  t.recDue || (decide (t.cfg.recInterval ≠ 0) && decide (t.cfg.recInterval ≤ t.sinceRec + 1))

/-- What becomes of a harvester frame: its kind and the slot it predicts from, or none where it is held. -/
def StreamSt.decide_ (t : StreamSt) (changed : List Nat) : Option (Nat × Nat) :=
  if t.isKey then some (kindKey, 0)
  else match t.recoverySlot with
    | some n => some (kindRecovery, n)
    | none =>
      if changed.isEmpty then (if t.cfg.holdRefresh ≤ t.held + 1 then some (kindKeepAlive, 0) else none)
      else if t.recoveryByInterval then some (kindRecovery, 2) else some (kindOrdinary, 0)

/-! ### Rate control (R279, R280) -/

/-- The `base_q_idx` of a frame: given by QP in `CQP`, otherwise free between QP_MIN and QP_MAX. -/
def Stream.qIdx (g : Stream) (kind draw : Nat) : Nat :=
  if g.rcMode = 0 then (if kind = kindKey then (max 1 ((g.qp : Int) + g.qpKeyDelta)).toNat else g.qp)
  else clampNat g.qpMin g.qpMax (Config.baseQIdx draw)

/-- Parts of a bit the buckets count: a bucket at 1 kbit/s drains one in a timebase unit. -/
def bitParts : Nat := 16000000

/-- The buckets drained up to an instant. -/
def StreamSt.drain (now : Nat) (t : StreamSt) : StreamSt :=
  let d := now - t.bucketAt
  { t with bucket := t.bucket - t.cfg.rate * d, bucketMax := t.bucketMax - t.cfg.rateMax * d, bucketAt := max now t.bucketAt }

/-- The bits of a temporal unit fill the buckets; an overfill is counted. -/
def StreamSt.fill (bytes : Nat) (t : StreamSt) : StreamSt :=
  let b := t.bucket + 8 * bytes * bitParts
  let m := t.bucketMax + 8 * bytes * bitParts
  let full := decide (t.cfg.rate * t.cfg.buf * bitParts < b) || (t.cfg.rcMode == 2 && decide (t.cfg.rateMax * t.cfg.buf * bitParts < m))
  { t with bucket := b, bucketMax := m,
           overruns := if t.cfg.rcMode ≠ 0 ∧ full then (t.overruns + 1) % 2 ^ 32 else t.overruns }

/-! ### Headers (R269, R274, R275) -/

/-- The sequence header of a stream of a picture size. -/
def Stream.seqHeader (g : Stream) (w h : Nat) : SeqHeader :=
  let colour := if g.bt601 then 6 else 1
  { seqProfile := 0, seqTier := 0, seqLevelIdx := g.level, stillPicture := false, reducedStillPictureHeader := false,
    timingInfoPresent := false, frameIdNumbersPresent := false, operatingPoints := 1, operatingPointIdc := 0, frameWidth := w,
    frameHeight := h, use128Superblock := false, enableOrderHint := false, chooseScreenContent := false, forceScreenContent := 1,
    chooseIntegerMv := false, forceIntegerMv := 1, filterIntra := false, intraEdgeFilter := false, interintraCompound := false,
    maskedCompound := false, warpedMotion := false, dualFilter := false, superres := false, cdef := false, restoration := false,
    filmGrain := false, bitDepth := 8, subsamplingX := true, subsamplingY := true, colorRange := false, chromaSamplePosition := 0,
    colorDescriptionPresent := true, colorPrimaries := colour, transferCharacteristics := colour, matrixCoefficients := colour }

/-- The slots a kind refreshes (R275). -/
def refreshOf (kind : Nat) : BitVec 8 := if kind = kindKey then 7 else if kind = kindRecovery then 5 else if kind = kindOrdinary then 1 else 0

/-- The frame header of a kind of frame at a `base_q_idx`. GOLDEN names slot 1, ALTREF slot 2, every other name slot 0. -/
def Stream.frameHeader (g : Stream) (kind q : Nat) : FrameHeader :=
  let key := kind == kindKey
  let level := if g.deblockOff || key then 0 else (q + 8) / 16
  { keyFrame := key, showFrame := true, allowScreenContent := true, forceIntegerMv := true, allowIntrabc := key, tiles := 1,
    referenceSelect := false, primaryRef := if kind = kindOrdinary then some 0 else none, refresh := refreshOf kind,
    refs := #v[0, 0, 0, 1, 0, 0, 2], baseQIdx := q, deltaQPresent := false, usingQMatrix := false, filterSwitchable := false,
    interpolationFilter := 0, loopFilterLevel := Vector.replicate 4 level, sharpness := 0, reducedTxSet := true, txModeSelect := true }

/-- The slot of a number. -/
def StreamSt.slot (t : StreamSt) (n : Nat) : Option RefSlot := if n = 0 then t.slot0 else if n = 1 then t.slot1 else t.slot2

/-! ### Blocks (R272, R273) -/

/-- The change of a scroll value modulo a map size, as the value nearest 0: −256 to 255 for the larger map (DESIGN CHOICE for the smaller:
R272 gives one range for both; notes/assumptions/55.md). -/
def scrollStep (size new old : Nat) : Int :=
  let d := (new + size - old % size) % size
  if 2 * d < size then d else (d : Int) - size

/-- The vector of a tile layer: the change of its (SCX, SCY). -/
def layerVector (ctl : Byte) (new old : BitVec 9 × BitVec 9) : Int × Int :=
  (scrollStep (if ctl.getLsbD 6 then 512 else 256) new.1.toNat old.1.toNat,
   scrollStep (if ctl.getLsbD 7 then 512 else 256) new.2.toNat old.2.toNat)

/-- The sprites of a block drawn in both frames, each with the change of its (X, Y), the later position less the earlier (R272;
notes/assumptions/55.md). -/
def spriteVectors (new old : Hints) (m : BlockMark) : List (Int × Int) :=
  m.sprites.filterMap (fun k =>
    match new.sprites.find? (fun e => e.1 == k), old.sprites.find? (fun e => e.1 == k) with
    | some a, some b => some (a.2.1 - b.2.1, a.2.2 - b.2.2)
    | _, _ => none)

/-- Both components lie within ±128. -/
def shortVector (v : Int × Int) : Bool := decide (v.1.natAbs ≤ 128) && decide (v.2.natAbs ≤ 128)

/-- The candidate vectors of a block against the last encoded frame (R272). -/
def candidates (new old : Hints) (b : Nat) : List (Int × Int) :=
  let more :=
    match new.blocks[b]?, old.blocks[b]? with
    | some m, some o =>
      ((List.finRange 4).filter (fun n => m.shown.getLsbD n.val)).map (fun n => layerVector new.ctl[n] m.scroll[n] o.scroll[n]) ++
        spriteVectors new old m
    | _, _ => []
  ((((0, 0) :: more).filter shortVector).eraseDups).take 8

/-- A luma sample of a reference at a position, its nearest one outside the picture (PRESUMED of AV1; notes/assumptions/55.md). -/
def Yuv.luma (r : Yuv) (x y : Int) : Nat :=
  (r.y.getD ((clampInt 0 (r.h - 1) y).toNat * r.w + (clampInt 0 (r.w - 1) x).toNat) 0).toNat

/-- The sum of absolute luma differences of a block of 8 × 8, as far as it lies in the picture, under a vector. -/
def Yuv.sad (src ref : Yuv) (b : Nat) (v : Int × Int) : Nat :=
  let x0 := 8 * (b % ceilDiv src.w 8)
  let y0 := 8 * (b / ceilDiv src.w 8)
  ((List.range 64).filter (fun i => decide (x0 + i % 8 < src.w) && decide (y0 + i / 8 < src.h))).foldl (fun n i =>
    let x : Int := x0 + i % 8
    let y : Int := y0 + i / 8
    n + ((src.luma x y : Int) - ref.luma (x + v.1) (y + v.2)).natAbs) 0

/-- The candidate whose prediction differs least, the earliest of equals. -/
def bestVector (cost : Int × Int → Nat) : List (Int × Int) → Int × Int
  | [] => (0, 0)
  | v :: vs => vs.foldl (fun m w => if cost w < cost m then w else m) v

/-- How a block is coded: intra in a key frame, skipped where unchanged, else inter with the best candidate or intra. -/
def FrameInput.blockCode (n : FrameInput) (new old : Hints) (b : Nat) : BlockCode :=
  match n.ref with
  | none => .intra
  | some r =>
    if !n.changed.contains b then .skip
    else
      let v := bestVector (n.src.sad r.recon b) (candidates new old b)
      if Config.intraCheaper n b v then .intra else .inter v

/-- One plane of the reconstruction: that of the reference in skipped blocks (R273). `side` is the block's side in the plane. -/
def FrameInput.reconPlane (n : FrameInput) (codes : List BlockCode) (plane side : Nat) (src ref : List Byte) : List Byte :=
  let w := n.src.w / (8 / side)
  (List.range src.length).map (fun i =>
    let b := (i / w / side) * ceilDiv n.src.w 8 + i % w / side
    if codes[b]? = some .skip then ref.getD i 0 else Config.reconByte n codes plane i)

/-- What the frame leaves as a reference. -/
def FrameInput.recon (n : FrameInput) (codes : List BlockCode) : Yuv :=
  let r := (n.ref.map (fun r => r.recon)).getD { w := n.src.w, h := n.src.h, y := [], cb := [], cr := [] }
  { w := n.src.w, h := n.src.h, y := n.reconPlane codes 0 8 n.src.y r.y, cb := n.reconPlane codes 1 4 n.src.cb r.cb,
    cr := n.reconPlane codes 2 4 n.src.cr r.cr }

/-- The encoding of a frame of a kind from a slot (R268 to R275). -/
def StreamSt.encode (pic : Picture) (e kind slot q : Nat) (changed : List Nat) (t : StreamSt) : Encoding :=
  let n : FrameInput :=
    { seq := t.cfg.seqHeader pic.w pic.h, head := t.cfg.frameHeader kind q, src := pic.yuv t.cfg.bt601, changed := changed,
      ref := if kind = kindKey then none else t.slot slot }
  let old := (t.lastEnc.map (fun p => p.hints)).getD { blocks := [], ctl := Vector.replicate 4 0, sprites := [] }
  let codes := (List.range pic.blockCount).map (n.blockCode pic.hints old)
  { pic := pic, kind := kind, refSlot := slot, qp := q, e := e, changed := changed, src := n.src, head := n.head, codes := codes,
    recon := n.recon codes, context := Config.entropyContext n codes, unit := Config.unitCode n codes }

/-! ### A harvester frame starts (R268, R278, R281, R282) -/

/-- A real-time pan that is halted or faulted repeats its last whole frame (R198). -/
def Site.repeats (x : Site) : Bool := x.phase.isSome && (x.mode == .halted || x.mode == .faulted)

/-- The pan has a frame the harvester has not taken, or repeats its last. -/
def Site.offers (x : Site) : Bool :=
  x.stream.any (fun t => t.enc.isNone && x.lastFrame.any (fun f => t.seen != some f.frame || x.repeats))

/-- E of the frame offered. -/
def Site.offerEnd (x : Site) : Nat :=
  if x.stream.any (fun t => x.lastFrame.any (fun f => t.seen == some f.frame)) then x.lastEnd + x.pan.cfg.fp else x.lastEnd

/-- The bay's harvester is free, and no pan of the bay has a frame that goes before (R285). -/
def State.harvesterFree (p : Nat) (x : Site) (s : State) : Bool :=
  s.sites.all (fun e => e.2.bay != x.bay || e.1 == p ||
    (e.2.stream.all (fun t => t.enc.isNone) &&
      !(e.2.offers && (decide (e.2.offerEnd < x.offerEnd) || (e.2.offerEnd == x.offerEnd && decide (e.1 < p))))))

/-- The device's engines that serve streams work. -/
def State.works (s : State) : Bool := s.awake && !s.pwr.d3hot && !s.fatal

/-- The pan whose frame the harvester can begin. -/
def State.harvestable (p : Nat) (s : State) : Option Site :=
  if s.works then (s.site p).filter (fun x => x.offers && s.harvesterFree p x) else none

/-- A setting, request or report that takes effect at the harvester frame: settings and parts of a commit once their epoch has
passed. -/
def Waiting.atHarvest (p : Nat) (w : Waiting) : Bool :=
  w.at_ == .harvester p && (w.epochDone || !(waitsEpoch w.opcode || w.txn.isSome))

/-- The change map of a frame of the stream (R271, R283). -/
def StreamSt.changeMap (pic : Picture) (t : StreamSt) : List Nat := changedBlocks (t.changedFor == some pic.frame) t.lastEnc pic

/-- A held frame, or one whose encoding begins. -/
def StreamSt.begin_ (pic : Picture) (e draw : Nat) (t : StreamSt) : StreamSt :=
  let map := t.changeMap pic
  let u := { t with seen := some pic.frame, changedFor := t.changedFor.filter (fun k => decide (pic.frame < k)), keyReqs := [], losses := [] }
  let v := match t.lossAnswer with
    | some .ignore => { u with ignored := (t.ignored + 1) % 2 ^ 32 }
    | some _ => { u with answered := (t.answered + 1) % 2 ^ 32 }
    | none => u
  match t.decide_ map with
  | none => { v with held := t.held + 1, heldCnt := (t.heldCnt + 1) % 2 ^ 32 }
  | some (kind, slot) =>
    let every := List.range pic.blockCount
    let marked := if kind = kindKey ∨ (t.recoverySlot.isSome ∧ map.isEmpty) then every else map
    { v with held := 0, enc := some (t.encode pic e kind slot (t.cfg.qIdx kind draw) marked) }

/-- The frame a pan offers begins: settings, requests and reports that wait take effect, and its kind is decided. -/
def State.harvest (p : Nat) (s : State) : State :=
  let t := (s.modStream p (StreamSt.drain s.now)).landParts (Waiting.atHarvest p) s.waiting.length
  match t.site p with
  | none => t
  | some x =>
    match x.lastFrame with
    | none => t
    | some pic => ((t.putSite p { x with lastEnd := x.offerEnd }).modStream p (StreamSt.begin_ pic x.offerEnd t.free)).drawn

/-- `HARVESTER_FRAME`: The harvester begins a pan frame, deciding hold, key, recovery or ordinary kind (R268). -/
def execHarvesterFrame (p : PanNo) (s : State) : Result := if (s.harvestable p).isSome then .next (s.harvest p) else .next s

/-- What the harvester would decide of the frame a pan offers, by a test of the stream with its requests in. -/
def State.wouldBe (p : Nat) (f : StreamSt → List Nat → Bool) (s : State) : Bool :=
  let t := s.landParts (Waiting.atHarvest p) s.waiting.length
  (s.harvestable p).isSome && (t.site p).any (fun x =>
    x.stream.any (fun g => x.lastFrame.any (fun pic => f g (g.changeMap pic))))

/-- `KEY_INTERVAL_EXPIRY`: KEY_INTERVAL frames have been emitted and the frame is a key frame (R276). -/
def execKeyIntervalExpiry (p : PanNo) (s : State) : Result :=
  if s.wouldBe p (fun g _ => g.keyByInterval) then .next (s.harvest p) else .next s

/-- `HOLD_REFRESH_EXPIRY`: HOLD_REFRESH consecutive held frames produce a keep-alive (R281). -/
def execHoldRefreshExpiry (p : PanNo) (s : State) : Result :=
  if s.wouldBe p (fun g m => (g.decide_ m).any (fun k => k.1 == kindKeepAlive)) then .next (s.harvest p) else .next s

/-- `RECOVERY_INTERVAL_EXPIRY`: RECOVERY_INTERVAL emitted frames have passed and a recovery frame falls due (R275). -/
def execRecoveryIntervalExpiry (p : PanNo) (s : State) : Result :=
  if s.works then
    .next (s.modStream p (fun t => if t.recoveryByInterval && t.slot1.isSome then { t with recDue := true } else t))
  else .next s

/-! ### Temporal units and packets (R284, R319, R321) -/

/-- Bytes of a LEB128 number. -/
def lebLen (n : Nat) : Nat := if n < 128 then 1 else if n < 16384 then 2 else if n < 2097152 then 3 else if n < 268435456 then 4 else 5

/-- LEB128: seven bits a byte, lowest first, bit 7 set in all but the last. -/
def leb128 : Nat → Nat → List Byte
  | 0, _ => []
  | k + 1, n => if n < 128 then [BitVec.ofNat 8 n] else BitVec.ofNat 8 (n % 128 + 128) :: leb128 k (n / 128)

/-- Bytes of an OBU with its size field, given its length without. -/
def obuSized (n : Nat) : Nat := n + lebLen (n - 1)

/-- RTP payload space of a video packet (R321). -/
def Stream.space (g : Stream) : Nat := g.mtu - 12 - 16 - (if g.extId = 0 then 0 else 12)

/-- The most of `left` bytes that fit in `room` behind their LEB128 length. -/
def fitElem (left room : Nat) : Nat :=
  if left + lebLen left ≤ room then left
  else
    let k := (List.range 4).foldl (fun m i => let c := room - (i + 1); if lebLen c ≤ i + 1 ∧ m < c then c else m) 0
    min k left

/-- One packet filled from what is left of the OBUs (first byte where the OBU starts here, bytes left): its elements and the rest. -/
def fillPacket : Nat → List (Option Byte × Nat) → List (Option Byte × Nat) × List (Option Byte × Nat)
  | _, [] => ([], [])
  | room, o :: os =>
    let k := fitElem o.2 room
    if k = 0 then ([], o :: os)
    else if k < o.2 then ([(o.1, k)], (none, o.2 - k) :: os)
    else
      let r := fillPacket (room - k - lebLen k) os
      ((o.1, k) :: r.1, r.2)

/-- A packet's elements, whether its first continues an OBU, and whether its last goes on. -/
abbrev Filled := List (Option Byte × Nat) × Bool × Bool

/-- The packets of a temporal unit, `n` at most. -/
def fillPackets (space : Nat) : Nat → List (Option Byte × Nat) → List Filled
  | 0, _ => []
  | n + 1, os =>
    if os.isEmpty then []
    else
      let r := fillPacket (space - 1) os
      (r.1, os.any (fun o => o.1.isNone), r.2.any (fun o => o.1.isNone)) :: fillPackets space n r.2

/-- The OBUs the payloads of a temporal unit carry, without `obu_size`: header byte and length. -/
def carriedObus (key : Bool) (seqLen frameLen : Nat) : List (Option Byte × Nat) :=
  (if key then [(some 0x08, seqLen)] else []) ++ [(some 0x30, frameLen)]

/-- The packets of an encoded frame: packet i departs at E + EMIT_DELAY + i × GAP (R228). -/
def Encoding.packets (n : Encoding) (p now seqLen frameLen : Nat) (g : Stream) : List NetPacket :=
  let key := n.kind == kindKey
  let fs := fillPackets g.space (seqLen + frameLen + 1) (carriedObus key seqLen frameLen)
  (fs.zipIdx).map (fun e =>
    { pan := p, video := true, unit := n.unit, index := e.2, first := key && e.2 == 0, last := e.2 + 1 == fs.length, cont := e.1.2.1,
      more := e.1.2.2, elems := e.1.1, ext := g.extId, frame := n.pic.frame, ts := BitVec.ofNat 32 (n.e * 9 / 1600000),
      dep := n.e + g.emitDelay * Config.usUnits + e.2 * g.gap * 16, ready := now, gone := 0 })

/-- The OBUs of a temporal unit: delimiter, sequence header in a key frame, frame (R284). -/
def unitObus (key : Bool) (seqLen frameLen : Nat) : List Obu :=
  let obu := fun kind size => Obu.mk kind true false 0 0 size
  [obu 2 2] ++ (if key then [obu 1 (obuSized seqLen)] else []) ++ [obu 6 (obuSized frameLen)]

/-- Bytes of a temporal unit. -/
def unitBytes (os : List Obu) : Nat := os.foldl (fun n o => n + o.size) 0

/-- References, counts and rate after an encoded frame (R274, R275, R279, R284, R287). -/
def StreamSt.encoded (n : Encoding) (now : Nat) (os : List Obu) (t : StreamSt) : StreamSt :=
  let u := { (t.drain now).fill (unitBytes os) with
    enc := none, obus := os, header := some n.head, keyDue := false, lastEnc := some n.pic, sinceKey := t.sinceKey + 1,
    emitted := if h : n.kind < 4 then t.emitted.set n.kind ((t.emitted[n.kind] + 1) % 2 ^ 32) else t.emitted,
    slow := if n.e + t.cfg.emitDelay * Config.usUnits < now then (t.slow + 1) % 2 ^ 32 else t.slow }
  let f : Option RefSlot := some { frame := n.pic.frame, recon := n.recon, context := n.context }
  if n.kind = kindKey then { u with slot0 := f, slot1 := f, slot2 := f, sinceKey := 0, sinceRec := 0, recDue := false }
  else if n.kind = kindRecovery then { u with slot0 := f, slot2 := f, sinceRec := 0, recDue := false }
  else if n.kind = kindOrdinary then { u with slot0 := f, sinceRec := t.sinceRec + 1 }
  else u

/-- An encoded frame is finished: its packets are queued and its references stand. -/
def State.finishFrame (p : Nat) (t : StreamSt) (n : Encoding) (s : State) : State :=
  let seqLen := max 2 (Config.seqHeaderBytes (t.cfg.seqHeader n.pic.w n.pic.h))
  let frameLen := max 2 (Config.frameObuBytes n.unit)
  let ks := n.packets p s.now seqLen frameLen t.cfg
  { s.modStream p (StreamSt.encoded n s.now (unitObus (n.kind == kindKey) seqLen frameLen)) with packets := s.packets ++ ks }

/-- `HARVESTER_FRAME_DONE`: Encoding of a temporal unit finishes and its packets are queued (R284). -/
def execHarvesterFrameDone (p : PanNo) (s : State) : Result :=
  match s.site p with
  | none => .next s
  | some x =>
    match x.stream with
    | none => .next s
    | some t =>
      match t.enc with
      | none => .next s
      | some n => if s.works then .next (s.finishFrame p t n) else .next s

end Sys2Proof.Machine
end

