-- ==== Sys2Proof/Machine/Net.lean ====
section
/-!
DEFINITION. The network fast path (R304 to R326): classification of received frames, input records, the building of copies, their
departure, host packets, and the links.
-/
namespace Sys2Proof.Machine

/-! ### Checksums and datagrams (R311, R322) -/

/-- The sum of 16-bit words in network order, an odd last byte padded with 0. -/
def wordSum : List Byte → Nat
  | [] => 0
  | [a] => a.toNat * 256
  | a :: b :: t => a.toNat * 256 + b.toNat + wordSum t

/-- The ones' complement sum folded to 16 bits. -/
def foldSum (n : Nat) : Nat :=
  let a := n % 65536 + n / 65536
  a % 65536 + a / 65536

/-- The Internet checksum of some bytes. -/
def inetSum (bs : List Byte) : Nat := 65535 - foldSum (wordSum bs)

/-- The bytes an IP address has on the wire. -/
def wireAddr (v6 : Bool) (a : List Byte) : List Byte := if v6 then slice a 0 16 else slice a 12 4

/-- The UDP checksum over a pseudo header and a datagram whose checksum field is 0; 0 is sent as all ones. -/
def udpSum (v6 : Bool) (src dst dgram : List Byte) : Nat :=
  let n := dgram.length
  let pseudo := wireAddr v6 src ++ wireAddr v6 dst ++ (if v6 then beBytes 4 n ++ [0, 0, 0, 17] else [0, 17] ++ beBytes 2 n)
  let c := inetSum (pseudo ++ dgram)
  if c = 0 then 65535 else c

/-- A UDP datagram: tag, version, addresses in 16 bytes, ports, payload. -/
structure Datagram where
  vid : Option Nat
  v6 : Bool
  src : List Byte
  dst : List Byte
  sport : Nat
  dport : Nat
  payload : List Byte

/-- The UDP part of a packet, where its length and checksum hold. -/
def udpOf (vid : Option Nat) (v6 : Bool) (src dst bs : List Byte) : Option Datagram :=
  let n := beNat (slice bs 4 2)
  let sum := beNat (slice bs 6 2)
  let d := bs.take n
  if 8 ≤ n ∧ n ≤ bs.length ∧ (sum = 0 ∨ sum = udpSum v6 src dst (d.take 6 ++ [0, 0] ++ d.drop 8)) then
    some { vid := vid, v6 := v6, src := src, dst := dst, sport := beNat (slice bs 0 2), dport := beNat (slice bs 2 2), payload := d.drop 8 }
  else none

/-- An IPv4 packet without options, with a good header checksum, unfragmented, that carries UDP. -/
def ipv4Of (vid : Option Nat) (bs : List Byte) : Option Datagram :=
  let h := bs.take 20
  let n := beNat (slice bs 2 2)
  if bs.getD 0 0 = 0x45 ∧ 20 ≤ n ∧ n ≤ bs.length ∧ inetSum h = 0 ∧ beNat (slice bs 6 2) % 16384 = 0 ∧ bs.getD 9 0 = 17 then
    let addr := fun o => List.replicate 12 0 ++ slice bs o 4
    udpOf vid false (addr 12) (addr 16) ((bs.take n).drop 20)
  else none

/-- An IPv6 packet without extension headers that carries UDP. -/
def ipv6Of (vid : Option Nat) (bs : List Byte) : Option Datagram :=
  let n := beNat (slice bs 4 2)
  if bs.getD 0 0 / 16 = 6 ∧ 40 + n ≤ bs.length ∧ bs.getD 6 0 = 17 then
    udpOf vid true (slice bs 8 16) (slice bs 24 16) ((bs.drop 40).take n)
  else none

/-- Ethertype of a frame. -/
def etherType (frame : List Byte) : Nat := beNat (slice frame 12 2)

/-- The datagram of a frame with at most one 802.1Q tag. -/
def datagramOf (frame : List Byte) : Option Datagram :=
  let tagged := etherType frame == 0x8100
  let vid := if tagged then some (beNat (slice frame 14 2) % 4096) else none
  let o := if tagged then 16 else 12
  match beNat (slice frame o 2) with
  | 0x0800 => ipv4Of vid (frame.drop (o + 2))
  | 0x86DD => ipv6Of vid (frame.drop (o + 2))
  | _ => none

/-! ### PKT_RX (R325, R345) -/

/-- A port's counters changed. -/
def State.countPort (e : Fin 2) (f : PortCtr → PortCtr) (s : State) : State := s.modPort e (fun p => { p with ctr := f p.ctr })

/-- A flow entry's counters changed. -/
def State.countFlow (n : Nat) (f : FlowCtr → FlowCtr) (s : State) : State := s.putFlow n { s.flow n with ctr := f (s.flow n).ctr }

/-- One more of a 32-bit counter. -/
def inc32 (n : Nat) : Nat := (n + 1) % 2 ^ 32

/-- The port's PKT_RX ring has room for a frame. -/
def State.rxTakes (e : Fin 2) (n : Nat) (s : State) : Bool := (s.ring s.ports[e].rxRing).any (fun r => (r.dataPlace n).isSome && !r.full)

/-- A frame goes to the port's PKT_RX ring with the entry it matched, or is discarded and counted. -/
def State.toHost (e : Fin 2) (entry : Option Nat) (frame : List Byte) (s : State) : State :=
  let n := s.ports[e].rxRing
  let drop := s.countPort e (fun k => { k with ringFull := inc32 k.ringFull })
  match s.ring n with
  | none => drop
  | some r =>
    match r.dataPlace frame.length with
    | none => drop
    | some off =>
      if r.full then drop
      else
        let pre := leBytes 2 frame.length ++ [BitVec.ofNat 8 e.val, if entry.isSome then 1 else 0] ++ leBytes 2 (entry.getD 0) ++ [0, 0]
        let t := (s.hostWrite (r.dataBase + off) frame).putRing n (r.dataTaken off frame.length)
        (t.pushEntry n (pre ++ leBytes 8 off ++ leBytes 8 s.now ++ List.replicate 8 0)).countPort e
          (fun k => { k with toRing := inc32 k.toRing })

/-! ### Matching (R309, R311) -/

/-- A valid entry's receive key is the datagram's. -/
def State.matchesEntry (s : State) (e : Fin 2) (d : Datagram) (f : Flow) : Bool :=
  f.valid && f.port == e && f.vid == d.vid && s.ports[e].addrs[f.laddr] == some (d.v6, d.dst) && f.num 14 2 == d.dport &&
    slice f.bytes 16 16 == d.src && f.num 32 2 == d.sport && f.ipv6 == d.v6

/-- The entry a datagram belongs to. -/
def State.entryOf (s : State) (e : Fin 2) (d : Datagram) : Option Nat :=
  if s.ports[e].addrs.toList.contains (some (d.v6, d.dst)) then (s.flows.find? (fun q => s.matchesEntry e d q.2)).map (fun q => q.1)
  else none

/-! ### Input records (R312 to R315, R220, R221) -/

/-- TAGGED. -/
def recTagged (b : List Byte) : Bool := (b.getD 1 0).getLsbD 7
/-- ALIVE. -/
def recAlive (b : List Byte) : Word := BitVec.ofNat 16 (beNat (slice b 2 2))
/-- CTIME. -/
def recTime (b : List Byte) : Nat := beNat (slice b 4 6)
/-- The bytes of slot offsets 0 to 6: BTN_L, BTN_H, AX0 to AX3, EVT (R89). -/
def recData (b : List Byte) : Vector Byte 7 := byteVec 7 ([b.getD 11 0, b.getD 10 0] ++ slice b 12 5)

/-- Key bytes of a suite. -/
def keyLen (suite : Nat) : Nat := if suite = 1 then 16 else 32

/-- The tag a record of an entry must carry (R315). -/
def Flow.recordTag (f : Flow) (b : List Byte) : List Byte :=
  let iv := (f.inSalt.zip ([0, 0, 0, 0] ++ slice b 2 8)).map (fun e => e.1 ^^^ e.2)
  gcmSeal (f.inKey.take (keyLen f.suite)) iv (b.take 32) []

/-- Check 1. -/
def badFormat (f : Flow) (b : List Byte) : Bool :=
  !(b.length == (if recTagged b then 48 else 32)) || b.getD 0 0 != 0x51 || decide (0 < bits (b.getD 1 0) 6 0) || (recTagged b && !f.intag)

/-- How far an alive counter lies ahead of the last one accepted. -/
def Flow.ahead (f : Flow) (b : List Byte) : Option Nat := f.last.map (fun l => (recAlive b - l).toNat)

/-- The pan's mode rejects records (R223). -/
def Site.rejectsRecords (x : Site) : Bool := !(x.realTime || x.mode == .free || x.mode == .step)

/-- The cause of the first check a record fails (R313). -/
def rejectCause (f : Flow) (slot : Nat) (x : Option Site) (b : List Byte) : Option Nat :=
  if badFormat f b then some 1
  else if BitVec.ofNat 32 (beNat (slice b 28 4)) ≠ crc32c (b.take 28) then some 2
  else if f.intag && (!recTagged b || f.recordTag b != slice b 32 16) then some 3
  else if !x.any (fun y => y.attached.getLsbD slot) then some 4
  else if f.ahead b = some 0 then some 5
  else if (f.ahead b).any (fun n => decide (1025 ≤ n)) then some 6
  else if x.any Site.rejectsRecords then some 7
  else if x.any (fun y => decide (64 ≤ y.inputsWaiting)) then some 8
  else none

/-- The value with bits [47:0] equal to a field that lies nearest to a target; the lower of two equally near. -/
def nearestFull (field : Nat) (target : Int) : Int :=
  let m : Int := 281474976710656
  let below := target - (target - field) % m
  if below + m - target < target - below then below + m else below

/-- The time a record's placement is counted from (R221), and whether FUTURE or STALE counts. -/
def SlotPlace.mapped (a ctime : Nat) (k : SlotPlace) : Int × Bool × Bool :=
  if !k.client then ((a : Int), false, false)
  else
    let m := 16 * nearestFull ctime (fdiv (a - k.offset) 16) + k.offset
    let future := decide ((a : Int) < m)
    let n := if future then (a : Int) else m
    let stale := decide (n < a - k.window)
    (if stale then a - k.window else n, future, stale)

/-- A record accepted by its pan: queued for its placement time, no earlier than the attach before it (R91). -/
def State.acceptRecord (p entry : Nat) (slot : Fin 16) (b : List Byte) (x : Site) (s : State) : State :=
  let m := (x.slotPlace[slot]).mapped s.now (recTime b)
  let y := x.accept s.now (x.afterAttach slot (m.1 + x.inputDelay).toNat) (.input slot (recData b))
  let late := y.ctr.latePlaced - x.ctr.latePlaced
  let t := s.putSite p y
  (t.putFlow entry { t.flow entry with last := some (recAlive b) }).countFlow entry (fun k =>
    { k with accepted := inc32 k.accepted, future := if m.2.1 then inc32 k.future else k.future,
             stale := if m.2.2 then inc32 k.stale else k.stale, latePlaced := (k.latePlaced + late) % 2 ^ 32 })

/-- A record rejected: counted under its cause, by the pan too when its queue is full, and copied to the bittern ring (R222,
R313, R325). -/
def State.rejectRecord (e : Fin 2) (entry cause : Nat) (b : List Byte) (s : State) : State :=
  let t := s.countFlow entry (fun k =>
    { k with rejects := if h : cause - 1 < 8 then k.rejects.set (cause - 1) (inc32 k.rejects[cause - 1]) else k.rejects })
  let u := if cause = 8 then t.modSite (entry / 16) (fun x => { x with ctr := { x.ctr with rejects := x.ctr.rejects + 1 } }) else t
  u.bitternWrite (bitternRecord cause e.val entry b.length s.now b)

/-- An input record checked in the order of R313. -/
def State.inputRecord (e : Fin 2) (entry : Nat) (b : List Byte) (s : State) : State :=
  let slot : Fin 16 := ⟨entry % 16, by omega⟩
  match rejectCause (s.flow entry) slot.val (s.site (entry / 16)) b, s.site (entry / 16) with
  | some c, _ => s.rejectRecord e entry c b
  | none, some x => s.acceptRecord (entry / 16) entry slot b x
  | none, none => s

/-! ### Reception (R306, R311) -/

/-- A frame that R306 does not discard is classified. -/
def State.classify (e : Fin 2) (frame : List Byte) (s : State) : State :=
  match datagramOf frame with
  | none => s.toHost e none frame
  | some d =>
    match s.entryOf e d with
    | none => s.toHost e none frame
    | some n =>
      if !d.payload.isEmpty && bits (d.payload.headD 0) 7 6 == 2 then
        (if s.rxTakes e frame.length then s.countFlow n (fun k => { k with toHost := inc32 k.toHost }) else s).toHost e (some n) frame
      else if !(s.flow n).rx then s.toHost e (some n) frame
      else s.inputRecord e n d.payload

/-- A frame, from destination MAC to the last byte before the FCS, as it arrives (R306). -/
def State.receive (e : Fin 2) (frame : List Byte) (fcsOk : Bool) (s : State) : State :=
  let n := frame.length + 4
  let dst := slice frame 0 6
  if !fcsOk then s.countPort e (fun k => { k with fcs := inc32 k.fcs })
  else if n < 64 ∨ 9216 < n then s.countPort e (fun k => { k with size := inc32 k.size })
  else
    let t := s.countPort e (fun k => { k with rxFrames := inc32 k.rxFrames, rxBytes := (k.rxBytes + n) % 2 ^ 64 })
    if etherType frame = 0x8808 then t.countPort e (fun k => { k with macCtl := inc32 k.macCtl })
    else if !(dst.headD 0).getLsbD 0 && dst != t.ports[e].mac then t.countPort e (fun k => { k with foreign := inc32 k.foreign })
    else t.classify e frame

/-- The port runs at 100 Gb/s. -/
def Port.fast (e : Nat) (p : Port) : Bool := p.mode == 1 || p.mode == 2 || (p.mode == 0 && Config.negotiatedFast e)

/-- The port's FEC counts on, where the mode in force has one: 100 Gb/s always, 25 Gb/s with a FEC chosen (R304, R326). -/
def State.countFec (e : Fin 2) (s : State) : State :=
  if s.ports[e].fast e.val || s.ports[e].fec != 2 then
    s.drawn.countPort e (fun k => { k with fecCorr := (k.fecCorr + Config.fecCorrected s.free) % 2 ^ 64,
                                           fecUncorr := (k.fecUncorr + Config.fecFailed s.free) % 2 ^ 64 })
  else s

/-- Settings whose epoch has come by an instant are in force at it, that of the boundary included (R213, R310). -/
def State.inForce (t : Nat) (s : State) : State := if s.nextEpoch ≤ t then s.epoch else s

/-- The port works and its link is up. -/
def State.portUp (e : Fin 2) (s : State) : Bool := s.awake && !s.fatal && s.dev.ready.getLsbD (rdyEth e.val) && s.ports[e].up

/-- `RX_FRAME`: An Ethernet frame arrives and is discarded, classified to a ring, or checked as an input record (R311). -/
def execRxFrame (e : Fin 2) (frame : List Byte) (fcsOk : Bool) (s : State) : Result :=
  if s.portUp e then .next (((s.inForce s.now).countFec e).receive e frame fcsOk) else .next s

/-! ### Building a copy (R318 to R322) -/

/-- Bytes of an element: the first where the spec gives it, the others free. -/
def elemBytes (video : Bool) (unit off : Nat) (e : Option Byte × Nat) : List Byte :=
  let body := (List.range e.2).map (fun i => if video then Config.unitByte unit (off + i) else Config.payloadByte unit (off + i))
  match e.1 with
  | some b => b :: body.tail
  | none => body

/-- The elements of a video payload, each behind its LEB128 length. -/
def videoElems (unit : Nat) : Nat → List (Option Byte × Nat) → List Byte
  | _, [] => []
  | off, e :: es => leb128 5 e.2 ++ elemBytes true unit off e ++ videoElems unit (off + e.2) es

/-- The RTP payload of a packet (R319, R320). -/
def NetPacket.payload (k : NetPacket) : List Byte :=
  let off := 65536 * k.index
  if k.video then
    setBit (setBit (setBit 0 3 k.first) 6 k.more) 7 k.cont :: videoElems k.unit off k.elems
  else k.elems.flatMap (elemBytes false k.unit off)

/-- The header extension that carries the frame number (R318). -/
def frameExt (id frame : Nat) : List Byte := [0xBE, 0xDE, 0, 2, BitVec.ofNat 8 (id * 16 + 3)] ++ beBytes 4 frame ++ [0, 0, 0]

/-- SSRC of an entry. -/
def Flow.ssrc (f : Flow) (video : Bool) : Nat := if video then f.num 36 4 else f.num 40 4
/-- Payload type of an entry. -/
def Flow.pt (f : Flow) (video : Bool) : Nat := (if video then f.num 3 1 else f.num 44 1) % 128
/-- Copies sent to an entry. -/
def Flow.sent (f : Flow) (video : Bool) : Nat := if video then f.sentV else f.sentA
/-- Rollover counter of an SSRC. -/
def Flow.roc (f : Flow) (video : Bool) : Nat := if video then f.rocV else f.rocA
/-- Sequence number of the next copy. -/
def Flow.seq (f : Flow) (video : Bool) : Nat := (f.ssrc video + f.sent video) % 65536

/-- RTP header and extension of a copy. -/
def NetPacket.header (k : NetPacket) (f : Flow) : List Byte :=
  let x := k.video && decide (k.ext ≠ 0)
  let ssrc := f.ssrc k.video
  [if x then 0x90 else 0x80, setBit (BitVec.ofNat 8 (f.pt k.video)) 7 (k.video && k.last)] ++ beBytes 2 (f.seq k.video) ++
    beBytes 4 ((ssrc + k.ts.toNat) % 2 ^ 32) ++ beBytes 4 ssrc ++ (if x then frameExt k.ext k.frame else [])

/-- The UDP payload of a copy: RTP, protected under the entry's suite (R321). -/
def NetPacket.datagram (k : NetPacket) (f : Flow) : List Byte :=
  let h := k.header f
  let b := k.payload
  if f.suite = 0 then h ++ b
  else h ++ srtpProtect (f.masterKey.take (keyLen f.suite)) f.masterSalt (f.ssrc k.video) (f.roc k.video) (f.seq k.video) h b

/-- UDP header and payload. -/
def udpBytes (v6 : Bool) (src dst : List Byte) (sport dport : Nat) (b : List Byte) : List Byte :=
  let h := beBytes 2 sport ++ beBytes 2 dport ++ beBytes 2 (b.length + 8)
  h ++ beBytes 2 (udpSum v6 src dst (h ++ [0, 0] ++ b)) ++ b

/-- IP header over a UDP datagram (R322). -/
def ipBytes (f : Flow) (src dst u : List Byte) : List Byte :=
  let tos := f.num 6 1 / 4 * 4
  if f.ipv6 then beBytes 4 (6 * 2 ^ 28 + tos * 2 ^ 20) ++ beBytes 2 u.length ++ [17, BitVec.ofNat 8 (f.num 7 1)] ++ src ++ dst ++ u
  else
    let h := [0x45, BitVec.ofNat 8 tos] ++ beBytes 2 (u.length + 20) ++ [0, 0, 0x40, 0, BitVec.ofNat 8 (f.num 7 1), 17]
    let a := slice src 12 4 ++ slice dst 12 4
    h ++ beBytes 2 (inetSum (h ++ [0, 0] ++ a)) ++ a ++ u

/-- A frame padded to the 64 bytes a frame has at least with its FCS (R304, R306). -/
def padFrame (b : List Byte) : List Byte := b ++ List.replicate (60 - b.length) 0

/-- The frame of a copy, without FCS. -/
def State.copyFrame (s : State) (k : NetPacket) (f : Flow) : List Byte :=
  let port := s.ports[f.port]
  let src := ((port.addrs[f.laddr]).map (fun a => a.2)).getD (List.replicate 16 0)
  let dst := slice f.bytes 16 16
  let u := udpBytes f.ipv6 src dst (f.num 14 2) (f.num 32 2) (k.datagram f)
  padFrame (slice f.bytes 8 6 ++ port.mac ++ (if f.vlan then [0x81, 0x00] ++ beBytes 2 (f.num 4 2) else []) ++
    (if f.ipv6 then [0x86, 0xDD] else [0x08, 0x00]) ++ ipBytes f src dst u)

/-! ### Sending (R229, R323) -/

/-- Device time a frame of `n` bytes without FCS occupies the wire, with preamble and gap. -/
def Port.wireTime (e n : Nat) (p : Port) : Nat := ceilDiv ((n + 24) * (if p.fast e then 128 else 512)) 100

/-- Device time from the start of a frame's preamble to the first symbol after its start-of-frame delimiter, eight bytes on (R214). -/
def Port.sfdTime (e : Nat) (p : Port) : Nat := ceilDiv (8 * (if p.fast e then 128 else 512)) 100

/-- A frame leaves a port at an instant. -/
def State.sendFrame (e : Fin 2) (t : Nat) (frame : List Byte) (s : State) : State :=
  s.modPort e (fun p =>
    { p with busyUntil := t + p.wireTime e.val frame.length, sent := (t, frame) :: p.sent,
             ctr := { p.ctr with txFrames := inc32 p.ctr.txFrames, txBytes := (p.ctr.txBytes + frame.length + 4) % 2 ^ 64 } })

/-- The port is idle at an instant: it sends nothing, and no copy waits. -/
def State.portIdle (s : State) (e : Fin 2) (t : Nat) : Bool :=
  decide (s.ports[e].busyUntil ≤ t) && s.copies.all (fun c => c.port != e)

/-- Copies in the order of R229: departure time, entry, packet number. -/
def Copy.before (a b : Copy) : Bool :=
  decide (a.dep < b.dep) || (a.dep == b.dep && (decide (a.entry < b.entry) || (a.entry == b.entry && decide (a.index < b.index))))

/-- A copy put in its place among those that wait. -/
def insertCopy (c : Copy) : List Copy → List Copy
  | [] => [c]
  | d :: t => if c.before d then c :: d :: t else d :: insertCopy c t

/-- An entry takes copies of a packet. -/
def Flow.takes (k : NetPacket) (f : Flow) : Bool := f.valid && (if k.video then f.txv else f.txa)

/-- The entry after a copy has been built: sequence, rollover, and late departures. -/
def Flow.copied (k : NetPacket) (late : Bool) (f : Flow) : Flow :=
  let wrap := if f.seq k.video = 65535 then 1 else 0
  let c := { f.ctr with lateDep := if late then inc32 f.ctr.lateDep else f.ctr.lateDep }
  if k.video then { f with sentV := (f.sentV + 1) % 65536, rocV := (f.rocV + wrap) % 2 ^ 32, ctr := c }
  else { f with sentA := (f.sentA + 1) % 65536, rocA := (f.rocA + wrap) % 2 ^ 32, ctr := c }

/-- A copy of some bytes, FCS included, counts as sent (R326). -/
def FlowCtr.sentCopy (video : Bool) (bytes : Nat) (c : FlowCtr) : FlowCtr :=
  if video then { c with vCopies := inc32 c.vCopies, vBytes := (c.vBytes + bytes) % 2 ^ 64 }
  else { c with aCopies := inc32 c.aCopies, aBytes := (c.aBytes + bytes) % 2 ^ 64 }

/-- The copy of a packet for one entry: sent, or waiting for the port; not built while the link is down (R323). -/
def State.copyTo (k : NetPacket) (t : Nat) (late : Bool) (e : Fin 2) (s : State) (n : Nat) : State :=
  let f := s.flow n
  if !(f.takes k && f.port == e) then s
  else if !s.ports[e].up then s.countFlow n (fun c => { c with linkDown := inc32 c.linkDown })
  else
    let b := s.copyFrame k f
    let u := s.putFlow n (f.copied k late)
    if s.portIdle e t then (u.sendFrame e t b).countFlow n (FlowCtr.sentCopy k.video (b.length + 4))
    else { u with copies := insertCopy { port := e, entry := n, video := k.video, dep := k.dep, index := k.index, frame := b } u.copies }

/-- The instant a packet leaves: its departure time, or once it is ready. -/
def NetPacket.leaves (k : NetPacket) : Nat := max k.dep k.ready

/-- One packet leaves before another. -/
def NetPacket.before (a b : NetPacket) : Bool :=
  decide (a.leaves < b.leaves) || (a.leaves == b.leaves && (decide (a.dep < b.dep) ||
    (a.dep == b.dep && (decide (a.pan < b.pan) || (a.pan == b.pan && decide (a.index < b.index))))))

/-- The packet that departs next on a port. -/
def State.nextPacket (s : State) (e : Fin 2) : Option NetPacket :=
  match s.packets.filter (fun k => !k.gone.getLsbD e.val) with
  | [] => none
  | k :: ks => some (ks.foldl (fun a b => if b.before a then b else a) k)

/-- A packet has departed on a port; on both, it is gone. -/
def State.departed (k : NetPacket) (e : Fin 2) (s : State) : State :=
  let g := setBit k.gone e.val true
  { s with packets := if g = 3 then s.packets.erase k else s.packets.map (fun q => if q = k then { q with gone := g } else q) }

/-- A packet departs on a port: copies in entry order. -/
def State.depart (k : NetPacket) (e : Fin 2) (late : Bool) (s : State) : State :=
  let t := max s.now k.leaves
  ((List.range 16).foldl (fun u i => u.copyTo k t late e (16 * k.pan + i)) s).departed k e

/-- The next packet of a port departs, where it is late or not as asked, under the settings in force at that instant (R310). -/
def State.departIf (e : Fin 2) (late : Bool) (s : State) : Result :=
  match s.nextPacket e with
  | none => .next s
  | some k =>
    if s.works && (decide (k.dep < k.ready) == late) then s.atTime k.leaves (fun t => (t.inForce t.now).depart k e late) else .next s

/-- `PACKET_DEPARTURE`: At a packet's departure time a copy is built and sent for each eligible entry (R229). -/
def execPacketDeparture (e : Fin 2) (s : State) : Result := s.departIf e false

/-- `PACKET_LATE_DEPARTURE`: A packet not ready by its departure time leaves once ready and is counted (R229). -/
def execPacketLateDeparture (e : Fin 2) (s : State) : Result := s.departIf e true

/-- A copy that waited leaves its port once it is idle; it counts as displaced. -/
def State.sendCopy (c : Copy) (s : State) : State :=
  let t := { s with copies := s.copies.erase c }
  if !s.ports[c.port].up then t.countFlow c.entry (fun k => { k with linkDown := inc32 k.linkDown })
  else (t.sendFrame c.port (max s.now s.ports[c.port].busyUntil) c.frame).countFlow c.entry
    (fun k => { k.sentCopy c.video (c.frame.length + 4) with displaced := inc32 k.displaced })

/-- `PACKET_DISPLACED`: A copy whose port was busy leaves in the first block slot after the port falls idle (R229). -/
def execPacketDisplaced (e : Fin 2) (s : State) : Result :=
  match s.copies.find? (fun c => c.port == e) with
  | none => .next s
  | some c => if s.works then s.atTime s.ports[e].busyUntil (fun t => t.sendCopy c) else .next s

/-! ### Host packets (R324, R346) -/

/-- The next scheduled departure on a port: of a packet some entry of the port takes. -/
def State.nextDeparture (s : State) (e : Fin 2) : Option Nat :=
  let ds := (s.packets.filter (fun k => !k.gone.getLsbD e.val &&
    (List.range 16).any (fun i => (s.flow (16 * k.pan + i)).takes k && (s.flow (16 * k.pan + i)).port == e))).map NetPacket.leaves
  match ds with
  | [] => none
  | d :: t => some (t.foldl min d)

/-- A descriptor is refused: length out of range, or a reserved field not 0. -/
def txBad (d : List Byte) : Bool :=
  let n := leNat (slice d 8 2)
  decide (n < 60) || decide (9212 < n) || decide (1 < (d.getD 10 0).toNat) || d.getD 11 0 != 0 || !allZero (slice d 14 2) || !allZero (slice d 24 8)

/-- A descriptor written back: status and stamp, then the consumed index, then moderation (R340, R346). -/
def State.txDone (n status stamp : Nat) (s : State) : State :=
  match s.ring n with
  | none => s
  | some r =>
    let a := r.entryAddr r.dev
    let q := { r with dev := r.dev + 1 }
    ((((s.hostWrite (a + 12) (leBytes 2 status)).hostWrite (a + 16) (leBytes 8 stamp)).hostWrite r.idxAddr (leBytes 4 q.dev.toNat)).putRing n
      (q.visible s.now)).moderate n

/-- The descriptor a PKT_TX ring offers next is sent, refused, or waits. -/
def State.sendHost (n : Nat) (r : Ring) (s : State) : Result :=
  let e : Fin 2 := ⟨r.owner % 2, by omega⟩
  let d := s.host.readBytes (r.entryAddr r.dev) 32
  let len := leNat (slice d 8 2)
  let start := max s.now s.ports[e].busyUntil
  if txBad d then .next (s.txDone n stBadParam 0)
  else if !s.ports[e].up then .next (s.txDone n stNotReady 0)
  else if s.copies.any (fun c => c.port == e) || (s.nextDeparture e).any (fun t => decide (t < start + s.ports[e].wireTime e.val len)) then .next s
  else
    s.atTime start (fun t =>
      (t.sendFrame e start (t.host.readBytes (leNat (slice d 0 8)) len)).txDone n stOk
        (if (d.getD 10 0).getLsbD 0 then start + t.ports[e].sfdTime e.val else 0))

/-- `PKT_TX_SEND`: A host packet leaves once it fits before the next scheduled departure, and its descriptor is written back (R324). -/
def execPktTxSend (n : RingNo) (s : State) : Result :=
  match s.ring n with
  | none => .next s
  | some r => if s.works && r.kind == 5 && r.hst != r.dev then s.sendHost n r else .next s

/-! ### Links (R305) -/

/-- `LINK_UP`: A port link comes up and an event is posted (R305). -/
def execLinkUp (e : Fin 2) (s : State) : Result :=
  if s.awake && !s.fatal && s.dev.ready.getLsbD (rdyEth e.val) && !s.ports[e].up then
    .next (((s.modPort e (fun p => { p with up := true, ctr := { p.ctr with ups := inc32 p.ctr.ups } })).raise (4 + e.val)).postDev 0x000C
      [BitVec.ofNat 8 e.val, 1])
  else .next s

/-- `LINK_DOWN`: A port link goes down and an event is posted (R305). -/
def execLinkDown (e : Fin 2) (s : State) : Result := .next (s.dropLink e)

end Sys2Proof.Machine
end

