-- ==== Sys2Proof/Machine/Link.lean ====
section
/-!
DEFINITION. The host's side of the rings and the sluice: doorbells (R338), boot rings (R337), the event controller (R333, R334),
moderation (R340), records that waited for space (R341), and descriptor chains (R348 to R353).
-/
namespace Sys2Proof.Machine

/-! ### Doorbells (R338) -/

/-- How far a doorbell may move a ring's index: room for entries not taken, or entries written and not returned. -/
def Ring.mayMove (r : Ring) : Nat := if r.kind = 0 ∨ r.kind = 5 then r.size - (r.hst - r.dev).toNat else (r.dev - r.hst).toNat

/-- Payloads whose records lie below an index are returned. -/
def Ring.returned (v : BitVec 32) (r : Ring) : Ring :=
  { r with hst := v, dataUse := r.dataUse.filter (fun u => !(u.1 - v).msb) }

/-- A doorbell that moves an index wrongly, or names no ring, settles in the bittern ring (R347). -/
def State.badDoorbell (n : Nat) (value : BitVec 64) (s : State) : State :=
  s.bitternWrite (bitternRecord 0x11 0xFF n 0 s.now (leBytes 8 value.toNat))

/-- A doorbell taken. -/
def State.doorbell (n : Nat) (value : BitVec 64) (s : State) : State :=
  let v : BitVec 32 := value.setWidth 32
  match s.ring n with
  | none => s.badDoorbell n value
  | some r => if (v - r.hst).toNat ≤ r.mayMove then s.putRing n (r.returned v) else s.badDoorbell n value

/-- `DOORBELL`: A doorbell write moves a ring's host index, or settles in the bittern as an error (R338). -/
def execDoorbell (n : RingNo) (value : BitVec 64) (s : State) : Result := s.onBar (State.doorbell n value)

/-! ### Boot rings (R337) -/

/-- The 48 bytes of a boot context. -/
def bootContext (v : Vector (BitVec 32) 12) : List Byte := v.toList.flatMap (fun w => leBytes 4 w.toNat)

/-- A boot context keeps R336, reserved bytes included, with its kind. -/
def bootContextOk (kind : Nat) (ctx : List Byte) : Bool :=
  (ringOf ctx).inRange && (ringOf ctx).kind == kind && ctx.getD 27 0 == 0 && allZero (slice ctx 36 12)

/-- GO written: rings 0 and 1 are created, or ERR sets. -/
def State.bootRings (s : State) : State :=
  if !s.dev.ready.getLsbD 1 || s.boot.up then s
  else
    let a := bootContext s.boot.cmd
    let b := bootContext s.boot.cpl
    if bootContextOk 0 a && (ringOf a).owner == 1 && bootContextOk 1 b then
      { ((s.createRing 0 (ringOf a)).createRing 1 (ringOf b)) with boot := { s.boot with up := true, err := false } }
    else { s with boot := { s.boot with err := true } }

/-- `BOOT_GO`: BOOT_CTL.GO creates rings 0 and 1 from the boot registers (R337). -/
def execBootGo (s : State) : Result := s.onBar State.bootRings

/-! ### Event controller (R333, R334) -/

/-- `EVC_RAISE`: A write of EVC_RAISE raises the source written (R333). -/
def execEvcRaise (src : Byte) (s : State) : Result := s.onBar (State.raise src.toNat)

/-- Every group delivers what it can. -/
def State.deliverAll (s : State) : State := { s with evc := (List.finRange 16).foldl (fun e g => e.deliver s.now g) s.evc }

/-- `EVC_GROUP_DELIVERY`: A group's hold-off expires and its pending enabled sources are sent as MSI-X messages (R334). -/
def execEvcGroupDelivery (g : Fin 16) (s : State) : Result :=
  if s.awake && s.evc.ready g then s.atTime s.evc.holdUntil[g] (fun t => { t with evc := t.evc.deliver t.now g }) else .next s

/-! ### Rings that waited (R340, R341) -/

/-- `MODERATION_TIMEOUT`: A ring's oldest unsignalled entry reaches TIME µs and the ring's source is raised (R340). -/
def execModerationTimeout (n : RingNo) (s : State) : Result :=
  match s.ring n with
  | none => .next s
  | some r =>
    if s.awake && r.intEn && r.kind != 0 && decide (0 < r.unsig) then
      s.atTime (r.oldest + r.time * Config.usUnits) (fun t => t.signal n r)
    else .next s

/-- `EVT_LOST_WRITE`: Once an EVT ring has room, an EVT_LOST record with the lost count is written (R341). -/
def execEvtLostWrite (n : RingNo) (s : State) : Result :=
  if s.awake && (s.ring n).any (fun r => r.kind == 6) then .next (s.writeLost n) else .next s

/-- `CPL_HELD_WRITE`: Held completions are written once the CPL ring has room (R341). -/
def execCplHeldWrite (n : RingNo) (s : State) : Result :=
  match s.held.find? (fun h => h.cpl == n) with
  | none => .next s
  | some h =>
    if s.awake && s.room n then
      .next ({ s with held := s.held.erase h }.pushEntry n (completionRecord h.tag h.opcode h.status h.ring h.result s.now))
    else .next s

/-! ### Sluice registers (R352) -/

/-- `SLC_DONE_READ`: A read of SLC_DONE_LO returns it and latches the high word (R352). -/
def execSlcDoneRead (n : Fin 64) (s : State) : Result :=
  s.onBar (fun t =>
    let w := words t.sluice[n].done
    { t with sluice := vmod t.sluice n (fun k => { k with doneLatch := w.2 }), barRead := w.1 })

/-! ### Descriptors (R349, R350) -/

/-- A descriptor of a chain. -/
structure Desc where
  src : Nat
  dst : Nat
  len : Nat
  space : Nat
  flags : Byte
  next : Nat
  tail : Nat
  deriving DecidableEq, Repr

/-- The descriptor at a host address. -/
def State.descAt (s : State) (a : Nat) : Desc :=
  let b := s.host.readBytes a 32
  let n := fun o k => leNat (slice b o k)
  { src := n 0 8, dst := n 8 8, len := n 16 4, space := n 20 1, flags := b.getD 21 0, tail := n 22 2, next := n 24 8 }

/-- LAST. -/
def Desc.last (d : Desc) : Bool := d.flags.getLsbD 7
/-- HCPL. -/
def Desc.half (d : Desc) : Bool := d.flags.getLsbD 1
/-- Source space. -/
def Desc.from_ (d : Desc) : Nat := d.space / 16
/-- Destination space. -/
def Desc.to_ (d : Desc) : Nat := d.space % 16

/-- A range lies outside the space it names: beyond the DRAM installed. -/
def outside (space a n : Nat) : Bool := space == 1 && decide (Config.dramBytes < a + n)

/-- A descriptor with a reserved code or field, out of alignment, or outside DRAM: the chain stops at it (R353). -/
def Desc.bad (a : Nat) (d : Desc) : Bool :=
  decide (a % 32 ≠ 0) || decide (d.len = 0) || decide (16777216 < d.len) || !([0, 1, 15].contains d.from_) || decide (1 < d.to_) ||
    decide (bits d.flags 6 3 ≠ 0) || d.flags.getLsbD 0 || decide (d.tail ≠ 0) || outside d.from_ d.src d.len || outside d.to_ d.dst d.len

/-- The first `n` bytes a descriptor writes. -/
def State.descBytes (s : State) (d : Desc) (n : Nat) : List Byte :=
  if d.from_ = 15 then (List.range n).map (fun j => BitVec.ofNat 8 (d.src / 256 ^ (j % 8))) else s.spaceRead d.from_ d.src n

/-- A channel changed. -/
def State.modSluice (n : Fin 64) (f : Sluice → Sluice) (s : State) : State := { s with sluice := vmod s.sluice n f }

/-- A descriptor has run: its bytes are written and counted, and the chain goes on to the next. -/
def State.runDesc (n : Fin 64) (d : Desc) (s : State) : State :=
  (s.spaceWrite d.to_ d.dst (s.descBytes d d.len)).modSluice n (fun k =>
    { k with descs := k.descs + 1, done := (k.done + d.len) % 2 ^ 64, next := if d.last then none else some d.next })

/-- Descriptors run in chain order up to and with the first that a test picks; none where the chain stops or another test picks
one before. `k` at most. -/
def State.runUntil (n : Fin 64) (stop bar : Desc → Bool) : Nat → State → Option State
  | 0, _ => none
  | k + 1, s =>
    match s.sluice[n].next with
    | none => none
    | some a =>
      let d := s.descAt a
      if d.bad a then none
      else if stop d then some (s.runDesc n d)
      else if bar d || d.last then none
      else State.runUntil n stop bar k (s.runDesc n d)

/-- Descriptors any chain can hold at addresses of their own. -/
def chainFuel : Nat := 576460752303423488

/-- No channel of higher priority has work: channels 0 to 7 are strictly ordered and come before the bulk channels (R348). The requests of
bulk channels, served round-robin, and the buffers are not told apart (notes/assumptions/39.md). -/
def State.sluiceFirst (s : State) (n : Fin 64) : Bool :=
  (List.finRange 64).all (fun m => !(decide (m.val < 8) && decide (m < n) && s.sluice[m].busy))

/-- A channel's chain can go on: the device works, nothing pauses the sluice (R385), and no channel pre-empts it. -/
def State.chainRuns (s : State) (n : Fin 64) : Bool := s.works && !s.pwr.railAlert && s.sluice[n].busy && s.sluiceFirst n

/-! ### Completions (R351, R353) -/

/-- `SLUICE_HALF`: A descriptor with HCPL has its writes visible, setting HALF and posting an event (R351). -/
def execSluiceHalf (n : Fin 64) (s : State) : Result :=
  if s.chainRuns n then
    match s.runUntil n Desc.half (fun _ => false) chainFuel with
    | none => .next s
    | some t =>
      .next (((t.modSluice n (fun k => { k with half := true })).raise (16 + n.val)).postDev 0x0010
        ([BitVec.ofNat 8 n.val, 0, 0, 0] ++ leBytes 4 t.sluice[n].descs.toNat))
  else .next s

/-- The chain is finished: FULL sets, BUSY clears, the source is raised and the starting command completes. -/
def State.finishChain (n : Fin 64) (s : State) : State := (s.endChain n stOk (fun k => { k with full := true })).raise (16 + n.val)

/-- `SLUICE_CHAIN_DONE`: The LAST descriptor's writes are visible and SLUICE_START completes (R351). -/
def execSluiceChainDone (n : Fin 64) (s : State) : Result :=
  if s.chainRuns n then
    if s.sluice[n].next.isNone then .next (s.finishChain n)
    else
      match s.runUntil n (fun d => d.last && !d.half) Desc.half chainFuel with
      | none => .next s
      | some t => .next (t.finishChain n)
  else .next s

/-- The chain runs on for a number of bytes, whole descriptors first, then part of one; none where it would reach a half
completion or its end. -/
def State.runBytes (n : Fin 64) : Nat → Nat → State → Option State
  | 0, _, _ => none
  | k + 1, m, s =>
    match s.sluice[n].next with
    | none => none
    | some a =>
      let d := s.descAt a
      if d.bad a then some s
      else if m < d.len then
        some ((s.spaceWrite d.to_ d.dst (s.descBytes d m)).modSluice n (fun q => { q with done := (q.done + m) % 2 ^ 64 }))
      else if d.half || d.last then none
      else State.runBytes n k (m - d.len) (s.runDesc n d)

/-- The request at which a chain has stopped met an uncorrectable DRAM error: its descriptor is sound, and a DRAM range of it failed; where
the other range lies in host memory the spec does not say which of the two did, a free value (R332, R353). -/
def State.dramFault (n : Fin 64) (s : State) : Bool :=
  s.sluice[n].next.any (fun a =>
    let d := s.descAt a
    !d.bad a && (d.from_ == 1 || d.to_ == 1) && ((d.from_ != 0 && d.to_ != 0) || Config.dramFailed s.free))

/-- `SLUICE_FAULT`: A bad descriptor, PCIe error or DRAM error stops the chain with ST_FAULT (R353), `bytes` bytes after its last
completion. -/
def execSluiceFault (n : Fin 64) (bytes : Nat) (s : State) : Result :=
  if s.chainRuns n then
    match s.runBytes n chainFuel bytes with
    | none => .next s
    | some t => .next ((if t.dramFault n then t.drawn.raise 8 else t.drawn).endChain n stFault (fun k => { k with err := true }))
  else .next s

end Sys2Proof.Machine
end

