-- ==== Sys2Proof/Machine/Power.lean ====
section
/-!
DEFINITION. Bring-up, resets and power (R327, R376 to R387): the ready sequence, firmware and its CONFIG block, D3hot, the core
supply, rail alert and thermal limits.
-/
namespace Sys2Proof.Machine

/-! ### Status bits (R330, R332) -/

/-- A bit of `DEV_STATUS` set or cleared. -/
def State.setStatus (i : Nat) (b : Bool) (s : State) : State := s.modDev (fun d => { d with status := setBit d.status i b })

/-- `FATAL` sets and raises source 1. -/
def State.fail (s : State) : State := if s.fatal then s else (s.setStatus 31 true).raise 1

/-- A power event (R344). -/
def State.powerEvent (kind : Byte) (s : State) : State := s.postDev 0x000E [kind]

/-- `THROTTLE` follows its causes: a rail alert or a thermal throttle; each start is an episode. -/
def State.settleThrottle (s : State) : State :=
  let on := s.pwr.railAlert || decide (0 < s.pwr.thermal)
  if on = s.dev.status.getLsbD 0 then s
  else if on then (((s.setStatus 0 true).modPwr (fun p => { p with episodes := inc32 p.episodes })).raise 2).powerEvent 0
  else ((s.setStatus 0 false).raise 2).powerEvent 1

/-! ### SYS_RST# and supplies (R376, R381, R387) -/

/-- The device in reset: all its state at reset but what lies outside it (host memory, flash, junction temperature, commands to
come, which images it has produced: R62), with the supplies and the tripped pin as given. -/
def State.inReset (supplied tripped : Bool) (s : State) : State :=
  { State.reset with
    host := s.host, flash := s.flash, free := s.free, pending := s.pending, made := s.made,
    dram := if supplied then s.dram else [],
    pwr := { State.reset.pwr with supplied := supplied, tripped := tripped, tj := s.pwr.tj } }

/-- `SYS_RST_ASSERT`: Assertion of SYS_RST# puts the whole device in reset (R376); a tripped THERMTRIP# stays low (R387). -/
def execSysRstAssert (s : State) : Result := .next (s.inReset s.pwr.supplied s.pwr.tripped)

/-- `SYS_RST_RELEASE`: Release of SYS_RST# starts the boot ROM and ready sequence (R377); the board has brought its supplies up. -/
def execSysRstRelease (s : State) : Result :=
  if s.pwr.sysRst && !s.pwr.tripped then .next (s.modPwr (fun p => { p with supplied := true, sysRst := false })) else .next s

/-- `POWER_REMOVAL`: The board removes the supplies, every output goes off, and a tripped THERMTRIP# is released (R387, R401). -/
def execPowerRemoval (s : State) : Result := .next (s.inReset false false)

/-! ### PERST# and Function Level Reset (R327, R376) -/

/-- A reset that keeps firmware and DRAM: as `ABORT_ALL`, with every ring, the event controller and the sluice at reset and the
`DEV_READY` bits cleared. -/
def State.functionReset (s : State) : State :=
  let c : Packet := { ring := 0, flags := 0, plen := 0, tag := 0, txid := 0, target := 0xFFFFFFFF, params := [] }
  let t := (s.stopAll (fun _ => false)).dropAtEpoch 0x0B05 c 0
  { t.modDev (fun d => { d with ready := 0 }) with
    evc := Evc.reset, pcie := Pcie.reset, sluice := Vector.replicate 64 Sluice.reset, boot := Boot.reset, held := [], waitCalls := [], evtLost := [] }

/-- `FUNCTION_LEVEL_RESET`: A Function Level Reset acts as ABORT_ALL and returns rings, event controller and sluice to reset state
(R327); the control core runs on. -/
def execFunctionLevelReset (s : State) : Result :=
  if s.awake && !s.pwr.perst && s.dev.ready.getLsbD 0 then .next (s.functionReset.setReady [0]) else .next s

/-- `PERST_ASSERT`: PERST# acts as a Function Level Reset and retrains the link (R376). -/
def execPerstAssert (s : State) : Result :=
  if s.awake && !s.pwr.perst then .next (s.functionReset.modPwr (fun p => { p with perst := true })) else .next s

/-- `PERST_RELEASE`: Release of PERST# lets the DEV_READY bits set again within 10 ms, in the order of R377 (R376): CTRL first, where
the control core runs. -/
def execPerstRelease (s : State) : Result :=
  if s.awake && s.pwr.perst then
    let t := s.modPwr (fun p => { p with perst := false })
    .next (if s.pins.func.getLsbD 4 then t.setReady [0] else t)
  else .next s

/-! ### Firmware (R379, R380) -/

/-- The CONFIG block in use: the flash's, or the defaults where MAGIC or CRC is wrong. -/
def configBlock (b : List Byte) : List Byte :=
  if slice b 0 4 = [0x4B, 0x43, 0x46, 0x47] ∧ crc32 (slice b 0 60) = BitVec.ofNat 32 (leNat (slice b 60 4)) then slice b 0 64
  else [0x4B, 0x43, 0x46, 0x47, 0, 0, 0, 0, 50, 40, 220, 100]

/-- The settings of a CONFIG block, values out of range clamped. -/
def Power.configure (b : List Byte) (p : Power) : Power :=
  let n := fun o => (b.getD o 0).toNat
  { p with subsys := BitVec.ofNat 32 (leNat (slice b 4 4)), heapPct := clampNat 0 75 (n 8), slew := clampNat 10 200 (n 9),
           iccMax := clampNat 100 220 (n 10), twarn := clampNat 85 100 (n 11) }

/-- The image runs: CONFIG is read, PMBus is enabled, flash access ends, and CTRL sets. -/
def State.runImage (bank : Nat) (img : List Byte) (s : State) : State :=
  let t := { s.modDev (fun d => { d with fwBuild := Config.fwBuild img, status := setBit d.status 3 (bank == 1) }) with
    flash := { s.flash with running := bank },
    pins := { s.pins with func := setBit (setBit s.pins.func 4 true) 6 false } }
  (t.modPwr (Power.configure (configBlock s.flash.config))).setReady [0]

/-- The device is out of its resets and has not stopped. -/
def State.booting (s : State) : Bool := s.awake && !s.pwr.perst && !s.fatal

/-- `FIRMWARE_ACCEPT`: The boot ROM accepts a signed image and the control core runs it, or the device goes FATAL (R379). -/
def execFirmwareAccept (s : State) : Result :=
  if s.booting && !s.pins.func.getLsbD 4 then
    if fwAccepted s.flash.bank0 then .next (s.runImage 0 s.flash.bank0)
    else if fwAccepted s.flash.bank1 then .next (s.runImage 1 s.flash.bank1)
    else .next s.fail
  else .next s

/-! ### Ready sequence (R377) -/

/-- `COMMAND_INTERPRETER_READY`: At CTRL + 2 ms the command interpreter, ports and heads become usable: CMD, ETH0, ETH1, HEAD0 and HEAD1
set (R377). -/
def execCommandInterpreterReady (s : State) : Result :=
  if s.booting && s.dev.ready.getLsbD 0 then .next (s.setReady [1, 15, 16, 17, 18]) else .next s

/-- `DRAM_TRAINED`: A DRAM channel finishes training and zeroing, or fails (R377); after a reset that keeps DRAM its bit only sets
again, after TB (R376). -/
def execDramTrained (n : Fin 4) (ok : Bool) (s : State) : Result :=
  if s.booting && s.dev.ready.getLsbD 0 && !s.dev.ready.getLsbD (3 + n.val) && decide (s.pwr.trainFails[n] < 3) then
    if s.pwr.trained.getLsbD n.val then (if s.dev.ready.getLsbD 2 then .next (s.setReady [3 + n.val]) else .next s)
    else if ok then
      .next (({ s with dram := [] }.modPwr (fun p => { p with trained := setBit p.trained n.val true })).setReady [3 + n.val])
    else
      let t := s.modPwr (fun p => { p with trainFails := vmod p.trainFails n (fun k => k + 1) })
      .next (if t.pwr.trainFails[n] < 3 then t else t.fail)
  else .next s

/-- Bytes of the heap region: a percentage of DRAM, rounded down to whole GiB (R380). -/
def heapRegion (pct : Nat) : Nat := Config.dramBytes * pct / 100 / 1073741824 * 1073741824

/-- The running image. -/
def Flash.image (f : Flash) : List Byte := if f.running = 0 then f.bank0 else f.bank1

/-- The stores of a firmware image (R200). -/
def Stores.load (img : List Byte) : Stores :=
  { micro := (List.range 4096).map (Config.microWord img), nano := (List.range 512).map (Config.nanoWord img) }

/-- Microcode loaded into every boiler, once (R200, R201), and the heap region fixed. -/
def State.loadStores (s : State) : State := { s with stores := Stores.load s.flash.image }

/-- The ready sequence's part of it. -/
def State.loadUcode (s : State) : State :=
  if s.dev.status.getLsbD 7 then s
  else (s.modDev (fun d => { d with ucode := Config.kpaRev ++ Config.fwUcodeBuild s.flash.image, heapBytes := heapRegion s.pwr.heapPct })
    ).loadStores.setStatus 7 true

/-- `UCODE_LOADED`: Microcode is loaded into every boiler and bays and sluice become usable (R377). -/
def execUcodeLoaded (s : State) : Result :=
  if s.booting && s.readyFor rdyDram then .next (s.loadUcode.setReady ((List.range 8).map rdyBay ++ [rdySluice])) else .next s

/-! ### D3hot (R383) -/

/-- `D3HOT_ENTRY`: Entry into D3hot stops work as ABORT_ALL does, but destroys no ring, and enters low power (R383). -/
def execD3hotEntry (s : State) : Result :=
  if s.awake && !s.pwr.perst && !s.pwr.d3hot && s.dev.ready.getLsbD 0 then
    let c : Packet := { ring := 0, flags := 0, plen := 0, tag := 0, txid := 0, target := 0xFFFFFFFF, params := [] }
    .next (((s.stopAll (fun _ => true)).dropAtEpoch 0x0B05 c 0).modPwr (fun p => { p with d3hot := true }))
  else .next s

/-- `D0_RETURN`: Return to D0 restores engines with rings intact (R383). -/
def execD0Return (s : State) : Result := .next (s.modPwr (fun p => { p with d3hot := false }))

/-! ### Core supply (R382) -/

/-- A core voltage, in 0.1 mV, that a step may set: within the range, at most 5 mV away, a millisecond of device time after the last (DESIGN
CHOICE while the timebase does not count yet: one step; notes/assumptions/57.md). -/
def State.maySetCore (s : State) (v : Nat) : Bool :=
  decide (6500 ≤ v) && decide (v ≤ 8500) && decide (v ≤ s.pwr.vddCore + 50) && decide (s.pwr.vddCore ≤ v + 50) &&
    s.pwr.vddAt.all (fun (t : Int) => decide (t + (1000 * Config.usUnits : Nat) ≤ s.now))

/-- `AVS_VOUT_COMMAND`: The device sets VDD_CORE on the regulator over PMBus (R382). -/
def execAvsVoutCommand (v : Nat) (s : State) : Result :=
  if s.booting && s.dev.ready.getLsbD 0 && s.maySetCore v then .next (s.modPwr (fun p => { p with vddCore := v, vddAt := some s.now }))
  else .next s

/-! ### Rail alert (R385) -/

/-- `RAIL_ALERT_ASSERT`: RAIL_ALERT# low halves engine rates within 100 ns (R385). -/
def execRailAlertAssert (s : State) : Result :=
  if s.awake && !s.pwr.railAlert then
    .next (((((s.modPwr (fun p => { p with railAlert := true })).setStatus 1 true).raise 2).powerEvent 2).settleThrottle)
  else .next s

/-- `RAIL_ALERT_RELEASE`: RAIL_ALERT# released and load returns at SLEW (R385). -/
def execRailAlertRelease (s : State) : Result :=
  if s.awake && s.pwr.railAlert then
    .next ((((s.modPwr (fun p => { p with railAlert := false })).setStatus 1 false).raise 2).settleThrottle)
  else .next s

/-! ### Thermal limits (R387); junction temperatures in 0.01 °C -/

/-- The junction temperature measured. -/
def State.setTj (tj : Int) (s : State) : State := s.modPwr (fun p => { p with tj := tj })

/-- `THERMAL_WARNING`: Tj reaches TWARN and THERM_WARN sets (R387). -/
def execThermalWarning (tj : Int) (s : State) : Result :=
  if s.awake && decide ((100 * s.pwr.twarn : Nat) ≤ tj) && !s.dev.status.getLsbD 2 then
    .next ((((s.setTj tj).setStatus 2 true).raise 2).powerEvent 3)
  else .next s

/-- `THERM_WARN_CLEAR`: Junction temperature falls below TWARN, THERM_WARN clears and event source 2 is raised (R387, R332). -/
def execThermWarnClear (tj : Int) (s : State) : Result :=
  if s.awake && decide (tj < (100 * s.pwr.twarn : Nat)) && s.dev.status.getLsbD 2 then .next (((s.setTj tj).setStatus 2 false).raise 2)
  else .next s

/-- `THERMAL_THROTTLE`: At 105 °C the governor throttles in 12.5 % steps until below 103 °C (R387). -/
def execThermalThrottle (tj : Int) (s : State) : Result :=
  if s.awake && (decide (10500 ≤ tj) || (decide (10300 ≤ tj) && decide (0 < s.pwr.thermal))) then
    .next (((s.setTj tj).modPwr (fun p => { p with thermal := min 7 (p.thermal + 1) })).settleThrottle)
  else .next s

/-- `THERMAL_THROTTLE_END`: Junction temperature falls below 103 °C: thermal throttling ends, THROTTLE clears and event 0x000E kind 1 is
posted, unless a rail alert holds it (R385, R387). -/
def execThermalThrottleEnd (tj : Int) (s : State) : Result :=
  if s.awake && decide (tj < 10300) && decide (0 < s.pwr.thermal) then
    .next (((s.setTj tj).modPwr (fun p => { p with thermal := 0 })).settleThrottle)
  else .next s

/-- `THERMTRIP`: At 125 °C THERMTRIP# drives low, FATAL sets and every clock stops (R387). -/
def execThermtrip (tj : Int) (s : State) : Result :=
  if s.awake && decide (12500 ≤ tj) then .next ((s.setTj tj).fail.modPwr (fun p => { p with tripped := true })) else .next s

end Sys2Proof.Machine
end

