-- ==== Sys2Proof/Machine/Pins.lean ====
section
/-!
DEFINITION. The management pins (R396 to R400): who owns a pin, the registers of the SMBus target, the switch window, and edges.
-/
namespace Sys2Proof.Machine

/-! ### Ownership (R396) -/

/-- The functions that may claim a pin, in the order of their priority. -/
inductive PinFunction where
  | qspi | smb | pmb | i2s | uart | gpio
  deriving DecidableEq, Repr

/-- The pins a function claims by the places it takes. -/
def Pins.claims (r : Pins) (f : PinFunction) (k : Nat) : Bool :=
  match f with
  | .qspi => r.func.getLsbD 6 && decide (5 ≤ k) && decide (k ≤ 10)
  | .smb => decide (k ≤ 2)
  | .pmb => r.func.getLsbD 4 && decide (3 ≤ k) && decide (k ≤ 4)
  | .i2s => r.func.getLsbD 3 && (if r.func.getLsbD 2 then decide (21 ≤ k) && decide (k ≤ 23) else decide (13 ≤ k) && decide (k ≤ 15))
  | .uart => r.func.getLsbD 1 && (if r.func.getLsbD 0 then decide (21 ≤ k) && decide (k ≤ 22) else decide (11 ≤ k) && decide (k ≤ 12))
  | .gpio => r.gpioEn.getLsbD k

/-- The functions in the order of their priority. -/
def pinFunctions : List PinFunction := [.qspi, .smb, .pmb, .i2s, .uart, .gpio]

/-- The owner of a pin, if an enabled function claims it. -/
def Pins.owner (r : Pins) (k : Nat) : Option PinFunction := pinFunctions.find? (fun f => r.claims f k)

/-- `PIN_CONFLICT`: pins for which an enabled function lost (R396). -/
def Pins.conflict (r : Pins) : BitVec 32 :=
  (List.range 32).foldl (fun v k => setBit v k (decide (1 < (pinFunctions.filter (fun f => r.claims f k)).length))) 0

/-- `SMB_ALERT#` is driven low (R399). -/
def Pins.alert (r : Pins) : Bool := anyBit r.irqStat r.irqBmc

/-! ### Registers (R397) -/

/-- A register read: reserved offsets and fields read 0. -/
def State.pinRegister (s : State) (o : Nat) : BitVec 32 :=
  let r := s.pins
  match o with
  | 0x00 => Config.devId
  | 0x04 => (BitVec.ofInt 16 s.pwr.tj).setWidth 32
  | 0x10 => r.func
  | 0x14 => r.conflict
  | 0x18 => r.gpioEn
  | 0x1C => r.gpioOut
  | 0x20 => r.gpioOe
  | 0x24 => r.level
  | 0x28 => r.irqMode0
  | 0x2C => r.irqMode1
  | 0x30 => r.irqStat
  | 0x34 => r.irqBmc
  | 0x38 => r.irqHost
  | _ => 0

/-- `SMB_BLOCK_READ`: An SMBus Block Read returns a management register (R397). -/
def execSmbBlockRead (offset : Byte) (s : State) : Result :=
  if s.awake then .next { s with pins := { s.pins with lastRead := s.pinRegister offset.toNat } } else .next s

/-- A register written: read-only and reserved bits keep their value; PIN_IRQ_STAT is cleared by ones. -/
def Pins.write (o : Nat) (v : BitVec 32) (r : Pins) : Pins :=
  match o with
  | 0x10 => { r with func := (r.func &&& 0x70) ||| (v &&& 0x0F) }
  | 0x18 => { r with gpioEn := v }
  | 0x1C => { r with gpioOut := v }
  | 0x20 => { r with gpioOe := v }
  | 0x28 => { r with irqMode0 := v }
  | 0x2C => { r with irqMode1 := v }
  | 0x30 => { r with irqStat := r.irqStat &&& ~~~v }
  | 0x34 => { r with irqBmc := v }
  | 0x38 => { r with irqHost := v }
  | _ => r

/-- Device time of the switch window in which edges set nothing: cycles c0 to c0 + 5 of 10 ns (R398). -/
def switchUnits : Nat := 6 * 160

/-- Pins whose owner differs between two settings begin a switch window. -/
def Pins.switched (old : Pins) (now : Nat) (r : Pins) : Pins :=
  { r with switching := (List.range 32).foldl (fun t k => if old.owner k = r.owner k then t else Table.put t k (now + switchUnits)) r.switching }

/-- Source 9 is raised where a bit of PIN_IRQ_STAT and PIN_IRQ_HOST has gone from 0 to 1 (R399). -/
def State.hostRoute (old : Pins) (s : State) : State :=
  if anyBit (s.pins.irqStat &&& s.pins.irqHost) (~~~(old.irqStat &&& old.irqHost)) then s.raise 9 else s

/-- `SMB_BLOCK_WRITE`: An SMBus Block Write sets a management register (R397). -/
def execSmbBlockWrite (offset : Byte) (value : BitVec 32) (s : State) : Result :=
  if s.awake then
    .next (({ s with pins := Pins.switched s.pins s.now (Pins.write offset.toNat value s.pins) }).hostRoute s.pins)
  else .next s

/-! ### Edges (R399, R400) -/

/-- The edges a pin's mode selects. -/
def Pins.mode (r : Pins) (k : Nat) : Nat := if k < 16 then bits r.irqMode0 (2 * k + 1) (2 * k) else bits r.irqMode1 (2 * (k - 16) + 1) (2 * (k - 16))

/-- The pin stands in a switch window, judged by device time. -/
def State.switchingPin (s : State) (k : Nat) : Bool := s.tb.counting && (Table.get s.pins.switching k).any (fun e => decide (s.now < e))

/-- An edge seen: PIN_LEVEL follows the ball, and PIN_IRQ_STAT sets where the mode selects the edge outside a switch window. -/
def Pins.edge (k : Nat) (level blocked : Bool) (r : Pins) : Pins :=
  let m := r.mode k
  let picks := if level then m == 1 || m == 3 else m == 2 || m == 3
  { r with level := setBit r.level k level, irqStat := if picks && !blocked then setBit r.irqStat k true else r.irqStat }

/-- `PIN_EDGE`: A selected edge on a management pin sets PIN_IRQ_STAT and may alert the BMC or raise source 9 (R399). -/
def execPinEdge (pin : Fin 32) (level : Bool) (s : State) : Result :=
  if s.awake && s.pins.level.getLsbD pin.val != level then
    .next (({ s with pins := s.pins.edge pin.val level (s.switchingPin pin.val) }).hostRoute s.pins)
  else .next s

end Sys2Proof.Machine
end

