-- ==== Sys2Proof/Machine/DeviceAccess.lean ====
section
/-!
DEFINITION. Host accesses to BAR 0 (R329, R209, R330, R333, R337, R352), to the MSI-X table (R328) and to the two configuration registers
that bear on the model (R327).
-/
namespace Sys2Proof.Machine

/-- Word i of a register file of 32-bit registers that make one bit vector, replaced. -/
def putWord (v : BitVec 256) (i : Nat) (w : BitVec 32) : BitVec 256 :=
  (v &&& ~~~(0xFFFFFFFF#256 <<< (32 * i))) ||| (w.setWidth 256 <<< (32 * i))

/-- A write to the event controller: what it makes deliverable is delivered at once (R334). -/
def State.writeEvc (o : Nat) (v : BitVec 32) (s : State) : State :=
  if o < 0x20 then { s with evc := { s.evc with pend := s.evc.pend &&& ~~~(v.setWidth 256 <<< (32 * (o / 4))) } }
  else if o < 0x40 then ({ s with evc := { s.evc with en := putWord s.evc.en ((o - 0x20) / 4) v } }).deliverAll
  else if o < 0x80 then
    let g : Fin 16 := ⟨(o - 0x40) / 4 % 16, by omega⟩
    { s with evc := { s.evc with hold := s.evc.hold.set g (v.setWidth 10) } }
  else if o = 0x80 then s.raise (bits v 7 0)
  else if 0x400 ≤ o ∧ o < 0x800 then
    let n := (o - 0x400) / 4
    let w : BitVec 11 := v.setWidth 11
    { s with evc := { s.evc with vec := if w = BitVec.ofNat 11 n then Table.drop s.evc.vec n else Table.put s.evc.vec n w } }
  else s

/-- A write to a channel's status: HALF, FULL, ERR and ABORTED clear by ones. -/
def Sluice.clear (v : BitVec 32) (k : Sluice) : Sluice :=
  { k with half := k.half && !v.getLsbD 30, full := k.full && !v.getLsbD 29, err := k.err && !v.getLsbD 28,
           aborted := k.aborted && !v.getLsbD 27 }

/-- A write to the boot registers. -/
def State.writeBoot (o : Nat) (v : BitVec 32) (s : State) : State :=
  if o < 0x30 then { s with boot := { s.boot with cmd := s.boot.cmd.setIfInBounds (o / 4) v } }
  else if 0x40 ≤ o ∧ o < 0x70 then { s with boot := { s.boot with cpl := s.boot.cpl.setIfInBounds ((o - 0x40) / 4) v } }
  else if o = 0x80 ∧ v.getLsbD 0 then s.bootRings else s

/-- A write to BAR 4: a double word of the MSI-X table; the pending bits are read-only. What it unmasks is sent at once. -/
def State.writeMsix (o : Nat) (v : BitVec 32) (s : State) : State :=
  if o < 0x8000 then
    let n := o / 16
    let i := 32 * (o % 16 / 4)
    let w := (s.evc.entry n &&& ~~~(0xFFFFFFFF#128 <<< i)) ||| (v.setWidth 128 <<< i)
    let table := if w = 1#128 <<< 96 then Table.drop s.evc.table n else Table.put s.evc.table n w
    { s with evc := ({ s.evc with table := table }).unmask }
  else s

/-- A write to configuration space: MSI-X Message Control, and Device Control with the request sizes (PRESUMED: notes/assumptions/58.md). -/
def State.writeConfig (o : Nat) (v : BitVec 32) (s : State) : State :=
  if o = 0 then { s with evc := ({ s.evc with msixOn := v.getLsbD 31, msixHeld := v.getLsbD 30 }).unmask }
  else if o = 4 then
    { s with pcie := { s.pcie with maxPayload := if bits v 7 5 ≤ 2 then 128 * 2 ^ bits v 7 5 else s.pcie.maxPayload,
                                   maxRead := if bits v 14 12 ≤ 5 then 128 * 2 ^ bits v 14 12 else s.pcie.maxRead } }
  else s

/-- Where the offset of a register write leaves BAR 0 (1 MiB) it names BAR 4 (64 KiB), and beyond 2 MiB configuration space (DESIGN CHOICE:
the table has no row of theirs; notes/assumptions/58.md). -/
def msixBase : Nat := 0x100000
/-- See `msixBase`. -/
def configBase : Nat := 0x200000

/-- A register of BAR 0 written; an access that is not aligned, and a register that is read-only or reserved, has no effect. -/
def State.writeBar (o : Nat) (v : BitVec 32) (s : State) : State :=
  if o % 4 ≠ 0 then s
  else if o = 0x108 then s.modTb (fun b => { b with ppsOvr := b.ppsOvr && !v.getLsbD 1 })
  else if 0x1000 ≤ o ∧ o < 0x1800 then s.writeEvc (o - 0x1000) v
  else if 0x2000 ≤ o ∧ o < 0x2400 ∧ o % 16 = 0 then s.modSluice ⟨(o - 0x2000) / 16 % 64, by omega⟩ (Sluice.clear v)
  else if 0x3000 ≤ o ∧ o < 0x3100 then s.writeBoot (o - 0x3000) v
  else if msixBase ≤ o ∧ o < msixBase + 0x10000 then s.writeMsix (o - msixBase) v
  else if configBase ≤ o then s.writeConfig (o - configBase) v
  else s

/-! ### Reads -/

/-- Flags from bit 31 down, and a low half. -/
def flagWord (flags : List (Nat × Bool)) (low : Nat) : BitVec 32 :=
  flags.foldl (fun w e => if e.2 then w ||| (1#32 <<< e.1) else w) (BitVec.ofNat 32 low)

/-- Word i of 256 bits. -/
def wordOf (v : BitVec 256) (i : Nat) : BitVec 32 := (v >>> (32 * i)).setWidth 32

/-- HCNT: what is left of a group's hold-off in microseconds, rounded up (R333). -/
def Evc.hcnt (now : Nat) (g : Fin 16) (e : Evc) : Nat := ceilDiv (e.holdUntil[g] - now) Config.usUnits

/-- A register of the timebase block (R209). -/
def Timebase.word (b : Timebase) : Nat → BitVec 32
  | 0x00 => (words b.time).1
  | 0x04 => b.timeLatch
  | 0x08 => flagWord [(3, b.refLock), (2, b.ppsNew), (1, b.ppsOvr), (0, b.slewing)] 0
  | 0x0C => (words b.stamp).1
  | 0x10 => b.stampLatch
  | 0x14 => BitVec.ofInt 32 b.rate
  | 0x18 => (words b.slewRem).1
  | 0x1C => b.slewLatch
  | _ => 0

/-- A register of the event controller (R333). -/
def Evc.word (now : Nat) (e : Evc) (o : Nat) : BitVec 32 :=
  if o < 0x20 then wordOf e.pend (o / 4)
  else if o < 0x40 then wordOf e.en ((o - 0x20) / 4)
  else if o < 0x80 then
    let g : Fin 16 := ⟨(o - 0x40) / 4 % 16, by omega⟩
    BitVec.ofNat 32 (65536 * e.hcnt now g + (e.hold[g]).toNat)
  else if 0x400 ≤ o ∧ o < 0x800 then (e.vector ((o - 0x400) / 4)).setWidth 32
  else 0

/-- A register of a sluice channel (R352). -/
def Sluice.word (k : Sluice) : Nat → BitVec 32
  | 0x0 => flagWord [(31, k.busy), (30, k.half), (29, k.full), (28, k.err), (27, k.aborted)] (k.descs.toNat % 65536)
  | 0x4 => (words k.done).1
  | 0x8 => k.doneLatch
  | _ => 0

/-- A boot register (R337). -/
def Boot.word (b : Boot) (o : Nat) : BitVec 32 :=
  if o < 0x30 then b.cmd.toList.getD (o / 4) 0
  else if 0x40 ≤ o ∧ o < 0x70 then b.cpl.toList.getD ((o - 0x40) / 4) 0
  else if o = 0x80 then flagWord [(2, b.err), (1, b.up)] 0
  else 0

/-- The value of a 32-bit register of BAR 0; a reserved one reads 0 (R329, R330). The reads that also change a register have rows. -/
def State.barValue (o : Nat) (s : State) : BitVec 32 :=
  if o = 0x00 then Config.devId
  else if o = 0x04 then s.dev.ready
  else if o = 0x08 then s.dev.status
  else if o = 0x0C then s.dev.ucode
  else if o = 0x10 then s.dev.fwBuild
  else if 0x100 ≤ o ∧ o < 0x140 then s.tb.word (o - 0x100)
  else if 0x1000 ≤ o ∧ o < 0x1800 then s.evc.word s.now (o - 0x1000)
  else if 0x2000 ≤ o ∧ o < 0x2400 then (s.sluice[(⟨(o - 0x2000) / 16 % 64, by omega⟩ : Fin 64)]).word (o % 16)
  else if 0x3000 ≤ o ∧ o < 0x3100 then s.boot.word (o - 0x3000)
  else 0

/-- A read of BAR 0 of a size in bytes: an access that is not an aligned one of 4 bytes returns 0 (R329). -/
def State.readBar (o size : Nat) (s : State) : BitVec 32 := if size = 4 ∧ o % 4 = 0 then s.barValue o else 0

/-- `DEVICE_REGISTER_WRITE`: A host write to a BAR 0 device register takes effect (R329). -/
def execDeviceRegisterWrite (offset : Nat) (value : BitVec 32) (s : State) : Result := s.onBar (State.writeBar offset value)

end Sys2Proof.Machine
end

