-- ==== Sys2Proof/Machine/Moves.lean ====
section
/-!
DEFINITION. The meanings of loads, stores, transfers and block moves (R33, R37). Each runs the instruction at PC from its first pan-cycle to
its last, where the byte at PC encodes the operation and form of the row (R28, R32).
-/
namespace Sys2Proof.Machine

/-- `LDA`: loads A from the operand in any of its forms, post-incrementing P or Q where the form says so (R33). -/
def execLda (p : PanNo) (m : Mode) (s : State) : Result := s.instruct p .lda m

/-- `STA`: stores A to memory in any of its forms (R33). -/
def execSta (p : PanNo) (m : Mode) (s : State) : Result := s.instruct p .sta m

/-- `LDB`: loads B (R33). -/
def execLdb (p : PanNo) (m : Mode) (s : State) : Result := s.instruct p .ldb m

/-- `STB`: stores B (R33). -/
def execStb (p : PanNo) (m : Mode) (s : State) : Result := s.instruct p .stb m

/-- `LDX`: loads X (R33). -/
def execLdx (p : PanNo) (m : Mode) (s : State) : Result := s.instruct p .ldx m

/-- `STX`: stores X (R33). -/
def execStx (p : PanNo) (m : Mode) (s : State) : Result := s.instruct p .stx m

/-- `LDY`: loads Y (R33). -/
def execLdy (p : PanNo) (m : Mode) (s : State) : Result := s.instruct p .ldy m

/-- `STY`: stores Y (R33). -/
def execSty (p : PanNo) (m : Mode) (s : State) : Result := s.instruct p .sty m

/-- `LDK`: loads the repeat count K (R33). -/
def execLdk (p : PanNo) (m : Mode) (s : State) : Result := s.instruct p .ldk m

/-- `LDP`: loads 16-bit P (R33). -/
def execLdp (p : PanNo) (m : Mode) (s : State) : Result := s.instruct p .ldp m

/-- `STP`: stores 16-bit P, low byte first (R33). -/
def execStp (p : PanNo) (m : Mode) (s : State) : Result := s.instruct p .stp m

/-- `LDQ`: loads 16-bit Q (R33). -/
def execLdq (p : PanNo) (m : Mode) (s : State) : Result := s.instruct p .ldq m

/-- `STQ`: stores 16-bit Q (R33). -/
def execStq (p : PanNo) (m : Mode) (s : State) : Result := s.instruct p .stq m

/-- `LDS`: loads the stack pointer S (R33). -/
def execLds (p : PanNo) (s : State) : Result := s.instruct p .lds .imm16

/-- `MVB`: copies the byte at P to Q and increments both (R37). -/
def execMvb (p : PanNo) (s : State) : Result := s.instruct p .mvb .implied

/-- `TAB`: copies A to B (R33). -/
def execTab (p : PanNo) (s : State) : Result := s.instruct p .tab .implied

/-- `TBA`: copies B to A (R33). -/
def execTba (p : PanNo) (s : State) : Result := s.instruct p .tba .implied

/-- `TAX`: copies A to X (R33). -/
def execTax (p : PanNo) (s : State) : Result := s.instruct p .tax .implied

/-- `TXA`: copies X to A (R33). -/
def execTxa (p : PanNo) (s : State) : Result := s.instruct p .txa .implied

/-- `TAY`: copies A to Y (R33). -/
def execTay (p : PanNo) (s : State) : Result := s.instruct p .tay .implied

/-- `TYA`: copies Y to A (R33). -/
def execTya (p : PanNo) (s : State) : Result := s.instruct p .tya .implied

/-- `TAK`: copies A to K (R33). -/
def execTak (p : PanNo) (s : State) : Result := s.instruct p .tak .implied

/-- `TKA`: copies K to A (R33). -/
def execTka (p : PanNo) (s : State) : Result := s.instruct p .tka .implied

/-- `SWAB`: exchanges A and B (R33). -/
def execSwab (p : PanNo) (s : State) : Result := s.instruct p .swab .implied

/-- `TPQ`: copies P to Q (R33). -/
def execTpq (p : PanNo) (s : State) : Result := s.instruct p .tpq .implied

/-- `TQP`: copies Q to P (R33). -/
def execTqp (p : PanNo) (s : State) : Result := s.instruct p .tqp .implied

/-- `TSP`: copies S to P (R33). -/
def execTsp (p : PanNo) (s : State) : Result := s.instruct p .tsp .implied

/-- `TPS`: copies P to S (R33). -/
def execTps (p : PanNo) (s : State) : Result := s.instruct p .tps .implied

end Sys2Proof.Machine
end

