-- ==== Sys2Proof/Machine/PanEvents.lean ====
section
/-!
DEFINITION. The meanings of the events of a pan's virtual time: each happens where it is due in pan-cycles, or where idling
in `WAI` lets virtual time reach it (R38); otherwise the row changes nothing.
-/
namespace Sys2Proof.Machine

/-- `IC_HOLDOFF_EXPIRY`: A group's hold-off count reaches 0 and its sources become eligible again (R161). -/
def execIcHoldoffExpiry (p : PanNo) (g : Fin 4) (s : State) : Result :=
  s.panStep p (Pan.holdExpiry g)

/-- `DMA_UNIT_TRANSFER`: A pending unit steals two pan-cycles per byte until it ends (R80). -/
def execDmaUnitTransfer (p : PanNo) (n : Fin 4) (s : State) : Result :=
  s.panStep p (Pan.dmaStep n)

/-- `DMA_HALF`: HALF sets when half of LEN has moved, raising source 12 + n if enabled (R81). -/
def execDmaHalf (p : PanNo) (n : Fin 4) (s : State) : Result :=
  s.panStep p (Pan.dmaHalfStep n)

/-- `DMA_FULL`: FULL sets when REM reaches 0, clears BUSY and may raise source 12 + n and mark a movie buffer ready (R81). -/
def execDmaFull (p : PanNo) (n : Fin 4) (s : State) : Result :=
  s.panStep p (Pan.dmaFullStep n)

/-- `CRC_DONE`: The last block byte is read, BUSY clears, DONE sets and source 21 may be raised (R88). -/
def execCrcDone (p : PanNo) (s : State) : Result :=
  s.panStep p Pan.crcStep

/-- `FETCH_POINT`: At pan-cycle 0 of each line the rake samples VRAM, OAM and media and evaluates sprites (R109). -/
def execFetchPoint (p : PanNo) (s : State) : Result :=
  s.panStep p Pan.fetchStep

/-- `SPRITE_COLLISION`: Two colliding sprites record a collision and raise source 6 (R121). -/
def execSpriteCollision (p : PanNo) (x : Nat) (s : State) : Result :=
  s.panStep p (Pan.collideStep x)

/-- `VBLANK`: Source 1 is raised at pan-cycle 0 of line VACTIVE (R110). -/
def execVblank (p : PanNo) (s : State) : Result :=
  s.panStep p Pan.vblankStep

/-- `HBLANK`: Source 3 is raised at pan-cycle HACTIVE/2 of every line (R110). -/
def execHblank (p : PanNo) (s : State) : Result :=
  s.panStep p Pan.hblankStep

/-- `LINE_CMP`: The beam reaches the compare position and source 2 is raised (R112). -/
def execLineCmp (p : PanNo) (s : State) : Result :=
  s.panStep p Pan.compareStep

/-- `RASTER_TABLE_ENTRY`: A raster table channel reads and writes one entry at its pan-cycle, raising source 7 at the last entry (R132). -/
def execRasterTableEntry (p : PanNo) (n : Fin 4) (s : State) : Result :=
  s.panStep p (Pan.rtStep n)

/-- `FRAME_END`: A frame ends by line count or ELASTIC blank-end rule, with snapshot, hash and frame-end actions (R101). -/
def execFrameEnd (p : PanNo) (s : State) : Result :=
  s.panStep p Pan.frameEndStep

/-- `TIMER_TICK`: The prescale count expires, or a selected event occurs, and the counter advances by one (R138). -/
def execTimerTick (p : PanNo) (n : Fin 4) (s : State) : Result :=
  s.panStep p (Pan.tickStep n)

/-- `TIMER_MATCH`: The counter reaches the compare value: MATCH sets, source 8 + n is raised and self and linked actions apply (R140). -/
def execTimerMatch (p : PanNo) (n : Fin 4) (s : State) : Result :=
  s.panStep p (Pan.matchStep n)

/-- `TIMER_OVERFLOW`: The counter wraps from $FFFF to $0000, setting OVF and optionally raising source 8 + n (R142). -/
def execTimerOverflow (p : PanNo) (n : Fin 4) (s : State) : Result :=
  s.panStep p (Pan.overflowStep n)

/-- `SOUND_TICK`: Every 16 pan-cycles each voice advances its phase and the mixer forms a stereo value (R162). -/
def execSoundTick (p : PanNo) (s : State) : Result :=
  s.panStep p Pan.soundStep

/-- `ENVELOPE_STEP`: Every PER × 256 ticks the voice volume moves one step (R168). -/
def execEnvelopeStep (p : PanNo) (k : Fin 7) (s : State) : Result :=
  s.panStep p (Pan.envStep k)

/-- `SWEEP_STEP`: Every PER × 512 ticks a pulse voice's FREQ moves toward SLIM (R169). -/
def execSweepStep (p : PanNo) (k : Fin 2) (s : State) : Result :=
  s.panStep p (Pan.sweepStep k)

/-- `LFSR_SHIFT`: A phase carry on N0 shifts the LFSR (R166). -/
def execLfsrShift (p : PanNo) (s : State) : Result :=
  s.panStep p Pan.lfsrStep

/-- `RESAMPLER_EMIT`: The resampler's remainder expires and one 48 kHz output sample is emitted (R175). -/
def execResamplerEmit (p : PanNo) (s : State) : Result :=
  s.panStep p Pan.emitStep

/-- `S0_POP`: A phase carry or TM3 pacing match pops one FIFO byte, possibly setting UNDR or ending playback (R172). -/
def execS0Pop (p : PanNo) (s : State) : Result :=
  s.panStep p Pan.popStep

/-- `S0_REFILL`: With LEVEL at 8 or below and channel 3 idle, a refill unit becomes pending (R173). -/
def execS0Refill (p : PanNo) (s : State) : Result :=
  s.panStep p Pan.refillStep

/-- `MAILBOX_DELIVERY`: The oldest queued message loads MB_IN, sets INFULL, raises source 31 and may raise NMI (R95). -/
def execMailboxDelivery (p : PanNo) (s : State) : Result :=
  s.panStep p (fun q => if !q.mb.full && !q.mb.queue.isEmpty then some q.mbDeliver else none)

/-- `INPUT_PLACEMENT`: An input record is applied at its placement pan-cycle and raises source 17 (R90). -/
def execInputPlacement (p : PanNo) (s : State) : Result :=
  s.placeStep p (fun k => match k with
    | .input _ _ => true
    | _ => false)

/-- `ATTACH_PLACEMENT`: An attach is applied at its placement pan-cycle, setting ATT and CHG and raising source 18 (R92). -/
def execAttachPlacement (p : PanNo) (s : State) : Result :=
  s.placeStep p (fun k => match k with
    | .attach _ => true
    | _ => false)

/-- `DETACH_PLACEMENT`: A detach is applied, clearing ATT and the slot values and raising source 18 (R92). -/
def execDetachPlacement (p : PanNo) (s : State) : Result :=
  s.placeStep p (fun k => match k with
    | .detach _ => true
    | _ => false)

/-- `MAILBOX_PLACEMENT`: A mailbox message or NMI command reaches its placement pan-cycle and is queued or delivered (R95). -/
def execMailboxPlacement (p : PanNo) (s : State) : Result :=
  s.placeStep p (fun k => match k with
    | .message _ => true
    | .nmi => true
    | _ => false)

/-- `MOVIE_PLACEMENT`: A PAN_MOVIE placement sets ready bits and applies its media commit (R129). -/
def execMoviePlacement (p : PanNo) (s : State) : Result :=
  s.placeStep p (fun k => match k with
    | .movie _ _ _ => true
    | _ => false)

end Sys2Proof.Machine
end

