-- ==== Sys2Proof/Machine/Products.lean ====
section
/-!
DEFINITION. The meanings of multiplier, coprocessor and host-calls (R49 to R57). Each runs the instruction at PC from its first pan-cycle to
its last, where the byte at PC encodes the operation and form of the row (R28, R32).
-/
namespace Sys2Proof.Machine

/-- `MUL`: multiplies A by B unsigned; the product arrives later (R49). -/
def execMul (p : PanNo) (s : State) : Result := s.instruct p .mul .implied

/-- `MULS`: multiplies A by B signed; the product arrives later (R49). -/
def execMuls (p : PanNo) (s : State) : Result := s.instruct p .muls .implied

/-- `MU16`: issues an unsigned 16 by 16 multiply to the coprocessor (R51). -/
def execMu16 (p : PanNo) (s : State) : Result := s.instruct p (.cop .mu16) .implied

/-- `MS16`: issues a signed 16 by 16 multiply (R51). -/
def execMs16 (p : PanNo) (s : State) : Result := s.instruct p (.cop .ms16) .implied

/-- `DIVU`: issues an unsigned divide of P by Q (R52). -/
def execDivu (p : PanNo) (s : State) : Result := s.instruct p (.cop .divu) .implied

/-- `DIVS`: issues a signed divide of P by Q (R52). -/
def execDivs (p : PanNo) (s : State) : Result := s.instruct p (.cop .divs) .implied

/-- `SQ32`: issues an integer square root of Q:P (R51). -/
def execSq32 (p : PanNo) (s : State) : Result := s.instruct p (.cop .sq32) .implied

/-- `SQ16`: issues an integer square root of P (R51). -/
def execSq16 (p : PanNo) (s : State) : Result := s.instruct p (.cop .sq16) .implied

/-- `MAC`: issues a signed 48-bit multiply-accumulate (R52). -/
def execMac (p : PanNo) (s : State) : Result := s.instruct p (.cop .mac) .implied

/-- `CPCL`: issues a clear of the coprocessor results and flags (R51). -/
def execCpcl (p : PanNo) (s : State) : Result := s.instruct p (.cop .cpcl) .implied

/-- `HOST_CALL`: HC0 to HC7 post a host-call request, or are refused in a real-time mode while a call is outstanding (R56). -/
def execHostCall (p : PanNo) (n : Fin 8) (s : State) : Result := s.instruct p (.hc n) .implied

/-- `MUL_DELIVER`: the oldest product in flight reaches MH:ML (R49). -/
def execMulDeliver (p : PanNo) (s : State) : Result := s.panStep p Pan.mulDeliver

/-- `COPROCESSOR_DONE`: the operation in flight writes its results (R51). -/
def execCoprocessorDone (p : PanNo) (s : State) : Result := s.panStep p Pan.copStep

end Sys2Proof.Machine
end

