-- ==== Sys2Proof/Machine/Dispatch.lean ====
section
/-!
DEFINITION. One arm per command: the call of its meaning.
-/
namespace Sys2Proof.Machine

/-- The effect of a command on everything but the queue. -/
def exec (i : Instr) (s : State) : Host.Outcome State Fault Refusal :=
  match i with
  | .add p m => Sys2Proof.Machine.execAdd p m s
  | .adc p m => Sys2Proof.Machine.execAdc p m s
  | .sub p m => Sys2Proof.Machine.execSub p m s
  | .sbc p m => Sys2Proof.Machine.execSbc p m s
  | .and p m => Sys2Proof.Machine.execAnd p m s
  | .or p m => Sys2Proof.Machine.execOr p m s
  | .xor p m => Sys2Proof.Machine.execXor p m s
  | .cmp p m => Sys2Proof.Machine.execCmp p m s
  | .cpx p m => Sys2Proof.Machine.execCpx p m s
  | .cpy p m => Sys2Proof.Machine.execCpy p m s
  | .cpp p => Sys2Proof.Machine.execCpp p s
  | .cpq p => Sys2Proof.Machine.execCpq p s
  | .lda p m => Sys2Proof.Machine.execLda p m s
  | .sta p m => Sys2Proof.Machine.execSta p m s
  | .ldb p m => Sys2Proof.Machine.execLdb p m s
  | .stb p m => Sys2Proof.Machine.execStb p m s
  | .ldx p m => Sys2Proof.Machine.execLdx p m s
  | .stx p m => Sys2Proof.Machine.execStx p m s
  | .ldy p m => Sys2Proof.Machine.execLdy p m s
  | .sty p m => Sys2Proof.Machine.execSty p m s
  | .ldk p m => Sys2Proof.Machine.execLdk p m s
  | .ldp p m => Sys2Proof.Machine.execLdp p m s
  | .stp p m => Sys2Proof.Machine.execStp p m s
  | .ldq p m => Sys2Proof.Machine.execLdq p m s
  | .stq p m => Sys2Proof.Machine.execStq p m s
  | .lds p => Sys2Proof.Machine.execLds p s
  | .mvb p => Sys2Proof.Machine.execMvb p s
  | .inc p m => Sys2Proof.Machine.execInc p m s
  | .dec p m => Sys2Proof.Machine.execDec p m s
  | .asl p m => Sys2Proof.Machine.execAsl p m s
  | .lsr p m => Sys2Proof.Machine.execLsr p m s
  | .rol p m => Sys2Proof.Machine.execRol p m s
  | .ror p m => Sys2Proof.Machine.execRor p m s
  | .tst p m => Sys2Proof.Machine.execTst p m s
  | .bit p m => Sys2Proof.Machine.execBit p m s
  | .negA p => Sys2Proof.Machine.execNegA p s
  | .notA p => Sys2Proof.Machine.execNotA p s
  | .inx p => Sys2Proof.Machine.execInx p s
  | .dex p => Sys2Proof.Machine.execDex p s
  | .iny p => Sys2Proof.Machine.execIny p s
  | .dey p => Sys2Proof.Machine.execDey p s
  | .inp p => Sys2Proof.Machine.execInp p s
  | .dep p => Sys2Proof.Machine.execDep p s
  | .inq p => Sys2Proof.Machine.execInq p s
  | .deq p => Sys2Proof.Machine.execDeq p s
  | .tab p => Sys2Proof.Machine.execTab p s
  | .tba p => Sys2Proof.Machine.execTba p s
  | .tax p => Sys2Proof.Machine.execTax p s
  | .txa p => Sys2Proof.Machine.execTxa p s
  | .tay p => Sys2Proof.Machine.execTay p s
  | .tya p => Sys2Proof.Machine.execTya p s
  | .tak p => Sys2Proof.Machine.execTak p s
  | .tka p => Sys2Proof.Machine.execTka p s
  | .swab p => Sys2Proof.Machine.execSwab p s
  | .tpq p => Sys2Proof.Machine.execTpq p s
  | .tqp p => Sys2Proof.Machine.execTqp p s
  | .tsp p => Sys2Proof.Machine.execTsp p s
  | .tps p => Sys2Proof.Machine.execTps p s
  | .adpa p => Sys2Proof.Machine.execAdpa p s
  | .leap p => Sys2Proof.Machine.execLeap p s
  | .leaq p => Sys2Proof.Machine.execLeaq p s
  | .daa p => Sys2Proof.Machine.execDaa p s
  | .nop p => Sys2Proof.Machine.execNop p s
  | .bra p => Sys2Proof.Machine.execBra p s
  | .beq p => Sys2Proof.Machine.execBeq p s
  | .bne p => Sys2Proof.Machine.execBne p s
  | .bcs p => Sys2Proof.Machine.execBcs p s
  | .bcc p => Sys2Proof.Machine.execBcc p s
  | .bmi p => Sys2Proof.Machine.execBmi p s
  | .bpl p => Sys2Proof.Machine.execBpl p s
  | .bvs p => Sys2Proof.Machine.execBvs p s
  | .bvc p => Sys2Proof.Machine.execBvc p s
  | .bhi p => Sys2Proof.Machine.execBhi p s
  | .bls p => Sys2Proof.Machine.execBls p s
  | .bge p => Sys2Proof.Machine.execBge p s
  | .blt p => Sys2Proof.Machine.execBlt p s
  | .bgt p => Sys2Proof.Machine.execBgt p s
  | .ble p => Sys2Proof.Machine.execBle p s
  | .djnz p => Sys2Proof.Machine.execDjnz p s
  | .jmp p m => Sys2Proof.Machine.execJmp p m s
  | .call p m => Sys2Proof.Machine.execCall p m s
  | .ret p => Sys2Proof.Machine.execRet p s
  | .rti p => Sys2Proof.Machine.execRti p s
  | .push p r => Sys2Proof.Machine.execPush p r s
  | .pop p r => Sys2Proof.Machine.execPop p r s
  | .clc p => Sys2Proof.Machine.execClc p s
  | .sec p => Sys2Proof.Machine.execSec p s
  | .cli p => Sys2Proof.Machine.execCli p s
  | .sei p => Sys2Proof.Machine.execSei p s
  | .clv p => Sys2Proof.Machine.execClv p s
  | .wai p => Sys2Proof.Machine.execWai p s
  | .waiWake p => Sys2Proof.Machine.execWaiWake p s
  | .rep p => Sys2Proof.Machine.execRep p s
  | .illegalOp p => Sys2Proof.Machine.execIllegalOp p s
  | .brk p => Sys2Proof.Machine.execBrk p s
  | .mul p => Sys2Proof.Machine.execMul p s
  | .muls p => Sys2Proof.Machine.execMuls p s
  | .mulDeliver p => Sys2Proof.Machine.execMulDeliver p s
  | .mu16 p => Sys2Proof.Machine.execMu16 p s
  | .ms16 p => Sys2Proof.Machine.execMs16 p s
  | .divu p => Sys2Proof.Machine.execDivu p s
  | .divs p => Sys2Proof.Machine.execDivs p s
  | .sq32 p => Sys2Proof.Machine.execSq32 p s
  | .sq16 p => Sys2Proof.Machine.execSq16 p s
  | .mac p => Sys2Proof.Machine.execMac p s
  | .cpcl p => Sys2Proof.Machine.execCpcl p s
  | .coprocessorDone p => Sys2Proof.Machine.execCoprocessorDone p s
  | .hostCall p n => Sys2Proof.Machine.execHostCall p n s
  | .hcallReply ring => Sys2Proof.Machine.execHcallReply ring s
  | .hcallReplyApply p => Sys2Proof.Machine.execHcallReplyApply p s
  | .hcallTimeout p => Sys2Proof.Machine.execHcallTimeout p s
  | .hcallRequestWrite ring => Sys2Proof.Machine.execHcallRequestWrite ring s
  | .irqEntry p => Sys2Proof.Machine.execIrqEntry p s
  | .nmiEntry p => Sys2Proof.Machine.execNmiEntry p s
  | .icClaimRead p => Sys2Proof.Machine.execIcClaimRead p s
  | .icCompleteWrite p v => Sys2Proof.Machine.execIcCompleteWrite p v s
  | .icSoft p v => Sys2Proof.Machine.execIcSoft p v s
  | .icHoldoffExpiry p g => Sys2Proof.Machine.execIcHoldoffExpiry p g s
  | .rombankHWrite p v => Sys2Proof.Machine.execRombankHWrite p v s
  | .registerWrite p a v => Sys2Proof.Machine.execRegisterWrite p a v s
  | .frameCountRead p => Sys2Proof.Machine.execFrameCountRead p s
  | .flipTimeRead p => Sys2Proof.Machine.execFlipTimeRead p s
  | .panTagRead p => Sys2Proof.Machine.execPanTagRead p s
  | .dmaStart p n v => Sys2Proof.Machine.execDmaStart p n v s
  | .dmaStop p n v => Sys2Proof.Machine.execDmaStop p n v s
  | .dmaUnitTransfer p n => Sys2Proof.Machine.execDmaUnitTransfer p n s
  | .dmaHalf p n => Sys2Proof.Machine.execDmaHalf p n s
  | .dmaFull p n => Sys2Proof.Machine.execDmaFull p n s
  | .crcDataWrite p v => Sys2Proof.Machine.execCrcDataWrite p v s
  | .crcCtlWrite p v => Sys2Proof.Machine.execCrcCtlWrite p v s
  | .crcInit p => Sys2Proof.Machine.execCrcInit p s
  | .crcStart p => Sys2Proof.Machine.execCrcStart p s
  | .crcDone p => Sys2Proof.Machine.execCrcDone p s
  | .crcResRead p => Sys2Proof.Machine.execCrcResRead p s
  | .inputSlotRead p k => Sys2Proof.Machine.execInputSlotRead p k s
  | .inputStatRead p k => Sys2Proof.Machine.execInputStatRead p k s
  | .inputPlacement p => Sys2Proof.Machine.execInputPlacement p s
  | .attachPlacement p => Sys2Proof.Machine.execAttachPlacement p s
  | .detachPlacement p => Sys2Proof.Machine.execDetachPlacement p s
  | .mailboxPlacement p => Sys2Proof.Machine.execMailboxPlacement p s
  | .mailboxDelivery p => Sys2Proof.Machine.execMailboxDelivery p s
  | .mbInack p => Sys2Proof.Machine.execMbInack p s
  | .mbSend p => Sys2Proof.Machine.execMbSend p s
  | .moviePlacement p => Sys2Proof.Machine.execMoviePlacement p s
  | .mvReadyWrite p v => Sys2Proof.Machine.execMvReadyWrite p v s
  | .frameCommit p v => Sys2Proof.Machine.execFrameCommit p v s
  | .frameLatch p => Sys2Proof.Machine.execFrameLatch p s
  | .fetchPoint p => Sys2Proof.Machine.execFetchPoint p s
  | .spriteCollision p x => Sys2Proof.Machine.execSpriteCollision p x s
  | .sprStatRead p => Sys2Proof.Machine.execSprStatRead p s
  | .vblank p => Sys2Proof.Machine.execVblank p s
  | .hblank p => Sys2Proof.Machine.execHblank p s
  | .lineCmp p => Sys2Proof.Machine.execLineCmp p s
  | .beamRead p => Sys2Proof.Machine.execBeamRead p s
  | .frameEnd p => Sys2Proof.Machine.execFrameEnd p s
  | .rasterTableEntry p n => Sys2Proof.Machine.execRasterTableEntry p n s
  | .timerTick p n => Sys2Proof.Machine.execTimerTick p n s
  | .timerMatch p n => Sys2Proof.Machine.execTimerMatch p n s
  | .timerOverflow p n => Sys2Proof.Machine.execTimerOverflow p n s
  | .timerCapnow p n v => Sys2Proof.Machine.execTimerCapnow p n v s
  | .timerCntHWrite p n v => Sys2Proof.Machine.execTimerCntHWrite p n v s
  | .timerCmpHWrite p n v => Sys2Proof.Machine.execTimerCmpHWrite p n v s
  | .timerCtlWrite p n v => Sys2Proof.Machine.execTimerCtlWrite p n v s
  | .timerCaplRead p n => Sys2Proof.Machine.execTimerCaplRead p n s
  | .soundTick p => Sys2Proof.Machine.execSoundTick p s
  | .envelopeStep p k => Sys2Proof.Machine.execEnvelopeStep p k s
  | .sweepStep p k => Sys2Proof.Machine.execSweepStep p k s
  | .lfsrShift p => Sys2Proof.Machine.execLfsrShift p s
  | .voiceKeyon p k v => Sys2Proof.Machine.execVoiceKeyon p k v s
  | .voiceEnvWrite p k v => Sys2Proof.Machine.execVoiceEnvWrite p k v s
  | .voiceSweepWrite p k v => Sys2Proof.Machine.execVoiceSweepWrite p k v s
  | .resamplerEmit p => Sys2Proof.Machine.execResamplerEmit p s
  | .s0CtlWrite p v => Sys2Proof.Machine.execS0CtlWrite p v s
  | .s0DataWrite p v => Sys2Proof.Machine.execS0DataWrite p v s
  | .s0Pop p => Sys2Proof.Machine.execS0Pop p s
  | .s0Refill p => Sys2Proof.Machine.execS0Refill p s
  | .swapIn p k => Sys2Proof.Machine.execSwapIn p k s
  | .swapOut p => Sys2Proof.Machine.execSwapOut p s
  | .burstStart p k => Sys2Proof.Machine.execBurstStart p k s
  | .burstEnd p => Sys2Proof.Machine.execBurstEnd p s
  | .freeRunStart p k => Sys2Proof.Machine.execFreeRunStart p k s
  | .freeRunEnd p => Sys2Proof.Machine.execFreeRunEnd p s
  | .freeRunWaitEnd p => Sys2Proof.Machine.execFreeRunWaitEnd p s
  | .rewind p => Sys2Proof.Machine.execRewind p s
  | .stepCountDone p => Sys2Proof.Machine.execStepCountDone p s
  | .logRecordApply p => Sys2Proof.Machine.execLogRecordApply p s
  | .haltReached p => Sys2Proof.Machine.execHaltReached p s
  | .storeError bay k store corrected => Sys2Proof.Machine.execStoreError bay k store corrected s
  | .boilerReload bay k => Sys2Proof.Machine.execBoilerReload bay k s
  | .patchSwitch => Sys2Proof.Machine.execPatchSwitch s
  | .deviceEpoch => Sys2Proof.Machine.execDeviceEpoch s
  | .slewAbsorbed => Sys2Proof.Machine.execSlewAbsorbed s
  | .tbTimeRead => Sys2Proof.Machine.execTbTimeRead s
  | .tbPpsinRead => Sys2Proof.Machine.execTbPpsinRead s
  | .tbSlewRead => Sys2Proof.Machine.execTbSlewRead s
  | .ppsOutEdge => Sys2Proof.Machine.execPpsOutEdge s
  | .ppsInEdge => Sys2Proof.Machine.execPpsInEdge s
  | .tbRefclkLock => Sys2Proof.Machine.execTbRefclkLock s
  | .tbRefclkLoss => Sys2Proof.Machine.execTbRefclkLoss s
  | .rxFrame port frame fcsOk => Sys2Proof.Machine.execRxFrame port frame fcsOk s
  | .packetDeparture port => Sys2Proof.Machine.execPacketDeparture port s
  | .packetDisplaced port => Sys2Proof.Machine.execPacketDisplaced port s
  | .packetLateDeparture port => Sys2Proof.Machine.execPacketLateDeparture port s
  | .pktTxSend ring => Sys2Proof.Machine.execPktTxSend ring s
  | .linkUp port => Sys2Proof.Machine.execLinkUp port s
  | .linkDown port => Sys2Proof.Machine.execLinkDown port s
  | .harvesterFrame p => Sys2Proof.Machine.execHarvesterFrame p s
  | .harvesterFrameDone p => Sys2Proof.Machine.execHarvesterFrameDone p s
  | .keyIntervalExpiry p => Sys2Proof.Machine.execKeyIntervalExpiry p s
  | .recoveryIntervalExpiry p => Sys2Proof.Machine.execRecoveryIntervalExpiry p s
  | .holdRefreshExpiry p => Sys2Proof.Machine.execHoldRefreshExpiry p s
  | .audioBlock p => Sys2Proof.Machine.execAudioBlock p s
  | .gainTimeout p right => Sys2Proof.Machine.execGainTimeout p right s
  | .opusFrameEncode p => Sys2Proof.Machine.execOpusFrameEncode p s
  | .i2sBlockPlay => Sys2Proof.Machine.execI2sBlockPlay s
  | .obsRecordWrite p => Sys2Proof.Machine.execObsRecordWrite p s
  | .headVblank h => Sys2Proof.Machine.execHeadVblank h s
  | .hpdRise h lanes rate => Sys2Proof.Machine.execHpdRise h lanes rate s
  | .hpdFall h => Sys2Proof.Machine.execHpdFall h s
  | .doorbell ring value => Sys2Proof.Machine.execDoorbell ring value s
  | .bootGo => Sys2Proof.Machine.execBootGo s
  | .evcRaise src => Sys2Proof.Machine.execEvcRaise src s
  | .evcGroupDelivery g => Sys2Proof.Machine.execEvcGroupDelivery g s
  | .moderationTimeout ring => Sys2Proof.Machine.execModerationTimeout ring s
  | .evtLostWrite ring => Sys2Proof.Machine.execEvtLostWrite ring s
  | .cplHeldWrite ring => Sys2Proof.Machine.execCplHeldWrite ring s
  | .slcDoneRead n => Sys2Proof.Machine.execSlcDoneRead n s
  | .sluiceHalf n => Sys2Proof.Machine.execSluiceHalf n s
  | .sluiceChainDone n => Sys2Proof.Machine.execSluiceChainDone n s
  | .sluiceFault n bytes => Sys2Proof.Machine.execSluiceFault n bytes s
  | .devQuery c => Sys2Proof.Machine.execDevQuery c s
  | .devSet c => Sys2Proof.Machine.execDevSet c s
  | .ringCreate c => Sys2Proof.Machine.execRingCreate c s
  | .ringDestroy c => Sys2Proof.Machine.execRingDestroy c s
  | .ringQuery c => Sys2Proof.Machine.execRingQuery c s
  | .ringMod c => Sys2Proof.Machine.execRingMod c s
  | .titleLoad c => Sys2Proof.Machine.execTitleLoad c s
  | .titleUnload c => Sys2Proof.Machine.execTitleUnload c s
  | .memAlloc c => Sys2Proof.Machine.execMemAlloc c s
  | .memFree c => Sys2Proof.Machine.execMemFree c s
  | .panCreate c => Sys2Proof.Machine.execPanCreate c s
  | .panDestroy c => Sys2Proof.Machine.execPanDestroy c s
  | .panConfig c => Sys2Proof.Machine.execPanConfig c s
  | .panStart c => Sys2Proof.Machine.execPanStart c s
  | .panMode c => Sys2Proof.Machine.execPanMode c s
  | .panHalt c => Sys2Proof.Machine.execPanHalt c s
  | .panResume c => Sys2Proof.Machine.execPanResume c s
  | .panStop c => Sys2Proof.Machine.execPanStop c s
  | .panReset c => Sys2Proof.Machine.execPanReset c s
  | .panDebug c => Sys2Proof.Machine.execPanDebug c s
  | .panAttach c => Sys2Proof.Machine.execPanAttach c s
  | .panDetach c => Sys2Proof.Machine.execPanDetach c s
  | .panMailbox c => Sys2Proof.Machine.execPanMailbox c s
  | .panMovie c => Sys2Proof.Machine.execPanMovie c s
  | .panInput c => Sys2Proof.Machine.execPanInput c s
  | .panHcall c => Sys2Proof.Machine.execPanHcall c s
  | .panObs c => Sys2Proof.Machine.execPanObs c s
  | .panQuery c => Sys2Proof.Machine.execPanQuery c s
  | .heapDepth c => Sys2Proof.Machine.execHeapDepth c s
  | .heapHash c => Sys2Proof.Machine.execHeapHash c s
  | .heapHashref c => Sys2Proof.Machine.execHeapHashref c s
  | .heapLog c => Sys2Proof.Machine.execHeapLog c s
  | .heapSave c => Sys2Proof.Machine.execHeapSave c s
  | .heapRestore c => Sys2Proof.Machine.execHeapRestore c s
  | .heapReplay c => Sys2Proof.Machine.execHeapReplay c s
  | .streamCreate c => Sys2Proof.Machine.execStreamCreate c s
  | .streamSet c => Sys2Proof.Machine.execStreamSet c s
  | .streamDelete c => Sys2Proof.Machine.execStreamDelete c s
  | .streamKey c => Sys2Proof.Machine.execStreamKey c s
  | .streamLoss c => Sys2Proof.Machine.execStreamLoss c s
  | .streamQuery c => Sys2Proof.Machine.execStreamQuery c s
  | .portSet c => Sys2Proof.Machine.execPortSet c s
  | .portAddr c => Sys2Proof.Machine.execPortAddr c s
  | .portRings c => Sys2Proof.Machine.execPortRings c s
  | .flowSet c => Sys2Proof.Machine.execFlowSet c s
  | .flowKey c => Sys2Proof.Machine.execFlowKey c s
  | .netQuery c => Sys2Proof.Machine.execNetQuery c s
  | .audioSet c => Sys2Proof.Machine.execAudioSet c s
  | .audioRoute c => Sys2Proof.Machine.execAudioRoute c s
  | .audioGauge c => Sys2Proof.Machine.execAudioGauge c s
  | .headTiming c => Sys2Proof.Machine.execHeadTiming c s
  | .headLayout c => Sys2Proof.Machine.execHeadLayout c s
  | .headTile c => Sys2Proof.Machine.execHeadTile c s
  | .headStatus c => Sys2Proof.Machine.execHeadStatus c s
  | .headSideband c => Sys2Proof.Machine.execHeadSideband c s
  | .tbRate c => Sys2Proof.Machine.execTbRate c s
  | .tbSlew c => Sys2Proof.Machine.execTbSlew c s
  | .tbStep c => Sys2Proof.Machine.execTbStep c s
  | .tbPps c => Sys2Proof.Machine.execTbPps c s
  | .fwWrite c => Sys2Proof.Machine.execFwWrite c s
  | .ucodePatch c => Sys2Proof.Machine.execUcodePatch c s
  | .sluiceStart c => Sys2Proof.Machine.execSluiceStart c s
  | .txnBegin c => Sys2Proof.Machine.execTxnBegin c s
  | .txnStage opcode c => Sys2Proof.Machine.execTxnStage opcode c s
  | .txnCommit c => Sys2Proof.Machine.execTxnCommit c s
  | .txnRollback c => Sys2Proof.Machine.execTxnRollback c s
  | .txnExpiry txid => Sys2Proof.Machine.execTxnExpiry txid s
  | .commandTimeout k => Sys2Proof.Machine.execCommandTimeout k s
  | .abortSluice c => Sys2Proof.Machine.execAbortSluice c s
  | .abortPan c => Sys2Proof.Machine.execAbortPan c s
  | .abortRing c => Sys2Proof.Machine.execAbortRing c s
  | .abortSession c => Sys2Proof.Machine.execAbortSession c s
  | .abortAll c => Sys2Proof.Machine.execAbortAll c s
  | .sysRstRelease => Sys2Proof.Machine.execSysRstRelease s
  | .sysRstAssert => Sys2Proof.Machine.execSysRstAssert s
  | .perstAssert => Sys2Proof.Machine.execPerstAssert s
  | .functionLevelReset => Sys2Proof.Machine.execFunctionLevelReset s
  | .firmwareAccept => Sys2Proof.Machine.execFirmwareAccept s
  | .dramTrained n ok => Sys2Proof.Machine.execDramTrained n ok s
  | .ucodeLoaded => Sys2Proof.Machine.execUcodeLoaded s
  | .d3hotEntry => Sys2Proof.Machine.execD3hotEntry s
  | .d0Return => Sys2Proof.Machine.execD0Return s
  | .avsVoutCommand tenthMv => Sys2Proof.Machine.execAvsVoutCommand tenthMv s
  | .railAlertAssert => Sys2Proof.Machine.execRailAlertAssert s
  | .railAlertRelease => Sys2Proof.Machine.execRailAlertRelease s
  | .governorStartDelay p => Sys2Proof.Machine.execGovernorStartDelay p s
  | .thermalWarning tj => Sys2Proof.Machine.execThermalWarning tj s
  | .thermalThrottle tj => Sys2Proof.Machine.execThermalThrottle tj s
  | .thermtrip tj => Sys2Proof.Machine.execThermtrip tj s
  | .smbBlockRead offset => Sys2Proof.Machine.execSmbBlockRead offset s
  | .smbBlockWrite offset value => Sys2Proof.Machine.execSmbBlockWrite offset value s
  | .pinEdge pin level => Sys2Proof.Machine.execPinEdge pin level s
  | .deviceRegisterWrite offset value => Sys2Proof.Machine.execDeviceRegisterWrite offset value s
  | .perstRelease => Sys2Proof.Machine.execPerstRelease s
  | .commandInterpreterReady => Sys2Proof.Machine.execCommandInterpreterReady s
  | .timebaseCounting refclk => Sys2Proof.Machine.execTimebaseCounting refclk s
  | .ppsOutFall => Sys2Proof.Machine.execPpsOutFall s
  | .thermWarnClear tj => Sys2Proof.Machine.execThermWarnClear tj s
  | .thermalThrottleEnd tj => Sys2Proof.Machine.execThermalThrottleEnd tj s
  | .powerRemoval => Sys2Proof.Machine.execPowerRemoval s

end Sys2Proof.Machine
end

