-- ==== Sys2Proof/Machine/Tick.lean ====
section
/-!
DEFINITION. What a step does when no command waits: one cycle of BCLK passes (notes/assumptions/2.md). Device time advances
by 32/3 timebase units under the steering in force (R10, R208, R211), and each pan a boiler runs and nothing holds runs one pan-cycle (R11). Every other
event of the device is a row of its own.
-/
namespace Sys2Proof.Machine

/-- Device time after one BCLK cycle, the fraction carried over; it counts on in D3hot (R383). -/
def State.tickTime (s : State) : State :=
  if s.tb.counting && s.pwr.supplied && !s.pwr.sysRst && !s.pwr.tripped then
    let n := s.acc + 32 * s.tb.speed
    { s with tb := { s.tb.absorb slewParts with time := s.tb.time + n / unitParts }, acc := n % unitParts }
  else s

/-- The pans that run in this cycle. -/
def State.livePans (s : State) : List Nat :=
  (s.sites.filter (fun e => s.runs e.2 && !e.2.haltsHere && !e.2.recordDue)).map (fun e => e.1)

/-- A running pan's pan-cycle; commands that wait for its latch land when it passes it (R360). -/
def State.runCycle (p : Nat) (s : State) : State :=
  let t := s.panCycle p false
  match s.site p, t.site p with
  | some x, some y => if x.pan.latched y.pan then t.landLatch p else t
  | _, _ => t

/-- The rate the engines run at, in eighths: the thermal throttle, and half rate under a rail alert, of which the deeper cut applies (R385,
R387). -/
def Power.rate (p : Power) : Nat := if p.railAlert then min 4 (8 - p.thermal) else 8 - p.thermal

/-- One BCLK cycle with no command: runs that are over end, and the engines move on in as many cycles of eight as their rate gives. -/
def State.tick (s : State) : State :=
  let t := s.tickTime.endRuns
  let n := t.pwr.duty + t.pwr.rate
  let u := t.modPwr (fun p => { p with duty := n % 8 })
  if 8 ≤ n then u.livePans.foldl (fun v p => v.runCycle p) u else u

end Sys2Proof.Machine
end

