-- ==== Sys2Proof/Safety.lean ====
section
/-!
DEFINITION. What a well-kept device is, in the terms statements use: stores of bytes in canonical form, tables in the order of
their numbers, reserved flag bits that read 0; what every command keeps; and what it means for a pan to advance, to run an
instruction of one of the shapes of R28, or to make a register access.
-/
namespace Sys2Proof.Machine

/-! ### Well-kept states -/

/-- Host memory and device DRAM are in canonical form (R377). -/
def State.storesWf (s : State) : Bool := s.host.wf && s.dram.wf

/-- A command leaves the queue of waiting commands alone, and the canonical form of host memory and DRAM. -/
def Kept (s t : State) : Prop := t.pending = s.pending ∧ (s.storesWf = true → t.storesWf = true)

/-- Reserved bits 5 and 2 of F read 0 (R25). -/
def Cpu.flagsLegal (c : Cpu) : Bool := c.f &&& 0x24 == 0

/-- The stores of bytes of a pan (R63). -/
def Pan.stores (p : Pan) : List Memory := [p.wram, p.vram, p.cram, p.media, p.oam, p.wave, p.ras.palW, p.ras.palF]

/-- Every store of a pan is in canonical form. -/
def Pan.storesWf (p : Pan) : Bool := p.stores.all Memory.wf

/-- The tables of the device list their objects in the order of their numbers, each once. -/
def State.tablesSorted (s : State) : Bool :=
  Table.sortedFrom 0 s.rings && Table.sortedFrom 0 s.sites && Table.sortedFrom 0 s.flows && Table.sortedFrom 0 s.titles &&
    Table.sortedFrom 0 s.allocs && Table.sortedFrom 0 s.txns

/-! ### Flags and sums, as R25 and R33 say them -/

/-- F with some bits set to values. -/
def withFlags (f : Byte) (l : List (Nat × Bool)) : Byte := l.foldl (fun g e => setBit g e.1 e.2) f

/-- The sum of two bytes and `k`, modulo 256. -/
def sumOf (a m : Byte) (k : Nat) : Byte := BitVec.ofNat 8 (a.toNat + m.toNat + k)

/-- The difference of two bytes and `k`, modulo 256. -/
def differenceOf (a m : Byte) (k : Nat) : Byte := BitVec.ofInt 8 ((a.toNat : Int) - m.toNat - k)

/-- F after a sum: N and Z of the result, V where the signed sum leaves −128 to 127, H and C the carries out of bits 3 and 7. -/
def flagsOfSum (f a m : Byte) (k : Nat) : Byte :=
  withFlags f [(7, (sumOf a m k).getLsbD 7), (1, decide (sumOf a m k = 0)),
    (6, decide (a.toInt + m.toInt + k < -128 ∨ 127 < a.toInt + m.toInt + k)),
    (4, decide (16 ≤ a.toNat % 16 + m.toNat % 16 + k)), (0, decide (256 ≤ a.toNat + m.toNat + k))]

/-- F after a difference: N and Z of the result, V where the signed difference leaves −128 to 127, H = 0, C where there is no
borrow. -/
def flagsOfDifference (f a m : Byte) (k : Nat) : Byte :=
  withFlags f [(7, (differenceOf a m k).getLsbD 7), (1, decide (differenceOf a m k = 0)),
    (6, decide (a.toInt - m.toInt - k < -128 ∨ 127 < a.toInt - m.toInt - k)), (4, false), (0, decide (m.toNat + k ≤ a.toNat))]

/-- F with N and Z of an 8-bit result. -/
def flagsOf (f r : Byte) : Byte := withFlags f [(7, r.getLsbD 7), (1, decide (r = 0))]

/-- F with N and Z of a 16-bit result. -/
def flagsOf16 (f : Byte) (r : Word) : Byte := withFlags f [(7, r.getLsbD 15), (1, decide (r = 0))]

/-! ### A pan that advances -/

/-- The device in which the image of pan `p`, whose record is `x`, has become `q`: the image is marked for write-back, and the
credits of messages no longer waiting are back (R95); nothing else is different. -/
def State.withPan (p : Nat) (x : Site) (q : Pan) (s : State) : State :=
  s.putSite p ({ x with pan := q, dirty := true }).settleCredits

/-- The device in which the image has become `q` and what the pan put out is handed on (R29, R95, R101). -/
def State.stepsTo (p : Nat) (x : Site) (q : Pan) (s : State) : State :=
  (s.putSite p { x with pan := q, dirty := true }).afterPan p (((s.site p).map (fun y => y.pan)).getD x.pan) false

/-- Nothing of the pan waits to be handed on: no event, no call, no fault, no line served from the crust. -/
structure Pan.Still (p : Pan) : Prop where
  out : p.out = []
  abort : p.abort = false
  served : p.crust.served = 0

/-- Pan `p` advances (R12, R194) with the record `x`, and nothing of it waits to be handed on. -/
structure State.Advances (s : State) (p : Nat) (x : Site) : Prop extends Pan.Still x.pan where
  live : s.liveSite p = some x

/-- The record as its next pan-cycle begins: what waited for the end of the one before it, a write to timers, sound or wave tables
and the actions of matches, has happened (R146, R163). -/
def Site.settled (x : Site) : Site := { x with pan := x.pan.settle }

/-- Pan `p` advances, and a pan-cycle of it begins with the record `x`. -/
structure State.Goes (s : State) (p : Nat) (x : Site) : Prop extends Pan.Still x.pan where
  live : ∃ y, s.liveSite p = some y ∧ x = y.settled

/-- Pan `p` advances and stands before an instruction of operation `o` in form `m`, with no halt due, no interrupt sampled and
no `REP` sequence open. -/
structure State.Begins (s : State) (p : Nat) (x : Site) (o : Op) (m : Mode) : Prop extends State.Goes s p x where
  halt : (s.site p).any Site.haltsHere = false
  reset : x.pan.core.resetLeft = 0
  ready : x.pan.ready = true
  here : x.pan.opAt = some (o, m)

/-- `q` differs from `p` in nothing but the processor, the count of pan-cycles and the dots of line-scope writes made before:
memories, registers, timers, channels, sound and every other unit are as they were. -/
def Pan.OnlyCpu (p q : Pan) : Prop :=
  q = { p with cpu := q.cpu, core := q.core, clk := q.clk, ras := { p.ras with lineQ := q.ras.lineQ } }

/-- An address outside $E000 to $EFFF, where reading has no side effects (R63, R67). -/
def plainAddr (a : Word) : Prop := a.toNat < 0xE000 ∨ 0xF000 ≤ a.toNat

/-- An instruction's bytes lie outside $E000 to $EFFF. -/
def plainCode (m : Mode) (pc : Word) : Prop := ∀ i, i ≤ operandBytes m → plainAddr (pc + BitVec.ofNat 16 i)

/-! ### The shapes of R28

Each says, for a command that runs an instruction of the shape, that it completes, and what it leaves: the registers, the time, and
the rest of the image. An instruction's bytes are read one a pan-cycle, so that a byte in $E000 to $EFFF is read with its side
effects and at its own time. -/

/-- PC after an instruction of a form. -/
def Cpu.next (m : Mode) (c : Cpu) : Cpu := { c with pc := c.pc + BitVec.ofNat 16 (1 + operandBytes m) }

/-- The image once the opcode and the operand bytes of a form are read. -/
def Pan.afterOperands (m : Mode) (p : Pan) : Pan :=
  (List.replicate (operandBytes m) (fun q : Pan => (q.operand).spend)).foldl (fun q f => f q) (p.fetched).spend

/-- The image from which a form's operand byte is read, and its address (R27). -/
def Pan.operandFrom (m : Mode) (p : Pan) : Pan × Word :=
  if m = .imm then ((p.fetched).spend, p.cpu.pc + 1) else (p.afterOperands m, (p.afterOperands m).dataAddr m)

/-- What an instruction that only reads leaves of the pan `x` besides registers and time: the image `r` with the side effects of
its reads, no byte of any store changed, and nothing at all where no byte read lies in $E000 to $EFFF. -/
def ReadsOnly (x r q : Pan) (plain : Prop) : Prop :=
  Pan.OnlyCpu r q ∧ q.stores = x.stores ∧ (plain → Pan.OnlyCpu x q)

/-- Command `i` runs an instruction that reads one operand byte in form `m`: PC passes the instruction, `f` makes the registers
from the byte, the form's increment follows, and it takes a pan-cycle for the opcode, each operand byte and the read. -/
def LoadsByte (i : Instr) (p : Nat) (o : Op) (m : Mode) (f : Byte → Cpu → Cpu) : Prop :=
  ∀ s x, State.Begins s p x o m →
    ∃ q, exec i s = .next (s.withPan p x q) ∧
      q.cpu = postInc m (f ((x.pan.operandFrom m).1.peek (x.pan.operandFrom m).2) (x.pan.cpu.next m)) ∧
      q.clk = x.pan.clk + 1 + operandBytes m + (if m = .imm then 0 else 1) ∧
      ReadsOnly x.pan ((x.pan.operandFrom m).1.touch (x.pan.operandFrom m).2) q
        (plainCode m x.pan.cpu.pc ∧ plainAddr (x.pan.operandFrom m).2)

/-- The image from which the high byte of a form's 16-bit operand is read, its address, and the low byte, read before it from the
address below; the direct form stays within page $00 (R27). -/
def Pan.wordFrom (m : Mode) (p : Pan) : Pan × Word × Byte :=
  if m = .imm16 then ((((p.fetched).spend).operand).spend, p.cpu.pc + 2, ((p.fetched).spend).peek (p.cpu.pc + 1))
  else
    let r := p.afterOperands m
    ((readLow m r).spend, highAddr m (r.dataAddr m), r.peek (r.dataAddr m))

/-- Command `i` runs an instruction that reads a 16-bit operand, low byte first. -/
def LoadsWord (i : Instr) (p : Nat) (o : Op) (m : Mode) (f : Word → Cpu → Cpu) : Prop :=
  ∀ s x, State.Begins s p x o m →
    ∃ q, exec i s = .next (s.withPan p x q) ∧
      q.cpu = f (Word.ofBytes ((x.pan.wordFrom m).1.peek (x.pan.wordFrom m).2.1) (x.pan.wordFrom m).2.2) (x.pan.cpu.next m) ∧
      q.clk = x.pan.clk + 1 + operandBytes m + (if m = .imm16 then 0 else 2) ∧
      ReadsOnly x.pan ((x.pan.wordFrom m).1.touch (x.pan.wordFrom m).2.1) q
        (plainCode m x.pan.cpu.pc ∧ plainAddr (x.pan.wordFrom m).2.1 ∧
          (m ≠ .imm16 → plainAddr ((x.pan.afterOperands m).dataAddr m)))

/-- Command `i` runs an instruction whose operand is a signed byte, or a 16-bit immediate, with an internal pan-cycle after
it: `f` makes the registers from the operand's value. -/
def UsesOperand (i : Instr) (p : Nat) (o : Op) (m : Mode) (v : Pan → Word) (f : Word → Cpu → Cpu) : Prop :=
  ∀ s x, State.Begins s p x o m →
    ∃ q, exec i s = .next (s.withPan p x q) ∧ q.cpu = f (v x.pan) (x.pan.cpu.next m) ∧
      q.clk = x.pan.clk + 2 + operandBytes m ∧ ReadsOnly x.pan (x.pan.afterOperands m) q (plainCode m x.pan.cpu.pc)

/-- The signed byte after the opcode. -/
def Pan.signedOperand (p : Pan) : Word := Word.ofSigned (((p.fetched).spend).peek (p.cpu.pc + 1))

/-- The 16-bit immediate after the opcode. -/
def Pan.wordOperand (p : Pan) : Word :=
  Word.ofBytes (((((p.fetched).spend).operand).spend).peek (p.cpu.pc + 2)) (((p.fetched).spend).peek (p.cpu.pc + 1))

/-- Command `i` runs an instruction of one byte that works on registers alone, in `n` pan-cycles. -/
def SetsRegisters (i : Instr) (p : Nat) (o : Op) (m : Mode) (n : Nat) (f : Cpu → Cpu) : Prop :=
  ∀ s x, State.Begins s p x o m →
    ∃ q, exec i s = .next (s.withPan p x q) ∧ q.cpu = f (x.pan.cpu.next m) ∧ q.clk = x.pan.clk + n ∧
      ReadsOnly x.pan (x.pan.touch x.pan.cpu.pc) q (plainAddr x.pan.cpu.pc)

/-- Command `i` runs an instruction that stores the byte `g` of the registers at the address of form `m`, in a pan-cycle after
the operand bytes; only a write to `IC_COMPLETE` out of order keeps it from completing (R60). -/
def StoresByte (i : Instr) (p : Nat) (o : Op) (m : Mode) (g : Cpu → Byte) : Prop :=
  ∀ s x, State.Begins s p x o m →
    ∀ r a, r = x.pan.afterOperands m → a = r.dataAddr m → (r.poke a (g x.pan.cpu)).abort = false →
      ∃ q, exec i s = .next (s.stepsTo p x q) ∧ q.cpu = postInc m (x.pan.cpu.next m) ∧
        q.clk = x.pan.clk + 2 + operandBytes m ∧ Pan.OnlyCpu (r.poke a (g x.pan.cpu)) q ∧
        (plainCode m x.pan.cpu.pc → Pan.OnlyCpu x.pan r) ∧ (plainAddr a → s.stepsTo p x q = s.withPan p x q)

/-- Command `i` runs an instruction that stores the word `g` of the registers, low byte first: `u` is the image once the low byte is
written and the pan-cycle that wrote it has ended. -/
def StoresWord (i : Instr) (p : Nat) (o : Op) (m : Mode) (g : Cpu → Word) : Prop :=
  ∀ s x, State.Begins s p x o m →
    ∀ r u a, r = x.pan.afterOperands m → a = r.dataAddr m → u = ((writeLow m g r).spend).settle →
      (writeLow m g r).abort = false → (u.poke (highAddr m a) (g x.pan.cpu).hi).abort = false →
      ∃ q, exec i s = .next (s.stepsTo p x q) ∧ q.cpu = x.pan.cpu.next m ∧ q.clk = x.pan.clk + 3 + operandBytes m ∧
        Pan.OnlyCpu (u.poke (highAddr m a) (g x.pan.cpu).hi) q ∧ (plainAddr a → Pan.OnlyCpu (r.poke a (g x.pan.cpu).lo) u) ∧
        (plainCode m x.pan.cpu.pc → Pan.OnlyCpu x.pan r) ∧
        (plainAddr a → plainAddr (highAddr m a) → s.stepsTo p x q = s.withPan p x q)

/-- Command `i` runs an instruction that reads a byte of memory and, after an internal pan-cycle, writes at the same address what
`g` makes of the byte and F, which also gives the new F (R31). -/
def ModifiesByte (i : Instr) (p : Nat) (o : Op) (m : Mode) (g : Byte → Byte → Byte × Byte) : Prop :=
  ∀ s x, State.Begins s p x o m →
    ∀ r u a v, r = x.pan.afterOperands m → a = r.dataAddr m → v = r.peek a → u = (((readLow m r).spend).internal).spend →
      (u.poke a (g v x.pan.cpu.f).1).abort = false →
      ∃ q, exec i s = .next (s.stepsTo p x q) ∧ q.cpu = { x.pan.cpu.next m with f := (g v x.pan.cpu.f).2 } ∧
        q.clk = x.pan.clk + 4 + operandBytes m ∧ Pan.OnlyCpu (u.poke a (g v x.pan.cpu.f).1) q ∧ Pan.OnlyCpu (r.touch a) u ∧
        (plainCode m x.pan.cpu.pc → Pan.OnlyCpu x.pan r) ∧ (plainAddr a → s.stepsTo p x q = s.withPan p x q)

/-- Command `i` runs a branch: where `c` holds of the registers that `f` leaves it goes to PC + r in three pan-cycles, else on in
two (R28, R35). -/
def Branches (i : Instr) (p : Nat) (o : Op) (c : Cpu → Bool) (f : Cpu → Cpu) : Prop :=
  ∀ s x, State.Begins s p x o .rel →
    ∃ q, exec i s = .next (s.withPan p x q) ∧
      q.cpu = f { x.pan.cpu with
        pc := x.pan.cpu.pc + 2 + (if c (f x.pan.cpu) then x.pan.signedOperand else 0) } ∧
      q.clk = x.pan.clk + (if c (f x.pan.cpu) then 3 else 2) ∧
      ReadsOnly x.pan (x.pan.afterOperands .rel) q (plainCode .rel x.pan.cpu.pc)

/-- Every byte an instruction reads or writes lies outside $E000 to $EFFF. -/
def plainRun (m : Mode) (pc : Word) (as : List Word) : Prop := plainCode m pc ∧ ∀ a ∈ as, plainAddr a

/-- Bytes written one after the other. -/
def Pan.pokes (ws : List (Word × Byte)) (p : Pan) : Pan := ws.foldl (fun q w => q.poke w.1 w.2) p

/-- The little-endian word at an address, as reads return it. -/
def Pan.wordAt (p : Pan) (a : Word) : Word := Word.ofBytes (p.peek (a + 1)) (p.peek a)

/-- Command `i` completes: the image of pan `p` becomes one with registers `c`, `n` pan-cycles later, that otherwise differs from `r`
in nothing but the processor's running state; nothing else of the device changes. -/
def Runs (i : Instr) (s : State) (p : Nat) (x : Site) (c : Cpu) (n : Nat) (r : Pan) : Prop :=
  ∃ q, exec i s = .next (s.withPan p x q) ∧ q.cpu = c ∧ q.clk = x.pan.clk + n ∧ Pan.OnlyCpu r q

/-- Interrupt entry has been committed by a sampling point, and no fault and no instruction is in progress. -/
def Pan.entering (p : Pan) : Prop := p.core.cyc = 0 ∧ p.core.entry = 0 ∧ p.core.fault = 0

/-- The address an interrupt entry pushes: PC, or the prefix of a `REP` sequence with iterations left (R43). -/
def Pan.returnAddress (p : Pan) : Word := if p.core.rep then p.core.start else p.cpu.pc

/-- What entry pushes, from S downward: F, then the return address, high byte first (R43, R44). -/
def Pan.entryPushes (ret : Word) (p : Pan) : List (Word × Byte) :=
  [(p.cpu.s, p.cpu.f), (p.cpu.s - 1, ret.hi), (p.cpu.s - 2, ret.lo)]

/-- The registers entry leaves: three bytes pushed, I = 1, PC from the vector. -/
def Pan.entered (vector : Word) (p : Pan) : Cpu :=
  { p.cpu with s := p.cpu.s - 3, f := withFlags p.cpu.f [(3, true)], pc := p.wordAt vector }

/-- The addresses entry writes and reads. -/
def Pan.entryAddrs (vector : Word) (p : Pan) : List Word :=
  [p.cpu.s, p.cpu.s - 1, p.cpu.s - 2, vector, vector + 1]

/-- What a committed IRQ locks: the winner the sampling found in native mode, which a later `LEGACY` does not undo; in legacy mode
there is none, and nothing changes (R153, R155, R156). -/
def Pan.locked (w : Option Nat) (p : Pan) : Pan :=
  { p with ic := { p.ic with lock := w.or p.ic.lock, legacy := p.ic.legacy && w.isNone } }

/-! ### Register accesses and events of virtual time -/

/-- Command `i` reads a register in one pan-cycle: the byte `b` is returned, `f` is the side effect, nothing else changes. -/
def Reads (i : Instr) (p : Nat) (c : Pan → Bool) (b : Pan → Byte) (f : Pan → Pan) : Prop :=
  ∀ s x, State.Goes s p x → c x.pan = true →
    exec i s = .next (s.withPan p x { f x.pan with bus := b x.pan, clk := x.pan.clk + 1 })

/-- Command `i` writes a register in one pan-cycle: the image becomes `f` of what it was, with the dots of line-scope writes made
before settled; nothing else changes. -/
def Writes (i : Instr) (p : Nat) (c : Pan → Bool) (f : Pan → Pan) : Prop :=
  ∀ s x, State.Goes s p x → c x.pan = true →
    ∃ q, exec i s = .next (s.withPan p x q) ∧ q.cpu = x.pan.cpu ∧ q.core = (f x.pan).core ∧ q.clk = x.pan.clk + 1 ∧
      Pan.OnlyCpu (f x.pan) q

/-- Command `i` writes a register of the timers, the sound voices or the wave tables in one pan-cycle: the write waits for the ticks
of that pan-cycle, and nothing else changes; once its actions are done the image is `f` of what it was with that pan-cycle run, and the
low mark follows (R146, R163, R172). -/
def WritesLate (i : Instr) (p : Nat) (c : Pan → Bool) (f : Pan → Pan) : Prop :=
  ∀ s x, State.Goes s p x → c x.pan = true →
    ∃ q, exec i s = .next (s.withPan p x q) ∧ q.cpu = x.pan.cpu ∧ q.core = x.pan.core ∧ q.clk = x.pan.clk + 1 ∧
      Pan.OnlyCpu { x.pan with late := q.late } q ∧
      q.settle = (f { q.runActs with late := none }).lowCheck x.pan.snd.s0.fifo.length (f { q.runActs with late := none }).snd.s0.mark

/-- The end of the pan-cycle that takes the count to `t` has come, or idling in `WAI` with nothing requested reaches it (R38). -/
def Pan.comes (t : Nat) (p : Pan) : Bool :=
  decide (t ≤ p.clk) || (p.settle.core.wait && !p.settle.core.nmi && (p.settle.ic.winner p.clk).isNone)

/-- The image at that time. -/
def Pan.upTo (t : Nat) (p : Pan) : Pan := if t ≤ p.clk then p else { p.settle with clk := t }

/-- Command `i` is an event of virtual time due at the count `t` where `c` holds: the image becomes `f` of what it is then, and
nothing else changes. -/
def Event (i : Instr) (p : Nat) (t : Pan → Nat) (c : Pan → Bool) (f : Pan → Pan) : Prop :=
  ∀ s x, State.Advances s p x → c x.pan = true → x.pan.comes (t x.pan) = true →
    exec i s = .next (s.withPan p x (f (x.pan.upTo (t x.pan))))

/-- Command `i` is an event that waits for nothing but its condition. -/
def EventNow (i : Instr) (p : Nat) (c : Pan → Bool) (f : Pan → Pan) : Prop :=
  ∀ s x, State.Advances s p x → c x.pan = true → exec i s = .next (s.withPan p x (f x.pan))

/-- The image with PEND set for each source listed with `true` (R151). -/
def Pan.raising (l : List (Nat × Bool)) (p : Pan) : Pan :=
  { p with ic := { p.ic with pend := l.foldl (fun b e => if e.2 then b ||| (1#32 <<< e.1) else b) p.ic.pend } }

/-- The record once placement `pl` has been applied on pan-cycle `c`: out of its queue, its call over, logged where the log runs and
it has not been before, and remembered for re-runs (R225, R242). -/
def Site.noted (c : Nat) (pl : Placement) (x : Site) : Site := x.noteApplied (c, pl)

/-- Command `i` applies the next placement where `k` names its kind, at the end of the pan-cycle it falls on: the image becomes `f`
of what it is then. -/
def Places (i : Instr) (p : Nat) (k : PlaceKind) (f : Bool → Pan → Pan) : Prop :=
  ∀ s x c pl, State.Advances s p x → x.nextPlace = some (c, pl) → pl.kind = k → x.pan.comes (c + 1) = true →
    exec i s = .next (s.withPan p (x.noted c pl) (f pl.late (x.pan.upTo (c + 1))))

/-! ### The device -/

/-- Command `i` completes in a state of which `q` holds. -/
def Completes (i : Instr) (s : State) (q : State → Prop) : Prop := ∃ t, exec i s = .next t ∧ q t

/-- The pan's record is one of which `q` holds. -/
def SiteThat (t : State) (p : Nat) (q : Site → Prop) : Prop := ∃ y, t.site p = some y ∧ q y

/-- `t` differs from `s` in nothing but what raised sources and written records change: host memory, ring indices, the event
controller, completions held, and the counts of lost events and bittern records (R332 to R341, R344, R347). -/
def OnlyEvents (s t : State) : Prop :=
  t = { s with host := t.host, rings := t.rings, evc := t.evc, held := t.held, evtLost := t.evtLost,
               bitternWritten := t.bitternWritten, bitternCounted := t.bitternCounted }

/-- Event source `n` has been raised: masked, it is pending (R333). -/
def Raised (n : Nat) (t : State) : Prop := t.evc.en.getLsbD n = false → t.evc.pend.getLsbD n = true

/-! ### Host commands (R342, R357 to R360) -/

/-- Host memory with a completion in the CPL ring `q`: the record in the entry of its index, then the index (R338, R357). -/
def Memory.completed (q : Ring) (c : Packet) (op status : Nat) (res : List Byte) (now : Nat) (m : Memory) : Memory :=
  (m.writeBytes (q.base + q.dev.toNat % 2 ^ q.log2 * 32)
    (leBytes 2 c.tag.toNat ++ leBytes 2 op ++ leBytes 2 status ++ leBytes 2 c.ring ++ slice res 0 16 ++ leBytes 8 now)).writeBytes
    q.idxAddr (leBytes 4 (q.dev + 1).toNat)

/-- Command `op` of packet `c` is answered on ring `cpl`, and the state is otherwise `v`: versions of objects, what raised sources
change, the index of `cpl` and the open commands of the command's own ring apart, nothing differs; the completion stands in host
memory where `cpl` takes one, unless NOCPL spares a success. -/
def Answered (c : Packet) (cpl op status : Nat) (res : List Byte) (v t : State) : Prop :=
  OnlyEvents { v with versions := t.versions } t ∧
    (v.cplFree cpl = true → t.host = if c.flags.getLsbD 1 = true ∧ status = 0 then v.host
      else (v.ring cpl).elim v.host (fun q => v.host.completed q c op status res v.now)) ∧
    t.rings.filter (fun e => e.1 != c.ring && e.1 != cpl) = v.rings.filter (fun e => e.1 != c.ring && e.1 != cpl)

/-- The control core takes command `c` of ring `r`, not staged, and none of the checks of R359 fails. -/
def State.passes (k : CmdSpec) (c : Packet) (r : Ring) (s : State) : Bool :=
  decide (s.takes c = some r) && !isStaged c && (k.early (s.consume c.ring r) (packetRead c)).isNone &&
    (k.judged (s.consume c.ring r) (packetRead c)).isNone

/-- Row `i` is command `op`, which acts at once: taken and accepted, it does `f` and answers `ST_OK` with the result `res`. -/
def ActsAtOnce (i : Packet → Instr) (k : CmdSpec) (op : Nat) (res : Packet → State → List Byte) (f : Packet → State → State) : Prop :=
  ∀ s c r, s.passes k c r = true → k.boundary (s.consume c.ring r) (packetRead c) = none →
    Completes (i c) s (fun t =>
      Answered c r.owner op 0 (res (packetRead c) (s.consume c.ring r)) (f (packetRead c) (s.consume c.ring r)) t)

/-- Row `i` is command `op`, which waits for a boundary: taken and accepted where `due` gives one, its entry is consumed, what begins
at once (`f`) has begun, it stands last among the commands that wait, and nothing is answered yet (R358, R360). -/
def Waits (i : Packet → Instr) (k : CmdSpec) (op : Nat) (due : Packet → State → Option Boundary) (f : Packet → State → State) : Prop :=
  ∀ s c r e, s.passes k c r = true → due (packetRead c) (s.consume c.ring r) = some e →
    Completes (i c) s (fun t =>
      t = { f (packetRead c) (s.consume c.ring r) with waiting := t.waiting, versions := t.versions } ∧
      t.waiting.dropLast = s.waiting ∧ t.waiting.getLast?.any (fun w =>
        w.opcode == op && decide (w.c = packetRead c) && w.accepted == s.tb.time && w.cpl == r.owner && decide (w.at_ = e) &&
          !w.epochDone && w.txn.isNone) = true)

/-- Command `op`, once its boundary has come and its state check `ok` still holds: it does `f` and answers `ST_OK` with the result
`res` (R407). -/
def Lands (op : Nat) (ok : Packet → State → Bool) (res : Packet → State → List Byte) (f : Packet → State → State) : Prop :=
  ∀ s w, w.opcode = op → w.txn = none → ok w.c s = true →
    Answered w.c w.cpl op 0 (res w.c s) (f w.c s) (State.landWaiting w s)

/-- The rows that are one host command each, outside transactions and aborts, with what defines them (R362, R364, R365, R367,
R368). -/
inductive HostRow : (Packet → Instr) → CmdSpec → Prop
  | devQuery : HostRow .devQuery devQuerySpec
  | devSet : HostRow .devSet devSetSpec
  | ringCreate : HostRow .ringCreate ringCreateSpec
  | ringDestroy : HostRow .ringDestroy ringDestroySpec
  | ringQuery : HostRow .ringQuery ringQuerySpec
  | ringMod : HostRow .ringMod ringModSpec
  | titleLoad : HostRow .titleLoad titleLoadSpec
  | titleUnload : HostRow .titleUnload titleUnloadSpec
  | memAlloc : HostRow .memAlloc memAllocSpec
  | memFree : HostRow .memFree memFreeSpec
  | panCreate : HostRow .panCreate panCreateSpec
  | panDestroy : HostRow .panDestroy panDestroySpec
  | panConfig : HostRow .panConfig panConfigSpec
  | panStart : HostRow .panStart panStartSpec
  | panMode : HostRow .panMode panModeSpec
  | panHalt : HostRow .panHalt panHaltSpec
  | panResume : HostRow .panResume panResumeSpec
  | panStop : HostRow .panStop panStopSpec
  | panReset : HostRow .panReset panResetSpec
  | panDebug : HostRow .panDebug panDebugSpec
  | panAttach : HostRow .panAttach panAttachSpec
  | panDetach : HostRow .panDetach panDetachSpec
  | panMailbox : HostRow .panMailbox panMailboxSpec
  | panMovie : HostRow .panMovie panMovieSpec
  | panInput : HostRow .panInput panInputSpec
  | panHcall : HostRow .panHcall panHcallSpec
  | panObs : HostRow .panObs panObsSpec
  | panQuery : HostRow .panQuery panQuerySpec
  | heapDepth : HostRow .heapDepth heapDepthSpec
  | heapHash : HostRow .heapHash heapHashSpec
  | heapHashref : HostRow .heapHashref heapHashrefSpec
  | heapLog : HostRow .heapLog heapLogSpec
  | heapSave : HostRow .heapSave heapSaveSpec
  | heapRestore : HostRow .heapRestore heapRestoreSpec
  | heapReplay : HostRow .heapReplay heapReplaySpec
  | streamCreate : HostRow .streamCreate streamCreateSpec
  | streamSet : HostRow .streamSet streamSetSpec
  | streamDelete : HostRow .streamDelete streamDeleteSpec
  | streamKey : HostRow .streamKey streamKeySpec
  | streamLoss : HostRow .streamLoss streamLossSpec
  | streamQuery : HostRow .streamQuery streamQuerySpec
  | portSet : HostRow .portSet portSetSpec
  | portAddr : HostRow .portAddr portAddrSpec
  | portRings : HostRow .portRings portRingsSpec
  | flowSet : HostRow .flowSet flowSetSpec
  | flowKey : HostRow .flowKey flowKeySpec
  | netQuery : HostRow .netQuery netQuerySpec
  | audioSet : HostRow .audioSet audioSetSpec
  | audioRoute : HostRow .audioRoute audioRouteSpec
  | audioGauge : HostRow .audioGauge audioGaugeSpec
  | headTiming : HostRow .headTiming headTimingSpec
  | headLayout : HostRow .headLayout headLayoutSpec
  | headTile : HostRow .headTile headTileSpec
  | headStatus : HostRow .headStatus headStatusSpec
  | headSideband : HostRow .headSideband headSidebandSpec
  | tbRate : HostRow .tbRate tbRateSpec
  | tbSlew : HostRow .tbSlew tbSlewSpec
  | tbStep : HostRow .tbStep tbStepSpec
  | tbPps : HostRow .tbPps tbPpsSpec
  | fwWrite : HostRow .fwWrite fwWriteSpec
  | ucodePatch : HostRow .ucodePatch ucodePatchSpec
  | sluiceStart : HostRow .sluiceStart sluiceStartSpec

end Sys2Proof.Machine
end

