-- ==== Sys2Proof/Certificates/Slice0/Obligations.lean ====
section
/-!
DEFINITION. The statements for the provers.
-/

open Sys2Proof
open Sys2Proof.Machine

/-! ### The block -/

/-- With a command at the front of the queue, a step runs it on the state with the queue's rest. -/
def Obligations.StepRunsFront : Prop :=
  ∀ (c : Instr) (rest : List Instr) (s : State),
    Machine.step { s with pending := c :: rest } = Machine.exec c { s with pending := rest }

/-! ### The Tretan-8 (R24 to R37) -/

/-- `ADD`, `ADC`, `SUB`, `SBC` and the compares, in every form: the result modulo 256 goes to A (of a compare nowhere), N and Z are
of the result, V is signed overflow, H the carry out of bit 3 of a sum and 0 after a difference, C the carry out of bit 7 of a
sum and "no borrow" after a difference; nothing else of the pan changes but PC, time, the form's increment and, of a read in the
I/O range, its side effects (R25, R27, R28, R33). -/
def Obligations.SumsAndDifferences : Prop :=
  ∀ (p : PanNo) (m : Mode),
    LoadsByte (.add p m) p .add m (fun v c => { c with a := sumOf c.a v 0, f := flagsOfSum c.f c.a v 0 }) ∧
    LoadsByte (.adc p m) p .adc m (fun v c => { c with
      a := sumOf c.a v (c.f.getLsbD 0).toNat, f := flagsOfSum c.f c.a v (c.f.getLsbD 0).toNat }) ∧
    LoadsByte (.sub p m) p .sub m (fun v c => { c with a := differenceOf c.a v 0, f := flagsOfDifference c.f c.a v 0 }) ∧
    LoadsByte (.sbc p m) p .sbc m (fun v c => { c with
      a := differenceOf c.a v (1 - (c.f.getLsbD 0).toNat), f := flagsOfDifference c.f c.a v (1 - (c.f.getLsbD 0).toNat) }) ∧
    LoadsByte (.cmp p m) p .cmp m (fun v c => { c with f := flagsOfDifference c.f c.a v 0 }) ∧
    LoadsByte (.cpx p m) p .cpx m (fun v c => { c with f := flagsOfDifference c.f c.x v 0 }) ∧
    LoadsByte (.cpy p m) p .cpy m (fun v c => { c with f := flagsOfDifference c.f c.y v 0 })

/-- The logic instructions, the 8-bit loads, `TST` and `BIT`, in every form: the register each writes, and N and Z of the byte;
`TST` also clears V and C, `BIT` takes N and V from bits 7 and 6 of the operand and Z from its AND with A; every other flag and
register stays (R25, R27, R28, R33). -/
def Obligations.LogicAndLoads : Prop :=
  ∀ (p : PanNo) (m : Mode),
    LoadsByte (.and p m) p .and m (fun v c => { c with a := c.a &&& v, f := flagsOf c.f (c.a &&& v) }) ∧
    LoadsByte (.or p m) p .or m (fun v c => { c with a := c.a ||| v, f := flagsOf c.f (c.a ||| v) }) ∧
    LoadsByte (.xor p m) p .xor m (fun v c => { c with a := c.a ^^^ v, f := flagsOf c.f (c.a ^^^ v) }) ∧
    LoadsByte (.lda p m) p .lda m (fun v c => { c with a := v, f := flagsOf c.f v }) ∧
    LoadsByte (.ldb p m) p .ldb m (fun v c => { c with b := v, f := flagsOf c.f v }) ∧
    LoadsByte (.ldx p m) p .ldx m (fun v c => { c with x := v, f := flagsOf c.f v }) ∧
    LoadsByte (.ldy p m) p .ldy m (fun v c => { c with y := v, f := flagsOf c.f v }) ∧
    LoadsByte (.ldk p m) p .ldk m (fun v c => { c with k := v, f := flagsOf c.f v }) ∧
    LoadsByte (.tst p m) p .tst m (fun v c => { c with f := withFlags (flagsOf c.f v) [(6, false), (0, false)] }) ∧
    LoadsByte (.bit p m) p .bit m (fun v c => { c with
      f := withFlags c.f [(7, v.getLsbD 7), (6, v.getLsbD 6), (1, decide (c.a &&& v = 0))] })

/-- The 16-bit loads, and the instructions that work on an operand and P or Q: `LDP`, `LDQ` and `LDS` load a little-endian word with
N of bit 15 and Z; `CPP` and `CPQ` compare with a word, V and H unchanged; `LEAP` and `LEAQ` add a sign-extended byte, no flag
changed (R27, R28, R33). -/
def Obligations.WordOperands : Prop :=
  ∀ (p : PanNo) (m : Mode),
    LoadsWord (.ldp p m) p .ldp m (fun w c => { c with p := w, f := flagsOf16 c.f w }) ∧
    LoadsWord (.ldq p m) p .ldq m (fun w c => { c with q := w, f := flagsOf16 c.f w }) ∧
    LoadsWord (.lds p) p .lds .imm16 (fun w c => { c with s := w, f := flagsOf16 c.f w }) ∧
    UsesOperand (.cpp p) p .cpp .imm16 Pan.wordOperand (fun w c => { c with
      f := withFlags (flagsOf16 c.f (c.p - w)) [(0, decide (w.toNat ≤ c.p.toNat))] }) ∧
    UsesOperand (.cpq p) p .cpq .imm16 Pan.wordOperand (fun w c => { c with
      f := withFlags (flagsOf16 c.f (c.q - w)) [(0, decide (w.toNat ≤ c.q.toNat))] }) ∧
    UsesOperand (.leap p) p .leap .simm Pan.signedOperand (fun w c => { c with p := c.p + w }) ∧
    UsesOperand (.leaq p) p .leaq .simm Pan.signedOperand (fun w c => { c with q := c.q + w })

/-- The transfers and exchanges between registers, with the pan-cycles each takes (R28, R33). -/
def Obligations.Transfers : Prop :=
  ∀ p : PanNo,
    SetsRegisters (.tab p) p .tab .implied 1 (fun c => { c with b := c.a, f := flagsOf c.f c.a }) ∧
    SetsRegisters (.tba p) p .tba .implied 1 (fun c => { c with a := c.b, f := flagsOf c.f c.b }) ∧
    SetsRegisters (.tax p) p .tax .implied 1 (fun c => { c with x := c.a, f := flagsOf c.f c.a }) ∧
    SetsRegisters (.txa p) p .txa .implied 1 (fun c => { c with a := c.x, f := flagsOf c.f c.x }) ∧
    SetsRegisters (.tay p) p .tay .implied 1 (fun c => { c with y := c.a, f := flagsOf c.f c.a }) ∧
    SetsRegisters (.tya p) p .tya .implied 1 (fun c => { c with a := c.y, f := flagsOf c.f c.y }) ∧
    SetsRegisters (.tak p) p .tak .implied 1 (fun c => { c with k := c.a, f := flagsOf c.f c.a }) ∧
    SetsRegisters (.tka p) p .tka .implied 1 (fun c => { c with a := c.k, f := flagsOf c.f c.k }) ∧
    SetsRegisters (.swab p) p .swab .implied 1 (fun c => { c with a := c.b, b := c.a, f := flagsOf c.f c.b }) ∧
    SetsRegisters (.tpq p) p .tpq .implied 2 (fun c => { c with q := c.p }) ∧
    SetsRegisters (.tqp p) p .tqp .implied 2 (fun c => { c with p := c.q }) ∧
    SetsRegisters (.tsp p) p .tsp .implied 2 (fun c => { c with p := c.s }) ∧
    SetsRegisters (.tps p) p .tps .implied 2 (fun c => { c with s := c.p }) ∧
    SetsRegisters (.adpa p) p .adpa .implied 2 (fun c => { c with p := c.p + BitVec.ofNat 16 c.a.toNat })

/-- The implied arithmetic on registers, and the flag instructions: `NEG A`, `NOT A`, the counts of X, Y, P and Q, `DAA` as R34 adjusts,
`NOP`, and the flag each flag instruction names (R28, R33, R34). -/
def Obligations.RegisterArithmetic : Prop :=
  ∀ p : PanNo,
    SetsRegisters (.negA p) p .negA .implied 1 (fun c => { c with
      a := 0 - c.a, f := withFlags (flagsOf c.f (0 - c.a)) [(6, decide (c.a = 0x80)), (4, false), (0, decide (c.a = 0))] }) ∧
    SetsRegisters (.notA p) p .notA .implied 1 (fun c => { c with a := ~~~ c.a, f := flagsOf c.f (~~~ c.a) }) ∧
    SetsRegisters (.inx p) p .inx .implied 1 (fun c => { c with x := c.x + 1, f := flagsOf c.f (c.x + 1) }) ∧
    SetsRegisters (.dex p) p .dex .implied 1 (fun c => { c with x := c.x - 1, f := flagsOf c.f (c.x - 1) }) ∧
    SetsRegisters (.iny p) p .iny .implied 1 (fun c => { c with y := c.y + 1, f := flagsOf c.f (c.y + 1) }) ∧
    SetsRegisters (.dey p) p .dey .implied 1 (fun c => { c with y := c.y - 1, f := flagsOf c.f (c.y - 1) }) ∧
    SetsRegisters (.inp p) p .inp .implied 2 (fun c => { c with p := c.p + 1, f := withFlags c.f [(1, decide (c.p + 1 = 0))] }) ∧
    SetsRegisters (.dep p) p .dep .implied 2 (fun c => { c with p := c.p - 1, f := withFlags c.f [(1, decide (c.p - 1 = 0))] }) ∧
    SetsRegisters (.inq p) p .inq .implied 2 (fun c => { c with q := c.q + 1, f := withFlags c.f [(1, decide (c.q + 1 = 0))] }) ∧
    SetsRegisters (.deq p) p .deq .implied 2 (fun c => { c with q := c.q - 1, f := withFlags c.f [(1, decide (c.q - 1 = 0))] }) ∧
    SetsRegisters (.daa p) p .daa .implied 1 (fun c =>
      let adj : Nat := (if 9 < c.a.toNat % 16 ∨ c.f.getLsbD 4 = true then 0x06 else 0) +
        (if 0x99 < c.a.toNat ∨ c.f.getLsbD 0 = true then 0x60 else 0)
      { c with a := BitVec.ofNat 8 (c.a.toNat + adj),
               f := withFlags (flagsOf c.f (BitVec.ofNat 8 (c.a.toNat + adj)))
                 [(4, false), (0, decide (0x99 < c.a.toNat ∨ c.f.getLsbD 0 = true))] }) ∧
    SetsRegisters (.nop p) p .nop .implied 1 (fun c => c) ∧
    SetsRegisters (.clc p) p .clc .implied 1 (fun c => { c with f := withFlags c.f [(0, false)] }) ∧
    SetsRegisters (.sec p) p .sec .implied 1 (fun c => { c with f := withFlags c.f [(0, true)] }) ∧
    SetsRegisters (.cli p) p .cli .implied 1 (fun c => { c with f := withFlags c.f [(3, false)] }) ∧
    SetsRegisters (.sei p) p .sei .implied 1 (fun c => { c with f := withFlags c.f [(3, true)] }) ∧
    SetsRegisters (.clv p) p .clv .implied 1 (fun c => { c with f := withFlags c.f [(6, false)] })

/-- The stores, of a byte in every form and of a word low byte first: the address is the form's, the bytes written are the
register's, no flag changes, and an address outside $E000 to $EFFF changes nothing else of the device (R27, R28, R33). -/
def Obligations.Stores : Prop :=
  ∀ (p : PanNo) (m : Mode),
    StoresByte (.sta p m) p .sta m Cpu.a ∧ StoresByte (.stb p m) p .stb m Cpu.b ∧ StoresByte (.stx p m) p .stx m Cpu.x ∧
    StoresByte (.sty p m) p .sty m Cpu.y ∧ StoresWord (.stp p m) p .stp m Cpu.p ∧ StoresWord (.stq p m) p .stq m Cpu.q

/-- A write of the processor outside $E000 to $EFFF: work RAM, the VRAM window and cartridge RAM take the byte, a title bank and a cartridge
RAM address beyond its size ignore it, and every other byte of the address space outside the I/O range, and every other store, keeps
its value; of what is kept beside the memories only the marks of changed grains change (R63, R64, R66, R184). -/
def Obligations.WritesOneByte : Prop :=
  ∀ (x : Pan) (a b : Word) (v : Byte), x.storesWf = true → plainAddr a → plainAddr b →
    let kept := 0xF000 ≤ a.toNat ∨ (0x8000 ≤ a.toNat ∧ a.toNat < 0xC000 ∧ ¬ (x.sys.cramSel = true ∧ x.cramAddr a.toNat < x.cfg.cramSize))
    (x.poke a v).peek b = (if b = a ∧ ¬ kept then v else x.peek b) ∧ (kept → x.poke a v = x) ∧
      x.poke a v = { x with wram := (x.poke a v).wram, vram := (x.poke a v).vram, cram := (x.poke a v).cram,
                            dirty := (x.poke a v).dirty, crust := (x.poke a v).crust } ∧
      (¬ kept → (x.poke a v).dirty ≠ [] ∧ ∀ g ∈ x.dirty, g ∈ (x.poke a v).dirty)

/-- The canonical form of a pan's stores is kept by every write of the processor, wherever it goes, and by every read. -/
def Obligations.PanStoresStayCanonical : Prop :=
  ∀ (x : Pan) (a : Word) (v : Byte), x.storesWf = true → (x.poke a v).storesWf = true ∧ (x.touch a).storesWf = true

/-- `INC`, `DEC` and the shifts: of A in one pan-cycle, of a byte of memory with one read and one write; C is the bit shifted out, the bit
shifted in is 0 or the old C, N and Z are of the result, V and H stay (R28, R31, R33). -/
def Obligations.ReadModifyWrite : Prop :=
  let inc : Byte → Byte → Byte × Byte := fun v f => (v + 1, flagsOf f (v + 1))
  let dec : Byte → Byte → Byte × Byte := fun v f => (v - 1, flagsOf f (v - 1))
  let left : Nat → Byte → Byte → Byte × Byte := fun b v f =>
    (BitVec.ofNat 8 (2 * v.toNat + b), withFlags (flagsOf f (BitVec.ofNat 8 (2 * v.toNat + b))) [(0, v.getLsbD 7)])
  let right : Nat → Byte → Byte → Byte × Byte := fun b v f =>
    (BitVec.ofNat 8 (v.toNat / 2 + 128 * b), withFlags (flagsOf f (BitVec.ofNat 8 (v.toNat / 2 + 128 * b))) [(0, v.getLsbD 0)])
  let rol : Byte → Byte → Byte × Byte := fun v f => left (f.getLsbD 0).toNat v f
  let ror : Byte → Byte → Byte × Byte := fun v f => right (f.getLsbD 0).toNat v f
  let ofA : (Byte → Byte → Byte × Byte) → Cpu → Cpu := fun g c => { c with a := (g c.a c.f).1, f := (g c.a c.f).2 }
  ∀ (p : PanNo) (m : Mode), m ≠ .acc →
    ModifiesByte (.inc p m) p .inc m inc ∧ ModifiesByte (.dec p m) p .dec m dec ∧ ModifiesByte (.asl p m) p .asl m (left 0) ∧
    ModifiesByte (.lsr p m) p .lsr m (right 0) ∧ ModifiesByte (.rol p m) p .rol m rol ∧ ModifiesByte (.ror p m) p .ror m ror ∧
    SetsRegisters (.inc p .acc) p .inc .acc 1 (ofA inc) ∧ SetsRegisters (.dec p .acc) p .dec .acc 1 (ofA dec) ∧
    SetsRegisters (.asl p .acc) p .asl .acc 1 (ofA (left 0)) ∧ SetsRegisters (.lsr p .acc) p .lsr .acc 1 (ofA (right 0)) ∧
    SetsRegisters (.rol p .acc) p .rol .acc 1 (ofA rol) ∧ SetsRegisters (.ror p .acc) p .ror .acc 1 (ofA ror)

/-- Every branch: the condition of R35 decides, `DJNZ` counts X down first; the target is the next instruction's address plus the
sign-extended operand; taken in three pan-cycles, not taken in two; no flag changes (R27, R28, R35). -/
def Obligations.BranchTargets : Prop :=
  let n : Cpu → Bool := fun c => c.f.getLsbD 7
  let v : Cpu → Bool := fun c => c.f.getLsbD 6
  let z : Cpu → Bool := fun c => c.f.getLsbD 1
  let c : Cpu → Bool := fun c => c.f.getLsbD 0
  ∀ p : PanNo,
    Branches (.bra p) p (.branch .always) (fun _ => true) id ∧
    Branches (.beq p) p (.branch .eq) z id ∧ Branches (.bne p) p (.branch .ne) (fun r => !z r) id ∧
    Branches (.bcs p) p (.branch .cs) c id ∧ Branches (.bcc p) p (.branch .cc) (fun r => !c r) id ∧
    Branches (.bmi p) p (.branch .mi) n id ∧ Branches (.bpl p) p (.branch .pl) (fun r => !n r) id ∧
    Branches (.bvs p) p (.branch .vs) v id ∧ Branches (.bvc p) p (.branch .vc) (fun r => !v r) id ∧
    Branches (.bhi p) p (.branch .hi) (fun r => c r && !z r) id ∧ Branches (.bls p) p (.branch .ls) (fun r => !c r || z r) id ∧
    Branches (.bge p) p (.branch .ge) (fun r => n r == v r) id ∧ Branches (.blt p) p (.branch .lt) (fun r => n r != v r) id ∧
    Branches (.bgt p) p (.branch .gt) (fun r => !z r && n r == v r) id ∧
    Branches (.ble p) p (.branch .le) (fun r => z r || n r != v r) id ∧
    Branches (.djnz p) p .djnz (fun r => r.x != 0) (fun r => { r with x := r.x - 1 })

/-- `JMP`, `CALL` and `RET`: the target is the operand, P, or the little-endian word at the operand, or at the operand plus 2·X;
`CALL` pushes the address of the next instruction, high byte first, and `RET` pops it, with the pan-cycles of R28 (R27, R28, R36). -/
def Obligations.JumpsAndCalls : Prop :=
  ∀ (p : PanNo) (s : State) (x : Site),
    let c := x.pan.cpu
    let w := x.pan.wordAt (c.pc + 1)
    let wx := w + 2 * BitVec.ofNat 16 c.x.toNat
    let pushed := fun ret : Word => [(c.s, ret.hi), (c.s - 1, ret.lo)]
    (State.Begins s p x .jmp .abs → plainRun .abs c.pc [] → Runs (.jmp p .abs) s p x { c with pc := w } 3 x.pan) ∧
    (State.Begins s p x .jmp .indP → plainRun .indP c.pc [] → Runs (.jmp p .indP) s p x { c with pc := c.p } 2 x.pan) ∧
    (State.Begins s p x .jmp .memInd → plainRun .memInd c.pc [w, w + 1] →
      Runs (.jmp p .memInd) s p x { c with pc := x.pan.wordAt w } 5 x.pan) ∧
    (State.Begins s p x .jmp .memIndX → plainRun .memIndX c.pc [wx, wx + 1] →
      Runs (.jmp p .memIndX) s p x { c with pc := x.pan.wordAt wx } 5 x.pan) ∧
    (State.Begins s p x .call .abs → plainRun .abs c.pc [c.s, c.s - 1] →
      Runs (.call p .abs) s p x { c with pc := w, s := c.s - 2 } 5 (x.pan.pokes (pushed (c.pc + 3)))) ∧
    (State.Begins s p x .call .indP → plainRun .indP c.pc [c.s, c.s - 1] →
      Runs (.call p .indP) s p x { c with pc := c.p, s := c.s - 2 } 4 (x.pan.pokes (pushed (c.pc + 1)))) ∧
    (State.Begins s p x .ret .implied → plainRun .implied c.pc [c.s + 1, c.s + 2] →
      Runs (.ret p) s p x { c with pc := x.pan.wordAt (c.s + 1), s := c.s + 2 } 4 x.pan)

/-- `PUSH`, `POP` and `RTI`: a push writes at S and counts S down, a pop counts S up and reads; a 16-bit register is pushed high byte
first; only `POP F` and `RTI` change F, whose reserved bits 5 and 2 stay 0; `RTI` pops PC and then F (R25, R28, R36, R45). -/
def Obligations.StackInstructions : Prop :=
  ∀ (p : PanNo) (s : State) (x : Site),
    let c := x.pan.cpu
    let d := { c with pc := c.pc + 1 }
    let byte : StackReg → Option Byte := fun r =>
      match r with
      | .a => some c.a | .b => some c.b | .f => some c.f | .x => some c.x | .y => some c.y | .p => none | .q => none
    let word : StackReg → Word := fun r => if r = .p then c.p else c.q
    let v := x.pan.peek (c.s + 1)
    let popped : StackReg → Cpu := fun r =>
      match r with
      | .a => { d with a := v } | .b => { d with b := v } | .f => { d with f := v &&& 0xDB } | .x => { d with x := v }
      | .y => { d with y := v } | .p => { d with p := x.pan.wordAt (c.s + 1) } | .q => { d with q := x.pan.wordAt (c.s + 1) }
    (∀ r b, byte r = some b → State.Begins s p x (.push r) .implied → plainRun .implied c.pc [c.s] →
      Runs (.push p r) s p x { d with s := c.s - 1 } 2 (x.pan.pokes [(c.s, b)])) ∧
    (∀ r, byte r = none → State.Begins s p x (.push r) .implied → plainRun .implied c.pc [c.s, c.s - 1] →
      Runs (.push p r) s p x { d with s := c.s - 2 } 3 (x.pan.pokes [(c.s, (word r).hi), (c.s - 1, (word r).lo)])) ∧
    (∀ r b, byte r = some b → State.Begins s p x (.pop r) .implied → plainRun .implied c.pc [c.s + 1] →
      Runs (.pop p r) s p x { popped r with s := c.s + 1 } 3 x.pan) ∧
    (∀ r, byte r = none → State.Begins s p x (.pop r) .implied → plainRun .implied c.pc [c.s + 1, c.s + 2] →
      Runs (.pop p r) s p x { popped r with s := c.s + 2 } 4 x.pan) ∧
    (State.Begins s p x .rti .implied → plainRun .implied c.pc [c.s + 1, c.s + 2, c.s + 3] →
      Runs (.rti p) s p x { c with pc := x.pan.wordAt (c.s + 1), f := x.pan.peek (c.s + 3) &&& 0xDB, s := c.s + 3 } 5 x.pan)

/-- `MVB` reads the byte at P, writes it to Q, and then counts P and Q up, in three pan-cycles (R28, R37). -/
def Obligations.MvbCopies : Prop :=
  ∀ (p : PanNo) (s : State) (x : Site), State.Begins s p x .mvb .implied →
    plainRun .implied x.pan.cpu.pc [x.pan.cpu.p, x.pan.cpu.q] →
    Runs (.mvb p) s p x { x.pan.cpu with pc := x.pan.cpu.pc + 1, p := x.pan.cpu.p + 1, q := x.pan.cpu.q + 1 } 3
      (x.pan.pokes [(x.pan.cpu.q, x.pan.peek x.pan.cpu.p)])

/-- `BRK` and the entries of a sampled IRQ or NMI: F and the return address are pushed, I becomes 1, PC comes from the vector ($FFFA,
$FFFC, $FFF8), in six pan-cycles; `BRK` pushes the address of the byte after it, an entry PC or the prefix of an unfinished `REP`;
a committed IRQ has locked the winner in native mode, and a taken NMI uses its edge up (R42 to R44, R155). -/
def Obligations.EntriesPushAndVector : Prop :=
  ∀ (p : PanNo) (s : State) (x : Site),
    let ret := x.pan.returnAddress
    (State.Begins s p x .brk .implied → plainRun .implied x.pan.cpu.pc (x.pan.entryAddrs 0xFFFA) →
      Runs (.brk p) s p x (x.pan.entered 0xFFFA) 6 (x.pan.pokes (x.pan.entryPushes (x.pan.cpu.pc + 1)))) ∧
    (State.Goes s p x → x.pan.entering → x.pan.core.samp.nmi = false → x.pan.core.samp.irq = true →
      x.pan.core.samp.committed = false → (∀ a ∈ x.pan.entryAddrs 0xFFFC, plainAddr a) →
      Runs (.irqEntry p) s p x (x.pan.entered 0xFFFC) 6
        ((x.pan.locked x.pan.core.samp.winner).pokes (x.pan.entryPushes ret))) ∧
    (State.Goes s p x → x.pan.entering → x.pan.core.samp.nmi = true → x.pan.core.samp.committed = false →
      (∀ a ∈ x.pan.entryAddrs 0xFFF8, plainAddr a) →
      ∃ q, exec (.nmiEntry p) s = .next (s.withPan p x q) ∧ q.cpu = x.pan.entered 0xFFF8 ∧ q.clk = x.pan.clk + 6 ∧
        Pan.OnlyCpu (x.pan.pokes (x.pan.entryPushes ret)) q ∧ q.core.nmi = false)

/-- `WAI` spends its fetch pan-cycle and idles, wherever its opcode stands; while nothing is requested it goes on idling; a sampled
request ends it: with I = 1 the pan goes on after one pan-cycle, with the interrupt not taken; an NMI, or an IRQ with I = 0, makes that
pan-cycle the last of `WAI`, and the six of interrupt entry follow (R38, R42, R43, R155). -/
def Obligations.WaiIdlesAndWakes : Prop :=
  ∀ (p : PanNo) (s : State) (x : Site),
    (State.Begins s p x .wai .implied →
      ∃ q, exec (.wai p) s = .next (s.withPan p x q) ∧ q.cpu = { x.pan.cpu with pc := x.pan.cpu.pc + 1 } ∧
        q.clk = x.pan.clk + 1 ∧ q.core.wait = true ∧
        ReadsOnly x.pan (x.pan.touch x.pan.cpu.pc) q (plainAddr x.pan.cpu.pc)) ∧
    (State.Goes s p x → x.pan.core.nmi = false → x.pan.ic.winner x.pan.clk = none → exec (.waiWake p) s = .next s) ∧
    (State.Goes s p x → x.pan.core.wait = true → x.pan.core.nmi = false → x.pan.cpu.f.getLsbD 3 = true →
      (x.pan.ic.winner x.pan.clk).isSome = true →
      ∃ q, exec (.waiWake p) s = .next (s.withPan p x q) ∧ q.cpu = x.pan.cpu ∧ q.clk = x.pan.clk + 1 ∧ Pan.OnlyCpu x.pan q ∧
        q.core.wait = false) ∧
    (State.Goes s p x → x.pan.core.wait = true → x.pan.core.nmi = true → (∀ a ∈ x.pan.entryAddrs 0xFFF8, plainAddr a) →
      ∃ q, exec (.waiWake p) s = .next (s.withPan p x q) ∧ q.cpu = x.pan.entered 0xFFF8 ∧ q.clk = x.pan.clk + 7 ∧
        Pan.OnlyCpu (x.pan.pokes (x.pan.entryPushes x.pan.returnAddress)) q ∧ q.core.nmi = false ∧ q.core.wait = false) ∧
    (∀ w, State.Goes s p x → x.pan.core.wait = true → x.pan.core.nmi = false → x.pan.cpu.f.getLsbD 3 = false →
      x.pan.ic.winner x.pan.clk = some w → (∀ a ∈ x.pan.entryAddrs 0xFFFC, plainAddr a) →
      ∃ q, exec (.waiWake p) s = .next (s.withPan p x q) ∧ q.cpu = x.pan.entered 0xFFFC ∧ q.clk = x.pan.clk + 7 ∧
        Pan.OnlyCpu ((x.pan.locked (if x.pan.ic.legacy then none else some w.val)).pokes
          (x.pan.entryPushes x.pan.returnAddress)) q ∧ q.core.wait = false)

/-- `REP`: with K = 0 the target is skipped, in two pan-cycles; a target that writes K, branches, jumps, calls, returns, waits, breaks,
repeats or calls the host faults the pan with cause 2 and an undefined one with cause 1, whatever K; and `REP` before `NOP`, with no
interrupt admitted, spends one pan-cycle and K more, and leaves K = 0 and PC past the target (R46, R47, R60). -/
def Obligations.RepRunsItsTarget : Prop :=
  ∀ (p : PanNo) (s : State) (x : Site), State.Begins s p x .rep .implied → plainAddr x.pan.cpu.pc → plainAddr (x.pan.cpu.pc + 1) →
    let target := decodeOp (x.pan.peek (x.pan.cpu.pc + 1))
    (∀ o m, target = some (o, m) → o.repForbidden = false → x.pan.cpu.k = 0 →
      Runs (.rep p) s p x { x.pan.cpu with pc := x.pan.cpu.pc + 1 + BitVec.ofNat 16 (1 + operandBytes m) } 2 x.pan) ∧
    (∀ o m, target = some (o, m) → o.repForbidden = true →
      ∃ q, exec (.rep p) s = .next (s.stepsTo p x q) ∧ q.core.fault = 2 ∧ q.cpu = x.pan.cpu ∧ q.clk = x.pan.clk + 2) ∧
    (target = none →
      ∃ q, exec (.rep p) s = .next (s.stepsTo p x q) ∧ q.core.fault = 1 ∧ q.cpu = x.pan.cpu ∧ q.clk = x.pan.clk + 2) ∧
    (target = some (.nop, .implied) → x.pan.core.nmi = false → x.pan.cpu.f.getLsbD 3 = true →
      Runs (.rep p) s p x { x.pan.cpu with pc := x.pan.cpu.pc + 2, k := 0 }
        (if x.pan.cpu.k = 0 then 2 else 1 + x.pan.cpu.k.toNat) x.pan)

/-- The fetch of an undefined opcode faults the pan in its pan-cycle with cause 1: every register keeps its value, PC stands at the
opcode, and the pan is `FAULTED` (R60, R199). -/
def Obligations.IllegalOpFaults : Prop :=
  ∀ (p : PanNo) (s : State) (x : Site), State.Goes s p x → (s.site p).any Site.haltsHere = false → x.pan.core.resetLeft = 0 → x.pan.ready = true →
    x.pan.opAt = none →
    ∃ t y, exec (.illegalOp p) s = .next t ∧ t.site p = some y ∧ y.mode = .faulted ∧ y.boiler = none ∧
      y.pan.core.fault = 1 ∧ y.pan.cpu = x.pan.cpu ∧ y.pan.clk = x.pan.clk + 1 ∧ y.pan.stores = x.pan.stores

/-- `MUL` and `MULS` leave A and B and deliver their product, unsigned or signed, six pan-cycles after their final pan-cycle; the
oldest product in flight reaches MH:ML when its pan-cycle has come (R28, R49). -/
def Obligations.ProductsArrive : Prop :=
  ∀ (p : PanNo) (s : State) (x : Site),
    let c := x.pan.cpu
    let flying := fun w : Word => { x.pan with mul := { x.pan.mul with inFlight := x.pan.mul.inFlight ++ [(x.pan.clk + 1 + 6, w)] } }
    (State.Begins s p x .mul .implied → plainRun .implied c.pc [] →
      Runs (.mul p) s p x { c with pc := c.pc + 1 } 2 (flying (BitVec.ofNat 16 (c.a.toNat * c.b.toNat)))) ∧
    (State.Begins s p x .muls .implied → plainRun .implied c.pc [] →
      Runs (.muls p) s p x { c with pc := c.pc + 1 } 2 (flying (BitVec.ofInt 16 (c.a.toInt * c.b.toInt)))) ∧
    (∀ t w r, State.Advances s p x → x.pan.mul.inFlight = (t, w) :: r → t ≤ x.pan.clk →
      exec (.mulDeliver p) s = .next (s.withPan p x { x.pan with mul := { mh := w.hi, ml := w.lo, inFlight := r } }))

/-- The eight coprocessor operations: each issues with P, Q and the results as they stand, and what it will deliver, and when, is R51's
and R52's; an operation in flight stalls the opcode until it completes; completing, it writes the results, clears BUSY and raises
source 19 (R51 to R53). -/
def Obligations.CoprocessorResults : Prop :=
  ∀ (p : PanNo) (s : State) (x : Site),
    let c := x.pan.cpu
    let finished : Coprocessor → Coprocessor := fun k => { k with r := k.nextR, dz := k.nextDz, ov := k.nextOv, busy := false }
    let stalls := x.pan.cop.busy = true ∧ x.pan.clk < x.pan.cop.due
    let k : Coprocessor := if x.pan.cop.busy then finished x.pan.cop else x.pan.cop
    let sq32 := c.q.toNat * 65536 + c.p.toNat
    let sum : Int := k.r.toInt + c.p.toInt * c.q.toInt
    let quotient : Word := if c.q = 0 then 0xFFFF else BitVec.ofInt 16 (c.p.toInt.tdiv c.q.toInt)
    let remainder : Word := if c.q = 0 then c.p else BitVec.ofInt 16 (c.p.toInt.tmod c.q.toInt)
    let issues : Instr → CopOp → Nat → BitVec 3 → BitVec 48 → Bool → Bool → Prop := fun i o l code r dz ov =>
      State.Begins s p x (.cop o) .implied → plainRun .implied c.pc [] →
        ∃ q, exec i s = .next (s.withPan p x q) ∧ q.cpu = { c with pc := c.pc + 1 } ∧
          q.clk = (if stalls then x.pan.cop.due + 1 else x.pan.clk + 1) ∧
          q.cop = { k with busy := true, op := code, due := q.clk - 1 + l + 1, nextR := r, nextDz := dz, nextOv := ov } ∧
          q.ic.pend = (if x.pan.cop.busy then x.pan.ic.pend ||| (1#32 <<< 19) else x.pan.ic.pend) ∧
          Pan.OnlyCpu { x.pan with cop := q.cop, ic := { x.pan.ic with pend := q.ic.pend } } q
    issues (.mu16 p) .mu16 10 0 (BitVec.ofNat 48 (c.p.toNat * c.q.toNat)) k.dz k.ov ∧
    issues (.ms16 p) .ms16 10 1 (BitVec.ofInt 48 (c.p.toInt * c.q.toInt)) k.dz k.ov ∧
    issues (.divu p) .divu 18 2 (if c.q = 0 then BitVec.ofNat 48 (0xFFFF + 65536 * c.p.toNat)
      else BitVec.ofNat 48 (c.p.toNat / c.q.toNat + 65536 * (c.p.toNat % c.q.toNat))) (c.q == 0) false ∧
    issues (.divs p) .divs 18 3 (BitVec.ofNat 48 (quotient.toNat + 65536 * remainder.toNat)) (c.q == 0)
      (c.p == 0x8000 && c.q == 0xFFFF) ∧
    issues (.sq32 p) .sq32 16 4 (BitVec.ofNat 48 (Nat.sqrt sq32 + 65536 * (sq32 - Nat.sqrt sq32 * Nat.sqrt sq32))) k.dz k.ov ∧
    issues (.sq16 p) .sq16 12 5
      (BitVec.ofNat 48 (Nat.sqrt c.p.toNat + 65536 * (c.p.toNat - Nat.sqrt c.p.toNat * Nat.sqrt c.p.toNat))) k.dz k.ov ∧
    issues (.mac p) .mac 12 6 (BitVec.ofInt 48 sum) k.dz (decide (sum < -(2 ^ 47)) || decide (2 ^ 47 ≤ sum)) ∧
    issues (.cpcl p) .cpcl 10 7 0 false false ∧
    (State.Advances s p x → x.pan.cop.busy = true → x.pan.cop.due ≤ x.pan.clk →
      exec (.coprocessorDone p) s = .next (s.withPan p x { x.pan with
        cop := finished x.pan.cop, ic := { x.pan.ic with pend := x.pan.ic.pend ||| (1#32 <<< 19) } }))

/-- The register reads with a side effect: each returns its byte in one pan-cycle and latches or clears what its rule says, and nothing
else changes: `FRAME_COUNT_0`, `FLIP_TIME_0`, `PAN_TAG_L`, `CRC_RES_0` and `BEAM_0` latch the bytes above, `INn_BTN_L` the slot's
offsets 1 to 6; `TMn_CAPL` latches and clears CAP_NEW, `INn_STAT` clears NEW, CHG and LATE, `SPR_STAT` clears OVF and COLL (R69, R70,
R85, R90, R91, R111, R122, R148). -/
def Obligations.LatchingReads : Prop :=
  ∀ p : PanNo,
    Reads (.frameCountRead p) p (fun _ => true) (fun q => q.sys.frameCount.setWidth 8)
      (fun q => { q with sys := { q.sys with fcLatch := (q.sys.frameCount >>> 8).setWidth 24 } }) ∧
    Reads (.flipTimeRead p) p (fun _ => true) (fun q => q.sys.flipTime.setWidth 8)
      (fun q => { q with sys := { q.sys with ftLatch := (q.sys.flipTime >>> 8).setWidth 24 } }) ∧
    Reads (.panTagRead p) p (fun _ => true) (fun q => q.sys.tag.lo)
      (fun q => { q with sys := { q.sys with tagLatch := q.sys.tag.hi } }) ∧
    Reads (.crcResRead p) p (fun _ => true) (fun q => (if q.crc.poly = 2 then q.crc.ctx else ~~~ q.crc.ctx).setWidth 8)
      (fun q => { q with crc := { q.crc with
        latch := ((if q.crc.poly = 2 then q.crc.ctx else ~~~ q.crc.ctx) >>> 8).setWidth 24 } }) ∧
    (∀ k : Fin 16, Reads (.inputSlotRead p k) p (fun _ => true) (fun q => (q.slots[k]).data[0])
      (fun q => { q with slots := q.slots.set k { q.slots[k] with
        latch := Vector.ofFn (fun j : Fin 6 => (q.slots[k]).data[j.val + 1]) } })) ∧
    (∀ k : Fin 16, Reads (.inputStatRead p k) p (fun _ => true)
      (fun q => withFlags ((q.slots[k]).upd.setWidth 8)
        [(7, (q.slots[k]).att), (6, (q.slots[k]).new), (5, (q.slots[k]).chg), (4, (q.slots[k]).late)])
      (fun q => { q with slots := q.slots.set k { q.slots[k] with new := false, chg := false, late := false } })) ∧
    Reads (.sprStatRead p) p (fun _ => true) (fun q => withFlags 0 [(7, q.ras.coll), (6, q.ras.ovf)])
      (fun q => { q with ras := { q.ras with coll := false, ovf := false } }) ∧
    Reads (.beamRead p) p (fun _ => true) (fun q => BitVec.ofNat 8 ((q.clk - q.frameStart) % q.cpl))
      (fun q => { q with ras := { q.ras with
        beamLatch := BitVec.ofNat 24 ((q.clk - q.frameStart) % q.cpl / 256 + 256 * ((q.clk - q.frameStart) / q.cpl % 1024)) } }) ∧
    (∀ n : Fin 4, Reads (.timerCaplRead p n) p (fun _ => true) (fun q => (q.tm[n]).cap.lo)
      (fun q => { q with tm := q.tm.set n { q.tm[n] with capLatch := (q.tm[n]).cap.hi, capNew := false } }))

/-- The interrupt controller: a claim returns the locked source (native) or the winner (legacy), clears its PEND, sets its ACT, pushes
it with its priority and loads its group's hold-off; with nothing to claim it returns $00 or $FF and changes nothing; a completion
in native mode pops the top of the stack and, out of order, faults the pan with cause 3; in legacy mode it removes the entry of the
named source; SOFT raises source 30; and a group's hold-off ends when its pan-cycle has come (R60, R151, R155 to R158, R161). -/
def Obligations.InterruptController : Prop :=
  ∀ p : PanNo,
    let claimed : Fin 32 → Pan → Pan := fun n q =>
      let g : Fin 4 := ⟨n.val / 8, by omega⟩
      { q with ic := { q.ic with
        pend := setBit q.ic.pend n false, act := setBit q.ic.act n true, lock := none,
        stack := (n.val, (q.ic.pri[n]).toNat) :: q.ic.stack,
        holdAt := q.ic.holdAt.set g (q.clk + 1 + 16 * (q.ic.hold[g]).toNat) } }
    (∀ n : Fin 32, Reads (.icClaimRead p) p (fun q => !q.ic.legacy && q.ic.lock == some n.val) (fun _ => BitVec.ofNat 8 n.val)
      (claimed n)) ∧
    Reads (.icClaimRead p) p (fun q => !q.ic.legacy && q.ic.lock == none) (fun _ => 0) id ∧
    (∀ n : Fin 32, Reads (.icClaimRead p) p (fun q => q.ic.legacy && q.ic.winner q.clk == some n) (fun _ => BitVec.ofNat 8 n.val)
      (claimed n)) ∧
    Reads (.icClaimRead p) p (fun q => q.ic.legacy && q.ic.winner q.clk == none) (fun _ => 0xFF) id ∧
    (∀ v : Byte, Writes (.icCompleteWrite p v) p
      (fun q => !q.ic.legacy && (q.ic.stack.head?.map (fun e => e.1)) == some v.toNat)
      (fun q => { q with ic := { q.ic with stack := q.ic.stack.drop 1, act := setBit q.ic.act v.toNat false } })) ∧
    (∀ v : Byte, Writes (.icCompleteWrite p v) p (fun q => q.ic.legacy && q.ic.stack.any (fun e => e.1 == v.toNat))
      (fun q => { q with ic := { q.ic with
        stack := q.ic.stack.filter (fun e => e.1 != v.toNat), act := setBit q.ic.act v.toNat false } })) ∧
    (∀ v : Byte, Writes (.icCompleteWrite p v) p (fun q => q.ic.legacy && !q.ic.stack.any (fun e => e.1 == v.toNat)) id) ∧
    (∀ (v : Byte) (s : State) (x : Site), State.Goes s p x → x.pan.ic.legacy = false →
      x.pan.ic.stack.head?.map (fun e => e.1) ≠ some v.toNat →
      ∃ q, exec (.icCompleteWrite p v) s = .next (s.stepsTo p x q) ∧ q.core.fault = 3 ∧ q.cpu = x.pan.cpu ∧ q.ic = x.pan.ic ∧
        q.clk = x.pan.clk + 1) ∧
    (∀ v : Byte, v.getLsbD 6 = true → Writes (.icSoft p v) p (fun _ => true)
      (fun q => { q with ic := { q.ic with
        pend := q.ic.pend ||| (1#32 <<< 30),
        legacy := if q.ic.stack.isEmpty && q.ic.lock.isNone then v.getLsbD 7 else q.ic.legacy } })) ∧
    (∀ g : Fin 4, Event (.icHoldoffExpiry p g) p (fun q => q.ic.holdAt[g]) (fun q => q.ic.holdAt[g] != 0)
      (fun q => { q with ic := { q.ic with holdAt := q.ic.holdAt.set g 0 } }))

/-- Writes to system, movie, commit, host-call, sound and memory registers, each in one pan-cycle, to sound and wave registers landing
after the ticks of that pan-cycle: `ROMBANK_H` loads the mapping with
the held byte, `VBANK` its three bits; `MV_READY` marks buffers and raises source 22 when a bit goes from 0 to 1; `FRAME_COMMIT` arms a
copy with the pan-cycle it completes in, once; W1C bits clear; argument, OAM, wave and volume bytes are stored; a write to a register
is what a store to its address does (R29, R54, R65, R66, R105, R110, R129, R163). -/
def Obligations.RegisterWrites : Prop :=
  ∀ (p : PanNo) (v : Byte),
    Writes (.rombankHWrite p v) p (fun _ => true)
      (fun q => { q with sys := { q.sys with cramSel := v.getLsbD 7, bank := (v.setWidth 2) ++ q.sys.bankHold } }) ∧
    Writes (.mvReadyWrite p v) p (fun _ => true)
      (fun q => ({ q with ras := { q.ras with ready := v.setWidth 4 } }).raising [(22, v.setWidth 4 &&& ~~~ q.ras.ready != 0)]) ∧
    (v.getLsbD 7 = true → Writes (.frameCommit p v) p (fun _ => true)
      (fun q => { q with ras := { q.ras with armed := some (q.ras.armed.getD (q.clk + 1)) } })) ∧
    Writes (.registerWrite p 0xE2C1 v) p (fun _ => true) (fun q => { q with sys := { q.sys with bankHold := v } }) ∧
    Writes (.registerWrite p 0xE2C3 v) p (fun _ => true) (fun q => { q with sys := { q.sys with vbank := v.setWidth 3 } }) ∧
    Writes (.registerWrite p 0xE2E0 v) p (fun _ => true) (fun q => { q with hc := { q.hc with
      done := q.hc.done && !v.getLsbD 6, tmo := q.hc.tmo && !v.getLsbD 5, rej := q.hc.rej && !v.getLsbD 4 } }) ∧
    Writes (.registerWrite p 0xE2E2 v) p (fun _ => true) (fun q => { q with hc := { q.hc with arg := q.hc.arg.set 0 v } }) ∧
    WritesLate (.registerWrite p 0xE17E v) p (fun _ => true) (fun q => { q with snd := { q.snd with mvol := v } }) ∧
    (∀ o, o < 0x400 → Writes (.registerWrite p (BitVec.ofNat 16 (0xE800 + o)) v) p (fun _ => true)
      (fun q => { q with oam := q.oam.write o v })) ∧
    (∀ o, o < 0x100 → WritesLate (.registerWrite p (BitVec.ofNat 16 (0xE400 + o)) v) p (fun _ => true)
      (fun q => { q with wave := q.wave.write o v })) ∧
    (∀ (a : Word) (s : State) (x : Site), State.Goes s p x → 0xE000 ≤ a.toNat → a.toNat < 0xF000 →
      (x.pan.poke a v).abort = false →
      ∃ q, exec (.registerWrite p a v) s = .next (s.stepsTo p x q) ∧ q.cpu = x.pan.cpu ∧ q.clk = x.pan.clk + 1 ∧
        Pan.OnlyCpu (x.pan.poke a v) q)

/-- The host mailbox's registers and deliveries: INACK clears INFULL and lets the oldest waiting message in; SEND counts MB_OUT_SEQ up and
hands the device the mailbox-send event of code 0x0005; a delivery loads MB_IN and its number, sets INFULL, raises source 31 and, where
the message asks, the NMI edge (R93, R95 to R97, R344). -/
def Obligations.MailboxMoves : Prop :=
  ∀ p : PanNo,
    let delivered : Message → List Message → Pan → Pan := fun m r q =>
      ({ q with mb := { q.mb with inb := m.bytes, inSeq := m.num, full := true, queue := r },
                core := { q.core with nmi := q.core.nmi || m.nmi } }).raising [(31, true)]
    Writes (.mbInack p) p (fun q => q.mb.queue.isEmpty) (fun q => { q with mb := { q.mb with full := false } }) ∧
    (∀ m r, Writes (.mbInack p) p (fun q => q.mb.queue == m :: r) (delivered m r)) ∧
    (∀ m r, EventNow (.mailboxDelivery p) p (fun q => !q.mb.full && q.mb.queue == m :: r) (delivered m r)) ∧
    (∀ (s : State) (x : Site), State.Goes s p x →
      ∃ q, exec (.mbSend p) s = .next (s.stepsTo p x q) ∧ q.cpu = x.pan.cpu ∧ q.core = x.pan.core ∧ q.clk = x.pan.clk + 1 ∧
        Pan.OnlyCpu { x.pan with
          mb := { x.pan.mb with outSeq := x.pan.mb.outSeq + 1 },
          out := [.event 0x0005 (leBytes 4 x.pan.frame ++ leBytes 4 (x.pan.clk - x.pan.frameStart) ++ [x.pan.mb.outSeq + 1] ++
            x.pan.mb.outb.toList ++ [0] ++ leBytes 4 x.pan.sys.frameCount.toNat)] } q)

/-- A DMA channel: START with the channel free loads REM, clears HALF and FULL and sets BUSY, and an immediate transfer is one unit,
pending at once; DSPACE 3, a reserved trigger or step code sets ERR instead, and a first byte R78 refuses stops the channel with ERR;
STOP clears BUSY and REM; a unit's byte takes two pan-cycles; HALF and FULL raise source 12 + n where enabled and FULL may mark a movie
buffer ready (R77 to R81, R129). -/
def Obligations.DmaChannels : Prop :=
  ∀ (p : PanNo) (n : Fin 4),
    let free : Pan → Bool := fun q => !(n == 3 && q.owned)
    let len : Dma → Nat := fun d => if d.len = 0 then 65536 else d.len.toNat
    let bad : Dma → Bool := fun d => bits d.mode 5 4 == 3 || decide (3 < bits d.trig 2 0) || bits d.mode 3 2 == 3 || bits d.mode 1 0 == 3
    let begun : Dma → Dma := fun d =>
      { d with rem := len d, half := false, full := false, halfDone := false, busy := true, unitLeft := 0, held := none }
    let stopped : Dma → Dma := fun d => { d with busy := false, rem := 0, unitLeft := 0, held := none }
    let channel : (Dma → Dma) → Pan → Pan := fun f q =>
      let d := q.dma.set n (f q.dma[n])
      { q with dma := d, dmaCur := q.dmaCur.filter (fun k => (d[k]).unitLeft != 0) }
    let enabled : Byte → Dma → Dma := fun v d => { d with ctl := v &&& 3 }
    let immediate : Dma → Bool := fun d => bits d.trig 2 0 == 0
    let refused : Dma → Bool := fun d => refusedAddr (bits d.mode 7 6) d.src || refusedAddr (bits d.mode 5 4) d.dst
    (∀ v : Byte, v.getLsbD 7 = true → v.getLsbD 6 = false →
      Writes (.dmaStart p n v) p (fun q => free q && (q.dma[n]).busy) (channel (enabled v)) ∧
      Writes (.dmaStart p n v) p (fun q => free q && !(q.dma[n]).busy && bad q.dma[n])
        (channel (fun d => { enabled v d with err := true })) ∧
      Writes (.dmaStart p n v) p (fun q => free q && !(q.dma[n]).busy && !bad q.dma[n] && !immediate q.dma[n])
        (channel (fun d => begun (enabled v d))) ∧
      Writes (.dmaStart p n v) p (fun q => free q && !(q.dma[n]).busy && !bad q.dma[n] && immediate q.dma[n] && !refused q.dma[n])
        (channel (fun d => { begun (enabled v d) with unitLeft := len d })) ∧
      Writes (.dmaStart p n v) p (fun q => free q && !(q.dma[n]).busy && !bad q.dma[n] && immediate q.dma[n] && refused q.dma[n])
        (channel (fun d => { stopped (begun (enabled v d)) with err := true }))) ∧
    (∀ v : Byte, v.getLsbD 6 = true →
      Writes (.dmaStop p n v) p (fun q => free q && (q.dma[n]).busy) (channel (fun d => stopped (enabled v d))) ∧
      Writes (.dmaStop p n v) p (fun q => free q && !(q.dma[n]).busy) (channel (enabled v))) ∧
    (∀ (s : State) (x : Site), State.Goes s p x → x.pan.owned = false → x.pan.dmaTurn = some n → (x.pan.dma[n]).unitLeft = 1 →
      (x.pan.dma[n]).dspace ≠ 0 → (x.pan.dma[n]).sspace ≠ 0 →
      ∃ q, exec (.dmaUnitTransfer p n) s = .next (s.withPan p x q) ∧ q.cpu = x.pan.cpu ∧ q.clk = x.pan.clk + 2 ∧ q.dmaCur = none ∧
        (q.dma[n]).unitLeft = 0 ∧ (q.dma[n]).rem = (x.pan.dma[n]).rem - 1 ∧
        (q.dma[n]).src = stepAddr (x.pan.dma[n]).sspace (x.pan.dma[n]).sstep (x.pan.dma[n]).src ∧
        (q.dma[n]).dst = stepAddr (x.pan.dma[n]).dspace (x.pan.dma[n]).dstep (x.pan.dma[n]).dst ∧
        ((x.pan.dma[n]).dspace = 1 → q.vram = x.pan.vram.write ((x.pan.dma[n]).dst.toNat % 65536) (x.pan.dmaSource x.pan.dma[n])) ∧
        q.wram = x.pan.wram ∧ q.cram = x.pan.cram ∧ q.oam = x.pan.oam ∧ q.ic = x.pan.ic) ∧
    (∀ (s : State) (x : Site), State.Goes s p x → x.pan.owned = false → x.pan.dmaTurn = some n →
      (x.pan.dma[n]).sspace ≠ 0 → (x.pan.dma[n]).dspace ≠ 0 →
      ∃ q, exec (.dmaUnitTransfer p n) s = .next (s.withPan p x q) ∧ (q.dma[n]).unitLeft = 0 ∧
        q.clk = x.pan.clk + 2 * (x.pan.dma[n]).unitLeft ∧ q.cpu = x.pan.cpu) ∧
    EventNow (.dmaHalf p n) p (fun q => free q && (q.dma[n]).halfDue)
      (fun q => ({ q with dma := q.dma.set n { q.dma[n] with half := true, halfDone := true } }).raising
        [(12 + n.val, (q.dma[n]).ctl.getLsbD 1)]) ∧
    EventNow (.dmaFull p n) p (fun q => free q && (q.dma[n]).fullDue && !(q.ras.auto.getLsbD 7 && bits q.ras.auto 5 4 == n.val))
      (fun q => ({ q with dma := q.dma.set n { q.dma[n] with full := true, busy := false } }).raising
        [(12 + n.val, (q.dma[n]).ctl.getLsbD 0)]) ∧
    EventNow (.dmaFull p n) p (fun q => free q && (q.dma[n]).fullDue && (q.ras.auto.getLsbD 7 && bits q.ras.auto 5 4 == n.val))
      (fun q => ({ q with
          dma := q.dma.set n { q.dma[n] with full := true, busy := false },
          ras := { q.ras with ready := setBit q.ras.ready (bits q.ras.auto 1 0) true } }).raising
        [(12 + n.val, (q.dma[n]).ctl.getLsbD 0), (22, !q.ras.ready.getLsbD (bits q.ras.auto 1 0))])

/-- The CRC unit: CTL selects the algorithm and loads its initial value, DATA folds a byte in, INIT loads the initial value, START takes
address and length and sets BUSY; all but START and the status are ignored while BUSY; a block's end leaves in CTX its bytes folded in
order, one pan-cycle each, clears BUSY, sets DONE and raises source 21 under IE (R85 to R88). -/
def Obligations.CrcBlocks : Prop :=
  ∀ p : PanNo,
    let initial : BitVec 2 → BitVec 32 := fun k => if k = 2 then 0x0000FFFF else 0xFFFFFFFF
    (∀ v : Byte, Writes (.crcCtlWrite p v) p (fun q => !q.crc.busy)
      (fun q => { q with crc := { q.crc with poly := v.setWidth 2, ctx := initial (v.setWidth 2) } })) ∧
    (∀ v : Byte, Writes (.crcCtlWrite p v) p (fun q => q.crc.busy) id) ∧
    (∀ v : Byte, Writes (.crcDataWrite p v) p (fun q => !q.crc.busy)
      (fun q => { q with crc := { q.crc with ctx := crcFold q.crc.poly q.crc.ctx v } })) ∧
    (∀ v : Byte, Writes (.crcDataWrite p v) p (fun q => q.crc.busy) id) ∧
    Writes (.crcInit p) p (fun q => !q.crc.busy) (fun q => { q with crc := { q.crc with ctx := initial q.crc.poly } }) ∧
    Writes (.crcInit p) p (fun q => q.crc.busy) id ∧
    Writes (.crcStart p) p (fun q => !q.crc.busy) (fun q => { q with crc := { q.crc with
      busy := true, next := q.crc.addr, left := if q.crc.len = 0 then 65536 else q.crc.len.toNat } }) ∧
    Writes (.crcStart p) p (fun q => q.crc.busy) id ∧
    (∀ (s : State) (x : Site), State.Goes s p x → x.pan.crc.busy = true → x.pan.dmaTurn = none →
      (∀ i, i < x.pan.crc.left → plainAddr (x.pan.crc.next + BitVec.ofNat 16 i)) →
      exec (.crcDone p) s = .next (s.withPan p x (({ x.pan with
        clk := x.pan.clk + x.pan.crc.left,
        crc := { x.pan.crc with
          ctx := (List.range x.pan.crc.left).foldl
            (fun k i => crcFold x.pan.crc.poly k (x.pan.peek (x.pan.crc.next + BitVec.ofNat 16 i))) x.pan.crc.ctx,
          next := x.pan.crc.next + BitVec.ofNat 16 x.pan.crc.left, left := 0, busy := false, done := true } }).raising
        [(21, x.pan.crc.ie)])))

/-- A placement applied at the end of the pan-cycle it falls on: an input record loads its slot, sets NEW (and LATE), counts UPD up and
raises source 17; an attach or a detach sets or clears ATT, sets CHG and raises source 18, a detach clearing the bytes too; a message
is queued and the oldest delivered when INFULL = 0; an NMI command sets the edge; a movie commit writes the media region and marks
buffers, raising source 22 for a bit that becomes 1; a reply or a deadline ends the call it names and raises source 20
(R56, R84, R90 to R96, R129). -/
def Obligations.PlacementsApply : Prop :=
  ∀ p : PanNo,
    let slot : Fin 16 → (InSlot → InSlot) → Pan → Pan := fun k f q => { q with slots := q.slots.set k (f q.slots[k]) }
    let delivered : Message → List Message → Pan → Pan := fun m r q =>
      ({ q with mb := { q.mb with inb := m.bytes, inSeq := m.num, full := true, queue := r },
                core := { q.core with nmi := q.core.nmi || m.nmi } }).raising [(31, true)]
    let queued : List Message → Pan → Pan := fun l q =>
      match l with
      | m :: r => if q.mb.full then { q with mb := { q.mb with queue := l } } else delivered m r q
      | [] => q
    let ended : Byte → (HostCall → HostCall) → Pan → Pan := fun n f q =>
      if q.hc.pend && q.hc.seq == n then ({ q with hc := f q.hc }).raising [(20, true)] else q
    (∀ k d, Places (.inputPlacement p) p (.input k d) (fun late q =>
      ((slot k (fun r => { r with data := d, new := true, upd := r.upd + 1, late := r.late || late }) q).captureAll 3).raising
        [(17, true)])) ∧
    (∀ k, Places (.attachPlacement p) p (.attach k) (fun _ q =>
      (slot k (fun r => { r with att := true, chg := true }) q).raising [(18, true)])) ∧
    (∀ k, Places (.detachPlacement p) p (.detach k) (fun _ q =>
      (slot k (fun r => { r with att := false, chg := true, data := Vector.replicate 7 0 }) q).raising [(18, true)])) ∧
    (∀ m, Places (.mailboxPlacement p) p (.message m) (fun _ q => queued (q.mb.queue ++ [m]) q)) ∧
    Places (.mailboxPlacement p) p .nmi (fun _ q => { q with core := { q.core with nmi := true } }) ∧
    (∀ r o bs, Places (.moviePlacement p) p (.movie r o bs) (fun _ q =>
      ({ q with media := q.media.writeBytes o bs, ras := { q.ras with ready := q.ras.ready ||| r } }).raising
        [(22, r &&& ~~~ q.ras.ready != 0)])) ∧
    (∀ n b, Places (.hcallReplyApply p) p (.hcReply n b) (fun _ q =>
      ended n (fun h => { h with res := b, pend := false, done := true }) q)) ∧
    (∀ n (s : State) (x : Site) c pl, State.Advances s p x → x.openDeadline = none → x.nextPlace = some (c, pl) →
      pl.kind = .hcTimeout n → x.pan.comes (c + 1) = true →
      exec (.hcallTimeout p) s = .next (s.withPan p (x.noted c pl)
        (ended n (fun h => { h with pend := false, tmo := true }) (x.pan.upTo (c + 1)))))

/-- The raster's events of a frame: VBLANK, HBLANK and LINE_CMP raise sources 1, 3 and 2 at their pan-cycles, with the captures, ticks and
DMA triggers they make; the latch of a pan without a copy armed closes; with one it puts the clamped shadows in force, counts
`FRAME_COUNT`, takes `FLIP_TIME` and raises source 4; a fetch point samples VRAM, OAM and media; the first collision of a frame is recorded
and raises source 6; a latch and a fetch point come as a pan-cycle begins, so that what waited for the end of the one before has
happened (R105, R106, R109 to R112, R114, R120, R121, R138, R146). -/
def Obligations.RasterEvents : Prop :=
  ∀ p : PanNo,
    let lines : Pan → Nat → Bool := fun q l => if q.cfg.elastic then decide (l ≤ q.beam.blankLine) else decide (l < q.ras.frameVt)
    Event (.vblank p) p (fun q => q.frameStart + q.vActive * q.cpl + 1) (fun q => !q.beam.vbDone)
      (fun q => ((({ q with beam := { q.beam with vbDone := true } }).captureAll 2).raising [(1, true)]).dmaTrigger
        (fun d => bits d.trig 2 0 == 2)) ∧
    Event (.hblank p) p (fun q => q.beam.hbAt) (fun q => lines q ((q.beam.hbAt - q.frameStart) / q.cpl))
      (fun q => ((({ q with
          beam := { q.beam with hbAt := q.beam.hbAt + q.cpl },
          tm := q.tm.map (fun t : Timer => if t.ctl.getLsbD 7 ∧ bits t.ctl 5 4 = 1 then { t with tickDue := true } else t)
        }).captureAll 1).raising [(3, true)]).dmaTrigger (fun d => bits d.trig 2 0 == 1)) ∧
    Event (.lineCmp p) p (fun q => q.frameStart + q.ras.linecmp.toNat * q.cpl + q.ras.linecmpCyc.toNat + 1)
      (fun q => lines q q.ras.linecmp.toNat && decide (q.ras.linecmpCyc.toNat < q.cpl) &&
        decide (q.ras.cmpFrom ≤ q.frameStart + q.ras.linecmp.toNat * q.cpl + q.ras.linecmpCyc.toNat))
      (fun q => (({ q with ras := { q.ras with
          cmpFrom := q.frameStart + q.ras.linecmp.toNat * q.cpl + q.ras.linecmpCyc.toNat + 1 } }).captureAll 4).raising
        [(2, true)]) ∧
    (∀ d : Nat, Event (.spriteCollision p d) p (fun q => q.rake.startDot / 2 + d / 2 + 1)
      (fun q => !q.ras.coll && q.rake.active && decide (d < q.hActive) && decide (2 ≤ (collidersAt q.rake d).length) &&
        (q.inForceAt (q.rake.startDot + d)).regs.layerEn.getLsbD 4)
      (fun q => (({ q with ras := { q.ras with
          coll := true, collA := BitVec.ofNat 7 ((collidersAt q.rake d).getD 0 0),
          collB := BitVec.ofNat 7 ((collidersAt q.rake d).getD 1 0) } }).captureAll 5).raising [(6, true)])) ∧
    Event (.frameLatch p) p (fun q => q.frameStart + q.vActive * q.cpl)
      (fun q => !q.cfg.elastic && !q.beam.latchDone && !q.copyDue && q.ras.withheld.isNone)
      (fun q => { q.settle with beam := { q.beam with latchDone := true } }) ∧
    (∀ (s : State) (x : Site) (e : Nat), State.Advances s p x → x.pan.cfg.elastic = false → x.pan.beam.latchDone = false →
      x.pan.ras.armed = some e → e ≤ x.pan.frameStart + x.pan.vActive * x.pan.cpl →
      x.pan.comes (x.pan.frameStart + x.pan.vActive * x.pan.cpl) = true →
      let y := (x.pan.upTo (x.pan.frameStart + x.pan.vActive * x.pan.cpl)).settle
      ∃ q, exec (.frameLatch p) s = .next (s.withPan p x q) ∧ q.beam.latchDone = true ∧ q.ras.armed = none ∧
        q.ras.force = { x.pan.ras.shadow with
          vtotal := BitVec.ofNat 10 (clampNat (x.pan.vActive + 4) x.pan.cfg.lb x.pan.ras.shadow.vtotal.toNat),
          vtotalMax := BitVec.ofNat 10 (clampNat (x.pan.vActive + 4) x.pan.cfg.lb x.pan.ras.shadow.vtotalMax.toNat),
          vblankMin := BitVec.ofNat 8 (clampNat 1
            ((BitVec.ofNat 10 (clampNat (x.pan.vActive + 4) x.pan.cfg.lb x.pan.ras.shadow.vtotalMax.toNat)).toNat - x.pan.vActive)
            x.pan.ras.shadow.vblankMin.toNat),
          mvStepX := BitVec.ofNat 16 (clampNat 0x40 0x400 x.pan.ras.shadow.mvStepX.toNat),
          mvStepY := BitVec.ofNat 16 (clampNat 0x40 0x400 x.pan.ras.shadow.mvStepY.toNat) } ∧
        q.ras.shadow = x.pan.ras.shadow ∧ q.sys.frameCount = x.pan.sys.frameCount + 1 ∧
        q.sys.flipTime = BitVec.ofNat 32 (x.pan.frameStart + x.pan.vActive * x.pan.cpl) ∧ q.ic.pend.getLsbD 4 = true ∧
        q.cpu = x.pan.cpu ∧ q.stores = y.stores ∧ q.tm = y.tm ∧ q.dma = y.dma ∧ q.snd = y.snd) ∧
    (∀ (s : State) (x : Site), State.Advances s p x → lines x.pan ((x.pan.beam.fetchAt - x.pan.frameStart) / x.pan.cpl) = true →
      (x.pan.beam.latchDone = true ∨ (x.pan.cfg.elastic = false ∧ x.pan.beam.fetchAt < x.pan.frameStart + x.pan.vActive * x.pan.cpl)) →
      x.pan.comes x.pan.beam.fetchAt = true →
      let v := (x.pan.beam.fetchAt - x.pan.frameStart) / x.pan.cpl
      let y := (x.pan.upTo x.pan.beam.fetchAt).settle
      ∃ q, exec (.fetchPoint p) s = .next (s.stepsTo p x q) ∧ q.rake.line = v ∧
        q.rake.active = decide (v < x.pan.vActive) ∧ q.rake.startDot = 2 * x.pan.beam.fetchAt ∧ q.rake.vramS = x.pan.vram ∧
        q.rake.oamS = x.pan.oam ∧ q.rake.mediaS = x.pan.media ∧
        q.rake.drawn = (if v < x.pan.vActive then (qualifying x.pan.oam v x.pan.hActive).take 32 else []) ∧
        q.beam.fetchAt = x.pan.beam.fetchAt + x.pan.cpl ∧
        (v < x.pan.vActive → 32 < (qualifying x.pan.oam v x.pan.hActive).length → x.pan.ras.ovf = false →
          q.ras.ovf = true ∧ q.ras.ovfNum = BitVec.ofNat 7 ((qualifying x.pan.oam v x.pan.hActive).getD 32 0) ∧
          q.ic.pend.getLsbD 5 = true) ∧
        q.cpu = x.pan.cpu ∧ q.wram = x.pan.wram ∧ q.vram = x.pan.vram ∧ q.tm = y.tm ∧ q.dma = y.dma ∧ q.snd = y.snd)

/-- Raster table entries and the end of a frame: an entry writes its byte, or its two bytes, to the target register as a line-scope
effect four dots after its pan-cycle's start, the last one setting DONE and, under IE, raising source 7; the frame of a LOCKED pan
ends after VTOTAL lines, with the frame number counted up, VTOTAL taken for the next frame, and the registers and memories as they
were; at the end of a blank line of an ELASTIC pan that R105 lets go on, the blank has one more line (R101, R105, R132). -/
def Obligations.FramesEnd : Prop :=
  ∀ p : PanNo,
    (∀ n : Fin 4,
      let line : Pan → Nat := fun q => max q.ras.rtNext[n] (q.ras.force.rt[n]).line.toNat
      let start : Pan → Nat := fun q => q.frameStart + line q * q.cpl + (q.ras.force.rt[n]).cyc.toNat
      let wide : Pan → Bool := fun q => (q.ras.force.rt[n]).ctl.getLsbD 6
      let addr : Pan → Word := fun q => (q.ras.force.rt[n]).addr +
        BitVec.ofNat 16 ((line q - (q.ras.force.rt[n]).line.toNat) * (if wide q then 2 else 1))
      let byte : Pan → Word → Byte := fun q a => if 0xE000 ≤ a.toNat ∧ a.toNat < 0xF000 then 0 else q.peek a
      let put : Nat → Byte → Pan → Pan := fun o b q => q.rasWrite (start q + 1) (2 * start q + 4) n.val o b
      let tgt : Pan → Nat := fun q => (q.ras.force.rt[n]).tgt.toNat
      let last : Pan → Bool := fun q => line q + 1 == (q.ras.force.rt[n]).line.toNat + (q.ras.force.rt[n]).count.toNat
      let wrote : Pan → Pan := fun q =>
        let r := put (tgt q) (byte q (addr q)) q
        if wide q then put (tgt q + 1) (byte q (addr q + 1)) r else r
      Event (.rasterTableEntry p n) p (fun q => start q + 1)
        (fun q => (q.ras.force.rt[n]).ctl.getLsbD 7 && !q.ras.rtRefused[n] && q.lineExists (line q) &&
          decide (line q < (q.ras.force.rt[n]).line.toNat + (q.ras.force.rt[n]).count.toNat))
        (fun q => ({ wrote q with ras := { (wrote q).ras with
            rtNext := (wrote q).ras.rtNext.set n (line q + 1),
            rtDone := if last q then (wrote q).ras.rtDone.set n true else (wrote q).ras.rtDone } }).raising
          [(7, last q && (q.ras.force.rt[n]).ctl.getLsbD 5)])) ∧
    (∀ (s : State) (x : Site), State.Advances s p x → x.pan.cfg.elastic = false →
      x.pan.comes (x.pan.frameStart + x.pan.ras.frameVt * x.pan.cpl) = true →
      ∃ t y, exec (.frameEnd p) s = .next t ∧ t.site p = some y ∧ y.pan.frame = x.pan.frame + 1 ∧
        y.pan.frameStart = x.pan.frameStart + x.pan.ras.frameVt * x.pan.cpl ∧ y.pan.ras.frameVt = x.pan.ras.force.vtotal.toNat ∧
        y.pan.beam.vbDone = false ∧ y.pan.beam.latchDone = false ∧
        y.pan.stores = (x.pan.upTo (x.pan.frameStart + x.pan.ras.frameVt * x.pan.cpl)).settle.stores ∧
        y.pan.sys = x.pan.sys ∧ y.pan.cpu.pc = x.pan.cpu.pc ∧ y.pan.cpu.a = x.pan.cpu.a ∧ y.pan.cpu.s = x.pan.cpu.s) ∧
    EventNow (.frameEnd p) p (fun q => q.cfg.elastic && decide (q.frameStart + (q.beam.blankLine + 1) * q.cpl ≤ q.clk) &&
        q.blankRule q.beam.blankLine == .continues)
      (fun q => { q.settle with beam := { q.beam with blankLine := q.beam.blankLine + 1 } })

/-- The timers: a tick due counts, CLEAR loading 0 where the count equals the compare value, and an arrival at the compare value or a
wrap, whose consequences become due, ticks the running next timer that selects it, TM0 after TM3 one pan-cycle later by its RUN and CLK
of then; a match sets MATCH, raises source 8 + n, triggers and captures what selects it; once every tick and match of the pan-cycle is
dealt with, SELF and then LINK of each match act; a wrap sets OVF and raises source 8 + n under OVFIRQ; writes land after the ticks and
actions of their pan-cycle and load counter, compare value and control, a change of CLK or PRE or a start taking the prescale count
back to 0; CAPNOW captures the count after the ticks of its pan-cycle (R80, R136 to R147, R149, R150). -/
def Obligations.TimersCount : Prop :=
  ∀ (p : PanNo) (n : Fin 4),
    let owns : Pan → Fin 4 → Bool := fun q k => k == 3 && q.owned
    let tm : Fin 4 → (Timer → Timer) → Pan → Pan := fun k f q => { q with tm := q.tm.set k (f q.tm[k]) }
    let nextCnt : Timer → Word := fun t => if bits t.act 7 6 = 1 ∧ t.cnt = t.cmp then 0 else t.cnt + 1
    let meets : Timer → Bool := fun t => nextCnt t == t.cmp && (t.cnt != t.cmp || bits t.act 7 6 == 1)
    let wraps : Timer → Bool := fun t => t.cnt == 0xFFFF && nextCnt t == 0
    let counted : Nat → Nat → Timer → Timer := fun e a t =>
      { t with cnt := nextCnt t, hit := t.hit || meets t, wrap := t.wrap || wraps t, preAt := a, tickDue := false,
               chain := t.chain.filter (fun c => decide (e < c.1)) }
    let chained : Timer → Pan → Pan := fun t q =>
      if n = 3 then tm 0 (fun u => if meets t || wraps t then { u with chain := u.chain ++ [(q.clk + 1, meets t, wraps t)] } else u) q
      else if owns q (n + 1) then q
      else tm (n + 1) (fun u =>
        if u.ctl.getLsbD 7 && ((meets t && bits u.ctl 5 4 == 3) || (wraps t && bits u.ctl 5 4 == 2)) then { u with tickDue := true }
        else u) q
    let ticks : (Timer → Nat) → Pan → Pan := fun a q => (chained q.tm[n] (tm n (counted q.clk (a q.tm[n])) q)).actsNow
    let chosen : Timer → Nat × Bool × Bool → Bool := fun t c =>
      (c.2.1 && bits t.ctl 5 4 == 3) || (c.2.2 && bits t.ctl 5 4 == 2)
    let calm : Nat → Pan → Bool := fun t q => decide (t ≤ q.clk) || !q.unsettled
    let prescaled : Pan → Nat := fun q => (q.tm[n]).preAt + preDivisor (bits (q.tm[n]).ctl 2 0)
    let chainedAt : Pan → Nat := fun q => ((q.tm[n]).chain.head?.map (fun c => c.1)).getD 0
    let matched : Pan → Pan := fun q =>
      let q := (tm n (fun t => { t with hitStat := true, hit := false, acts := true }) q).raising [(8 + n.val, true)]
      let q := if bits (q.dma[n]).trig 2 0 == 3 && !owns q n then { q with dma := q.dma.set n (q.dma[n]).trigger } else q
      let q := if (q.tm[n + 1]).capSrc = 6 then q.capture (n + 1) else q
      (if owns q n then { q with snd := { q.snd with s0 := { q.snd.s0 with popDue := true } } } else q).actsNow
    let acted : Pan → Pan := fun q =>
      let r := tm n (fun t => { t with ctl := if bits t.act 7 6 = 2 then t.ctl &&& 0x7F else t.ctl, acts := false }) q
      if owns r (n + 1) then r
      else
        match bits (r.tm[n]).act 5 4 with
        | 1 => tm (n + 1) (fun t => { t with ctl := t.ctl ||| 0x80, preAt := q.clk }) r
        | 2 => tm (n + 1) (fun t => { t with ctl := t.ctl &&& 0x7F }) r
        | 3 => tm (n + 1) (fun t => { t with cnt := 0, preAt := q.clk }) r
        | _ => r
    EventNow (.timerTick p n) p (fun q => (q.tm[n]).tickDue && (q.tm[n]).ctl.getLsbD 7 && !q.frozen n)
      (ticks (fun t => t.preAt)) ∧
    Event (.timerTick p n) p prescaled
      (fun q => !(q.tm[n]).tickDue && (q.tm[n]).ctl.getLsbD 7 && bits (q.tm[n]).ctl 5 4 == 0 && !q.frozen n && calm (prescaled q) q)
      (ticks (fun t => t.preAt + preDivisor (bits t.ctl 2 0))) ∧
    Event (.timerTick p n) p chainedAt
      (fun q => !(q.tm[n]).tickDue && (q.tm[n]).ctl.getLsbD 7 && (q.tm[n]).chain.head?.any (chosen q.tm[n]) && !q.frozen n &&
        calm (chainedAt q) q)
      (ticks (fun t => t.preAt)) ∧
    (∀ q : Pan, (∀ k : Fin 4, (q.tm[k]).acts = (k == n)) → q.late = none → q.runActs = acted q) ∧
    EventNow (.timerMatch p n) p (fun q => (q.tm[n]).hit) matched ∧
    EventNow (.timerOverflow p n) p (fun q => (q.tm[n]).wrap)
      (fun q => (tm n (fun t => { t with ovf := true, wrap := false }) q).raising
        [(8 + n.val, (q.tm[n]).irq.getLsbD 1 && !owns q n)]) ∧
    (∀ v : Byte, WritesLate (.timerCntHWrite p n v) p (fun q => !owns q n)
      (tm n (fun t => { t with cnt := Word.ofBytes v t.cntHold }))) ∧
    (∀ v : Byte, WritesLate (.timerCmpHWrite p n v) p (fun q => !owns q n)
      (tm n (fun t => { t with cmp := Word.ofBytes v t.cmpHold }))) ∧
    (∀ v : Byte, WritesLate (.timerCtlWrite p n v) p (fun q => !owns q n)
      (fun q => tm n (fun t => { t with
        ctl := v &&& 0xB7,
        preAt := if (v.getLsbD 7 && !t.ctl.getLsbD 7) || v &&& 0x37 != t.ctl &&& 0x37 then q.clk else t.preAt,
        chain := t.chain.filter (fun c => decide (q.clk < c.1)) }) q)) ∧
    (∀ v : Byte, v.getLsbD 7 = true → WritesLate (.timerCapnow p n v) p (fun q => !owns q n)
      (tm n (fun t => { t with capSrc := v.setWidth 3 }))) ∧
    (∀ (v : Byte) (s : State) (x : Site), State.Goes s p x → v.getLsbD 7 = true → owns x.pan n = false → x.pan.frozen n = false →
      (x.pan.tm[n]).capAt ≠ x.pan.clk + 1 →
      ∃ q, exec (.timerCapnow p n v) s = .next (s.withPan p x q) ∧ (q.settle.tm[n]).cap = q.countAfter n ∧
        (q.settle.tm[n]).capNew = true ∧ (q.settle.tm[n]).capOvr = ((x.pan.tm[n]).capOvr || (x.pan.tm[n]).capNew) ∧
        ((x.pan.tm[n]).irq.getLsbD 0 = true → q.settle.ic.pend.getLsbD (8 + n.val) = true)) ∧
    (∀ v : Byte, WritesLate (.timerCntHWrite p n v) p (fun q => owns q n) id ∧
      WritesLate (.timerCmpHWrite p n v) p (fun q => owns q n) id ∧ WritesLate (.timerCtlWrite p n v) p (fun q => owns q n) id)

/-- The voices and the mixer: a sound tick every 16 pan-cycles moves the phase of each sounding voice by FREQ and takes its output byte,
clears the output of a silent one, and mixes with the levels, volumes and clamp of R174; an envelope step moves VOL toward 63 or 0; a
sweep step moves FREQ toward SLIM; the LFSR shifts with its feedback; an output sample is the rounded average of the mix values; writes
key a voice on and take the tick counts of envelope and sweep back to 0 after the tick of their pan-cycle (R162 to R169, R174, R175). -/
def Obligations.VoicesSound : Prop :=
  ∀ p : PanNo,
    let voice : Fin 7 → (Voice → Voice) → Pan → Pan := fun k f q => { q with snd := { q.snd with v := q.snd.v.set k (f q.snd.v[k]) } }
    let kept : Fin 7 → Byte := fun k => if k.val < 4 then 0x83 else if k.val < 6 then 0xB0 else 0x88
    let carries : Voice → Bool := fun v => decide (2 ^ 20 ≤ v.phase.toNat + v.freq.toNat)
    let shifted : Bool → BitVec 15 → BitVec 15 := fun short l =>
      if short then
        (l &&& 0x7F80) ||| (if l.setWidth 7 = (0 : BitVec 7) then (1 : BitVec 7)
          else (l.setWidth 7 <<< 1) ||| (if l.getLsbD 6 != l.getLsbD 5 then 1 else 0)).setWidth 15
      else if l = 0 then 1 else (l <<< 1) ||| (if l.getLsbD 14 != l.getLsbD 13 then 1 else 0)
    let swept : Voice → Word := fun v =>
      let d := max 1 (v.freq.toNat / 2 ^ bits v.sweep 2 0)
      if v.sweep.getLsbD 7 then (if v.slim.toNat < v.freq.toNat then BitVec.ofNat 16 (max (v.freq.toNat - d) v.slim.toNat) else v.freq)
      else if v.freq.toNat < v.slim.toNat then BitVec.ofNat 16 (min (v.freq.toNat + d) v.slim.toNat) else v.freq
    let term : Byte → Byte → Nat → Int := fun s vol l => s.toInt * vol.toNat * l
    let sum : Sound → Nat → Int := fun d sh => (d.v.toList.map (fun v => term v.out v.vol (v.bal.toNat / 2 ^ sh % 16))).sum +
      term d.s0.out d.s0.vol (d.s0.bal.toNat / 2 ^ sh % 16)
    let mix : Sound → Nat → Int := fun d sh =>
      if d.mute then 0 else max (-32768) (min 32767 (Int.fdiv (sum d sh * d.mvol.toNat) 4096))
    let per : Pan → Int := fun q =>
      ((1000000 * (if q.cfg.elastic then Config.nominalVtotal q.cfg.profile else q.ras.frameVt) * q.cpl : Nat) : Int)
    let left : Pan → Int := fun q => q.snd.rem - ((3 * q.cfg.fp * (q.snd.tickAt - q.snd.remAt) : Nat) : Int)
    let average : Int → Nat → Int → Int := fun a n l => if n = 0 then l else Int.fdiv (a + ((n / 2 : Nat) : Int)) n
    (∀ (s : State) (x : Site), State.Advances s p x → x.pan.comes x.pan.snd.tickAt = true →
      let y := x.pan.upTo x.pan.snd.tickAt
      ∃ q, exec (.soundTick p) s = .next (s.withPan p x q) ∧ q.snd.tickAt = x.pan.snd.tickAt + 16 ∧
        (∀ k : Fin 7, k.val < 4 → (y.snd.v[k]).ctl.getLsbD 7 = true →
          (q.snd.v[k]).phase = (y.snd.v[k]).phase + (y.snd.v[k]).freq.setWidth 20 ∧
          (q.snd.v[k]).out = y.wave.read (64 * bits (y.snd.v[k]).ctl 1 0 + bits (q.snd.v[k]).phase 19 14)) ∧
        (∀ k : Fin 7, (y.snd.v[k]).ctl.getLsbD 7 = false → (q.snd.v[k]).out = 0) ∧
        q.snd.mixL = mix q.snd 4 ∧ q.snd.mixR = mix q.snd 0 ∧ q.cpu = x.pan.cpu ∧ q.stores = y.stores ∧ q.ras = x.pan.ras) ∧
    (∀ k : Fin 7, EventNow (.envelopeStep p k) p (fun q => (q.snd.v[k]).envDue)
      (voice k (fun v => { v with envDue := false, vol := if v.env.getLsbD 7 then (if v.vol = 63 then 63 else v.vol + 1)
        else if v.vol = 0 then 0 else v.vol - 1 }))) ∧
    (∀ k : Fin 2,
      let n : Fin 7 := ⟨4 + k.val, by omega⟩
      Event (.sweepStep p k) p (fun q => q.snd.tickAt)
        (fun q => (q.snd.v[n]).ctl.getLsbD 7 && !(q.snd.v[n]).swept && bits (q.snd.v[n]).sweep 2 0 != 0 &&
          bits (q.snd.v[n]).sweep 6 4 != 0 && decide (bits (q.snd.v[n]).sweep 6 4 * 512 ≤ (q.snd.v[n]).sweepCnt + 1))
        (voice n (fun v => { v with freq := swept v, sweepCnt := 0, swept := true }))) ∧
    Event (.lfsrShift p) p (fun q => q.snd.tickAt)
      (fun q => (q.snd.v[6]).ctl.getLsbD 7 && carries q.snd.v[6] && !(q.snd.v[6]).shifted)
      (voice 6 (fun v => { v with lfsr := shifted (v.ctl.getLsbD 3) v.lfsr, shifted := true })) ∧
    Event (.resamplerEmit p) p (fun q => q.snd.tickAt) (fun q => decide (left q < 0))
      (fun q =>
        let l := average q.snd.sumL q.snd.count q.snd.lastL
        let r := average q.snd.sumR q.snd.count q.snd.lastR
        { q with snd := { q.snd with
          rem := left q + per q, remAt := max q.snd.remAt q.snd.tickAt, lastL := l, lastR := r,
          samples := (max q.snd.remAt q.snd.tickAt, l, r) :: q.snd.samples, emitted := q.snd.emitted + 1, sumL := 0, sumR := 0,
          count := 0 } }) ∧
    (∀ (k : Fin 7) (v : Byte), v.getLsbD 6 = true → WritesLate (.voiceKeyon p k v) p (fun _ => true)
      (voice k (fun w => { w with
        ctl := v &&& kept k, out := if v.getLsbD 7 then w.out else 0, phase := 0, lfsr := 1, envCnt := 0, sweepCnt := 0 }))) ∧
    (∀ (k : Fin 7) (v : Byte), WritesLate (.voiceEnvWrite p k v) p (fun _ => true)
      (voice k (fun w => { w with env := v &&& 0x8F, envCnt := 0 }))) ∧
    (∀ (k : Fin 7) (v : Byte), WritesLate (.voiceSweepWrite p k v) p (fun _ => k.val == 4 || k.val == 5)
      (voice k (fun w => { w with sweep := v &&& 0xF7, sweepCnt := 0 }))) ∧
    (∀ (k : Fin 7) (v : Byte), WritesLate (.voiceSweepWrite p k v) p (fun _ => !(k.val == 4 || k.val == 5)) id)

/-- The sample voice: enabling it empties the FIFO and takes phase and sample back to 0, and under timer pacing sets TM3 and starts the
first pass through channel 3; disabling it silences it and releases what it owned; a push enters the FIFO unless it is full, when OVR
sets, and is ignored under timer pacing; writes land after the tick of their pan-cycle, and with them the low mark is judged; a pop takes
the oldest byte, or sets UNDR, and raises source 16 where LEVEL falls to MARK; a refill unit of at most 8 bytes of the pass becomes
pending (R82, R150, R163, R171 to R173). -/
def Obligations.SampleVoice : Prop :=
  ∀ (p : PanNo) (v : Byte),
    let s0 : (S0 → S0) → Pan → Pan := fun f q => { q with snd := { q.snd with s0 := f q.snd.s0 } }
    let on : Byte → Bool := fun c => c.getLsbD 7
    let timed : Byte → Bool := fun c => c.getLsbD 6
    let emptied : S0 → S0 := fun d =>
      { d with fifo := [], phase := 0, out := 0, fetchEnd := false, refused := false, popDue := false, popped := false }
    let silenced : S0 → S0 := fun d => { d with out := 0, fetchEnd := false, refused := false, passLeft := 0, popDue := false }
    let released : Pan → Pan := fun q => { q with
      dma := q.dma.set 3 { q.dma[3] with busy := false, rem := 0, unitLeft := 0, held := none },
      tm := q.tm.set 3 { q.tm[3] with ctl := (q.tm[3]).ctl &&& 0x7F } }
    let lowRaise : Pan → Pan → Pan := fun old q =>
      if old.late.isSome then q
      else q.raising [(16, decide (q.snd.s0.low.toNat % 16 < old.snd.s0.fifo.length ∧ q.snd.s0.fifo.length ≤ q.snd.s0.low.toNat % 16))]
    let popped : S0 → S0 := fun d => match d.fifo with
      | [] => { d with undr := true }
      | b :: t => { d with fifo := t, out := b }
    WritesLate (.s0CtlWrite p v) p (fun q => !on q.snd.s0.ctl && on v && !timed v)
      (s0 (fun d => { emptied d with ctl := v &&& 0xF7 })) ∧
    WritesLate (.s0CtlWrite p v) p (fun q => on q.snd.s0.ctl && !on v && !timed q.snd.s0.ctl)
      (s0 (fun d => { silenced d with ctl := v &&& 0xF7 })) ∧
    WritesLate (.s0CtlWrite p v) p (fun q => on q.snd.s0.ctl && !on v && timed q.snd.s0.ctl)
      (fun q => released (s0 (fun d => { silenced d with ctl := v &&& 0xF7 }) q)) ∧
    WritesLate (.s0CtlWrite p v) p (fun q => on q.snd.s0.ctl && on v && !timed q.snd.s0.ctl)
      (s0 (fun d => { d with ctl := (v &&& 0xA7) ||| (d.ctl &&& 0x50) })) ∧
    WritesLate (.s0CtlWrite p v) p (fun q => !on q.snd.s0.ctl && !on v) (s0 (fun d => { d with ctl := v &&& 0xF7 })) ∧
    (∀ (s : State) (x : Site), State.Goes s p x → x.pan.snd.s0.ctl.getLsbD 7 = false → v.getLsbD 7 = true →
      v.getLsbD 6 = true → refusedAddr (if v.getLsbD 4 then 2 else 0) x.pan.snd.s0.src = false →
      ∃ q, exec (.s0CtlWrite p v) s = .next (s.withPan p x q) ∧ q.cpu = x.pan.cpu ∧ q.core = x.pan.core ∧ q.clk = x.pan.clk + 1 ∧
        Pan.OnlyCpu { x.pan with late := q.late } q ∧
        q.settle.snd.s0.ctl = v &&& 0xF7 ∧ q.settle.snd.s0.fifo = [] ∧ q.settle.snd.s0.out = 0 ∧
        (q.settle.tm[3]).cnt = 0 ∧ (q.settle.tm[3]).cmp = x.pan.snd.s0.rate ∧ (q.settle.tm[3]).ctl = 0x80 ||| (v &&& 7) ∧
        (q.settle.tm[3]).act = 0x40 ∧ q.settle.snd.s0.passAddr = x.pan.snd.s0.src ∧
        q.settle.snd.s0.passLeft = (if x.pan.snd.s0.len = 0 then 65536 else x.pan.snd.s0.len.toNat) ∧
        (q.settle.dma[3]).unitLeft = min 8 (if x.pan.snd.s0.len = 0 then 65536 else x.pan.snd.s0.len.toNat) ∧
        q.settle.stores = x.pan.stores) ∧
    WritesLate (.s0DataWrite p v) p (fun q => !timed q.snd.s0.ctl && decide (q.snd.s0.fifo.length < 16))
      (s0 (fun d => { d with fifo := d.fifo ++ [v] })) ∧
    WritesLate (.s0DataWrite p v) p (fun q => !timed q.snd.s0.ctl && decide (16 ≤ q.snd.s0.fifo.length))
      (s0 (fun d => { d with ovr := true })) ∧
    WritesLate (.s0DataWrite p v) p (fun q => timed q.snd.s0.ctl) id ∧
    EventNow (.s0Pop p) p (fun q => q.snd.s0.popDue && !(q.snd.s0.fetchEnd && !q.snd.s0.refused && q.snd.s0.fifo.length == 1))
      (fun q => lowRaise q (s0 (fun d => popped { d with popDue := false }) q)) ∧
    Event (.s0Pop p) p (fun q => q.snd.tickAt)
      (fun q => !q.snd.s0.popDue && on q.snd.s0.ctl && !timed q.snd.s0.ctl && !q.snd.s0.popped &&
        decide (2 ^ 20 ≤ q.snd.s0.phase.toNat + q.snd.s0.rate.toNat) && (decide (q.snd.tickAt ≤ q.clk) || !q.unsettled))
      (fun q => lowRaise q (s0 (fun d => { popped d with popped := true }) q)) ∧
    EventNow (.s0Refill p) p
      (fun q => on q.snd.s0.ctl && timed q.snd.s0.ctl && !q.snd.s0.fetchEnd && decide (q.snd.s0.fifo.length ≤ 8) &&
        (q.dma[3]).unitLeft == 0 && !refusedAddr (bits (q.dma[3]).mode 7 6) (q.dma[3]).src)
      (fun q => { q with dma := q.dma.set 3 { q.dma[3] with unitLeft := min 8 q.snd.s0.passLeft } })

/-- Host-calls: posted, a call sets PEND and CALL, counts `HC_SEQ` up, takes the registers into its request, which goes out or waits
for an HCALL ring, with the deadline the pan's timeout gives; in a free-run mode the pan then waits, in real time it runs on with C = 0;
with a call outstanding in real time it is refused with REJ and C = 1; a reply taken or the deadline ends a synchronous wait in the
registers; an answer that fits no call is only counted; a request that waited is written once its ring has room (R54 to R58, R341, R343). -/
def Obligations.HostCallsComplete : Prop :=
  ∀ (s : State) (p : PanNo) (x : Site),
    let c := x.pan.cpu
    let h := x.pan.hc
    let request : Fin 8 → List Byte := fun n =>
      [BitVec.ofNat 8 n.val, h.seq + 1, c.a, c.b, c.p.lo, c.p.hi, c.q.lo, c.q.hi] ++ h.arg.toList
    let entry : Fin 8 → List Byte := fun n =>
      leBytes 2 p ++ request n ++ leBytes 4 x.pan.frame ++ leBytes 4 (x.pan.clk + 3 - x.pan.frameStart) ++ leBytes 8 s.tb.time ++
        leBytes 8 (s.tb.time + x.hcTimeout) ++ [1, 0, 0] ++ List.replicate 13 0 ++ leBytes 4 x.pan.sys.frameCount.toNat ++ [0, 0, 0, 0]
    (∀ n : Fin 8, State.Begins s p x (.hc n) .implied → plainAddr c.pc → h.pend = false → x.mode ≠ .replay → x.rerunning = false →
      Completes (.hostCall p n) s (fun t => SiteThat t p (fun y =>
        y.pan.hc = { h with pend := true, call := BitVec.ofNat 3 n.val, seq := h.seq + 1, sync := !x.realTime } ∧
        y.pan.core.hcWait = !x.realTime ∧ y.pan.clk = x.pan.clk + 4 ∧
        y.pan.cpu = { c with pc := c.pc + 1, f := if x.realTime then withFlags c.f [(0, false)] else c.f } ∧
        y.pan.stores = x.pan.stores ∧ y.pan.ic = x.pan.ic ∧
        y.callOut.map (fun k => (k.seq, k.request, k.posted, k.deadline, k.placed)) =
          some (h.seq + 1, request n, s.tb.time, s.tb.time + x.hcTimeout, false)) ∧
        (s.serving 2 (some p) = none → t.waitCalls = s.waitCalls ++ [{ pan := p, entry := entry n }]))) ∧
    (∀ n : Fin 8, State.Begins s p x (.hc n) .implied → plainAddr c.pc → h.pend = true →
      Completes (.hostCall p n) s (fun t => SiteThat t p (fun y =>
        y.pan.hc = { h with rej := true } ∧ y.pan.cpu = { c with pc := c.pc + 1, f := withFlags c.f [(0, true)] } ∧
        y.pan.clk = x.pan.clk + 4 ∧ y.pan.stores = x.pan.stores ∧ y.callOut = x.callOut))) ∧
    (∀ b k, s.site p = some x → x.syncWaits = true → s.engines = true → x.oldAnswer = none → x.callOut = some k → k.reply = some b →
      Completes (.hcallReplyApply p) s (fun t => SiteThat t p (fun y =>
        y.pan = { x.pan with
          hc := { h with res := b, pend := false, done := true },
          cpu := { c with a := b[0], b := b[1], f := withFlags c.f [(0, false)] },
          core := { x.pan.core with hcWait := false } } ∧ y.callOut = none))) ∧
    (∀ k, s.site p = some x → s.tb.counting = true → h.sync = true → x.syncWaits = true → x.callOut = some k → k.placed = false →
      Completes (.hcallTimeout p) s (fun t => t.tb.time = max s.tb.time k.deadline ∧ SiteThat t p (fun y =>
        y.pan = { x.pan with
          hc := { h with pend := false, tmo := true }, cpu := { c with f := withFlags c.f [(0, true)] },
          core := { x.pan.core with hcWait := false } } ∧ y.callOut = none))) ∧
    (∀ n r, s.ring n = some r → s.listens = true → s.dev.status.getLsbD 31 = false → r.kind = 2 → r.taken ≠ r.hst →
      Completes (.hcallReply n) s (fun t =>
        let e := s.host.readBytes (r.base + (r.taken.toNat % 2 ^ r.log2) * 64) 64
        t.rings = Table.put s.rings n { r with taken := r.taken + 1 } ∧
          t.host = s.host.writeBytes (r.idxAddr + 4) (leBytes 4 (r.taken + 1).toNat) ∧
          (e.getD 40 0 = 2 → leNat (e.take 2) = p → s.site p = some x → x.callOut = none →
            SiteThat t p (fun y => y = { x with ctr := { x.ctr with hcDiscarded := x.ctr.hcDiscarded + 1 } })) ∧
          (e.getD 40 0 ≠ 2 → t.sites = s.sites))) ∧
    (∀ n w, s.waitCalls = [w] → s.serving 2 (some w.pan) = some n → s.room n = true →
      Completes (.hcallRequestWrite n) s (fun t => t.waitCalls = [] ∧ t.sites = s.sites ∧ t.tb = s.tb ∧
        OnlyEvents { s with waitCalls := [] } t))

/-- Slots: a real-time pan whose burst is to come is read into a free slot of its bay no earlier than E − W, or into that of the free-run
pan that gives way, a free-run pan in its turn and at once; nothing of its image is dirty then; it leaves the slot after its burst, with
its batch done, at a wait, or 100 µs into a synchronous host-call, its dirty grains written back over the image in DRAM (R183 to R186,
R194). -/
def Obligations.SlotsSwap : Prop :=
  ∀ (s : State) (p : PanNo) (x : Site),
    let w := s.dev.w * 16000
    let taken : Nat → Nat → Site → Prop := fun k at_ y =>
      y.slot = some k ∧ y.swappedAt = at_ ∧ y.resFrames = 0 ∧ y.dirtyGrains = [] ∧ y.heap.written = some x.pan.stored ∧
        y.pan = { x.pan with dirty := [] } ∧ y.mode = x.mode ∧ y.boiler = x.boiler
    let left : Site → Prop := fun y =>
      y.slot = none ∧ y.resFrames = 0 ∧ y.dirtyGrains = [] ∧
        y.heap.written = some (x.pan.overlay x.dirtyGrains (x.heap.written.getD x.pan)) ∧ y.pan = { x.pan with dirty := [] } ∧
        y.mode = x.mode
    let then_ : State := (s.reach (x.frameE - w)).endRuns
    (∀ k : Fin 32, s.site p = some x → s.engines = true → x.slot = none → x.realTime = true → x.parked = false → x.wantsBurst = true →
      s.rtSlots x.bay < 24 → s.slotOf x.bay k.val = none →
      Completes (.swapIn p k) s (fun t => t.tb = s.tb.moveTo (x.frameE - w) ∧
        SiteThat t p (taken k.val (max s.tb.time (x.frameE - w))))) ∧
    (∀ (k : Fin 32) v z, s.site p = some x → s.engines = true → x.slot = none → x.realTime = true → x.parked = false →
      x.wantsBurst = true → s.rtSlots x.bay < 24 → s.slotOf x.bay k.val = some (v, z) → s.slotsFull x.bay = true →
      then_.victim x.bay = some v → v ≠ p →
      Completes (.swapIn p k) s (fun t => SiteThat t p (taken k.val (max s.tb.time (x.frameE - w))) ∧
        SiteThat t v (fun y => y.slot = none ∧ y.resFrames = 0))) ∧
    (∀ k : Fin 32, s.site p = some x → s.engines = true → x.slot = none → x.canRun = true → x.realTime = false → x.running = true →
      s.swapNext x.bay = some p → s.slotOf x.bay k.val = none →
      Completes (.swapIn p k) s (fun t => t.tb = s.tb ∧ SiteThat t p (taken k.val s.tb.time))) ∧
    (s.site p = some x → s.engines = true → x.slot.isSome = true → x.boiler = none → x.realTime = true → x.burst = false →
      0 < x.resFrames →
      Completes (.swapOut p) s (fun t => t.tb.time = s.tb.time ∧ SiteThat t p left)) ∧
    (s.site p = some x → s.engines = true → x.slot.isSome = true → x.boiler = none → x.realTime = false →
      (s.dev.batch ≤ x.resFrames ∨ x.waitObs = true) →
      Completes (.swapOut p) s (fun t => t.tb.time = s.tb.time ∧ SiteThat t p left)) ∧
    (∀ k, s.site p = some x → s.engines = true → x.slot.isSome = true → x.boiler = none → x.realTime = false →
      x.resFrames < s.dev.batch → x.waitObs = false → x.pan.core.hcWait = true → x.callOut = some k →
      Completes (.swapOut p) s (fun t => t.tb = s.tb.moveTo (k.posted + 1600000) ∧ SiteThat t p left))

/-- Bursts and runs: the first burst in order starts on a free boiler no earlier than E − W, fixing the input cutoff, and one that was
interrupted goes on with the cutoff it had; the governor's delay adds 2 µs (the model's choice, notes/assumptions/40.md); a burst's end
counts a frame that ended after its E as late and otherwise makes it the newest whole frame; free-run runs start in turn where no burst
is due and end after 20 µs, or at once at a wait, a batch's end or a host-call; a pan that waited at a frame's end goes on once its
records are accepted (R13, R15, R190, R191, R194, R384). -/
def Obligations.RunsOnBoilers : Prop :=
  ∀ (s : State) (p : PanNo) (x : Site),
    let from_ := x.frameE - s.dev.w * 16000
    let at_ : Nat → State := fun d => (s.reach d).endRuns
    (∀ k : Fin 4, s.site p = some x → s.engines = true → x.slot.isSome = true → x.wantsBurst = true →
      (at_ from_).boilerFree x.bay k = true → s.burstFirst p x (max s.tb.time from_) = true →
      Completes (.burstStart p k) s (fun t => t.tb = s.tb.moveTo from_ ∧ SiteThat t p (fun y => y = { x with
        boiler := some k, runStart := max s.tb.time from_, burst := true,
        cutoff := if x.burst then x.cutoff else max s.tb.time from_ }))) ∧
    (∀ k : Fin 4, s.site p = some x → s.engines = true → x.realTime = true → x.slot.isSome = true → x.wantsBurst = true →
      (at_ (from_ + 32000)).anyBoiler x.bay = some k → s.burstFirst p x (max s.tb.time (from_ + 32000)) = true →
      Completes (.governorStartDelay p) s (fun t => t.tb = s.tb.moveTo (from_ + 32000) ∧ SiteThat t p (fun y => y = { x with
        boiler := some k, runStart := max s.tb.time (from_ + 32000), burst := true,
        cutoff := if x.burst then x.cutoff else max s.tb.time (from_ + 32000) }))) ∧
    (∀ k : Fin 4, s.site p = some x → s.engines = true → x.realTime = false → x.boiler = none →
      (at_ (s.tb.time + 32000)).anyBoiler x.bay = some k → (at_ (s.tb.time + 32000)).freeNext x.bay = some p →
      (at_ (s.tb.time + 32000)).burstDue x.bay (s.tb.time + 32000) = false →
      Completes (.governorStartDelay p) s (fun t => t.tb = s.tb.moveTo (s.tb.time + 32000) ∧ t.rrFree[x.bay] = p ∧
        SiteThat t p (fun y => y = { x with boiler := some k, runStart := s.tb.time + 32000 }))) ∧
    (∀ e, s.site p = some x → x.realTime = true → x.burst = true → x.endedE = some e → x.newFrame = none →
      Completes (.burstEnd p) s (fun t => OnlyEvents { s with sites := t.sites } t ∧ SiteThat t p (fun y => y = { x with
        burst := false, boiler := none, endedE := none }))) ∧
    (∀ e f, s.site p = some x → x.realTime = true → x.burst = true → x.endedE = some e → x.newFrame = some f → x.obsQ = [] →
      e < s.tb.time →
      Completes (.burstEnd p) s (fun t => SiteThat t p (fun y => y.burst = false ∧ y.boiler = none ∧ y.endedE = none ∧
        y.newFrame = none ∧ y.lastFrame = x.lastFrame ∧ y.ctr = { x.ctr with late := x.ctr.late + 1 } ∧ y.pan = x.pan))) ∧
    (∀ e f, s.site p = some x → x.realTime = true → x.burst = true → x.endedE = some e → x.newFrame = some f → x.obsQ = [] →
      s.tb.time ≤ e →
      Completes (.burstEnd p) s (fun t => SiteThat t p (fun y => y.burst = false ∧ y.boiler = none ∧ y.endedE = none ∧
        y.newFrame = none ∧ y.lastFrame = some f ∧ y.prevFrame = x.lastFrame ∧ y.ctr = x.ctr ∧ y.pan = x.pan))) ∧
    (∀ k : Fin 4, (at_ s.tb.time).site p = some x → s.engines = true → (at_ s.tb.time).boilerFree x.bay k = true →
      (at_ s.tb.time).freeNext x.bay = some p → (at_ s.tb.time).burstDue x.bay s.tb.time = false →
      Completes (.freeRunStart p k) s (fun t => t.tb.time = s.tb.time ∧ t.rrFree[x.bay] = p ∧
        SiteThat t p (fun y => y = { x with boiler := some k, runStart := s.tb.time }))) ∧
    (s.site p = some x → x.freeRun = true → x.boiler.isSome = true → x.canRun = true → x.resFrames < s.dev.batch →
      Completes (.freeRunEnd p) s (fun t => t.tb = s.tb.moveTo (x.runStart + 320000) ∧
        SiteThat t p (fun y => y = { x with boiler := none }))) ∧
    (s.site p = some x → x.freeRun = true → x.boiler.isSome = true → (x.canRun = false ∨ s.dev.batch ≤ x.resFrames) →
      Completes (.freeRunEnd p) s (fun t => t.tb = s.tb ∧ SiteThat t p (fun y => y = { x with boiler := none }))) ∧
    (s.site p = some x → x.waitObs = true → s.accepts x = true →
      Completes (.freeRunWaitEnd p) s (fun t => t.tb = s.tb ∧ SiteThat t p (fun y => y = { x with waitObs := false })))

/-- Halts, parks, store errors and reloads: a halt whose position has run, which a pan idling in `WAI` on a boiler reaches without an
instruction, leaves the pan `HALTED` at the end of its instruction, keeping its image, phase index and queues; a STEP pan whose count is
used up parks; a corrected store error is counted and raises source 8; an uncorrected one raises it and makes the boiler reload, and
the pan it ran runs again from its last written-back image; the switch to a patched microcode takes every boiler from its pan and puts
the patch and its version in force (R195, R197, R202, R203). -/
def Obligations.HaltsAndStores : Prop :=
  ∀ (s : State) (p : PanNo) (x : Site),
    (∀ z, s.site p = some x → z = (if s.runs x then x.haltReach else x) → z.running = true → z.haltsHere = true →
      Completes (.haltReached p) s (fun t => t.tb = s.tb ∧ SiteThat t p (fun y => y.mode = .halted ∧ y.leftMode = x.mode ∧
        y.pan = z.pan ∧ z.pan.cpu = x.pan.cpu ∧ y.boiler = none ∧ y.slot = none ∧
        y.phase = x.phase ∧ y.inQ = x.inQ ∧ y.callOut = x.callOut ∧ y.halts = []))) ∧
    (s.site p = some x → x.mode = .step → x.stepLeft = 0 → x.parked = false → x.waitObs = false →
      Completes (.stepCountDone p) s (fun t => SiteThat t p (fun y => y.parked = true ∧ y.mode = .step ∧ y.boiler = none ∧
        y.slot = none ∧ y.pan = x.pan ∧ y.halts = []))) ∧
    (∀ (b : Fin 8) (k : Fin 4) (r : Fin 5), s.engines = true →
      Completes (.storeError b k r true) s (fun t => t.sites = s.sites ∧ t.boilers = s.boilers ∧
        t.dev = { s.dev with correctable := s.dev.correctable + 1 } ∧ Raised 8 t)) ∧
    (∀ (b : Fin 8) (k : Fin 4) (r : Fin 5), s.engines = true → s.runOn b k = none →
      Completes (.storeError b k r false) s (fun t => Raised 8 t ∧ t.dev = s.dev ∧ t.sites = s.sites ∧
        t.boilers = s.boilers.set (4 * b.val + k.val) { s.boilers[4 * b.val + k.val] with reloading := true })) ∧
    (∀ (b : Fin 8) (k : Fin 4) (r : Fin 5) v, s.engines = true → s.runOn b k = some p → s.site p = some x → x.heap.written = some v →
      Completes (.storeError b k r false) s (fun t => Raised 8 t ∧ t.dev = s.dev ∧
        t.boilers = s.boilers.set (4 * b.val + k.val) { s.boilers[4 * b.val + k.val] with reloading := true } ∧
        SiteThat t p (fun y => y.pan = v ∧ y.boiler = none ∧ y.slot = none ∧ y.mode = x.mode ∧
          y.ctr = { x.ctr with reruns := x.ctr.reruns + 1 }))) ∧
    (∀ (b : Fin 8) (k : Fin 4), Completes (.boilerReload b k) s (fun t =>
      t = { s with boilers := s.boilers.set (4 * b.val + k.val) { reloading := false, stack := [] } })) ∧
    (∀ w v, s.tb.counting = true → s.waiting = [w] → w.at_ = .switch → w.opcode = 0x0C02 → w.txn = none → s.patch = some v →
      (∀ e ∈ s.sites, e.2.mode = .idle) →
      Completes .patchSwitch s (fun t => t.waiting = [] ∧ t.tb = s.tb.moveTo ((w.accepted / 4000000 + 1) * 4000000) ∧
        t.boilerPatch = v ∧ t.dev = { s.dev with ucode := Config.patchVersion v } ∧ (∀ e ∈ t.sites, e.2.boiler = none)))

/-- The timebase: a read of `TB_TIME_LO`, `TB_PPSIN_LO` or `TB_SLEW_LO` returns the low word and latches the high one, the second
clearing PPSIN_NEW; a slew ends once its offset is absorbed, at 100 ppm of the reference's time; PPS out rises where device time is its offset modulo a second and
falls after its high time; PPS in is stamped with device time and raises source 3; REFLOCK follows the reference clock without a jump of
device time, and counting starts from 0, setting `DEV_READY.TB` (R208 to R211, R216, R217, R377, R389). -/
def Obligations.TimebaseWorks : Prop :=
  ∀ (s : State),
    let b := s.tb
    let high : Nat → BitVec 32 := fun n => BitVec.ofNat 32 (n / 2 ^ 32)
    let slew : BitVec 64 := BitVec.ofInt 64 b.slew
    (s.awake = true → s.pwr.perst = false →
      Completes .tbTimeRead s (fun t => t = { s with tb := { b with timeLatch := high b.time }, barRead := BitVec.ofNat 32 b.time })) ∧
    (s.awake = true → s.pwr.perst = false →
      Completes .tbPpsinRead s (fun t =>
        t = { s with tb := { b with stampLatch := high b.stamp, ppsNew := false }, barRead := BitVec.ofNat 32 b.stamp })) ∧
    (s.awake = true → s.pwr.perst = false →
      Completes .tbSlewRead s (fun t =>
        t = { s with tb := { b with slewLatch := (slew >>> 32).setWidth 32 }, barRead := slew.setWidth 32 })) ∧
    (b.counting = true → b.slewing = true →
      Completes .slewAbsorbed s (fun t => t = { s with tb := { b with
        time := b.time + ceilDiv ((b.slew.natAbs * 48000000000 - b.slewAcc) * b.speed) (48000000000 * 1600000),
        slew := 0, slewing := false, slewAcc := 0 } })) ∧
    (b.counting = true → b.ppsEn = true → b.ppsOut = false → b.ppsOffset < 16000000000 →
      let from_ := b.ppsRise.elim b.time (fun r => max b.time (r + 1))
      Completes .ppsOutEdge s (fun t => ∃ e, t = { s with tb := { b.moveTo e with ppsOut := true, ppsRise := some e } } ∧
        e % 16000000000 = b.ppsOffset ∧ from_ ≤ e ∧ e < from_ + 16000000000)) ∧
    (∀ r, b.counting = true → b.ppsOut = true → b.ppsRise = some r →
      Completes .ppsOutFall s (fun t => t = { s with tb := { b.moveTo (r + b.ppsHigh) with ppsOut := false } })) ∧
    (b.counting = true →
      Completes .ppsInEdge s (fun t => Raised 3 t ∧
        OnlyEvents { s with tb := { b with stamp := b.time, ppsNew := true, ppsOvr := b.ppsOvr || b.ppsNew } } t)) ∧
    (b.counting = true → Completes .tbRefclkLock s (fun t => t = { s with tb := { b with refLock := true } })) ∧
    Completes .tbRefclkLoss s (fun t => t = { s with tb := { b with refLock := false } }) ∧
    (∀ r : Bool, s.awake = true → s.dev.ready.getLsbD 0 = true → s.dev.ready.getLsbD 2 = false → b.counting = false →
      Completes (.timebaseCounting r) s (fun t => Raised 0 t ∧ OnlyEvents { s with
        tb := { b with counting := true, time := 0, refLock := r, epochAt := 0 },
        dev := { s.dev with ready := s.dev.ready ||| 4 } } t)) ∧
    (∀ r : Bool, s.awake = true → s.dev.ready.getLsbD 0 = true → s.dev.ready.getLsbD 1 = true → s.dev.ready.getLsbD 2 = false →
      b.counting = true → Completes (.timebaseCounting r) s (fun t => Raised 0 t ∧ t.tb = b ∧ t.dev.ready = s.dev.ready ||| 4))

/-- Time passes: with no command waiting a step moves device time by what one BCLK cycle gives at the rate in force, 32/3 units at rate 0,
the fraction carried over; that a step stands for such a cycle then is the model's choice (notes/assumptions/2.md). No command of the
timebase waits for a frame's latch: they wait for the epoch (CommandsWait). -/
def Obligations.TimePasses : Prop :=
  ∀ s : State, s.pending = [] → s.tb.counting = true → s.pwr.supplied = true → s.pwr.sysRst = false → s.pwr.tripped = false →
    s.tb.slew = 0 → -1600000 ≤ s.tb.rate → (∀ w ∈ s.waiting, ∀ q, w.at_ = .latch q → w.opcode / 256 ≠ 9) →
    ∃ t, step s = .next t ∧ t.pending = [] ∧
      (t.tb.time * 48000000000 + t.acc : Int) = s.tb.time * 48000000000 + s.acc + 32 * (16000000000 + s.tb.rate) ∧ t.acc < 48000000000

/-- The management pins and registers: an edge moves the pin's level and sets its interrupt bit where the mode selects it and the pin
does not stand in a switch window; source 9 is raised where a routed bit goes from 0 to 1; block reads return the registers, block
writes set what is writable, clear interrupt bits by ones, and begin a switch window at each pin whose owner they change (R396 to R399). -/
def Obligations.ManagementPins : Prop :=
  ∀ (s : State),
    let r := s.pins
    let routed : State → BitVec 32 := fun t => t.pins.irqStat &&& t.pins.irqHost
    let host : State → Prop := fun t => (∃ k : Fin 32, (routed t).getLsbD k = true ∧ (routed s).getLsbD k = false) → Raised 9 t
    let window : Nat → Nat := fun k => (Table.get r.switching k).getD 0
    (∀ (k : Fin 32) (v : Bool), s.awake = true → r.level.getLsbD k ≠ v →
      Completes (.pinEdge k v) s (fun t => OnlyEvents { s with pins := t.pins } t ∧ host t ∧
        t.pins = { r with level := t.pins.level, irqStat := t.pins.irqStat } ∧
        (∀ j : Fin 32, t.pins.level.getLsbD j = if j = k then v else r.level.getLsbD j) ∧
        (∀ j : Fin 32, t.pins.irqStat.getLsbD j = (r.irqStat.getLsbD j ||
          (j == k && !(s.tb.counting && decide (s.tb.time < window k)) &&
            (if k.val < 16 then r.irqMode0 else r.irqMode1).getLsbD (2 * (k.val % 16) + (if v then 0 else 1))))))) ∧
    (∀ o : Byte, s.awake = true →
      Completes (.smbBlockRead o) s (fun t => t = { s with pins := { r with lastRead := t.pins.lastRead } } ∧
        (o = 0x00 → t.pins.lastRead = 0x20480101) ∧ (o = 0x04 → t.pins.lastRead.setWidth 16 = BitVec.ofInt 16 s.pwr.tj) ∧
        (o = 0x10 → t.pins.lastRead = r.func) ∧ (o = 0x18 → t.pins.lastRead = r.gpioEn) ∧ (o = 0x24 → t.pins.lastRead = r.level) ∧
        (o = 0x28 → t.pins.lastRead = r.irqMode0) ∧ (o = 0x30 → t.pins.lastRead = r.irqStat) ∧ (o = 0x08 → t.pins.lastRead = 0))) ∧
    (∀ (o : Byte) (v : BitVec 32), s.awake = true →
      Completes (.smbBlockWrite o v) s (fun t => OnlyEvents { s with pins := t.pins } t ∧ host t ∧ t.pins.level = r.level ∧
        (o = 0x10 → t.pins.func = (r.func &&& 0x70) ||| (v &&& 0x0F)) ∧ (o ≠ 0x10 → t.pins.func = r.func) ∧
        (o = 0x18 → t.pins.gpioEn = v) ∧ (o = 0x1C → t.pins.gpioOut = v) ∧ (o = 0x20 → t.pins.gpioOe = v) ∧
        (o = 0x28 → t.pins.irqMode0 = v) ∧ (o = 0x2C → t.pins.irqMode1 = v) ∧ (o = 0x34 → t.pins.irqBmc = v) ∧
        (o = 0x38 → t.pins.irqHost = v) ∧ t.pins.irqStat = (if o = 0x30 then r.irqStat &&& ~~~v else r.irqStat) ∧
        (∀ k : Fin 32, Table.get t.pins.switching k =
          if t.pins.owner k = r.owner k then Table.get r.switching k else some (s.tb.time + 960))))

/-- Writes of BAR 0 registers: W1C of `EVC_PEND`, `EVC_EN` word by word with delivery of what it enables, HOLD and VECTOR, W1C of
PPSIN_OVR and of a channel's status, the boot registers; a write of any other register, or one not aligned, has no effect. Where the
offset names the MSI-X table or configuration space (the model's choice, notes/assumptions/58.md), a double word of an entry, the function
mask and the request sizes are set, and pending messages that are masked no longer are sent (R209, R327 to R329, R333, R334, R337, R352). -/
def Obligations.DeviceRegisters : Prop :=
  ∀ (s : State) (v : BitVec 32), s.awake = true → s.pwr.perst = false →
    let e := s.evc
    let messages : Evc → Prop := fun f => f.pend = e.pend ∧ f.en = e.en ∧ f.hold = e.hold ∧ f.holdUntil = e.holdUntil ∧ f.vec = e.vec ∧
      (∀ k : Fin 2048, f.pba.getLsbD k = (e.pba.getLsbD k && f.masks (BitVec.ofNat 11 k))) ∧
      f.sent = (((List.range 2048).filter (fun k => e.pba.getLsbD k && !f.masks (BitVec.ofNat 11 k))).map (BitVec.ofNat 11)).reverse ++ e.sent
    (∀ (n : Fin 2048) (i : Fin 4), Completes (.deviceRegisterWrite (0x100000 + 16 * n + 4 * i) v) s (fun t => t = { s with evc := t.evc } ∧
      messages t.evc ∧ t.evc.msixOn = e.msixOn ∧ t.evc.msixHeld = e.msixHeld ∧ (∀ m, m ≠ n.val → t.evc.entry m = e.entry m) ∧
      (∀ k : Fin 128, (t.evc.entry n).getLsbD k = if k.val / 32 = i then v.getLsbD (k.val % 32) else (e.entry n).getLsbD k))) ∧
    Completes (.deviceRegisterWrite 0x200000 v) s (fun t => t = { s with evc := t.evc } ∧ messages t.evc ∧ t.evc.table = e.table ∧
      t.evc.msixOn = v.getLsbD 31 ∧ t.evc.msixHeld = v.getLsbD 30) ∧
    Completes (.deviceRegisterWrite 0x200004 v) s (fun t => t = { s with pcie := { s.pcie with
      maxPayload := match bits v 7 5 with | 0 => 128 | 1 => 256 | 2 => 512 | _ => s.pcie.maxPayload
      maxRead := match bits v 14 12 with | 0 => 128 | 1 => 256 | 2 => 512 | 3 => 1024 | 4 => 2048 | 5 => 4096 | _ => s.pcie.maxRead } }) ∧
    (∀ i : Fin 8, Completes (.deviceRegisterWrite (0x1000 + 4 * i) v) s (fun t =>
      t = { s with evc := { e with pend := e.pend &&& ~~~(v.setWidth 256 <<< (32 * i.val)) } })) ∧
    (∀ i : Fin 8, Completes (.deviceRegisterWrite (0x1020 + 4 * i) v) s (fun t => t = { s with evc := t.evc } ∧
      (∀ k : Fin 256, t.evc.en.getLsbD k = if k.val / 32 = i then v.getLsbD (k.val % 32) else e.en.getLsbD k) ∧
      (∀ g : Fin 16, e.holdUntil[g] ≤ s.tb.time → t.evc.ready g = false))) ∧
    (∀ g : Fin 16, Completes (.deviceRegisterWrite (0x1040 + 4 * g) v) s (fun t =>
      t = { s with evc := { e with hold := e.hold.set g (v.setWidth 10) } })) ∧
    (∀ n : Fin 256, Completes (.deviceRegisterWrite (0x1400 + 4 * n) v) s (fun t => t = { s with evc := { e with vec := t.evc.vec } } ∧
      t.evc.vector n = v.setWidth 11 ∧ (∀ k : Fin 256, k ≠ n → t.evc.vector k = e.vector k))) ∧
    Completes (.deviceRegisterWrite 0x108 v) s (fun t =>
      t = { s with tb := { s.tb with ppsOvr := s.tb.ppsOvr && !v.getLsbD 1 } }) ∧
    (∀ n : Fin 64, Completes (.deviceRegisterWrite (0x2000 + 16 * n) v) s (fun t =>
      t = { s with sluice := s.sluice.set n { s.sluice[n] with
        half := (s.sluice[n]).half && !v.getLsbD 30, full := (s.sluice[n]).full && !v.getLsbD 29,
        err := (s.sluice[n]).err && !v.getLsbD 28, aborted := (s.sluice[n]).aborted && !v.getLsbD 27 } })) ∧
    (∀ i : Fin 12, Completes (.deviceRegisterWrite (0x3000 + 4 * i) v) s (fun t =>
      t = { s with boot := { s.boot with cmd := s.boot.cmd.set i v } })) ∧
    (∀ i : Fin 12, Completes (.deviceRegisterWrite (0x3040 + 4 * i) v) s (fun t =>
      t = { s with boot := { s.boot with cpl := s.boot.cpl.set i v } })) ∧
    (∀ o ∈ [0x0, 0x4, 0x8, 0x14, 0x100, 0x10C, 0x114, 0x1001, 0x1082, 0x2004, 0x2008, 0x2800, 0x3071, 0x40000],
      Completes (.deviceRegisterWrite o v) s (fun t => t = s))

/-- Bring-up and resets: release of `SYS_RST#` starts the device; the boot ROM runs the primary image it accepts, else the fallback, else
the device goes FATAL, and the CONFIG block or its defaults are in force; the ready bits set step by step, each raising source 0, with
DRAM zeroed as it trains and microcode and the heap region fixed last; a Function Level Reset and `PERST#` stop all work and take rings,
event controller and sluice back to reset, DRAM and firmware standing; `SYS_RST#` and the loss of the supplies put everything back
(R327, R331, R337, R374, R376, R377, R379, R380, R401). -/
def Obligations.BringUpAndResets : Prop :=
  ∀ (s : State),
    let kept : State :=
      { State.reset with host := s.host, flash := s.flash, free := s.free, pending := s.pending, made := s.made }
    let functional : State → Prop := fun t => (∀ n, t.ring n = none) ∧ t.txns = [] ∧ t.sluice = Vector.replicate 64 Sluice.reset ∧
      t.boot = Boot.reset ∧ t.pcie = Pcie.reset ∧ t.held = [] ∧ t.waitCalls = [] ∧
      (∀ q x, s.site q = some x → SiteThat t q (fun y => y.mode = .idle ∧ y.stream = none ∧ (x.mode ≠ .idle → y.boiler = none))) ∧
      t.dram = s.dram ∧ t.flash = s.flash ∧ t.dev.status = s.dev.status ∧ t.pins = s.pins ∧ t.tb = s.tb
    let config : List Byte → Power := fun b => { s.pwr with
      subsys := BitVec.ofNat 32 (leNat (slice b 4 4)), heapPct := clampNat 0 75 (b.getD 8 0).toNat, slew := clampNat 10 200 (b.getD 9 0).toNat,
      iccMax := clampNat 100 220 (b.getD 10 0).toNat, twarn := clampNat 85 100 (b.getD 11 0).toNat }
    let good : Bool := slice s.flash.config 0 4 == [0x4B, 0x43, 0x46, 0x47] &&
      crc32 (slice s.flash.config 0 60) == BitVec.ofNat 32 (leNat (slice s.flash.config 60 4))
    let running : Nat → List Byte → State := fun bank img => { s with
      dev := { s.dev with ready := s.dev.ready ||| 1, fwBuild := Config.fwBuild img, status := setBit s.dev.status 3 (bank == 1) },
      flash := { s.flash with running := bank }, pins := { s.pins with func := (s.pins.func ||| 0x10) &&& 0xFFFFFFBF },
      pwr := if good then config s.flash.config else { s.pwr with subsys := 0, heapPct := 50, slew := 40, iccMax := 220, twarn := 100 } }
    let image := if s.flash.running = 0 then s.flash.bank0 else s.flash.bank1
    let ready : BitVec 32 → State → State → Prop := fun m u t =>
      OnlyEvents { u with dev := { u.dev with ready := u.dev.ready ||| m } } t ∧ (u.dev.ready &&& m ≠ m → Raised 0 t)
    (s.pwr.sysRst = true → s.pwr.tripped = false →
      Completes .sysRstRelease s (fun t => t = { s with pwr := { s.pwr with supplied := true, sysRst := false } })) ∧
    Completes .sysRstAssert s (fun t => t = { kept with
      dram := if s.pwr.supplied then s.dram else [],
      pwr := { State.reset.pwr with supplied := s.pwr.supplied, tripped := s.pwr.tripped, tj := s.pwr.tj } }) ∧
    Completes .powerRemoval s (fun t => t = { kept with pwr := { State.reset.pwr with supplied := false, tj := s.pwr.tj } }) ∧
    (s.awake = true → s.pwr.perst = false → s.dev.ready.getLsbD 0 = true →
      Completes .functionLevelReset s (fun t => functional t ∧ t.dev.ready = 1 ∧ t.evc = { Evc.reset with pend := 1 } ∧
        t.pwr = s.pwr)) ∧
    (s.awake = true → s.pwr.perst = false →
      Completes .perstAssert s (fun t => functional t ∧ t.dev.ready = 0 ∧ t.evc = Evc.reset ∧ t.pwr = { s.pwr with perst := true })) ∧
    (s.awake = true → s.pwr.perst = true →
      Completes .perstRelease s (fun t => ready (if s.pins.func.getLsbD 4 then 1 else 0) { s with pwr := { s.pwr with perst := false } } t)) ∧
    (s.booting = true → s.pins.func.getLsbD 4 = false → fwAccepted s.flash.bank0 = true →
      Completes .firmwareAccept s (fun t => OnlyEvents (running 0 s.flash.bank0) t)) ∧
    (s.booting = true → s.pins.func.getLsbD 4 = false → fwAccepted s.flash.bank0 = false → fwAccepted s.flash.bank1 = true →
      Completes .firmwareAccept s (fun t => OnlyEvents (running 1 s.flash.bank1) t)) ∧
    (s.booting = true → s.pins.func.getLsbD 4 = false → fwAccepted s.flash.bank0 = false → fwAccepted s.flash.bank1 = false →
      Completes .firmwareAccept s (fun t => Raised 1 t ∧
        OnlyEvents { s with dev := { s.dev with status := s.dev.status ||| 0x80000000 } } t)) ∧
    (s.booting = true → s.dev.ready.getLsbD 0 = true → Completes .commandInterpreterReady s (fun t => ready 0x78002 s t)) ∧
    (∀ n : Fin 4, s.booting = true → s.dev.ready.getLsbD 0 = true → s.dev.ready.getLsbD (3 + n) = false → s.pwr.trainFails[n] < 3 →
      s.pwr.trained.getLsbD n = false → Completes (.dramTrained n true) s (fun t =>
        ready (8 <<< n.val) { s with dram := [], pwr := { s.pwr with trained := s.pwr.trained ||| (1 <<< n.val) } } t)) ∧
    (∀ (n : Fin 4) (ok : Bool), s.booting = true → s.dev.ready.getLsbD 0 = true → s.dev.ready.getLsbD 2 = true →
      s.dev.ready.getLsbD (3 + n) = false → s.pwr.trainFails[n] < 3 → s.pwr.trained.getLsbD n = true →
      Completes (.dramTrained n ok) s (fun t => ready (8 <<< n.val) s t)) ∧
    (∀ n : Fin 4, s.booting = true → s.dev.ready.getLsbD 0 = true → s.dev.ready.getLsbD (3 + n) = false → s.pwr.trainFails[n] < 3 →
      s.pwr.trained.getLsbD n = false → Completes (.dramTrained n false) s (fun t => t.dev.ready = s.dev.ready ∧
        t.pwr.trainFails[n] = s.pwr.trainFails[n] + 1 ∧ (s.pwr.trainFails[n] = 2 → t.fatal = true ∧ Raised 1 t) ∧
        (s.pwr.trainFails[n] < 2 → t.dev = s.dev ∧ t.evc = s.evc))) ∧
    (s.booting = true → s.dev.ready &&& 0x78 = 0x78 → s.dev.status.getLsbD 7 = false →
      Completes .ucodeLoaded s (fun t => ready 0x87F80 { s with stores := Stores.load image, dev := { s.dev with
        ucode := 0x02#8 ++ Config.fwUcodeBuild image,
        heapBytes := 17179869184 * s.pwr.heapPct / 100 / 1073741824 * 1073741824, status := s.dev.status ||| 0x80 } } t)) ∧
    (s.booting = true → s.dev.ready &&& 0x78 = 0x78 → s.dev.status.getLsbD 7 = true →
      Completes .ucodeLoaded s (fun t => ready 0x87F80 s t))

/-- Low power and limits: D3hot stops all work and keeps every ring; the core voltage moves within 0.65 to 0.85 V in steps of 5 mV at
least a millisecond apart, and a setting outside that, or too soon, moves nothing; a rail alert and a junction temperature of 105 °C throttle, each
start an episode, until the alert ends and 103 °C is passed; TWARN sets and clears THERM_WARN; 125 °C stops the device (R330, R332, R382,
R383, R385, R387). -/
def Obligations.LowPowerAndLimits : Prop :=
  ∀ (s : State),
    let w := s.pwr
    let st := s.dev.status
    let pd : (Power → Power) → BitVec 32 → State := fun f m => { s with pwr := f w, dev := { s.dev with status := m } }
    let off : BitVec 32 → BitVec 32 := fun m => st &&& ~~~m
    (s.awake = true → w.perst = false → w.d3hot = false → s.dev.ready.getLsbD 0 = true →
      Completes .d3hotEntry s (fun t => t.pwr = { w with d3hot := true } ∧ t.txns = [] ∧
        (∀ q x, s.site q = some x → SiteThat t q (fun y => y.mode = .idle ∧ y.stream = none)) ∧
        (∀ n : Fin 64, (t.sluice[n]).busy = false) ∧ (∀ e ∈ s.rings, (t.ring e.1).isSome = true) ∧ t.dram = s.dram ∧ t.tb = s.tb ∧
        t.dev = s.dev)) ∧
    Completes .d0Return s (fun t => t = { s with pwr := { w with d3hot := false } }) ∧
    (∀ v : Nat, s.booting = true → s.dev.ready.getLsbD 0 = true →
      6500 ≤ v → v ≤ 8500 → v ≤ w.vddCore + 50 → w.vddCore ≤ v + 50 → (∀ a ∈ w.vddAt, a + 16000000 ≤ (s.tb.time : Int)) →
      Completes (.avsVoutCommand v) s (fun t => t = { s with pwr := { w with vddCore := v, vddAt := some (s.tb.time : Int) } })) ∧
    (∀ v : Nat, (v < 6500 ∨ 8500 < v ∨ w.vddCore + 50 < v ∨ v + 50 < w.vddCore ∨ ∃ a ∈ w.vddAt, (s.tb.time : Int) < a + 16000000) →
      Completes (.avsVoutCommand v) s (fun t => t = s)) ∧
    (s.awake = true → w.railAlert = false → st.getLsbD 0 = false →
      Completes .railAlertAssert s (fun t => Raised 2 t ∧
        OnlyEvents (pd (fun p => { p with railAlert := true, episodes := (p.episodes + 1) % 2 ^ 32 }) (st ||| 3)) t)) ∧
    (s.awake = true → w.railAlert = false → st.getLsbD 0 = true →
      Completes .railAlertAssert s (fun t => Raised 2 t ∧ OnlyEvents (pd (fun p => { p with railAlert := true }) (st ||| 2)) t)) ∧
    (s.awake = true → w.railAlert = true → w.thermal = 0 →
      Completes .railAlertRelease s (fun t => Raised 2 t ∧ OnlyEvents (pd (fun p => { p with railAlert := false }) (off 3)) t)) ∧
    (s.awake = true → w.railAlert = true → 0 < w.thermal → st.getLsbD 0 = true →
      Completes .railAlertRelease s (fun t => Raised 2 t ∧ OnlyEvents (pd (fun p => { p with railAlert := false }) (off 2)) t)) ∧
    (∀ j : Int, s.awake = true → (100 * w.twarn : Nat) ≤ j → st.getLsbD 2 = false →
      Completes (.thermalWarning j) s (fun t => Raised 2 t ∧ OnlyEvents (pd (fun p => { p with tj := j }) (st ||| 4)) t)) ∧
    (∀ j : Int, s.awake = true → j < (100 * w.twarn : Nat) → st.getLsbD 2 = true →
      Completes (.thermWarnClear j) s (fun t => Raised 2 t ∧ OnlyEvents (pd (fun p => { p with tj := j }) (off 4)) t)) ∧
    (∀ j : Int, s.awake = true → (10500 ≤ j ∨ 10300 ≤ j ∧ 0 < w.thermal) → st.getLsbD 0 = false →
      Completes (.thermalThrottle j) s (fun t => Raised 2 t ∧ OnlyEvents (pd (fun p => { p with
        tj := j, thermal := min 7 (p.thermal + 1), episodes := (p.episodes + 1) % 2 ^ 32 }) (st ||| 1)) t)) ∧
    (∀ j : Int, s.awake = true → (10500 ≤ j ∨ 10300 ≤ j ∧ 0 < w.thermal) → st.getLsbD 0 = true →
      Completes (.thermalThrottle j) s (fun t => t = { s with pwr := { w with tj := j, thermal := min 7 (w.thermal + 1) } })) ∧
    (∀ j : Int, s.awake = true → j < 10300 → 0 < w.thermal → w.railAlert = false → st.getLsbD 0 = true →
      Completes (.thermalThrottleEnd j) s (fun t => Raised 2 t ∧ OnlyEvents (pd (fun p => { p with tj := j, thermal := 0 }) (off 1)) t)) ∧
    (∀ j : Int, s.awake = true → j < 10300 → 0 < w.thermal → w.railAlert = true → st.getLsbD 0 = true →
      Completes (.thermalThrottleEnd j) s (fun t => t = { s with pwr := { w with tj := j, thermal := 0 } })) ∧
    (∀ j : Int, s.awake = true → 12500 ≤ j → s.fatal = false →
      Completes (.thermtrip j) s (fun t => Raised 1 t ∧
        OnlyEvents (pd (fun p => { p with tj := j, tripped := true }) (st ||| 0x80000000)) t)) ∧
    (∀ j : Int, s.awake = true → 12500 ≤ j → s.fatal = true →
      Completes (.thermtrip j) s (fun t => t = { s with pwr := { w with tj := j, tripped := true } }))

/-- Doorbells, boot rings and the event controller: a doorbell moves a ring's host index where the other index allows it and returns the
payloads below it, and otherwise changes nothing but the bittern ring; GO creates rings 0 and 1 once, or sets ERR; a raise sets PEND,
whatever EN, and with the hold-off over every pending enabled source of the group is delivered, lowest first, and the hold-off loaded: its
vector's message is sent, or pending where the vector is masked; sources 11 to 15 are never raised (R332 to R334, R336 to R338, R347). -/
def Obligations.DoorbellsAndSources : Prop :=
  ∀ (s : State),
    let e := s.evc
    let a := s.boot.cmd.toList.flatMap (fun w => leBytes 4 w.toNat)
    let b := s.boot.cpl.toList.flatMap (fun w => leBytes 4 w.toNat)
    let ok := bootContextOk 0 a && (ringOf a).owner == 1 && bootContextOk 1 b
    let room : Ring → Nat := fun r =>
      if r.kind = 0 ∨ r.kind = 5 then 2 ^ r.log2 - (r.hst - r.dev).toNat else (r.dev - r.hst).toNat
    let group : Fin 16 → List Nat := fun g => ((List.range 16).map (fun k => 16 * g.val + k)).filter (fun k => e.pend.getLsbD k && e.en.getLsbD k)
    (∀ (n : RingNo) r (z : BitVec 64) (v : BitVec 32), s.awake = true → s.pwr.perst = false → s.ring n = some r → v = z.setWidth 32 →
      (v - r.hst).toNat ≤ room r → Completes (.doorbell n z) s (fun t => t = { s with rings := Table.put s.rings n { r with
        hst := v, dataUse := r.dataUse.filter (fun u => decide ((u.1 - v).toNat < 2 ^ 31)) } })) ∧
    (∀ (n : RingNo) r (z : BitVec 64) (v : BitVec 32), s.awake = true → s.pwr.perst = false → s.ring n = some r → v = z.setWidth 32 →
      room r < (v - r.hst).toNat →
      Completes (.doorbell n z) s (fun t => OnlyEvents s t ∧ (t.ring n).any (fun q => q.hst == r.hst) = true ∧
        t.bitternWritten + t.bitternCounted = s.bitternWritten + s.bitternCounted + 1)) ∧
    (∀ (n : RingNo) (z : BitVec 64), s.awake = true → s.pwr.perst = false → s.ring n = none →
      Completes (.doorbell n z) s (fun t => OnlyEvents s t ∧
        t.bitternWritten + t.bitternCounted = s.bitternWritten + s.bitternCounted + 1)) ∧
    (s.awake = true → s.pwr.perst = false → s.dev.ready.getLsbD 1 = true → s.boot.up = false →
      Completes .bootGo s (fun t => t = { s with
        rings := if ok then Table.put (Table.put s.rings 0 (ringOf a)) 1 (ringOf b) else s.rings,
        boot := { s.boot with up := ok, err := !ok } })) ∧
    ((s.dev.ready.getLsbD 1 = false ∨ s.boot.up = true) → Completes .bootGo s (fun t => t = s)) ∧
    (∀ i : Byte, s.awake = true → s.pwr.perst = false → (i.toNat < 11 ∨ 15 < i.toNat) →
      Completes (.evcRaise i) s (fun t => t = { s with evc := t.evc } ∧
        (e.en.getLsbD i.toNat = false → t.evc.pend.getLsbD i.toNat = true) ∧
        (e.en.getLsbD i.toNat = true → s.tb.time < e.holdUntil[i.toNat / 16] → t.evc = { e with pend := e.pend ||| (1#256 <<< i.toNat) }) ∧
        (e.en.getLsbD i.toNat = true → e.holdUntil[i.toNat / 16] ≤ s.tb.time → t.evc.pend.getLsbD i.toNat = false ∧
          (if e.masks (e.vector i.toNat) then t.evc.pba.getLsbD (e.vector i.toNat).toNat = true else e.vector i.toNat ∈ t.evc.sent) ∧
          t.evc.holdUntil[i.toNat / 16] = s.tb.time + (e.hold[i.toNat / 16]).toNat * 16000))) ∧
    (∀ i : Byte, 11 ≤ i.toNat → i.toNat ≤ 15 → Completes (.evcRaise i) s (fun t => t = s)) ∧
    (∀ g : Fin 16, s.awake = true → s.tb.counting = true → group g ≠ [] →
      Completes (.evcGroupDelivery g) s (fun t => t = { s with tb := s.tb.moveTo e.holdUntil[g], evc := t.evc } ∧
        t.evc.sent = (((group g).map e.vector).filter (fun v => !e.masks v)).reverse ++ e.sent ∧
        (∀ v : BitVec 11, t.evc.pba.getLsbD v.toNat = (e.pba.getLsbD v.toNat || (e.masks v && ((group g).map e.vector).contains v))) ∧
        t.evc.holdUntil = e.holdUntil.set g (t.tb.time + (e.hold[g]).toNat * 16000) ∧
        (∀ k : Fin 256, t.evc.pend.getLsbD k = (e.pend.getLsbD k && !(k.val / 16 == g.val && e.en.getLsbD k)))))

/-- Rings that waited: the oldest unsignalled entry of a ring raises its source, unless that is never raised, at TIME µs, and every entry
counts as signalled; an EVT
ring with room takes the `EVT_LOST` record with the count, which restarts; the oldest held completion is written once its ring has
room: entry, then index, with the STAMP of its writing (R332, R338 to R341, R344, R357). -/
def Obligations.RingsCatchUp : Prop :=
  ∀ (s : State) (n : RingNo) r, s.ring n = some r → s.awake = true →
    let entry : Nat → Nat := fun size => r.base + (r.dev.toNat % 2 ^ r.log2) * size
    let written : Nat → List Byte → Memory := fun size b =>
      (s.host.writeBytes (entry size) b).writeBytes r.idxAddr (leBytes 4 (r.dev + 1).toNat)
    let lost := (Table.get s.evtLost n).getD 0 + (Table.get s.evtLost 65536).getD 0
    (r.int.getLsbD 15 = true → r.kind ≠ 0 → 0 < r.unsig → s.tb.counting = true →
      Completes (.moderationTimeout n) s (fun t => ((r.int.toNat % 256 < 11 ∨ 15 < r.int.toNat % 256) → Raised (r.int.toNat % 256) t) ∧
        t = { s with tb := s.tb.moveTo (r.oldest + r.time * 16000),
                     rings := Table.put s.rings n { r with unsig := 0 }, evc := t.evc })) ∧
    (r.kind = 6 → (r.dev - r.hst).toNat < 2 ^ r.log2 → 0 < lost →
      Completes (.evtLostWrite n) s (fun t => OnlyEvents s t ∧ Table.get t.evtLost n = none ∧ Table.get t.evtLost 65536 = none ∧
        t.host = written 64 ([0x0F, 0, 0xFF, 0xFF, 0, 0, 0, 0] ++ leBytes 8 s.tb.time ++ leBytes 4 lost ++ List.replicate 44 0) ∧
        (t.ring n).any (fun q => q.dev == r.dev + 1) = true)) ∧
    (∀ h, s.held.find? (fun k => k.cpl == n) = some h → r.kind = 1 → (r.dev - r.hst).toNat < 2 ^ r.log2 → h.result.length ≤ 16 →
      Completes (.cplHeldWrite n) s (fun t => OnlyEvents s t ∧ t.held = s.held.erase h ∧ (t.ring n).any (fun q => q.dev == r.dev + 1) = true ∧
        t.host = written 32 (leBytes 2 h.tag.toNat ++ leBytes 2 h.opcode ++ leBytes 2 h.status ++ leBytes 2 h.ring ++ h.result ++
          List.replicate (16 - h.result.length) 0 ++ leBytes 8 s.tb.time)))

/-- The sluice: a read of `SLC_DONE_LO` latches the high word; a descriptor with HCPL sets HALF and raises source 16 + n once it is
written, the LAST one sets FULL, clears BUSY and raises the source, both counting descriptors and bytes; a bad descriptor stops the
chain with ERR, the bytes before it standing, and a failed request within DRAM raises source 8 too; a chain runs while none of the
channels 0 to 7 below its own is busy (R332, R348 to R353). -/
def Obligations.ChainsRun : Prop :=
  ∀ (s : State) (n : Fin 64),
    let k := s.sluice[n]
    let d := s.descAt (k.next.getD 0)
    let moved : State := s.spaceWrite d.to_ d.dst (s.descBytes d d.len)
    let counted : Sluice := { k with
      descs := k.descs + 1, done := (k.done + d.len) % 2 ^ 64, next := if d.last then none else some d.next }
    let runs : Bool := s.awake && !s.pwr.d3hot && !s.fatal && !s.pwr.railAlert && k.busy && k.next.isSome &&
      (List.finRange 64).all (fun m => decide (8 ≤ m.val) || decide (n ≤ m) || !(s.sluice[m]).busy)
    (s.awake = true → s.pwr.perst = false →
      Completes (.slcDoneRead n) s (fun t => t = { s with
        sluice := s.sluice.set n { k with doneLatch := BitVec.ofNat 32 (k.done / 2 ^ 32) }, barRead := BitVec.ofNat 32 k.done })) ∧
    (runs = true → d.bad (k.next.getD 0) = false → d.half = true →
      Completes (.sluiceHalf n) s (fun t => Raised (16 + n.val) t ∧ t.sluice[n] = { counted with half := true } ∧ t.dram = moved.dram ∧
        OnlyEvents { s with sluice := t.sluice, dram := t.dram } t)) ∧
    (runs = true → d.bad (k.next.getD 0) = false → d.half = false → d.last = true →
      Completes (.sluiceChainDone n) s (fun t => Raised (16 + n.val) t ∧ t.dram = moved.dram ∧
        t.sluice[n] = { counted with full := true, busy := false } ∧ t.waiting = s.waiting.filter (fun w => w.at_ != .chain n))) ∧
    (runs = true → d.bad (k.next.getD 0) = true →
      Completes (.sluiceFault n 0) s (fun t => t.dram = s.dram ∧ t.sluice[n] = { k with err := true, busy := false } ∧
        t.waiting = s.waiting.filter (fun w => w.at_ != .chain n))) ∧
    (∀ m : Nat, runs = true → d.bad (k.next.getD 0) = false → m < d.len →
      Completes (.sluiceFault n m) s (fun t => t.dram = (s.spaceWrite d.to_ d.dst (s.descBytes d m)).dram ∧
        t.sluice[n] = { k with err := true, busy := false, done := (k.done + m) % 2 ^ 64 } ∧
        (d.from_ ≠ 0 → d.to_ = 1 → Raised 8 t)))

/-- Reception: a frame with a bad FCS, of a wrong size, of MAC control, or for another unicast address is discarded and counted; one
that is no plain UDP datagram, or that no entry's receive key matches, goes to the port's PKT_RX ring, or is discarded and counted where
there is none; an input record that passes the checks in their order is queued for its slot and its alive counter remembered; one that
fails is counted under its cause and copied to the bittern ring, and changes no pan but the count of a full queue; settings whose epoch
has come at the frame's instant are in force for it, and a port's FEC counters may have run on; links come up and go down with source 4 or
5 (R213, R222, R305, R306, R310 to R314, R325, R326). -/
def Obligations.FramesReceived : Prop :=
  ∀ (b : State) (e : Fin 2) (f : List Byte),
    let s := (b.inForce b.tb.time).countFec e
    let port := s.ports[e]
    let old := b.ports[e]
    let up := b.awake && !b.fatal && b.dev.ready.getLsbD (15 + e.val) && old.up
    let sized := decide (60 ≤ f.length ∧ f.length ≤ 9212)
    let mine := (f.headD 0).getLsbD 0 || slice f 0 6 == port.mac
    let withPort : (PortCtr → PortCtr) → State := fun g => { s with ports := s.ports.set e { port with ctr := g port.ctr } }
    let seen : PortCtr → PortCtr := fun k =>
      { k with rxFrames := (k.rxFrames + 1) % 2 ^ 32, rxBytes := (k.rxBytes + f.length + 4) % 2 ^ 64 }
    let one : Nat → Nat := fun n => (n + 1) % 2 ^ 32
    let record : Datagram → Nat → Bool := fun d n =>
      !(bits (d.payload.headD 0) 7 6 == 2 && !d.payload.isEmpty) && (s.flow n).rx
    (up = true → Completes (.rxFrame e f false) b (fun t => t = withPort (fun k => { k with fcs := one k.fcs }))) ∧
    (up = true → sized = false → Completes (.rxFrame e f true) b (fun t => t = withPort (fun k => { k with size := one k.size }))) ∧
    (up = true → sized = true → beNat (slice f 12 2) = 0x8808 →
      Completes (.rxFrame e f true) b (fun t => t = withPort (fun k => { seen k with macCtl := one k.macCtl }))) ∧
    (up = true → sized = true → beNat (slice f 12 2) ≠ 0x8808 → mine = false →
      Completes (.rxFrame e f true) b (fun t => t = withPort (fun k => { seen k with foreign := one k.foreign }))) ∧
    (up = true → sized = true → beNat (slice f 12 2) ≠ 0x8808 → mine = true → (datagramOf f).bind (s.entryOf e) = none →
      s.ring port.rxRing = none →
      Completes (.rxFrame e f true) b (fun t => t = withPort (fun k => { seen k with ringFull := one k.ringFull }))) ∧
    (∀ r o, up = true → sized = true → beNat (slice f 12 2) ≠ 0x8808 → mine = true → (datagramOf f).bind (s.entryOf e) = none →
      s.ring port.rxRing = some r → r.full = false → r.dataPlace f.length = some o →
      Completes (.rxFrame e f true) b (fun t => t.ports = (withPort (fun k => { seen k with toRing := one k.toRing })).ports ∧
        t.host = (((s.host.writeBytes (r.dataBase + o) f).writeBytes (r.entryAddr r.dev)
          (leBytes 2 f.length ++ [BitVec.ofNat 8 e.val, 0, 0, 0, 0, 0] ++ leBytes 8 o ++ leBytes 8 s.tb.time ++
            List.replicate 8 0)).writeBytes r.idxAddr (leBytes 4 (r.dev + 1).toNat)) ∧
        t.sites = s.sites ∧ t.flows = s.flows)) ∧
    (∀ d n x, up = true → sized = true → beNat (slice f 12 2) ≠ 0x8808 → mine = true → datagramOf f = some d → s.entryOf e d = some n →
      record d n = true → s.site (n / 16) = some x → rejectCause (s.flow n) (n % 16) (some x) d.payload = none → x.freeRun = true →
      (s.flow n).ctr.accepted < 2 ^ 32 - 1 →
      Completes (.rxFrame e f true) b (fun t => t.tb = s.tb ∧
        (t.flow n).last = some (BitVec.ofNat 16 (beNat (slice d.payload 2 2))) ∧
        (t.flow n).ctr.accepted = (s.flow n).ctr.accepted + 1 ∧ SiteThat t (n / 16) (fun y =>
          y.inQ.length = x.inQ.length + 1 ∧ y.pan = x.pan ∧ y.inQ.any (fun q => q.arrival == s.tb.time &&
            q.kind == .input (Fin.ofNat 16 n) (byteVec 7 ([d.payload.getD 11 0, d.payload.getD 10 0] ++ slice d.payload 12 5))) = true))) ∧
    (∀ d n c, up = true → sized = true → beNat (slice f 12 2) ≠ 0x8808 → mine = true → datagramOf f = some d → s.entryOf e d = some n →
      record d n = true → rejectCause (s.flow n) (n % 16) (s.site (n / 16)) d.payload = some c →
      Completes (.rxFrame e f true) b (fun t => (c ≠ 8 → t.sites = s.sites) ∧
        (c = 8 → SiteThat t (n / 16) (fun y => ∃ x, s.site (n / 16) = some x ∧
          y = { x with ctr := { x.ctr with rejects := x.ctr.rejects + 1 } })) ∧ (t.flow n).last = (s.flow n).last ∧
        (t.flow n).ctr.rejects.toList.getD (c - 1) 0 = one ((s.flow n).ctr.rejects.toList.getD (c - 1) 0) ∧
        t.bitternWritten + t.bitternCounted = s.bitternWritten + s.bitternCounted + 1)) ∧
    (b.awake = true → b.fatal = false → b.dev.ready.getLsbD (15 + e.val) = true → old.up = false →
      Completes (.linkUp e) b (fun t => Raised (4 + e.val) t ∧
        OnlyEvents { b with ports := b.ports.set e { old with up := true, ctr := { old.ctr with ups := one old.ctr.ups } } } t)) ∧
    (old.up = true → Completes (.linkDown e) b (fun t => Raised (4 + e.val) t ∧
      OnlyEvents { b with ports := b.ports.set e { old with up := false, ctr := { old.ctr with downs := one old.ctr.downs } } } t))

/-- Departures: the next packet of a port leaves at its departure time, or once it is ready, under the settings of an epoch that has come
by then, one copy for each entry of its pan that is valid, sends its kind and uses the port: at once where the port is idle, else queued
in order; with the link down it is counted instead; a late one counts as late at each entry; a queued copy leaves once the port falls
idle and counts as displaced, and a copy counts as sent when it leaves; a host packet leaves only where it ends before the next departure,
and its descriptor is written back ahead of the index, stamped where asked with the first symbol after its start-of-frame delimiter (R213,
R214, R228, R229, R310, R318, R323, R324, R326, R346). -/
def Obligations.PacketsLeave : Prop :=
  ∀ (s : State) (e : Fin 2),
    let port := s.ports[e]
    let one : Nat → Nat := fun n => (n + 1) % 2 ^ 32
    let wire : Nat → Nat := fun n => ((n + 24) * (if port.fast e.val then 128 else 512) + 99) / 100
    let takers : State → NetPacket → List Nat := fun z k => ((List.range 16).map (fun i => 16 * k.pan + i)).filter (fun n =>
      (z.flow n).valid && (if k.video then (z.flow n).txv else (z.flow n).txa) && (z.flow n).port == e)
    let out : Port → Nat → List Byte → Port := fun q t b => { q with
      busyUntil := t + (if q.fast e.val then (b.length + 24) * 128 + 99 else (b.length + 24) * 512 + 99) / 100, sent := (t, b) :: q.sent,
      ctr := { q.ctr with txFrames := one q.ctr.txFrames, txBytes := (q.ctr.txBytes + b.length + 4) % 2 ^ 64 } }
    let counted : Bool → Nat → FlowCtr → FlowCtr := fun v n c =>
      if v then { c with vCopies := one c.vCopies, vBytes := (c.vBytes + (n + 4)) % 2 ^ 64 }
      else { c with aCopies := one c.aCopies, aBytes := (c.aBytes + (n + 4)) % 2 ^ 64 }
    let leaves : NetPacket → Nat := fun k => max s.tb.time (max k.dep k.ready)
    let then_ : NetPacket → State := fun k => (s.reach (max k.dep k.ready)).inForce (leaves k)
    let desc : Ring → List Byte := fun r => s.host.readBytes (r.base + (r.dev.toNat % 2 ^ r.log2) * 32) 32
    let len : Ring → Nat := fun r => leNat (slice (desc r) 8 2)
    let start := max s.tb.time port.busyUntil
    let sfd := if port.fast e.val then 11 else 41
    let back : Ring → Nat → Nat → State → Prop := fun r status stamp t =>
      t.host = ((s.host.writeBytes (r.base + (r.dev.toNat % 2 ^ r.log2) * 32 + 12) (leBytes 2 status)).writeBytes
        (r.base + (r.dev.toNat % 2 ^ r.log2) * 32 + 16) (leBytes 8 stamp)).writeBytes r.idxAddr (leBytes 4 (r.dev + 1).toNat)
    let built : State → NetPacket → Nat → List Byte := fun z k n => z.copyFrame k (z.flow n)
    let copies : State → NetPacket → Bool → Nat → State → Prop := fun z k late n t =>
      let q := z.ports[e]
      let now := max z.tb.time (max k.dep k.ready)
      let go : Bool := decide (q.busyUntil ≤ now) && z.copies.all (fun c => c.port != e)
      let ctr : FlowCtr := { (z.flow n).ctr with lateDep := if late then one (z.flow n).ctr.lateDep else (z.flow n).ctr.lateDep }
      (q.up = true →
        (t.flow n).bytes = (z.flow n).bytes ∧
        (t.flow n).ctr = (if go then counted k.video (built z k n).length ctr else ctr) ∧
        (k.video = true → (t.flow n).sentV = ((z.flow n).sentV + 1) % 65536) ∧
        (k.video = false → (t.flow n).sentA = ((z.flow n).sentA + 1) % 65536) ∧
        (go = true → t.ports = z.ports.set e (out q now (built z k n)) ∧ t.copies = z.copies) ∧
        (go = false → t.ports = z.ports ∧ t.copies.length = z.copies.length + 1 ∧ t.copies.any (fun c => c.port == e && c.entry == n &&
          c.video == k.video && c.dep == k.dep && c.frame == built z k n) = true)) ∧
      (q.up = false → t.ports = z.ports ∧ t.copies = z.copies ∧
        (t.flow n).ctr = { (z.flow n).ctr with linkDown := one (z.flow n).ctr.linkDown })
    let departs : State → NetPacket → Bool → State → Prop := fun z k late t => t.tb = z.tb ∧ t.sites = z.sites ∧
      t.packets = (if k.gone ||| (1 <<< e.val) = 3 then z.packets.erase k
        else z.packets.map (fun q => if q = k then { q with gone := q.gone ||| (1 <<< e.val) } else q)) ∧
      (takers z k = [] → t.ports = z.ports ∧ t.copies = z.copies ∧ t.flows = z.flows) ∧
      (∀ n, takers z k = [n] → copies z k late n t)
    (∀ k, s.works = true → s.tb.counting = true → s.nextPacket e = some k → k.ready ≤ k.dep →
      Completes (.packetDeparture e) s (departs (then_ k) k false)) ∧
    (∀ k, s.works = true → s.tb.counting = true → s.nextPacket e = some k → k.dep < k.ready →
      Completes (.packetLateDeparture e) s (departs (then_ k) k true)) ∧
    (∀ c, s.works = true → s.tb.counting = true → s.copies.find? (fun q => q.port == e) = some c → port.up = true →
      Completes (.packetDisplaced e) s (fun t => t.tb.time = max s.tb.time port.busyUntil ∧ t.copies = s.copies.erase c ∧
        t.ports = s.ports.set e (out port (max s.tb.time port.busyUntil) c.frame) ∧ (t.flow c.entry).ctr =
          { counted c.video c.frame.length (s.flow c.entry).ctr with displaced := one (s.flow c.entry).ctr.displaced })) ∧
    (∀ n r, s.works = true → s.ring n = some r → r.kind = 5 → r.hst ≠ r.dev → txBad (desc r) = true →
      Completes (.pktTxSend n) s (fun t => t.ports = s.ports ∧ back r 0x0030 0 t ∧ (t.ring n).any (fun q => q.dev == r.dev + 1) = true)) ∧
    (∀ n r, s.works = true → s.ring n = some r → r.kind = 5 → r.hst ≠ r.dev → r.owner = e.val → txBad (desc r) = false → port.up = false →
      Completes (.pktTxSend n) s (fun t => t.ports = s.ports ∧ back r 0x0010 0 t ∧ (t.ring n).any (fun q => q.dev == r.dev + 1) = true)) ∧
    (∀ n r, s.works = true → s.tb.counting = true → s.ring n = some r → r.kind = 5 → r.hst ≠ r.dev → r.owner = e.val →
      txBad (desc r) = false → port.up = true → s.copies.all (fun c => c.port != e) = true →
      (s.nextDeparture e).all (fun t => decide (start + wire (len r) ≤ t)) = true →
      Completes (.pktTxSend n) s (fun t => t.tb.time = start ∧ back r 0 (if ((desc r).getD 10 0).getLsbD 0 then start + sfd else 0) t ∧
        t.ports = s.ports.set e (out port start (s.host.readBytes (leNat (slice (desc r) 0 8)) (len r))) ∧
        (t.ring n).any (fun q => q.dev == r.dev + 1) = true))

/-- The harvester: a frame offered is a key frame where one is due, requested, or KEY_INTERVAL frames have passed; else held where nothing
changed, a keep-alive after HOLD_REFRESH held ones, a recovery frame under its interval, or an ordinary frame; every block of a key frame
is intra, and of an ordinary frame exactly the blocks outside the change map, which holds every block of a frame a rewind has marked, are
skipped; a loss report older than slot 1 is ignored, one the second slot covers gets a recovery frame; an encoded frame moves the
reference slots with what it reconstructs, is counted by kind, and leaves as packets spaced by GAP from E + EMIT_DELAY (R228, R266, R268,
R271 to R278, R281, R283, R284). -/
def Obligations.HarvesterFrames : Prop :=
  ∀ (s : State) (p : PanNo) (x : Site),
    let noKey : StreamSt → Prop := fun g => g.keyDue = false ∧ g.slot1 ≠ none ∧ g.keyReqs = [] ∧
      (g.cfg.keyInterval = 0 ∨ g.sinceKey < g.cfg.keyInterval)
    let same : StreamSt → Picture → Prop := fun g pic => g.changedFor ≠ some pic.frame ∧
      g.lastEnc.any (fun q => q.w == pic.w && q.h == pic.h && q.pixels == pic.pixels) = true
    let noRecovery : StreamSt → Prop := fun g => g.recDue = false ∧ (g.cfg.recInterval = 0 ∨ g.sinceRec + 1 < g.cfg.recInterval)
    let left : Encoding → RefSlot := fun n => { frame := n.pic.frame, recon := n.recon, context := n.context }
    let quiet : StreamSt → Bool := fun h => h.keyReqs.isEmpty && h.losses.isEmpty
    let begun : Picture → Nat → Nat → State → Prop := fun pic kind slot t => SiteThat t p (fun y => y.pan = x.pan ∧
      y.stream.any (fun h => quiet h && h.seen == some pic.frame && h.held == 0 &&
        h.enc.any (fun n => n.pic == pic && n.kind == kind && n.refSlot == slot && n.e == x.offerEnd)) = true)
    let qIs : Nat → State → Prop := fun q t => SiteThat t p (fun y => y.stream.any (fun h => h.enc.any (fun n => n.qp == q)) = true)
    let coded : (Encoding → Bool) → State → Prop := fun c t => SiteThat t p (fun y => y.stream.any (fun h => h.enc.any c) = true)
    (∀ g pic, s.harvestable p = some x → s.waiting = [] → x.stream = some g → x.lastFrame = some pic →
      (g.keyDue = true ∨ g.slot1 = none ∨ g.keyReqs ≠ []) →
      Completes (.harvesterFrame p) s (fun t => begun pic 0 0 t ∧ t.tb = s.tb ∧
        coded (fun n => n.codes.length == pic.blockCount && n.codes.all (fun k => k == .intra) && n.head.refresh == 7) t ∧
        (g.cfg.rcMode = 0 → qIs (max 1 ((g.cfg.qp : Int) + g.cfg.qpKeyDelta)).toNat t))) ∧
    (∀ g pic, s.harvestable p = some x → s.waiting = [] → x.stream = some g → x.lastFrame = some pic → g.cfg.keyInterval ≠ 0 →
      g.cfg.keyInterval ≤ g.sinceKey → Completes (.keyIntervalExpiry p) s (fun t => begun pic 0 0 t)) ∧
    (∀ g pic, s.harvestable p = some x → s.waiting = [] → x.stream = some g → x.lastFrame = some pic → noKey g → g.losses = [] →
      same g pic → g.held + 1 < g.cfg.holdRefresh →
      Completes (.harvesterFrame p) s (fun t => SiteThat t p (fun y => y.pan = x.pan ∧ y.stream.any (fun h => quiet h &&
        h.seen == some pic.frame && h.enc.isNone && h.held == g.held + 1 && h.heldCnt == (g.heldCnt + 1) % 2 ^ 32 &&
        h.slot0 == g.slot0) = true))) ∧
    (∀ g pic, s.harvestable p = some x → s.waiting = [] → x.stream = some g → x.lastFrame = some pic → noKey g → g.losses = [] →
      same g pic → g.cfg.holdRefresh ≤ g.held + 1 → Completes (.holdRefreshExpiry p) s (fun t => begun pic 3 0 t)) ∧
    (∀ g pic, s.harvestable p = some x → s.waiting = [] → x.stream = some g → x.lastFrame = some pic → noKey g → g.losses = [] →
      g.changeMap pic ≠ [] → noRecovery g →
      Completes (.harvesterFrame p) s (fun t => begun pic 2 0 t ∧ (g.cfg.rcMode = 0 → qIs g.cfg.qp t) ∧
        coded (fun n => n.changed == g.changeMap pic && n.head.refresh == 1 && n.head.primaryRef == some 0) t ∧
        (g.slot0.isSome = true → ∀ b, b < pic.blockCount →
          coded (fun n => decide (n.codes[b]? = some .skip) == !(g.changeMap pic).contains b) t))) ∧
    (∀ (g : StreamSt) pic, g.changedFor = some pic.frame → g.changeMap pic = List.range pic.blockCount) ∧
    (∀ g pic, s.harvestable p = some x → s.waiting = [] → x.stream = some g → x.lastFrame = some pic → noKey g → g.losses = [] →
      g.changeMap pic ≠ [] → g.recDue = true → Completes (.harvesterFrame p) s (fun t => begun pic 1 2 t)) ∧
    (∀ g pic a b l, s.harvestable p = some x → s.waiting = [] → x.stream = some g → x.lastFrame = some pic → noKey g → g.losses = [l] →
      g.slot1 = some a → g.slot2 = some b → b.frame < l.2 → a.frame ≤ l.2 → Completes (.harvesterFrame p) s (fun t => begun pic 1 2 t)) ∧
    (∀ g pic a b l, s.harvestable p = some x → s.waiting = [] → x.stream = some g → x.lastFrame = some pic → noKey g → g.losses = [l] →
      g.slot1 = some a → g.slot2 = some b → l.2 < a.frame → same g pic → g.held + 1 < g.cfg.holdRefresh →
      Completes (.harvesterFrame p) s (fun t => SiteThat t p (fun y => y.stream.any (fun h => h.enc.isNone &&
        h.ignored == (g.ignored + 1) % 2 ^ 32) = true))) ∧
    (∀ r, s.works = true → s.site p = some x → x.stream = some r → r.slot1 ≠ none → r.cfg.recInterval ≠ 0 →
      r.cfg.recInterval ≤ r.sinceRec + 1 →
      Completes (.recoveryIntervalExpiry p) s (fun t => t = s.putSite p { x with stream := some { r with recDue := true } })) ∧
    (∀ g n, s.works = true → s.site p = some x → x.stream = some g → g.enc = some n → n.kind < 4 →
      Completes (.harvesterFrameDone p) s (fun t =>
        SiteThat t p (fun y => y.pan = x.pan ∧ y.stream.any (fun h => h.enc.isNone && h.lastEnc == some n.pic && h.header == some n.head && !h.keyDue &&
          h.slot0 == (if n.kind = 3 then g.slot0 else some (left n)) && h.slot1 == (if n.kind = 0 then some (left n) else g.slot1) &&
          h.slot2 == (if n.kind ≤ 1 then some (left n) else g.slot2) && h.sinceKey == (if n.kind = 0 then 0 else g.sinceKey + 1) &&
          h.emitted.toList.getD n.kind 0 == (g.emitted.toList.getD n.kind 0 + 1) % 2 ^ 32) = true) ∧
        t.packets.take s.packets.length = s.packets ∧ s.packets.length < t.packets.length ∧
        ((t.packets.drop s.packets.length).zipIdx).all (fun k => k.1.pan == p && k.1.video && k.1.index == k.2 &&
          k.1.frame == n.pic.frame && k.1.dep == n.e + g.cfg.emitDelay * 16000 + k.2 * g.cfg.gap * 16 &&
          k.1.ts == BitVec.ofNat 32 (n.e * 9 / 1600000)) = true))

/-- The audio chain: a block of 48 samples leaves the queue, passes both channels' stages, and the routes asked for are in force from it
on; the Opus sink collects it, and the I2S port plays it after its delay; a pending gain step is in force after the block of its timeout
sample; a full Opus frame becomes a packet that leaves EMIT_DELAY after its last sample; where the I2S port moves to a pan, the old pan's
block fades out under the first of the new one; a block plays at its time, and zeros where there is none, an underrun where one was due,
as is a block that arrives after its time (R228, R289, R295, R299, R300, R302, R303). -/
def Obligations.AudioDelivered : Prop :=
  ∀ (s : State) (p : PanNo) (x : Site),
    let a := x.audio
    let is := a.nextRoutes.getD a.routes
    let samples : Bool → List Int := fun right => (a.queue.take 48).map (fun e => if right then e.2.1 else e.1)
    let at_ := (a.queue.getD 47 (0, 0, 0, 0)).2.2.1 + s.dev.i2sDelay * 16000
    let out := ((a.left.block a.cfg (48 * a.block) (samples false)).2).zip (a.right.block a.cfg (48 * a.block) (samples true)).2
    (s.chainReady p = true → s.waiting = [] → s.site p = some x →
      Completes (.audioBlock p) s (fun t => t.tb = s.tb ∧ SiteThat t p (fun y => y.pan = x.pan ∧ y.mode = x.mode ∧ y.stream = x.stream ∧
        y.audio.queue = a.queue.drop 48 ∧ y.audio.block = a.block + 1 ∧ y.audio.lastBlock = a.block ∧ y.audio.nextRoutes = none ∧
        (s.i2s.leaving.all (fun e => e.1 != p) = true → y.audio.routes = is) ∧ y.audio.cfg = a.cfg ∧ y.audio.left = (a.left.block a.cfg (48 * a.block) (samples false)).1 ∧
        y.audio.right = (a.right.block a.cfg (48 * a.block) (samples true)).1 ∧
        ((a.routes.opus || is.opus) = true → y.audio.opusFill = a.opusFill + 48 ∧
          y.audio.opusEnd = (a.queue.getD 47 (0, 0, 0, 0)).2.2.1) ∧
        ((a.routes.opus || is.opus) = false → y.audio.opusFill = a.opusFill)) ∧
        ((a.routes.i2s || is.i2s) = false → t.i2s = s.i2s) ∧
        (a.routes.i2s = true → is.i2s = true → a.rejoin ≠ some a.block → s.i2s.leaving = none → s.tb.time ≤ at_ →
          t.i2s = { s.i2s with blocks := s.i2s.blocks.filter (fun c => decide (c.2.1 ≤ at_)) ++ (p, at_, out) ::
            s.i2s.blocks.filter (fun c => decide (at_ < c.2.1)) }) ∧
        (a.routes.i2s = true → is.i2s = true → s.i2s.leaving = none → at_ < s.tb.time → a.i2sMissed = 0 →
          t.i2s = { s.i2s with underruns := s.i2s.underruns + 1 }) ∧
        (∀ q ys e, a.routes.i2s = false → is.i2s = true → s.i2s.pan = some p → s.i2s.leaving = some (q, none) → q ≠ p →
          s.i2s.blocks = [(q, e, ys)] → at_ < e + 16000000 → s.tb.time ≤ at_ →
          t.i2s = { s.i2s with leaving := none, blocks := [(p, at_, sumBlocks (fadeBlock (fun j => (j : Int) + 1) out)
            (fadeBlock (fun j => 47 - (j : Int)) ys))] }))) ∧
    (∀ right : Bool, s.chainReady p = true → s.waiting = [] → s.site p = some x → a.timesOut right = true →
      Completes (.gainTimeout p right) s (fun t => SiteThat t p (fun y => y.audio.block = a.block + 1 ∧
        (if right then y.audio.right.step else y.audio.left.step) = none ∧
        (if right then a.right.step else a.left.step).map (fun e => e.1) =
          some (if right then y.audio.right.gain else y.audio.left.gain)))) ∧
    (∀ g, s.awake = true → s.pwr.d3hot = false → s.fatal = false → s.site p = some x → a.opusOn = true → a.stream = some g →
      (if g.opus10 then 480 else 960) ≤ a.opusFill → a.opusEnding = false →
      Completes (.opusFrameEncode p) s (fun t => t.packets.take s.packets.length = s.packets ∧
        t.packets.length = s.packets.length + 1 ∧ SiteThat t p (fun y => y = { x with audio := { a with opusFill := 0 } }) ∧
        t.packets.getLast?.any (fun k => k.pan == p && !k.video && k.ts == BitVec.ofNat 32 a.opusStart && k.ready == s.tb.time &&
          k.dep == a.opusEnd + ((x.stream.map (fun h => h.cfg.emitDelay)).getD g.emitDelay) * 16000) = true)) ∧
    (∀ b l, s.tb.counting = true → s.i2s.blocks = b :: l →
      Completes .i2sBlockPlay s (fun t => t.tb.time = max s.tb.time b.2.1 ∧
        t.i2s = { s.i2s with blocks := l, played := b.2.2, playAt := b.2.1 } ∧
        (∀ y, s.site b.1 = some y → SiteThat t b.1 (fun z => z = { y with audio := { y.audio with i2sDue := true } })))) ∧
    (s.tb.counting = true → s.i2s.blocks = [] → s.i2sDuePans = [] →
      Completes .i2sBlockPlay s (fun t => t.tb.time = max s.tb.time (s.i2s.playAt + 16000000) ∧ t.sites = s.sites ∧
        t.i2s = { s.i2s with played := List.replicate 48 (0, 0), playAt := max s.tb.time (s.i2s.playAt + 16000000) })) ∧
    (∀ q y, s.tb.counting = true → s.i2s.blocks = [] → s.i2sDuePans = [q] → s.site q = some y →
      Completes .i2sBlockPlay s (fun t => t.tb.time = max s.tb.time (s.i2s.playAt + 16000000) ∧
        t.i2s = { s.i2s with
          played := List.replicate 48 (0, 0), playAt := max s.tb.time (s.i2s.playAt + 16000000), underruns := s.i2s.underruns + 1 } ∧
        SiteThat t q (fun z => z = { y with audio := { y.audio with i2sMissed := y.audio.i2sMissed + 1 } })))

/-- The heads: a rise of HPD trains a head to what its settings and sink allow, a fall stops it, both with source 6 or 7; at a vertical
blank the frame that was sent counts and gives its CRC, and each tile takes its pan's newest whole frame, or the whole frame before it
where that one's CRC is wrong, which is counted; the frame in progress of a pan that has composed it counts as whole, but not in real time,
where it may still turn out late; in `MOSAIC` a dot shows its tile's picture scaled by SCALE (R260 to R262, R264, R265). -/
def Obligations.HeadsShow : Prop :=
  ∀ (s : State) (h : Fin 2),
    let k := s.heads[h]
    let ready := s.awake && s.dev.ready.getLsbD (17 + h.val)
    (∀ (n : Nat) (r : Fin 4), ready = true → k.hpd = false → k.cfg.enable = true → 1 ≤ min k.cfg.maxLanes n →
      Completes (.hpdRise h n r) s (fun t => Raised (6 + h.val) t ∧ OnlyEvents { s with heads := s.heads.set h { k with
        hpd := true, sinkLanes := n, sinkRate := r.val, trained := true,
        lanes := if 4 ≤ min k.cfg.maxLanes n then 4 else if 2 ≤ min k.cfg.maxLanes n then 2 else 1, rate := min k.cfg.maxRate r.val } } t)) ∧
    (k.hpd = true → Completes (.hpdFall h) s (fun t => Raised (6 + h.val) t ∧ OnlyEvents { s with heads := s.heads.set h { k with
      hpd := false, trained := false, lanes := 0, rate := 0, driving := false } } t)) ∧
    (ready = true → s.pwr.d3hot = false → k.hpd = true → s.waiting = [] → k.trained = true → k.cfg.tiles = [] →
      Completes (.headVblank h) s (fun t => t = { s with heads := s.heads.set h { k with
        shown := [], driving := true, crc := if k.driving then crc32 (pixelBytes k.pixels) else k.crc,
        frames := if k.driving then (k.frames + 1) % 2 ^ 32 else k.frames } })) ∧
    (ready = true → s.pwr.d3hot = false → k.hpd = true → s.waiting = [] → k.trained = false →
      Completes (.headVblank h) s (fun t => (t.heads[h]).driving = false ∧ (t.heads[h]).shown = k.shown)) ∧
    (∀ x : Site, x.wholeFrames = (if x.realTime then [] else x.pan.wholeFrame.toList) ++ x.lastFrame.toList ++ x.prevFrame.toList) ∧
    (∀ i e pic older x, ready = true → s.pwr.d3hot = false → k.hpd = true → s.waiting = [] → k.trained = true → k.cfg.tiles = [(i, e)] →
      k.cfg.inLayout i = true → s.site e.1 = some x → x.wholeFrames = pic :: older → pic.crc = crc32 (pixelBytes pic.pixels) →
      Completes (.headVblank h) s (fun t => (t.heads[h]).shown = [(i, pic)] ∧ (t.heads[h]).driving = true ∧
        (t.heads[h]).readErr = k.readErr)) ∧
    (∀ i e pic older x, ready = true → s.pwr.d3hot = false → k.hpd = true → s.waiting = [] → k.trained = true → k.cfg.tiles = [(i, e)] →
      k.cfg.inLayout i = true → s.site e.1 = some x → x.wholeFrames = pic :: older → pic.crc ≠ crc32 (pixelBytes pic.pixels) →
      Completes (.headVblank h) s (fun t => Table.get (t.heads[h]).shown i = older.head? ∧
        (t.heads[h]).readErr = (k.readErr + 1) % 2 ^ 32)) ∧
    (∀ (x y n : Nat) (q : Nat) (pic : Picture), k.cfg.mosaic = true → 0 < k.cfg.pitchX → 0 < k.cfg.pitchY → x / k.cfg.pitchX < k.cfg.c →
      y / k.cfg.pitchY < k.cfg.r → 1 ≤ n → n ≤ 8 →
      Table.get k.cfg.tiles (y / k.cfg.pitchY * k.cfg.c + x / k.cfg.pitchX) = some (q, BitVec.ofNat 8 n) →
      Table.get k.shown (y / k.cfg.pitchY * k.cfg.c + x / k.cfg.pitchX) = some pic →
      k.pixel x y = if x % k.cfg.pitchX < pic.w * n ∧ y % k.cfg.pitchY < pic.h * n
        then pic.pixels.getD (y % k.cfg.pitchY / n * pic.w + x % k.cfg.pitchX / n) 0 else k.cfg.border)

/-- Records, replay and rewind: the observation writer serves the pans whose records fit in turn, and writes the records of a pan's oldest
frame into its ring with their flags; a pan without a ring, or whose ring has been destroyed, gets none. A `REPLAY` pan applies an input
record at its pan-cycle, parks at the end of its log, and notes a record out of order or with a wrong CRC. A burst whose late records lie
outside the depth places them late and counts them, and otherwise restores the snapshot, counts a rewind, marks the frame to come changed
and fades its sound (R225, R234 to R236, R242, R243, R251, R253, R255 to R258). -/
def Obligations.RecordsAndRewinds : Prop :=
  ∀ (s : State) (p : PanNo) (x : Site),
    let written : Ring → List Byte → Memory := fun r b =>
      (s.host.writeBytes (r.base + (r.dev.toNat % 2 ^ r.log2) * 32) b).writeBytes r.idxAddr (leBytes 4 (r.dev + 1).toNat)
    let writes := s.engines = true ∧ s.obsNext = some p
    let replays := s.replays x = true ∧ Pan.Still x.pan
    (∀ f q n r l, s.site p = some x → writes → x.obsQ = f :: q → x.obs.ring = some n → x.ringLost = false → s.ring n = some r →
      r.kind = 3 → r.full = false → f.logs = [l] → l.kind ≠ 0x0A → f.picture = none → f.audio = [] → f.hash = none →
      Completes (.obsRecordWrite p) s (fun t => SiteThat t p (fun y => y.obsQ = q ∧ y.pan = x.pan) ∧ t.rrObs = p ∧
        (t.ring n).any (fun k => k.dev == r.dev + 1) = true ∧
        t.host = written r (leBytes 4 l.frame ++ leBytes 4 l.cyc ++ [l.kind, l.arg, l.flags, l.conf] ++ slice l.payload 0 8 ++
          leBytes 4 l.seq ++ leBytes 8 l.stamp))) ∧
    (∀ f q n r h, s.site p = some x → writes → x.obsQ = f :: q → x.obs.ring = some n → x.ringLost = false → s.ring n = some r →
      r.kind = 3 → r.full = false → f.logs = [] → f.picture = none → f.audio = [] → f.hash = some h →
      Completes (.obsRecordWrite p) s (fun t => SiteThat t p (fun y => y.obsQ = q ∧ y.gap = false) ∧
        t.host = written r (leBytes 4 f.frame ++ [0, 0, 0, 0, 0x12, 0,
          withFlags 0 [(0, f.redo), (1, x.heap.confDiff), (2, f.late), (3, x.gap || f.gap)], 0] ++ leBytes 8 h.toNat ++ [0, 0, 0, 0] ++
          leBytes 8 s.tb.time))) ∧
    (s.site p = some x → (x.obs.ring = none ∨ x.ringLost = true) → Completes (.obsRecordWrite p) s (fun t => t = { s with rrObs := t.rrObs })) ∧
    (∀ a b y z, s.sites = [(a, y), (b, z)] → a < b → y.recordsReady = true → s.oldestFits y = true → z.recordsReady = true →
      s.oldestFits z = true → s.obsNext = some (if s.rrObs < a then a else if s.rrObs < b then b else a)) ∧
    (s.site p = some x → replays → x.heap.replay = [] →
      Completes (.logRecordApply p) s (fun t => SiteThat t p (fun y => y.parked = true ∧ y.mode = .replay ∧ y.boiler = none ∧
        y.slot = none ∧ y.pan = x.pan))) ∧
    (∀ r l, s.site p = some x → replays → x.heap.replay = r :: l → r.kind ≠ 9 → r.frame < x.pan.frame →
      Completes (.logRecordApply p) s (fun t => SiteThat t p (fun y => y.heap.replayErr = 2 ∧ y.heap.replay = l ∧ y.pan = x.pan))) ∧
    (∀ r l, s.site p = some x → replays → x.heap.replay = r :: l → r.kind = 0x0A → r.frame = x.pan.frame →
      posBefore (r.frame, r.cyc) x.heap.replayPos = false → leNat (slice r.payload 4 4) ≠ (crc32 r.bytes).toNat →
      Completes (.logRecordApply p) s (fun t => SiteThat t p (fun y => y.heap.replayErr = 4 ∧ y.heap.replay = l ∧ y.pan = x.pan))) ∧
    (∀ r l, s.site p = some x → replays → x.heap.replay = r :: l → r.kind = 1 → r.frame = x.pan.frame →
      posBefore (r.frame, r.cyc) x.heap.replayPos = false → x.pan.core.hcWait = false → x.pan.frameStart + r.cyc < x.pan.clk →
      Completes (.logRecordApply p) s (fun t => SiteThat t p (fun y => y.heap.replay = l ∧ y.heap.replayPos = (r.frame, r.cyc) ∧
        y.pan = (({ x.pan with slots := x.pan.slots.set (r.arg.toNat % 16) { x.pan.slots[r.arg.toNat % 16] with
            data := byteVec 7 r.payload, new := true, upd := (x.pan.slots[r.arg.toNat % 16]).upd + 1,
            late := (x.pan.slots[r.arg.toNat % 16]).late || r.flags.getLsbD 0 } } : Pan).captureAll 3).raising [(17, true)]))) ∧
    (s.site p = some x → s.engines = true → x.boiler.isSome = true → x.rewindOwed = true →
      x.joining.all (fun r => !(decide (x.pan.frame - r.lateAt ≤ x.heap.depth) &&
        x.heap.snaps.any (fun q => q.frame == r.lateAt))) = true →
      Completes (.rewind p) s (fun t => t.tb = s.tb ∧ SiteThat t p (fun y => y.pan = x.pan ∧
        y.ctr = { x.ctr with latePlaced := x.ctr.latePlaced + x.joining.length } ∧
        y.inQ.length + y.plQ.length = x.inQ.length + x.plQ.length + x.joining.length ∧
        y.lateRecords.all (fun r => decide (x.cutoff < r.arrival)) = true))) ∧
    (s.site p = some x → s.engines = true → x.boiler.isSome = true → x.rewindOwed = true → x.joining.any x.joins = true →
      (∀ r ∈ x.joining, r.lateAt ≤ x.pan.frame) →
      Completes (.rewind p) s (fun t => t.tb = s.tb ∧ SiteThat t p (fun y => y.ctr.rewinds = x.ctr.rewinds + 1 ∧ y.audio.fade = 48 ∧
        y.resFrames = 0 ∧ y.lateRecords.all (fun r => decide (x.cutoff < r.arrival)) = true ∧
        y.stream.all (fun g => g.changedFor == some y.pan.frame) = true)))

/-- A host command that is not accepted: nothing happens where the control core cannot take it, or while another ring that comes first
in the round offers a command; taken, its entry is consumed and it completes with the status of the first check of R359 that fails, with
no effect and no result — `ST_FAULT` from a stopped device, `ST_BAD_PARAM` for its form, `ST_NOT_READY`, `ST_BAD_PARAM` for its range and
for the orderings it leaves, `ST_BAD_STATE`, `ST_NO_CAPACITY` (R342, R357, R359, R366). -/
def Obligations.CommandsRefused : Prop :=
  ∀ (i : Packet → Instr) (k : CmdSpec) (s : State) (c : Packet) (r : Ring),
    let u := s.consume c.ring r
    let d := packetRead c
    let settled := u.projected
    let said : Nat → Prop := fun status => Completes (i c) s (fun t => Answered c r.owner k.opcode status [] u t)
    let formed := decide (c.flags.toNat < 8) && decide (c.plen.toNat ≤ 7) && decide (c.txid = 0) && k.tidy d &&
      (d.params.zipIdx).all (fun b => b.1 == 0 || k.fields.any (fun f => decide (f.1 ≤ b.2 + 12) && decide (b.2 + 12 < f.1 + f.2)))
    let ready := (k.needs u d).all (fun n => s.dev.ready.getLsbD n) && k.up u d
    let running := s.dev.status.getLsbD 31 == false
    HostRow i k →
      (s.takes c = none → exec (i c) s = .next s) ∧
      (∀ e ∈ s.rings, e.1 ≠ c.ring → turnBefore s.rrCmd e.1 c.ring = true → s.offers e.2 = true → e.2.open_ = 0 → exec (i c) s = .next s) ∧
      (s.takes c = some r → running = false → said 0x60) ∧
      (s.takes c = some r → c.flags.getLsbD 0 = false → running = true → formed = false → said 0x30) ∧
      (s.takes c = some r → c.flags.getLsbD 0 = false → running = true → formed = true → ready = false → said 0x10) ∧
      (s.takes c = some r → c.flags.getLsbD 0 = false → running = true → formed = true → ready = true → k.range u d = false → said 0x30) ∧
      (s.takes c = some r → c.flags.getLsbD 0 = false → running = true → formed = true → ready = true → k.range u d = true →
        k.orders settled d = false → said 0x30) ∧
      (s.takes c = some r → c.flags.getLsbD 0 = false → running = true → formed = true → ready = true → k.range u d = true →
        k.orders settled d = true → (k.allows settled d = false ∨ (k.boundary u d = none ∧ k.allows u d = false)) → said 0x31) ∧
      (s.takes c = some r → c.flags.getLsbD 0 = false → running = true → formed = true → ready = true → k.range u d = true →
        k.orders settled d = true → k.allows settled d = true → (k.boundary u d = none → k.allows u d = true) →
        (k.fits settled d = false ∨ (k.loads d = true ∧ (k.counts d settled).admits = false)) → said 0x20)

/-- Each host command that waits stands, once accepted, for the boundary R362 to R368 give it — the device epoch, a pan's frame latch, its
harvester frame, its audio block, a head's vertical blank, the microcode switch, the end of its chain, the end of a running pan's
frame — with nothing answered; at once begin only a phase index reserved, a stop due with the frame that runs, a patch staged, a chain
started (R187, R203, R348, R352, R358, R360, R409). -/
def Obligations.CommandsWait : Prop :=
  let epoch : Packet → State → Option Boundary := fun _ _ => some .epoch
  let on : (Nat → Boundary) → Packet → State → Option Boundary := fun b c _ => some (b c.target.toNat)
  let blank : Packet → State → Option Boundary := fun c _ => some (.headVb ⟨c.target.toNat % 2, by omega⟩)
  let same : Packet → State → State := fun _ s => s
  let phase : Packet → State → State := fun c s =>
    if argOf c 12 1 ≤ 2 then s.modSite c.target.toNat (fun x => { x with phase := x.phase.or (s.freePhase x.homeBay) }) else s
  (Waits .devSet devSetSpec 0x0002 epoch same) ∧
  (Waits .panResume panResumeSpec 0x0307 epoch same) ∧
  (Waits .panInput panInputSpec 0x030F epoch same) ∧
  (Waits .panHcall panHcallSpec 0x0310 epoch same) ∧
  (Waits .heapDepth heapDepthSpec 0x0401 epoch same) ∧
  (Waits .heapHash heapHashSpec 0x0402 epoch same) ∧
  (Waits .heapHashref heapHashrefSpec 0x0403 epoch same) ∧
  (Waits .heapLog heapLogSpec 0x0404 epoch same) ∧
  (Waits .heapReplay heapReplaySpec 0x0407 epoch same) ∧
  (Waits .streamCreate streamCreateSpec 0x0501 epoch same) ∧
  (Waits .streamDelete streamDeleteSpec 0x0503 epoch same) ∧
  (Waits .portSet portSetSpec 0x0601 epoch same) ∧
  (Waits .portAddr portAddrSpec 0x0602 epoch same) ∧
  (Waits .portRings portRingsSpec 0x0603 epoch same) ∧
  (Waits .flowSet flowSetSpec 0x0604 epoch same) ∧
  (Waits .flowKey flowKeySpec 0x0605 epoch same) ∧
  (Waits .tbRate tbRateSpec 0x0901 epoch same) ∧
  (Waits .tbSlew tbSlewSpec 0x0902 epoch same) ∧
  (Waits .tbStep tbStepSpec 0x0903 epoch same) ∧
  (Waits .tbPps tbPpsSpec 0x0904 epoch same) ∧
  (Waits .panObs panObsSpec 0x0311 (on .latch) same) ∧
  (Waits .streamSet streamSetSpec 0x0502 (on .harvester) same) ∧
  (Waits .streamKey streamKeySpec 0x0504 (on .harvester) same) ∧
  (Waits .streamLoss streamLossSpec 0x0505 (on .harvester) same) ∧
  (Waits .audioSet audioSetSpec 0x0701 (on .audio) same) ∧
  (Waits .audioRoute audioRouteSpec 0x0702 (on .audio) same) ∧
  (Waits .headTiming headTimingSpec 0x0801 blank same) ∧
  (Waits .headLayout headLayoutSpec 0x0802 blank same) ∧
  (Waits .headTile headTileSpec 0x0803 blank same) ∧
  (Waits .panStart panStartSpec 0x0304 epoch phase) ∧
  (Waits .panMode panModeSpec 0x0305 (on .latch) phase) ∧
  (Waits .panStop panStopSpec 0x0308
    (fun c s => if s.panIs c (Site.stopWaits s.now) then some (.frameEnd c.target.toNat) else none)
    (fun c s => s.modSite c.target.toNat (fun x => { x with
      stopAt := some (x.pan.frame, if x.mode == .locked || x.mode == .elastic then some s.tb.time else none) }))) ∧
  (Waits .heapSave heapSaveSpec 0x0405
    (fun c s => if argOf c 12 1 = 1 ∧ s.panIs c (fun x => x.running && !x.parked) = true then some (.frameEnd c.target.toNat) else none)
    same) ∧
  (Waits .ucodePatch ucodePatchSpec 0x0C02 (fun _ _ => some .switch) (fun c s =>
    let b := s.host.readBytes (argOf c 12 8) (argOf c 20 4)
    { s with patch := some b })) ∧
  (Waits .sluiceStart sluiceStartSpec 0x0D01 (on .chain) (fun c s =>
    let n := c.target.toNat % 64
    let q := s.sluice[n]
    { s with sluice := s.sluice.set n { q with busy := true, descs := 0, done := 0, next := some (argOf c 12 8) } }))

/-- The commands on the device, rings, titles, memory, ports, streams, sound and heads that act at once: the result each gives, where it
lies, and what each changes (R74, R265, R298, R326, R336, R358, R362, R365, R367, R368, R379). -/
def Obligations.DeviceCommandsAct : Prop :=
  let none_ : Packet → State → List Byte := fun _ _ => []
  let arg16 : Packet → Nat → BitVec 16 := fun c o => BitVec.ofNat 16 (argOf c o 2)
  let long : (Packet → State → List Byte) → Packet → State → State := fun f c s => { s with host := s.host.writeBytes (argOf c 12 8) (f c s) }
  let words : List Nat → List Byte := fun l => l.flatMap (leBytes 4)
  (ActsAtOnce .devQuery devQuerySpec 0x0001 none_ (fun c s =>
    { long (fun _ u => words [Config.devId.toNat, u.dev.ucode.toNat, u.dev.fwBuild.toNat, Config.dramBytes / 2 ^ 20,
        u.dev.heapBytes / 2 ^ 20, u.heapFree / 2 ^ 20] ++ leBytes 2 (BitVec.ofInt 16 u.pwr.tj).toNat ++
        leBytes 2 (Config.readIout u.free) ++ leBytes 4 u.pwr.episodes) c s with free := s.free + 1 })) ∧
  (ActsAtOnce .ringCreate ringCreateSpec 0x0101 none_ (fun c s =>
    let r : Ring := { base := argOf c 12 8, idxAddr := argOf c 20 8, dataBase := argOf c 28 8, kind := argOf c 36 1, log2 := argOf c 37 1,
                      dataLog2 := argOf c 38 1, int := arg16 c 40, count := argOf c 42 2, time := argOf c 44 2, owner := argOf c 46 2, dev := 0, hst := 0,
                      taken := 0, dataHead := 0, dataUse := [], unsig := 0, oldest := 0, open_ := 0 }
    { s with rings := Table.put s.rings c.target.toNat r })) ∧
  (ActsAtOnce .ringDestroy ringDestroySpec 0x0102 none_ (fun c s => { s with
    rings := Table.drop s.rings c.target.toNat, bittern := s.bittern.filter (fun n => n != c.target.toNat),
    held := s.held.filter (fun h => h.cpl != c.target.toNat)
    sites := s.sites.map (fun e => (e.1, { e.2 with ringLost := e.2.ringLost || e.2.obs.ring == some c.target.toNat })) })) ∧
  (ActsAtOnce .ringQuery ringQuerySpec 0x0103 (fun c s => (s.ring c.target.toNat).elim [] (fun r =>
    words [r.dev.toNat, r.hst.toNat, r.unsig, r.dataFree])) (fun _ s => s)) ∧
  (ActsAtOnce .ringMod ringModSpec 0x0104 none_ (fun c s => { s with rings := ((s.ring c.target.toNat).elim s.rings (fun r =>
    Table.put s.rings c.target.toNat { r with int := arg16 c 12, count := argOf c 14 2, time := argOf c 16 2 })) })) ∧
  (ActsAtOnce .titleLoad titleLoadSpec 0x0201 (fun c s => slice (s.dram.readBytes (argOf c 12 8) (argOf c 20 4)) 8 8) (fun c s =>
    let t := titleOf (argOf c 12 8) (s.dram.readBytes (argOf c 12 8) (argOf c 20 4))
    { s with titles := Table.put s.titles c.target.toNat t })) ∧
  (ActsAtOnce .titleUnload titleUnloadSpec 0x0202 none_ (fun c s => { s with titles := Table.drop s.titles c.target.toNat })) ∧
  (ActsAtOnce .memAlloc memAllocSpec 0x0203 (fun c s => (s.allocFor (argOf c 12 8)).elim [] (leBytes 8)) (fun c s =>
    { s with free := s.free + 1, allocs := (s.allocFor (argOf c 12 8)).elim s.allocs (fun a => Table.put s.allocs a (argOf c 12 8)) })) ∧
  (∀ (s : State) (n a : Nat), s.allocFor n = some a → a + n ≤ Config.dramBytes - s.dev.heapBytes ∧
    ∀ e ∈ s.allocs, a + n ≤ e.1 ∨ e.1 + e.2 ≤ a ∨ n = 0 ∨ e.2 = 0) ∧
  (ActsAtOnce .memFree memFreeSpec 0x0204 none_ (fun c s => { s with allocs := Table.drop s.allocs (argOf c 12 8) })) ∧
  (ActsAtOnce .streamQuery streamQuerySpec 0x0506 none_ (long (fun c s =>
    ((s.site c.target.toNat).bind (fun x => x.stream)).elim [] (fun g => words (g.emitted.toList ++
      [g.heldCnt, g.lateCnt, g.answered, g.ignored, g.keyReqCnt, g.overruns, g.slow, 0]))))) ∧
  (ActsAtOnce .netQuery netQuerySpec 0x0606 none_ (long (fun c s =>
    if argOf c 20 1 = 0 then
      let k := s.ports[c.target.toNat % 2].ctr
      words [k.rxFrames] ++ leBytes 8 k.rxBytes ++ words [k.txFrames] ++ leBytes 8 k.txBytes ++
        words [k.fcs, k.size, k.foreign, k.macCtl, k.toRing, k.ringFull, k.ups, k.downs] ++ leBytes 8 k.fecCorr ++ leBytes 8 k.fecUncorr
    else if argOf c 20 1 = 1 then
      let k := (s.flow c.target.toNat).ctr
      words [k.vCopies, k.aCopies] ++ leBytes 8 k.vBytes ++ leBytes 8 k.aBytes ++ words ([k.displaced, k.lateDep, k.linkDown, k.accepted] ++
        k.rejects.toList ++ [k.future, k.stale, k.latePlaced, k.toHost])
    else words [s.bitternWritten, s.bitternCounted]))) ∧
  (ActsAtOnce .audioGauge audioGaugeSpec 0x0703 none_ (fun c s =>
    let t := long (fun d u => (u.site d.target.toNat).elim [] (fun x => x.audio.gauges)) c s
    if argBit c 20 0 then t.modSite c.target.toNat (fun x => { x with audio := { x.audio with
      left := { x.audio.left with peak := 0 }, right := { x.audio.right with peak := 0 } } }) else t)) ∧
  (ActsAtOnce .headStatus headStatusSpec 0x0804 (fun c s =>
    let k := s.heads[c.target.toNat % 2]
    words [k.crc.toNat, k.frames, k.readErr, k.rate * 256 + k.lanes * 16 + (if k.trained then 2 else 0) + (if k.hpd then 1 else 0)])
    (fun _ s => s)) ∧
  (ActsAtOnce .headSideband headSidebandSpec 0x0805 none_ (fun c s => { long (fun d u => (List.range (argOf d 28 2)).map (fun n =>
    Config.sidebandByte (2 * u.free + d.target.toNat) (argOf d 20 1) (argOf d 24 4 + n))) c s with free := s.free + 1 })) ∧
  (ActsAtOnce .fwWrite fwWriteSpec 0x0C01 none_ (fun c s =>
    let image := s.host.readBytes (argOf c 12 8) (argOf c 20 4)
    { s with flash := { s.flash with bank0 := if argOf c 24 1 = 0 then image else s.flash.bank0,
                                     bank1 := if argOf c 24 1 = 1 then image else s.flash.bank1 } }))

/-- The commands on pans that act at once: a pan is created in `IDLE` with the contents R67 gives it, destroyed, changed, stopped,
reset or stepped; attaches, detaches, messages, halts and movie commands are queued as placements, a message with its number and a
credit; images are saved and restored (R67, R84, R92, R94 to R99, R196 to R198, R226, R245, R246, R364, R365). -/
def Obligations.PanCommandsAct : Prop :=
  let none_ : Packet → State → List Byte := fun _ _ => []
  let site : Packet → (Site → Site) → State → State := fun c f s => s.modSite c.target.toNat f
  let bit : Packet → Nat → Nat → Bool := fun c o n => (argOf c o 1).testBit n
  let slot : Packet → Fin 16 := fun c => ⟨argOf c 12 1 % 16, by omega⟩
  let image : Packet → State → List Byte := fun c s =>
    if argOf c 20 1 = 0 then s.host.readBytes (argOf c 12 8) (argOf c 24 4) else s.dram.readBytes (argOf c 12 8) (argOf c 24 4)
  (ActsAtOnce .panCreate panCreateSpec 0x0301 none_ (fun c s => match Table.get s.titles (argOf c 12 2) with
    | none => s
    | some t =>
      let profile := if argOf c 15 1 = 0xFF then t.profile else argOf c 15 1
      let size := cramBytes t.cramCode
      let g : PanCfg := { profile := profile, fp := if argOf c 16 4 = 0 then ceilDiv (16 * 10 ^ 12) t.rate else argOf c 16 4,
                          lb := if argOf c 20 2 = 0 then Config.nominalVtotal profile else argOf c 20 2, elastic := decide (argOf c 22 1 = 1),
                          titleId := t.id, minKpa := t.minKpa, rewindFlag := t.rewind, romLen := t.romLen, rom := t.rom, cramSize := size,
                          mediaLen := argOf c 44 4 }
      let cram := if argOf c 28 8 = 0 then [] else memoryOf (s.dram.readBytes (argOf c 28 8) size)
      { s with sites := Table.put s.sites c.target.toNat (Site.create
        (Pan.reset g (BitVec.ofNat 16 (argOf c 24 2)) cram (memoryOf (s.dram.readBytes (argOf c 36 8) (argOf c 44 4))))
        (argOf c 12 2) ⟨argOf c 14 1 % 8, by omega⟩ (argOf c 36 8)) })) ∧
  (∀ (p : Pan) (t a : Nat) (b : Fin 8), let x := Site.create p t b a
    x.mode = .idle ∧ x.pan = p ∧ x.title = t ∧ x.bay = b ∧ x.staging = a ∧ x.boiler = none ∧ x.slot = none ∧ x.phase = none ∧ x.inQ = [] ∧
      x.plQ = [] ∧ x.heap.depth = 0 ∧ x.obs.ring = none ∧ x.stream = none ∧ x.hcTimeout = 10000 * 16000 ∧ x.inputDelay = 1000 * 16000) ∧
  (ActsAtOnce .panDestroy panDestroySpec 0x0302 none_ (fun c s =>
    let t := s.dropWaiting (Waiting.onPan c.target.toNat) 0x31
    { t with sites := Table.drop t.sites c.target.toNat, waitCalls := t.waitCalls.filter (fun w => w.pan != c.target.toNat),
             i2s := { t.i2s with pan := t.i2s.pan.filter (fun n => n != c.target.toNat),
                                 leaving := t.i2s.leaving.filter (fun e => e.1 != c.target.toNat) } })) ∧
  (ActsAtOnce .panConfig panConfigSpec 0x0303 none_ (fun c s => site c (fun x =>
    let t := s.siteTitle x
    let g := x.pan.cfg
    let profile := if bit c 12 4 then (if argOf c 15 1 = 0xFF then t.profile else argOf c 15 1) else g.profile
    let cfg := { g with profile := profile,
                        fp := if bit c 12 3 then (if argOf c 16 4 = 0 then ceilDiv (16 * 10 ^ 12) t.rate else argOf c 16 4) else g.fp,
                        lb := if bit c 12 2 then (if argOf c 20 2 = 0 then Config.nominalVtotal profile else argOf c 20 2) else g.lb,
                        elastic := if bit c 12 1 then decide (argOf c 22 1 = 1) else g.elastic }
    let sys := x.pan.sys
    let tagged := if bit c 12 0 then { sys with tag := BitVec.ofNat 16 (argOf c 24 2), tagLatch := BitVec.ofNat 8 (argOf c 25 1) }
      else sys
    { x with pan := { x.pan.withCfg cfg with sys := tagged }, bay := if bit c 12 5 then ⟨argOf c 14 1 % 8, by omega⟩ else x.bay,
             nextBay := none }) s)) ∧
  (∀ (g : PanCfg) (q : Pan),
    let w := q.withCfg g
    let new := Pan.reset g q.sys.tag q.cram q.media
    w = { q with cfg := g, crust := w.crust, ras := w.ras, beam := w.beam, rake := w.rake, snd := w.snd } ∧
      (g.profile = q.cfg.profile → w.crust = q.crust) ∧ (g.profile ≠ q.cfg.profile → w.crust = Crust.empty) ∧
      (q.clk = 0 → w.ras = new.ras ∧ w.beam = new.beam ∧ w.rake = new.rake ∧ w.snd = new.snd) ∧
      (0 < q.clk → w.ras = q.ras ∧ w.rake = q.rake ∧ w.snd = q.snd) ∧
      (0 < q.clk → g.profile = q.cfg.profile → g.elastic = q.cfg.elastic → w.beam = q.beam)) ∧
  (∀ (s : State) (c : Packet) (r : Ring),
    let u := s.consume c.ring r
    let d := packetRead c
    s.passes panHaltSpec c r = true → Completes (.panHalt c) s (fun t => t.host = u.host ∧ t.rings = u.rings ∧
      OnlyEvents { u with sites := t.sites, versions := t.versions } t ∧ SiteThat t d.target.toNat (fun y => u.panIs d (fun x =>
        let from_ := { y with plQ := x.plQ, order := x.order, inQ := x.inQ, lateRecords := x.lateRecords }
        decide (from_ = x) && y.plQ.dropLast == x.plQ && y.plQ.getLast?.any (fun q => q.arrival == u.tb.time && decide (q.kind =
          .halt (if bit d 12 0 then some (if x.prevLen.any (fun e => e.1 == argOf d 16 4 && decide (e.2 ≤ argOf d 20 4))
            then (argOf d 16 4 + 1, 0) else (argOf d 16 4, argOf d 20 4)) else none) d r.owner)))))) ∧
  (ActsAtOnce .panStop panStopSpec 0x0308 none_ (fun c s => (s.settleFrame c.target.toNat).idlePan c.target.toNat)) ∧
  (ActsAtOnce .panReset panResetSpec 0x0309 none_ (fun c s => s.resetPan c.target.toNat)) ∧
  (∀ (s : State) (p : Nat) (x : Site), s.site p = some x →
    SiteThat (s.idlePan p) p (fun y => y.mode = .idle ∧ y.inQ = [] ∧ y.plQ = [] ∧ y.boiler = none ∧ y.slot = none ∧ y.phase = none ∧
      y.callOut = none ∧ y.mbHolding = [] ∧ y.pan.cpu = (if x.pan.core.hcWait = true ∧ x.pan.hc.pend = true then { x.pan.cpu with
        f := withFlags x.pan.cpu.f [(0, true)] } else x.pan.cpu) ∧ y.pan.wram = x.pan.wram)) ∧
  (∀ (s : State) (p : Nat) (x : Site), s.site p = some x →
    SiteThat (s.resetPan p) p (fun y => y.mode = .idle ∧ y.attached = 0 ∧ y.heap.snaps = [] ∧ y.pan.crust = Crust.empty ∧ y.title = x.title ∧
      y.bay = x.bay ∧ y.heap.depth = x.heap.depth ∧ y.inputDelay = x.inputDelay ∧
      y.pan = Pan.reset x.pan.cfg x.pan.sys.tag x.pan.cram (memoryOf (s.dram.readBytes x.staging x.pan.cfg.mediaLen)))) ∧
  (ActsAtOnce .panDebug panDebugSpec 0x030A (fun c s => ((State.debugUnits c.target.toNat (argOf c 12 1) (argOf c 16 2) s).site
      c.target.toNat).elim [] (fun x => x.pan.procImage.take 16))
    (fun c s => site c (fun x => { x with pan := { x.pan with stepping := false } })
      (State.debugUnits c.target.toNat (argOf c 12 1) (argOf c 16 2) s))) ∧
  (ActsAtOnce .panAttach panAttachSpec 0x030B none_ (fun c s =>
    let e := 16 * c.target.toNat + argOf c 12 1
    let t := { s with flows := (Table.get s.flows e).elim s.flows (fun f => Table.put s.flows e { f with last := none }) }
    site c (fun x => { Site.acceptAt s.tb.time (.attach (slot c)) x with attached := setBit x.attached (argOf c 12 1) true }) t)) ∧
  (ActsAtOnce .panDetach panDetachSpec 0x030C none_ (fun c s =>
    site c (fun x => { Site.acceptAt s.tb.time (.detach (slot c)) x with attached := setBit x.attached (argOf c 12 1) false }) s)) ∧
  (ActsAtOnce .panMailbox panMailboxSpec 0x030D (fun c s => (s.site c.target.toNat).elim [] (fun x =>
      [if bit c 18 1 then x.mbNext + 1 else 0]))
    (fun c s => site c (fun x => if bit c 18 1 then
      Site.acceptAt s.tb.time (.message { bytes := byteVec 6 (slice c.params 0 6), num := x.mbNext + 1, nmi := bit c 18 0 })
        { x with mbNext := x.mbNext + 1, mbHolding := x.mbHolding ++ [x.mbNext + 1] }
      else Site.acceptAt s.tb.time .nmi x) s)) ∧
  (ActsAtOnce .panMovie panMovieSpec 0x030E none_ (fun c s => site c (fun x =>
    let bytes := s.dram.readBytes (x.staging + argOf c 16 4) (argOf c 20 4)
    if x.running then Site.acceptAt s.tb.time (.movie (BitVec.ofNat 4 (argOf c 12 1)) (argOf c 16 4) bytes) x
    else x.apply x.pan.clk { arrival := s.tb.time, place := s.tb.time, order := x.order, atFrame := none, atCyc := 0, late := false,
                             bracketed := false, logged := false, kind := .movie (BitVec.ofNat 4 (argOf c 12 1)) (argOf c 16 4) bytes }) s)) ∧
  (ActsAtOnce .panQuery panQuerySpec 0x0312 none_ (fun c s => (s.site c.target.toNat).elim s (fun x =>
    { s with host := s.host.writeBytes (argOf c 12 8) ([BitVec.ofNat 8 (match x.mode with
        | .idle => 0 | .locked => 1 | .elastic => 2 | .free => 3 | .step => 4 | .replay => 5 | .halted => 6 | .faulted => 7),
        x.pan.core.fault] ++ leBytes 2 (x.heldPhase.elim 0xFFFF (fun n => 8 * n + x.bay.val)) ++
      [x.pan.frame, x.ctr.late, x.ctr.rewinds, x.ctr.obsSkips, x.ctr.hcDiscarded, x.ctr.reruns, x.ctr.rejects, x.pan.sys.frameCount.toNat,
        0].flatMap (leBytes 4)) }))) ∧
  (∀ (s : State) (c : Packet) (r : Ring) (q : Snapshot),
    let u := s.consume c.ring r
    let d := packetRead c
    let saved := q.pan.saveImage q.kpa q.conf
    s.passes heapSaveSpec c r = true → heapSaveSpec.boundary u d = none →
      (u.site d.target.toNat).bind (fun x => if argOf d 12 1 = 0
        then x.heap.snaps.find? (fun e => e.frame == argOf d 16 4)
        else some { frame := x.pan.frame, kpa := u.kpa, conf := u.conf, pan := x.pan }) = some q →
      Completes (.heapSave c) s (fun t => Answered c r.owner 0x0405 0
        (leBytes 4 q.pan.frame ++ leBytes 4 (64 + (q.pan.grains + q.pan.cfg.mediaLen / 256) * 256) ++
          leBytes 8 (q.pan.hash q.kpa q.conf).toNat)
        { u with made := { image := saved, pan := q.pan.plain } :: u.made
                 host := if argOf d 28 1 = 0 then u.host.writeBytes (argOf d 20 8) saved else u.host
                 dram := if argOf d 28 1 = 0 then u.dram else u.dram.writeBytes (argOf d 20 8) saved } t)) ∧
  (ActsAtOnce .heapRestore heapRestoreSpec 0x0406 (fun c s => [if (image c s).getD 7 0 = s.conf then 0 else 2]) (fun c s =>
    site c (fun x => x.loadImage (s.internalState (image c s) x.pan) s.kpa s.conf s.tb.time (image c s)) (s.idleForImage c.target.toNat))) ∧
  (∀ (s : State) (l : List Byte) (q : Pan) (m : Made), s.made.find? (fun k => k.image == l) = some m → s.internalState l q = m.pan) ∧
  (∀ (s : State) (l : List Byte) (q : Pan) (k : Byte), (l.getD 23 0).getLsbD 0 = true ∨ l.getD 81 0 ≠ 0 →
    s.made.all (fun m => m.image != l) = true → q.acceptsImage k s.made l = false) ∧
  (∀ (s : State) (p : Nat) (x : Site), s.site p = some x → SiteThat (s.idleForImage p) p (fun y => y.mode = .idle ∧ y.audio = x.audio)) ∧
  (∀ (q : Pan) (k v : Byte) (n : Nat) (l : List Byte) (x : Site), l.length = 64 + (x.pan.grains + x.pan.cfg.mediaLen / 256) * 256 →
    let y := x.loadImage q k v n l
    let pc := BitVec.ofNat 16 (leNat (slice l 76 2))
    y.pan.frame = leNat (slice l 16 4) ∧ y.pan.wram = memoryOf (slice l 4160 32768) ∧ y.pan.vram = memoryOf (slice l 36928 65536) ∧
      y.heap.snaps = [] ∧ y.heap.confDiff = decide (l.getD 7 0 ≠ v) ∧ y.mode = x.mode ∧
      (l.getD 81 0 = 0 → y.pan.cpu.pc = if q.core.rep = true ∧ q.core.start = pc then q.cpu.pc else pc) ∧
      y.pan.cpu = { y.pan.cpu with a := l.getD 64 0, b := l.getD 65 0, x := l.getD 66 0, y := l.getD 67 0, k := l.getD 68 0,
                                   p := BitVec.ofNat 16 (leNat (slice l 70 2)), q := BitVec.ofNat 16 (leNat (slice l 72 2)),
                                   s := BitVec.ofNat 16 (leNat (slice l 74 2)) })

/-- What each command that waits does once its boundary has come: the settings of the device and its timebase, a pan's start, change of
mode, resume, stop and settings, heap settings and replay, streams, ports and flows, sound, heads and microcode; a command whose state
check no longer holds changes nothing and answers `ST_BAD_STATE` (R196, R211, R212, R216, R230, R240 to R243, R260, R266, R310, R407). -/
def Obligations.CommandsLand : Prop :=
  let none_ : Packet → State → List Byte := fun _ _ => []
  let always : Packet → State → Bool := fun _ _ => true
  let site : Packet → (Site → Site) → State → State := fun c f s => s.modSite c.target.toNat f
  let pan : (Site → Bool) → Packet → State → Bool := fun f c s => (s.site c.target.toNat).any f
  let heap : Packet → (HeapSt → HeapSt) → State → State := fun c f s => s.modSite c.target.toNat (fun x => { x with heap := f x.heap })
  let streamed : Packet → State → Bool := pan (fun x => x.stream.isSome)
  let stream : Packet → (StreamSt → StreamSt) → State → State := fun c f s =>
    s.modSite c.target.toNat (fun x => { x with stream := x.stream.map f })
  let bit : Packet → Nat → Nat → Bool := fun c o n => (argOf c o 1).testBit n
  let pairs : Packet → List (Nat × Nat) := fun c => (List.range 6).map (fun n => (argOf c (12 + 8 * n) 2, argOf c (16 + 8 * n) 4))
  let head : Packet → (HeadCfg → HeadCfg) → State → State := fun c f s =>
    let k := s.heads[c.target.toNat % 2]
    { s with heads := s.heads.set (c.target.toNat % 2) { k with cfg := f k.cfg } }
  let kindFits : Packet → Site → Bool := fun c x => argOf c 12 1 != (if x.pan.cfg.elastic then 1 else 2)
  let records : State → Site → Site := fun s x =>
    { x with waitObs := x.waitObs || ((x.mode == .free || x.mode == .step || x.mode == .replay) && decide (x.pan.frameCyc = 0) && !s.accepts x) }
  (Lands 0x0002 always none_ (fun c s =>
    let v := argOf c 16 8
    { s with dev := (if argOf c 12 2 = 1 then { s.dev with w := v } else if argOf c 12 2 = 2 then { s.dev with batch := v }
      else if argOf c 12 2 = 3 then { s.dev with i2sDelay := v } else if argOf c 12 2 = 4 then { s.dev with srtpRequired := decide (v = 1) }
      else s.dev) })) ∧
  (Lands 0x0901 always none_ (fun c s => { s with tb := { s.tb with rate := argInt c 12 4 } })) ∧
  (Lands 0x0902 always none_ (fun c s => { s with tb := { s.tb with slew := argInt c 12 8, slewing := decide (argInt c 12 8 ≠ 0), slewAcc := 0 } })) ∧
  (Lands 0x0903 (fun _ s => s.sites.all (fun e => e.2.phase.isNone) && s.packets.isEmpty && s.copies.isEmpty && !s.tb.ppsEn && !s.tb.ppsOut)
    none_ (fun c s => { s with tb := { s.tb with time := argOf c 12 8, epochAt := argOf c 12 8, ppsRise := none }
                               pwr := { s.pwr with vddAt := s.pwr.vddAt.map (fun t => t + ((argOf c 12 8 : Int) - s.tb.time)) } })) ∧
  (Lands 0x0904 always none_ (fun c s => { s with tb := { s.tb with
    ppsEn := bit c 12 0, ppsOffset := argOf c 16 8, ppsHigh := argOf c 24 4 * 16000 } })) ∧
  (Lands 0x0304 (fun c s => pan (fun x => x.mode == .idle && kindFits c x) c s) none_ (fun c s =>
    site c (fun z =>
      let m := modeOf (argOf c 12 1)
      let x := if argOf c 12 1 ≤ 2 then { z with phase := z.phase.or (s.freePhase z.homeBay) } else z
      let y := if m = .locked ∨ m = .elastic then Site.start m (argOf c 16 4) s.tb.epochAt s.dev.w x
        else { x with mode := m, parked := false, waitObs := false, stepLeft := if m = .step then argOf c 16 4 else 0,
                      pan := { x.pan with core := { x.pan.core with fault := 0 } } }
      records s (if x.pan.frameCyc = 0 then y.openLog s.kpa s.conf s.tb.time else y)) s)) ∧
  (∀ (s : State) (x : Site) (e w : Nat) (m : PanMode), m = .locked ∨ m = .elastic →
    let fp := x.pan.cfg.fp
    let k := x.phase.getD 0
    let y := Site.start m 0 e w x
    let least := e + fp + w * 16000
    y.mode = m ∧ y.boiler = none ∧ y.pan.frame = x.pan.frame ∧ y.pan.core.fault = 0 ∧
      (x.pan.cfg.elastic = false → 0 < fp → least ≤ y.frameE ∧ y.frameE < least + fp ∧ y.frameS + fp = y.frameE ∧
        y.frameE % fp = phaseOffset k x.bay.val fp % fp)) ∧
  (Lands 0x0305 (fun c s => pan (fun x => x.running && kindFits c x) c s) none_ (fun c s =>
    let u := site c (fun z =>
      let x := if argOf c 12 1 ≤ 2 then { z with phase := z.phase.or (s.freePhase z.homeBay) } else z
      { x with modeReq := some (modeOf (argOf c 12 1), argOf c 16 4) }) s
    if pan (fun x => x.parked) c s then
      site c (records s) ((site c (Site.newMode s.tb.time s.dev.w) u).tidyPhase c.target.toNat)
    else u)) ∧
  (Lands 0x0307 (pan (fun x => x.mode == .halted)) none_ (fun c s => site c (fun x =>
    let y := { x with mode := x.leftMode }
    records s (if x.leftMode = .locked ∨ x.leftMode = .elastic then (y.remap).enterRt s.tb.epochAt s.dev.w else y)) s)) ∧
  (∀ (x : Site) (q : Placement), q ∈ (x.remap).inQ ++ (x.remap).plQ → q.logged = true ∨ (q.atFrame = none ∧ q.late = false)) ∧
  (Lands 0x0308 (pan (fun _ => true)) none_ (fun c s => (s.settleFrame c.target.toNat).idlePan c.target.toNat)) ∧
  (Lands 0x030F (pan (fun _ => true)) none_ (fun c s => site c (fun x =>
    let n := argOf c 16 1 % 16
    { x with
      inputDelay := if bit c 17 7 then argOf c 12 4 * 16000 else x.inputDelay
      slotPlace := if bit c 17 6 then x.slotPlace.set n { x.slotPlace[n] with
        client := bit c 17 0, offset := argInt c 20 8, window := argOf c 28 4 * 16000 } else x.slotPlace }) s)) ∧
  (Lands 0x0310 (pan (fun _ => true)) none_ (fun c s => site c (fun x => { x with hcTimeout := argOf c 12 4 * 16000 }) s)) ∧
  (Lands 0x0311 (fun c s => (s.site c.target.toNat).isSome && (decide (argOf c 12 2 = 0xFFFF) || ((s.ring (argOf c 12 2)).any
      (fun r => r.kind == 3 && r.owner == c.target.toNat) &&
        pan (fun x => !(x.audio.routes.pcm && x.audio.routes.pcmRing == argOf c 12 2)) c s))) none_ (fun c s => site c (fun x =>
    let o : Obs := { ring := if argOf c 12 2 = 0xFFFF then none else some (argOf c 12 2), fmt := argOf c 14 1, every := argOf c 15 1,
                     x := argOf c 16 2, y := argOf c 18 2, w := argOf c 20 2, h := argOf c 22 2, scale := argOf c 24 1, bt601 := bit c 25 1,
                     audio := bit c 25 0, pitch := argOf c 28 4 }
    { x with obs := o, ringLost := false, obsQ := if argOf c 12 2 = 0xFFFF then [] else x.obsQ }) s)) ∧
  (Lands 0x0401 (pan (fun _ => true)) none_ (fun c s => heap c (fun h =>
    { h with depth := argOf c 12 1, snaps := if h.depth = argOf c 12 1 then h.snaps else [] }) s)) ∧
  (Lands 0x0402 (pan (fun _ => true)) none_ (fun c s => heap c (fun h => { h with hashEvery := argOf c 12 2 }) s)) ∧
  (Lands 0x0403 (pan (fun _ => true)) none_ (fun c s =>
    let b := if argOf c 20 1 = 0 then s.host.readBytes (argOf c 12 8) (16 * argOf c 24 4)
      else s.dram.readBytes (argOf c 12 8) (16 * argOf c 24 4)
    let refs := (List.range (argOf c 24 4)).map (fun n => (leNat (slice b (16 * n) 4), BitVec.ofNat 64 (leNat (slice b (16 * n + 8) 8))))
    heap c (fun h => { h with refMode := argOf c 21 1, refs := if argOf c 21 1 = 0 then [] else refs, refDone := false,
                              refAt := if argOf c 21 1 ≠ 0 ∧ argOf c 20 1 = 1 then some (argOf c 12 8, 16 * argOf c 24 4) else none }) s)) ∧
  (Lands 0x0404 (pan (fun _ => true)) none_ (fun c s => heap c (fun h =>
    { h with logOn := bit c 12 0, logOpen := h.logOpen && bit c 12 0 && h.logOn }) s)) ∧
  (∀ (s : State) (w : Waiting) (x : Site) (p : Nat), w.opcode = 0x0407 → w.txn = none → w.c.target.toNat = p → s.site p = some x →
    (if bit w.c 33 0 then x.mode == .replay && x.parked else x.mode == .idle) = true →
    let l := s.replayLog w.c
    let t := State.landWaiting w s
    (s.replayFits w.c x = false → Answered w.c w.cpl 0x0407 0x30 [] s t) ∧
    (s.replayFits w.c x = true → OnlyEvents { s with sites := t.sites } t ∧ (s.serving 6 (some p) = none → Raised 10 t) ∧
      SiteThat t p (fun y => y.mode = .replay ∧ y.parked = false ∧ y.heap.replayOn = true ∧ y.heap.replay = l.tail ∧
        y.heap.replayErr = 0 ∧ y.heap.replayPos = (y.pan.frame, y.pan.frameCyc) ∧ y.pan.core.fault = 0 ∧
        (bit w.c 33 0 = true → y.pan = { x.pan with core := { x.pan.core with fault := 0 } }) ∧
        (bit w.c 33 0 = false → argOf w.c 12 8 = 0 → y.pan = Pan.reset x.pan.cfg x.pan.sys.tag x.pan.cram
          (memoryOf (s.dram.readBytes x.staging x.pan.cfg.mediaLen)))))) ∧
  (Lands 0x0501 (pan (fun x => x.stream.isNone)) (fun c s => (s.site c.target.toNat).elim [] (fun x =>
      leBytes 1 (x.pan.level (argOf c 16 4)))) (fun c s => site c (fun x =>
    let g : Stream := { bt601 := bit c 12 1, rateCeil := argOf c 16 4, deblockOff := bit c 12 0, rcMode := 1, qp := 100, qpKeyDelta := -16,
                        qpMin := 20, qpMax := 220, rate := min 1500 (argOf c 16 4), rateMax := argOf c 16 4, buf := 100, keyInterval := 0, recInterval := 10,
                        holdRefresh := 30, mtu := argOf c 20 2, gap := 2000, extId := argOf c 22 1, emitDelay := 2000,
                        opus10 := decide (argOf c 23 1 = 1), level := x.pan.level (argOf c 16 4) }
    { x with stream := some { StreamSt.new s.tb.time g with seen := x.lastFrame.map (fun f => f.frame) },
             audio := { x.audio with left := { x.audio.left with clips := 0 }, right := { x.audio.right with clips := 0 } } }) s)) ∧
  (Lands 0x0502 streamed none_ (fun c s => stream c (fun g =>
    let all := (pairs c).foldl (fun (h : Stream) e => match e.1 with
      | 1 => { h with rcMode := e.2 } | 2 => { h with qp := e.2 } | 3 => { h with qpKeyDelta := signedOf 32 e.2 }
      | 4 => { h with qpMin := e.2 } | 5 => { h with qpMax := e.2 } | 6 => { h with rate := e.2 } | 7 => { h with rateMax := e.2 }
      | 8 => { h with buf := e.2 } | 9 => { h with keyInterval := e.2 } | 10 => { h with recInterval := e.2 }
      | 11 => { h with holdRefresh := e.2 } | 12 => { h with gap := e.2 } | 13 => { h with emitDelay := e.2 } | _ => h) g.staged
    { g with cfg := all, staged := all }) s)) ∧
  (Lands 0x0503 streamed none_ (fun c s => site c (fun x => { x with stream := none, audio := x.audio.dropOpus }) s)) ∧
  (Lands 0x0504 streamed none_ (fun c s => stream c (fun g =>
    { g with keyReqs := g.keyReqs ++ [s.tb.time], keyReqCnt := (g.keyReqCnt + 1) % 2 ^ 32 }) s)) ∧
  (Lands 0x0505 streamed none_ (fun c s => stream c (fun g => { g with losses := g.losses ++ [(s.tb.time, argOf c 12 4)] }) s)) ∧
  (Lands 0x0601 always none_ (fun c s =>
    let e := c.target.toNat % 2
    let q := s.ports[e]
    let same := decide (q.mode = argOf c 12 1 ∧ q.fec = argOf c 13 1)
    let port := { q with mode := argOf c 12 1, fec := argOf c 13 1, mac := slice c.params 4 6, up := q.up && same,
                         ctr := { q.ctr with downs := if q.up && !same then (q.ctr.downs + 1) % 2 ^ 32 else q.ctr.downs } }
    let t := if q.up && !same then (s.raise (4 + e)).postDev 0x000C [BitVec.ofNat 8 e, 0] else s
    { t with ports := s.ports.set e port })) ∧
  (Lands 0x0602 (fun c s => !s.flows.any (fun e => e.2.valid && e.2.port.val == c.target.toNat && e.2.laddr.val == argOf c 12 1 &&
      e.2.ipv6 != bit c 13 6)) none_ (fun c s =>
    let q := s.ports[c.target.toNat % 2]
    { s with ports := s.ports.set (c.target.toNat % 2) { q with
      addrs := q.addrs.set (argOf c 12 1 % 4) (if bit c 13 7 then some (bit c 13 6, slice c.params 4 16) else none) } })) ∧
  (Lands 0x0603 (fun c s => (s.ring (argOf c 12 2)).any (fun r => r.kind == 4) &&
      (argOf c 14 2 == 0xFFFF || (s.ring (argOf c 14 2)).any (fun r => r.kind == 7))) none_ (fun c s =>
    { s with ports := s.ports.set (c.target.toNat % 2) { s.ports[c.target.toNat % 2] with rxRing := argOf c 12 2 },
             bittern := if argOf c 14 2 = 0xFFFF then none else some (argOf c 14 2) })) ∧
  (Lands 0x0604 always none_ (fun c s =>
    let f := s.flow c.target.toNat
    let b := slice c.params 0 48
    let same : List Byte → Nat → Nat → Bool := fun l o n => slice l o n == slice f.bytes o n
    let ssrc : Nat → Bool := fun o => leNat (slice b o 4) == leNat (slice f.bytes o 4)
    let renew := !(same b 8 6 && same b 16 18 && (b.getD 0 0).getLsbD 7 == (f.bytes.getD 0 0).getLsbD 7)
    { s with flows := Table.put s.flows c.target.toNat { f with
      bytes := b, last := if renew then none else f.last
      rocV := if !renew && ssrc 36 then f.rocV else 0, rocA := if !renew && ssrc 40 then f.rocA else 0
      sentV := if ssrc 36 then f.sentV else 0, sentA := if ssrc 40 then f.sentA else 0 } })) ∧
  (Lands 0x0605 always none_ (fun c s =>
    let f := s.flow c.target.toNat
    let key := slice c.params 4 32
    let salt := slice c.params 36 12
    let renew := if argOf c 12 1 = 0 then !(key == f.masterKey && salt == f.masterSalt) else !(key == f.inKey && salt == f.inSalt)
    { s with flows := Table.put s.flows c.target.toNat { f with
      masterKey := if argOf c 12 1 = 0 then key else f.masterKey, masterSalt := if argOf c 12 1 = 0 then salt else f.masterSalt
      inKey := if argOf c 12 1 = 0 then f.inKey else key, inSalt := if argOf c 12 1 = 0 then f.inSalt else salt
      last := if renew then none else f.last, rocV := if renew then 0 else f.rocV, rocA := if renew then 0 else f.rocA } })) ∧
  (Lands 0x0701 (pan (fun _ => true)) none_ (fun c s => site c (fun x =>
    let a := x.audio
    let g := (pairs c).foldl (fun (h : AudioCfg) e => match e.1 with
      | 1 => { h with dcCut := e.2 } | 2 => { h with rumble := e.2 } | 3 => { h with gain := signedOf 32 e.2 }
      | 4 => { h with gainTimeout := e.2 } | 5 => { h with silLevel := signedOf 32 e.2 } | 6 => { h with silTime := e.2 }
      | 7 => { h with clipCount := e.2 } | 8 => { h with opusRate := e.2 } | 9 => { h with opusVbr := e.2 } | _ => h) a.cfg
    let chan : Channel → Channel := fun k =>
      let m := if (pairs c).any (fun e => e.1 == 3)
        then { k with step := some (g.gain, (k.step.map (fun e => e.2)).getD (48 * a.block)) } else k
      if a.cfg.rumble = 0 ∧ g.rumble ≠ 0 then { m with rx1 := 0, rx2 := 0, ry1 := 0, ry2 := 0 } else m
    { x with audio := { a with cfg := g, left := chan a.left, right := chan a.right } }) s)) ∧
  (Lands 0x0702 (fun c s => pan (fun x => (!bit c 12 2 || x.stream.isSome) &&
      (!bit c 12 1 || ((s.ring (argOf c 14 2)).any (fun r => r.kind == 3) && x.obs.ring != some (argOf c 14 2)))) c s) none_ (fun c s =>
    let p := c.target.toNat
    let old := s.i2s.leaving
    let u := if bit c 12 0 = false then { s with i2s := { s.i2s with pan := s.i2s.pan.filter (fun q => q != p),
                                                                     leaving := s.i2s.leaving.filter (fun e => e.1 != p) } }
      else if s.i2s.pan = some p then s
      else
        let t := { s with i2s := { s.i2s with pan := some p, leaving := s.i2s.pan.map (fun q => (q, none)) } }
        match old with
        | none => t
        | some (q, _) => if s.i2s.pan = some q then t else t.modSite q (fun x => { x with audio := { x.audio with
            routes := { x.audio.routes with i2s := false }, nextRoutes := x.audio.nextRoutes.map (fun k => { k with i2s := false }) } })
    site c (fun x => { x with audio := { x.audio with
      nextRoutes := some { opus := bit c 12 2, pcm := bit c 12 1, i2s := bit c 12 0, pcmRing := argOf c 14 2 } } }) u)) ∧
  (∀ (s : State) (w : Waiting), w.opcode = 0x0801 → w.txn = none →
    let c := w.c
    let k := s.heads[c.target.toNat % 2]
    let g := { k.cfg with pixelKHz := argOf c 12 4, hActive := argOf c 16 2, vActive := argOf c 24 2, maxLanes := argOf c 33 1,
                          maxRate := argOf c 34 1, enable := bit c 35 0, timing := [argOf c 18 2, argOf c 20 2, argOf c 22 2,
                          argOf c 26 2, argOf c 28 2, argOf c 30 2, argOf c 32 1] }
    let most := min (argOf c 33 1) k.sinkLanes
    let lanes := if 4 ≤ most then 4 else if 2 ≤ most then 2 else most
    let rate := min (argOf c 34 1) k.sinkRate
    let on := k.hpd && bit c 35 0 && decide (0 < lanes)
    let carries := decide (argOf c 12 4 * 24 * 1000 ≤ lanes * (if rate = 0 then 1620000 else if rate = 1 then 2700000 else if rate = 2
      then 5400000 else 8100000) * 792)
    (on = false ∨ carries = true → Answered c w.cpl 0x0801 0 (if on then leBytes 1 lanes ++ leBytes 1 rate else [0, 0])
      { s with heads := s.heads.set (c.target.toNat % 2) { k with cfg := g, trained := on, lanes := if on then lanes else 0,
                                                                  rate := if on then rate else 0 } } (State.landWaiting w s)) ∧
    (on = true → carries = false → Answered c w.cpl 0x0801 0x30 [] s (State.landWaiting w s))) ∧
  (Lands 0x0802 always none_ (fun c => head c (fun g => { g with
    mosaic := decide (argOf c 12 1 = 1), c := argOf c 13 1, r := argOf c 14 1, pitchX := argOf c 16 2, pitchY := argOf c 18 2,
    border := BitVec.ofNat 24 (argOf c 20 1 * 65536 + argOf c 21 1 * 256 + argOf c 22 1), x := argOf c 24 2, y := argOf c 26 2 }))) ∧
  (Lands 0x0803 (fun c s => argOf c 14 2 == 0xFFFF || (s.site (argOf c 14 2)).isSome) none_ (fun c => head c (fun g => { g with
    tiles := if argOf c 14 2 = 0xFFFF then Table.drop g.tiles (argOf c 12 1)
      else Table.put g.tiles (argOf c 12 1) (argOf c 14 2, BitVec.ofNat 8 (argOf c 16 1)) }))) ∧
  (Lands 0x0C02 (fun c s => s.patch.isSome && (bits (Config.patchVersion (s.host.readBytes (argOf c 12 8) (argOf c 20 4))) 23 16 ==
      bits s.dev.ucode 23 16 || s.sites.all (fun e => e.2.mode == .idle))) (fun _ s => s.patch.elim [] (fun b => leBytes 4 (Config.patchVersion b).toNat)) (fun _ s =>
    s.patch.elim s (fun b => { s with dev := { s.dev with ucode := Config.patchVersion b }, boilerPatch := b }))) ∧
  (∀ (s : State) (w : Waiting) (k : CmdSpec), specOf w.opcode = some k → w.txn = none → k.allows s w.c = false →
    w.opcode ≠ 0x0303 → w.opcode ≠ 0x0304 → w.opcode ≠ 0x0305 → Answered w.c w.cpl k.opcode 0x31 [] s (State.landWaiting w s)) ∧
  (∀ (s : State) (w : Waiting), w.opcode = 0x0303 → w.txn = none → panConfigSpec.allows s w.c = false →
    Answered w.c w.cpl 0x0303 0x31 [] (site w.c (fun x => { x with nextBay := none }) s) (State.landWaiting w s)) ∧
  (∀ (s : State) (w : Waiting) (k : CmdSpec), specOf w.opcode = some k → w.txn = none → k.allows s w.c = false →
    w.opcode = 0x0304 ∨ w.opcode = 0x0305 → Answered w.c w.cpl k.opcode 0x31 []
      (s.tidyPhase w.c.target.toNat) (State.landWaiting w s)) ∧
  (∀ (s : State) (x : Site) (p : Nat), s.site p = some x →
    let coming := s.waiting.any (fun k => (k.opcode == 0x0304 || k.opcode == 0x0305) && k.onPan p && decide (argOf k.c 12 1 ≤ 2)) ||
      x.modeReq.any (fun m => m.1 == .locked || m.1 == .elastic)
    (s.tidyPhase p).site p = some { x with phase := if x.keepsPhase || coming then x.phase else none })

/-- The boundaries: epochs lie at multiples of 250 µs, and at each the commands accepted before it land in the order of their acceptance;
one that waits for a later boundary has then met its epoch, one accepted later waits on; the observation of a pan lands at its frame
latch, settings of sound at the audio block, of a stream at the harvester frame, of a head at its vertical blank, and a save and then a
stop with the end of the frame (R4, R106, R213, R245, R251, R261, R267, R289, R360, R407, R409). -/
def Obligations.BoundariesLand : Prop :=
  ∀ (s : State) (w : Waiting),
    let e := s.nextEpoch
    let u := { s with waiting := [], tb := { s.tb.moveTo e with epochAt := e } }
    let bare := { s with waiting := [] }
    let alone := s.tb.counting && s.commits.isEmpty && decide (s.waiting = [w]) && w.txn.isNone && !w.epochDone
    let atEpoch : Waiting → Bool := fun k => decide (k.at_ = .epoch) && decide (k.opcode ∈ [0x0002, 0x0304, 0x0307, 0x030F, 0x0310, 0x0401,
      0x0402, 0x0403, 0x0404, 0x0407, 0x0501, 0x0503, 0x0601, 0x0602, 0x0603, 0x0604, 0x0605, 0x0901, 0x0902, 0x0903, 0x0904, 0x0B04, 0x0B05])
    (e % 4000000 = 0 ∧ s.tb.epochAt < e ∧ s.tb.time < e + 4000000) ∧
    (s.tb.counting = true → s.waiting = [] → s.commits = [] → Completes .deviceEpoch s (fun t => t = u)) ∧
    (alone = true → atEpoch w = true → w.accepted < e → Completes .deviceEpoch s (fun t => t = State.landWaiting w u)) ∧
    (alone = true → e ≤ w.accepted → Completes .deviceEpoch s (fun t => t = { u with waiting := [w] })) ∧
    (∀ b : Waiting, s.tb.counting = true → s.commits = [] → s.waiting = [w, b] → w.txn = none → b.txn = none → w.epochDone = false →
      b.epochDone = false → atEpoch w = true → atEpoch b = true → w.accepted < e → b.accepted < e → w ≠ b →
      Completes .deviceEpoch s (fun t =>
        t = State.landWaiting b { State.landWaiting w { u with waiting := [b] } with waiting := [] })) ∧
    (∀ p x, alone = true → w.at_ = .latch p → w.accepted < e → w.opcode = 0x0311 → s.site p = some x →
      Completes .deviceEpoch s (fun t => t = if x.running = false ∨ x.parked = true ∨ x.waitObs = true then State.landWaiting w u
        else { u with waiting := [{ w with epochDone := true, epochTime := e }] })) ∧
    (∀ p x, alone = true → w.at_ = .latch p → w.accepted < e → w.opcode = 0x0305 → s.site p = some x →
      Completes .deviceEpoch s (fun t => t = if x.running = true ∧ x.parked = true then State.landWaiting w u
        else { u with waiting := [{ w with epochDone := true, epochTime := e }] })) ∧
    (∀ p, alone = true → w.at_ = .audio p → w.accepted < e → w.opcode ∈ [0x0701, 0x0702] →
      Completes .deviceEpoch s (fun t => t = { u with waiting := [{ w with epochDone := true, epochTime := e }] })) ∧
    (∀ h, alone = true → w.at_ = .headVb h → w.accepted < e → w.opcode ∈ [0x0801, 0x0802, 0x0803] →
      Completes .deviceEpoch s (fun t => t = { u with waiting := [{ w with epochDone := true, epochTime := e }] })) ∧
    (∀ p, alone = true → w.at_ = .harvester p → w.accepted < e → w.opcode ∈ [0x0504, 0x0505] →
      Completes .deviceEpoch s (fun t => t = { u with waiting := [{ w with epochDone := true, epochTime := e }] })) ∧
    (∀ p x t0, s.waiting = [w] → w.txn = none → w.at_ = .latch p → w.epochDone = true → w.opcode = 0x0311 →
      s.liveSite p = some x → x.pan.out = [] → x.pan.abort = false → x.rerunning = false → x.pan.beam.latchDone = false →
      exec (.frameLatch p) bare = .next t0 → (t0.site p).any (fun y => y.pan.beam.latchDone && !y.rerunning) = true →
      Completes (.frameLatch p) s (fun t => t = State.landWaiting w t0)) ∧
    (∀ p : PanNo, s.waiting = [w] → w.txn = none → w.at_ = .audio p → w.epochDone = true → w.opcode ∈ [0x0701, 0x0702] →
      w.c.target.toNat = p → s.chainReady p = true →
      exec (.audioBlock p) s = exec (.audioBlock p) (State.landWaiting w bare)) ∧
    (∀ p : PanNo, s.waiting = [w] → w.txn = none → w.at_ = .harvester p → (w.epochDone = true ∨ w.opcode ≠ 0x0502) →
      w.opcode ∈ [0x0502, 0x0504, 0x0505] → w.c.target.toNat = p → (s.harvestable p).isSome = true →
      exec (.harvesterFrame p) s =
        exec (.harvesterFrame p) (State.landWaiting w (bare.modStream p (StreamSt.drain s.tb.time)))) ∧
    (∀ h : Fin 2, s.waiting = [w] → w.txn = none → w.at_ = .headVb h → w.opcode ∈ [0x0801, 0x0802, 0x0803] → s.headUp h = true →
      s.pwr.d3hot = false → (s.heads[h]).hpd = true →
      Completes (.headVblank h) s (fun t =>
        let l := State.landWaiting w bare
        t.waiting = [] ∧ (∀ k, (t.ring k).isSome = (l.ring k).isSome) ∧ (t.heads[h]).cfg = (l.heads[h]).cfg ∧ (t.heads[h]).lanes = (l.heads[h]).lanes ∧
          (t.heads[h]).trained = (l.heads[h]).trained ∧ ((l.heads[h]).cfg.tiles = [] → t.host = l.host))) ∧
    (∀ p n x, s.waiting = [w] → w.txn = none → w.opcode = 0x0405 → w.c.target.toNat = p → s.site p = some x → x.stopAt = none →
      Answered w.c w.cpl 0x0405 0 (leBytes 4 x.pan.frame ++ leBytes 4 (64 + (x.pan.grains + x.pan.cfg.mediaLen / 256) * 256) ++
          leBytes 8 (x.pan.hash s.kpa s.conf).toNat)
        (let saved := x.pan.saveImage s.kpa s.conf
         { bare with made := { image := saved, pan := x.pan.plain } :: s.made
                     host := if argOf w.c 28 1 = 0 then s.host.writeBytes (argOf w.c 20 8) saved else s.host
                     dram := if argOf w.c 28 1 = 0 then s.dram else s.dram.writeBytes (argOf w.c 20 8) saved }) (s.stopsHere p n)) ∧
    (∀ p n x k v, s.waiting = [w] → w.txn = none → w.opcode = 0x0308 → w.c.target.toNat = p → s.site p = some x → x.stopAt = some (k, v) →
      n < k ∨ (x.realTime = true ∧ ∃ at_, v = some at_ ∧ x.beginsAt x.pan.frameStart ≤ at_) → s.stopsHere p n = s) ∧
    (∀ p n x k v, s.waiting = [w] → w.txn = none → w.opcode = 0x0308 → w.c.target.toNat = p → s.site p = some x → x.stopAt = some (k, v) →
      k ≤ n → (x.realTime = true → ∀ at_, v = some at_ → at_ < x.beginsAt x.pan.frameStart) →
      Answered w.c w.cpl 0x0308 0 [] ((bare.settleFrame p).idlePan p) (s.stopsHere p n))

/-- Transactions, time-outs and aborts: a transaction opens under a TXID no open one holds, stages what R370 allows, is rolled back on
command or 10 s after its last staging, and is freed by its commit, which fails on a conflict or at the first command that fails its
checks, else leaves one waiting part for each command and answers with its epoch and counts once all have landed; a command whose latch or
vertical blank does not come within 1 s of its epoch answers `ST_TIMEOUT`; an abort completes the commands it interrupts with `ST_ABORTED`,
stops chains, puts pans in `IDLE`, destroys rings, clears sessions, and invalidates flow entries at the next epoch (R360, R369 to R375). -/
def Obligations.TransactionsAndAborts : Prop :=
  ∀ (s : State) (c : Packet) (r : Ring),
    let u := s.consume c.ring r
    let d := packetRead c
    let n := c.txid.toNat
    let p := c.target.toNat
    let taken := decide (s.takes c = some r) && !s.dev.status.getLsbD 31
    let aborts := decide (s.takesAbort c = some r) && !s.dev.status.getLsbD 31
    let plain_ := decide (c.flags.toNat < 8) && decide (c.plen.toNat ≤ 7) && !c.flags.getLsbD 0 && d.params.all (fun b => b == 0)
    let device := c.target == 0xFFFFFFFF
    let answers : Nat → Nat → List Byte → State → State → Prop := fun op status b v t => Answered c r.owner op status b v t
    let freed := { u with txns := Table.drop u.txns n }
    (taken = true → (plain_ && c.txid == 0 && device) = true → s.txns.length < 64 → Completes (.txnBegin c) s (fun t => ∃ k, 1 ≤ k ∧ k ≤ 65535 ∧
      Table.get s.txns k = none ∧ answers 0x0A01 0 (leBytes 2 k) { u with
        free := u.free + 1, txns := Table.put u.txns k { cmds := [], lastAt := s.tb.time, objs := [] } } t)) ∧
    (taken = true → (plain_ && c.txid == 0 && device) = true → 64 ≤ s.txns.length →
      Completes (.txnBegin c) s (fun t => answers 0x0A01 0x40 [] u t)) ∧
    (∀ op : Nat, (specOf op).any (fun k => k.stages) = decide (op ∈ [0x0002, 0x0303, 0x0304, 0x0305, 0x0308, 0x030F, 0x0310, 0x0311, 0x0401,
      0x0402, 0x0403, 0x0404, 0x0501, 0x0502, 0x0503, 0x0504, 0x0505, 0x0601, 0x0602, 0x0603, 0x0604, 0x0605, 0x0701, 0x0702, 0x0801,
      0x0802, 0x0803, 0x0901, 0x0902, 0x0904])) ∧
    (∀ op : Word, taken = true → c.flags.getLsbD 0 = true → (specOf op.toNat).any (fun k => k.stages) = false →
      Completes (.txnStage op c) s (fun t => answers op.toNat 0x30 [] u t)) ∧
    (∀ op : Word, taken = true → c.flags.getLsbD 0 = false → specOf op.toNat = none →
      op.toNat ∉ [0x0A01, 0x0A02, 0x0A03, 0x0B01, 0x0B02, 0x0B03, 0x0B04, 0x0B05] →
      Completes (.txnStage op c) s (fun t => answers op.toNat 0x30 [] u t)) ∧
    (∀ (op : Word) k q, taken = true → c.flags.getLsbD 0 = true → specOf op.toNat = some k → k.early u d = none →
      Table.get s.txns n = some q → 256 ≤ q.cmds.length → Completes (.txnStage op c) s (fun t => answers op.toNat 0x40 [] u t)) ∧
    (∀ (op : Word) k q, taken = true → c.flags.getLsbD 0 = true → specOf op.toNat = some k → k.early u d = none →
      Table.get s.txns n = some q → q.cmds.length < 256 → Completes (.txnStage op c) s (fun t =>
        ∃ l, answers op.toNat 0 (leBytes 2 (q.cmds.length + 1)) { u with
          txns := Table.put u.txns n { cmds := q.cmds ++ [(op.toNat, d)], lastAt := s.tb.time, objs := q.objs ++ l } } t)) ∧
    (taken = true → (plain_ && device && !Table.has s.txns n) = true →
      Completes (.txnCommit c) s (fun t => answers 0x0A02 0x30 [] u t) ∧
      Completes (.txnRollback c) s (fun t => answers 0x0A03 0x30 [] u t)) ∧
    (taken = true → (plain_ && device && Table.has s.txns n) = true → Completes (.txnRollback c) s (fun t => answers 0x0A03 0 [] freed t)) ∧
    (∀ q, taken = true → (plain_ && device) = true → Table.get s.txns n = some q →
      q.objs.any (fun e => (Table.get s.versions e.1).getD 0 != e.2) = true →
      Completes (.txnCommit c) s (fun t => answers 0x0A02 0x41 [] freed t)) ∧
    (∀ q f, taken = true → (plain_ && device) = true → Table.get s.txns n = some q →
      q.objs.any (fun e => (Table.get s.versions e.1).getD 0 != e.2) = false → freed.commitFails q.cmds = some f →
      Completes (.txnCommit c) s (fun t => answers 0x0A02 f.1 (List.replicate 12 0 ++ leBytes 2 f.2) freed t)) ∧
    (∀ q, taken = true → (plain_ && device) = true → Table.get s.txns n = some q → (q.cmds.all (fun e => (specOf e.1).isSome)) = true →
      q.objs.any (fun e => (Table.get s.versions e.1).getD 0 != e.2) = false → freed.commitFails q.cmds = none →
      Completes (.txnCommit c) s (fun t => t.txns = freed.txns ∧ t.host = u.host ∧ t.rings = u.rings ∧
        t.waiting.take s.waiting.length = s.waiting ∧ (t.waiting.drop s.waiting.length).map (fun w => (w.opcode, w.c)) = q.cmds ∧
        (t.commits.filter (fun e => !Table.has s.commits e.1)).any (fun e => e.2.parts == q.cmds.length && decide (e.2.c = d) &&
          e.2.applied == 0 && e.2.discarded == 0 && e.2.timedOut == 0 &&
          (t.waiting.drop s.waiting.length).all (fun w => w.txn == some e.1 && !w.epochDone && w.accepted == s.tb.time)) = true)) ∧
    (∀ m (k : Commit) w, s.tb.counting = true → s.commits = [(m, k)] → k.parts = 1 → k.applied = 0 → k.discarded = 0 → k.timedOut = 0 →
      k.epoch = 0 →
      s.waiting = [w] → w.txn = some m → w.at_ = .epoch → w.epochDone = false → w.accepted < s.nextEpoch → w.opcode = 0x0901 →
      Completes .deviceEpoch s (fun t => Answered k.c k.cpl 0x0A02 0 (leBytes 8 s.nextEpoch ++ leBytes 2 1 ++ leBytes 2 0)
        { s with waiting := [], commits := [], tb := { s.tb.moveTo s.nextEpoch with
          epochAt := s.nextEpoch, rate := argInt w.c 12 4 } } t)) ∧
    (∀ m (k : Commit), Table.get s.commits m = some k →
      (k.parts = k.applied + k.discarded + k.timedOut + 1 → k.discarded = 0 → Answered k.c k.cpl 0x0A02 0x51
        (leBytes 8 k.epoch ++ leBytes 2 k.applied ++ leBytes 2 0) { s with commits := Table.drop s.commits m } (s.partDone m 0x51)) ∧
      (k.parts = k.applied + k.discarded + k.timedOut + 1 → Answered k.c k.cpl 0x0A02 0x50
        (leBytes 8 k.epoch ++ leBytes 2 k.applied ++ leBytes 2 (k.discarded + 1)) { s with commits := Table.drop s.commits m }
        (s.partDone m 0x50)) ∧
      (k.applied + k.discarded + k.timedOut + 1 < k.parts →
        s.partDone m 0 = { s with commits := Table.put s.commits m { k with applied := k.applied + 1 } } ∧
        s.partDone m 0x51 = { s with commits := Table.put s.commits m { k with timedOut := k.timedOut + 1 } } ∧
        s.partDone m 0x50 = { s with commits := Table.put s.commits m { k with discarded := k.discarded + 1 } })) ∧
    (∀ q, s.tb.counting = true → Table.get s.txns n = some q → Completes (.txnExpiry c.txid) s (fun t =>
      t = { s.reach (q.lastAt + 160000000000) with txns := Table.drop s.txns n })) ∧
    (∀ (j : Nat) w, s.tb.counting = true → s.waiting[j]? = some w → w.epochDone = true → (∃ e, w.at_ = .latch e ∨ ∃ h, w.at_ = .headVb h) →
      Completes (.commandTimeout j) s (fun t =>
        let late := { s.reach (w.epochTime + 16000000000) with waiting := s.waiting.erase w }
        let freed := if w.opcode = 0x0304 ∨ w.opcode = 0x0305 then late.tidyPhase w.c.target.toNat
          else if w.opcode = 0x0303 then late.modSite w.c.target.toNat (fun x => { x with nextBay := none }) else late
        (w.txn = none → Answered w.c w.cpl w.opcode 0x51 [] freed t) ∧ (∀ m, w.txn = some m → t = freed.partDone m 0x51))) ∧
    (aborts = true → (plain_ && c.txid == 0) = true → p < 64 → Completes (.abortSluice c) s (fun t =>
      answers 0x0B01 0 [] (u.stopChain ⟨p % 64, by omega⟩) t)) ∧
    (∀ f : Fin 64, (s.sluice[f]).busy = false → s.stopChain f = s) ∧
    (∀ (f : Fin 64) w, (s.sluice[f]).busy = true → s.waiting = [w] → w.at_ = .chain f.val → w.txn = none →
      Answered w.c w.cpl w.opcode 0x50 (leBytes 8 (s.sluice[f]).done) { s with
        waiting := [], sluice := s.sluice.set f { s.sluice[f] with busy := false, aborted := true } } (s.stopChain f)) ∧
    (aborts = true → (plain_ && c.txid == 0) = true → p < 2048 →
      Completes (.abortPan c) s (fun t => answers 0x0B02 0 [] (u.stopPan p) t) ∧
      Completes (.abortSession c) s (fun t => answers 0x0B04 0 [] (if (s.site p).isSome then
        { (u.stopPan p).clearSession p with waiting := (u.stopPan p).waiting ++ [{ opcode := 0x0B04, c := d, accepted := s.tb.time,
                                                                                   cpl := r.owner, at_ := .epoch, epochDone := false, epochTime := 0, txn := none, fromFrame := 0, place := none }] } else u) t)) ∧
    (∀ q x, s.site q = some x → SiteThat (s.stopPan q) q (fun y => y.mode = .idle ∧ y.phase = none ∧ y.halts = [] ∧ y.boiler = none ∨
      (x.mode = .idle ∧ y = { x with phase := none, plQ := y.plQ })) ∧ ((s.stopPan q).waiting = s.waiting.filter (fun w => !w.onPan q))) ∧
    (∀ q, s.site q = none → s.stopPan q = s) ∧
    (∀ q x, s.site q = some x → let t := s.clearSession q
      SiteThat t q (fun y => y.stream = none ∧ y.pan = x.pan ∧ y.mode = x.mode ∧ y.audio.routes = ⟨false, false, false, 0xFFFF⟩ ∧
        y.audio.nextRoutes = none) ∧ t.packets = s.packets.filter (fun k => k.pan != q) ∧
        t.copies = s.copies.filter (fun k => k.entry / 16 != q) ∧ t.i2s.pan = s.i2s.pan.filter (fun k => k != q) ∧
        t.i2s.leaving = s.i2s.leaving.filter (fun k => k.1 != q)) ∧
    (∀ w q, s.tb.counting = true → s.commits = [] → s.waiting = [w] → w.txn = none → w.at_ = .epoch → w.epochDone = false →
      w.accepted < s.nextEpoch → w.opcode = 0x0B04 → w.c.target.toNat = q → Completes .deviceEpoch s (fun t =>
        t.waiting = [] ∧ t.flows.map (fun e => e.1) = s.flows.map (fun e => e.1) ∧ (s.flows.zip t.flows).all (fun e =>
          if e.1.1 / 16 = q then !(e.2.2.bytes.headD 0).getLsbD 7 && e.2.2.bytes.tail == e.1.2.bytes.tail else decide (e.1 = e.2)) = true)) ∧
    (aborts = true → (plain_ && c.txid == 0) = true → p < 16384 → Completes (.abortRing c) s (fun t =>
      let kept := decide (p < 2) || p == c.ring || p == r.owner ||
        u.rings.any (fun e => e.2.kind == 0 && e.2.owner == p && (u.ring p).any (fun q => q.kind == 1))
      if kept then answers 0x0B03 0x31 [] u t
      else answers 0x0B03 0 [] { u with rings := Table.drop u.rings p, bittern := u.bittern.filter (fun k => k != p),
                                        held := u.held.filter (fun h => h.cpl != p)
                                        sites := u.sites.map (fun e => (e.1, { e.2 with
                                          ringLost := e.2.ringLost || e.2.obs.ring == some p })) } t)) ∧
    (aborts = true → (plain_ && c.txid == 0 && device) = true → s.sites = [] → s.waiting = [] → Completes (.abortAll c) s (fun t =>
      t.txns = [] ∧ t.waiting.map (fun w => (w.opcode, decide (w.at_ = .epoch))) = [(0x0B05, true)] ∧ t.titles = s.titles ∧ t.dram = s.dram ∧
        t.ports = s.ports ∧ t.heads = s.heads ∧ t.tb = s.tb ∧ t.flows = s.flows ∧
        (∀ k, (t.ring k).isSome = ((s.ring k).isSome && (decide (k < 2) || k == c.ring || k == r.owner))) ∧
        (∀ f : Fin 64, (t.sluice[f]).busy = false ∧ ((s.sluice[f]).busy = true → (t.sluice[f]).aborted = true)))) ∧
    (aborts = true → (plain_ && c.txid == 0 && device) = true → Completes (.abortAll c) s (fun t =>
      (∀ q, s.site q = none → t.site q = none) ∧ (∀ q x, s.site q = some x → SiteThat t q (fun y => y.mode = .idle ∧ y.phase = none ∧
        y.stream = none ∧ y.audio.routes = ⟨false, false, false, 0xFFFF⟩)) ∧ t.txns = [] ∧ t.packets = s.packets.filter (fun k =>
          !Table.has s.sites k.pan) ∧ t.titles = s.titles))

/-! ### Every step -/

/-- Every step keeps host memory and device DRAM in canonical form, each byte listed once in the order of addresses (R377). -/
def Obligations.StoresStayCanonical : Prop :=
  ∀ s t : State, s.storesWf = true → Machine.step s = .next t → t.storesWf = true

/-- After reset: no command waits, the device is held in `SYS_RST#` with no function ready and no status bit set, device time stands at 0
and does not count, no ring, pan, title, flow entry or transaction exists, W is 1,000 µs and `BATCH_FRAMES` 8, event sources are masked,
both stores are in canonical form; a pan at reset has the registers of R26, and takes 6 pan-cycles to read PC from its vector (R26, R186,
R189, R208, R333, R376); a row of the table has no word, so none decodes (notes/assumptions/11.md). -/
def Obligations.ResetState : Prop :=
  let s := Machine.State.reset
  s.pending = [] ∧ s.pwr.sysRst = true ∧ s.dev.ready = 0 ∧ s.dev.status = 0 ∧ s.tb.time = 0 ∧ s.tb.counting = false ∧ s.rings = [] ∧
    s.sites = [] ∧ s.titles = [] ∧ s.flows = [] ∧ s.txns = [] ∧ s.dev.w = 1000 ∧ s.dev.batch = 8 ∧ s.evc.en = 0 ∧ s.evc.pend = 0 ∧
    s.storesWf = true ∧
    (∀ (g : PanCfg) (tag : Word) (cram media : Memory),
      let q := Pan.reset g tag cram media
      let started := q.afterReset
      q.cpu = { a := 0, b := 0, x := 0, y := 0, k := 0, f := 0x08, p := 0, q := 0, s := 0x7FFF, pc := q.cpu.pc } ∧ q.mul.mh = 0 ∧
        q.mul.ml = 0 ∧ q.mul.inFlight = [] ∧ q.cop.r = 0 ∧ q.cop.busy = false ∧ q.hc.pend = false ∧ q.core.fault = 0 ∧ q.clk = 0 ∧
        q.frame = 0 ∧ q.wram = [] ∧ q.vram = [] ∧ q.cram = cram ∧ q.media = media ∧ q.sys.tag = tag ∧
        started.clk = 6 ∧ started.ready = true ∧ started.cpu = { q.cpu with pc := q.wordAt 0xFFFE }) ∧
    (∀ (n w : Nat) (v : State), decodeTableWord n w = none ∧ v.withFetchWord n w = v)
end

