-- ==== Sys2Proof/Laws/Table.lean ====
section
/-!
SUPPORT. What the table operations do: an object put is found, the others stay, and numbers keep rising.
-/
namespace Sys2Proof.Machine

variable {α : Type}

/-- The object put is found under its number. -/
@[simp] theorem Table.get_put_same (k : Nat) (v : α) : ∀ t : Table α, Table.get (Table.put t k v) k = some v
  | [] => by simp [Table.put, Table.get]
  | c :: t => by
    simp only [Table.put]
    split
    · simp [Table.get]
    · split
      · simp [Table.get]
      · next h => simp [Table.get, h, Table.get_put_same k v t]

/-- Objects under other numbers stay. -/
theorem Table.get_put_other {k j : Nat} (v : α) (h : j ≠ k) : ∀ t : Table α, Table.get (Table.put t k v) j = Table.get t j
  | [] => by simp [Table.put, Table.get, h]
  | c :: t => by
    simp only [Table.put]
    split
    · simp [Table.get, h]
    · split
      · next _ he => simp [Table.get, h, ← he]
      · simp [Table.get, Table.get_put_other v h t]

/-- An object is found in a table just put, or was there before. -/
theorem Table.get_put (k j : Nat) (v : α) (t : Table α) :
    Table.get (Table.put t k v) j = if j = k then some v else Table.get t j := by
  by_cases h : j = k
  · subst h; simp
  · simp [h, Table.get_put_other v h t]

/-- Objects under other numbers stay when one is dropped. -/
theorem Table.get_drop_other {k j : Nat} (h : j ≠ k) : ∀ t : Table α, Table.get (Table.drop t k) j = Table.get t j
  | [] => rfl
  | c :: t => by
    simp only [Table.drop]
    split
    · next he => subst he; simp [Table.get, h, Table.get_drop_other h t]
    · simp [Table.get, Table.get_drop_other h t]

/-- An object dropped is gone. -/
@[simp] theorem Table.get_drop_same (k : Nat) : ∀ t : Table α, Table.get (Table.drop t k) k = none
  | [] => rfl
  | c :: t => by
    simp only [Table.drop]
    split
    · exact Table.get_drop_same k t
    · next he => simp [Table.get, he, Table.get_drop_same k t]

theorem Table.sorted_mono {lo hi : Nat} (h : lo ≤ hi) : ∀ {t : Table α}, Table.sortedFrom hi t = true → Table.sortedFrom lo t = true
  | [], _ => rfl
  | c :: t, ht => by
    simp only [Table.sortedFrom, Bool.and_eq_true, decide_eq_true_eq] at ht ⊢
    exact ⟨by omega, ht.2⟩

/-- Numbers keep rising when an object is put. -/
theorem Table.put_sorted (k : Nat) (v : α) : ∀ {lo : Nat} {t : Table α}, Table.sortedFrom lo t = true → lo ≤ k →
    Table.sortedFrom lo (Table.put t k v) = true
  | lo, [], _, hk => by simp [Table.put, Table.sortedFrom, hk]
  | lo, c :: t, h, hk => by
    have h' := h
    simp only [Table.sortedFrom, Bool.and_eq_true, decide_eq_true_eq] at h'
    simp only [Table.put]
    split
    · simp only [Table.sortedFrom, Bool.and_eq_true, decide_eq_true_eq]
      exact ⟨hk, by omega, h'.2⟩
    · split
      · next he => subst he; simpa [Table.sortedFrom] using h
      · simp only [Table.sortedFrom, Bool.and_eq_true, decide_eq_true_eq]
        exact ⟨h'.1, Table.put_sorted k v h'.2 (by omega)⟩

/-- Numbers keep rising when an object is dropped. -/
theorem Table.drop_sorted (k : Nat) : ∀ {lo : Nat} {t : Table α}, Table.sortedFrom lo t = true →
    Table.sortedFrom lo (Table.drop t k) = true
  | _, [], _ => rfl
  | lo, c :: t, h => by
    simp only [Table.sortedFrom, Bool.and_eq_true, decide_eq_true_eq] at h
    simp only [Table.drop]
    split
    · exact Table.drop_sorted k (Table.sorted_mono (by omega) h.2)
    · simp only [Table.sortedFrom, Bool.and_eq_true, decide_eq_true_eq]
      exact ⟨h.1, Table.drop_sorted k h.2⟩

end Sys2Proof.Machine
end

