-- ==== Sys2Proof/Laws/Pans.lean ====
section
/-!
SUPPORT. What a step of a pan can do to the device: a step that hands nothing on and ends no frame changes the pan's own record
and nothing else.
-/
namespace Sys2Proof.Machine

/-! ### Sites -/

@[simp] theorem State.site_putSite_same (p : Nat) (x : Site) (s : State) : (s.putSite p x).site p = some x := by
  simp [State.site, State.putSite]

theorem State.site_putSite_other {p k : Nat} (h : k ≠ p) (x : Site) (s : State) : (s.putSite p x).site k = s.site k := by
  simp [State.site, State.putSite, Table.get_put_other x h]

theorem Table.put_put {α : Type} (k : Nat) (u v : α) : ∀ t : Table α, Table.put (Table.put t k u) k v = Table.put t k v
  | [] => by simp [Table.put]
  | c :: t => by
    simp only [Table.put]
    by_cases h1 : k < c.1
    · simp [h1, Table.put]
    · by_cases h2 : k = c.1
      · simp [h2, Table.put]
      · simp [h1, h2, Table.put, Table.put_put k u v t]

@[simp] theorem State.putSite_putSite (p : Nat) (x y : Site) (s : State) : (s.putSite p x).putSite p y = s.putSite p y := by
  simp [State.putSite, Table.put_put]

/-- A pan that advances is there. -/
theorem State.liveSite_site {s : State} {p : Nat} {x : Site} (h : s.liveSite p = some x) : s.site p = some x := by
  simp only [State.liveSite, Option.filter_eq_some_iff] at h
  exact h.1

/-! ### Steps that hand nothing on -/

/-- The image hands nothing on and ends no frame, and no line has been served from the crust. -/
structure Pan.Quiet (old q : Pan) : Prop where
  out : q.out = []
  frame : q.frame ≤ old.frame
  served : q.crust.served = 0

theorem State.afterPan_quiet {s : State} {p : Nat} {x : Site} {old : Pan} {q : Pan} (k : Pan.Quiet old q) :
    (s.putSite p { x with pan := q, dirty := true }).afterPan p old false = s.withPan p x q := by
  obtain ⟨k1, k2, k3⟩ := k
  have e : ({ q with out := [] } : Pan) = q := by cases q; simp_all
  have n : ¬ old.frame < q.frame := by omega
  have f : (s.putSite p { x with pan := q, dirty := true }).crystallize p = s.putSite p { x with pan := q, dirty := true } := by
    simp [State.crystallize, k3]
  simp [State.afterPan, f, State.flush, State.site_putSite_same, k1, Site.settleCredits, Site.modPan, e, n, State.withPan,
    Site.undelivered]

/-- A step that is due and hands nothing on. -/
theorem State.panStep_quiet {s : State} {p : Nat} {x : Site} {f : Pan → Option Pan} {q : Pan} (h : s.liveSite p = some x)
    (e : f x.pan = some q) (k : Pan.Quiet x.pan q) : s.panStep p f = .next (s.withPan p x q) := by
  simp only [State.panStep, h, e, State.afterPan_quiet k]

/-- A step that is not due. -/
theorem State.panStep_none {s : State} {p : Nat} {f : Pan → Option Pan} (h : ∀ x, s.liveSite p = some x → f x.pan = none) :
    s.panStep p f = .next s := by
  unfold State.panStep
  split
  · rfl
  · rename_i x e; rw [h x e]

end Sys2Proof.Machine
end

