-- ==== Sys2Proof/Laws/Writes.lean ====
section
/-!
SUPPORT. What a write of the processor can do (R29, R63): it never changes a processor register, the time or the frame, and a
write outside $E000 to $EFFF changes one byte of one memory and nothing else.
-/
namespace Sys2Proof.Machine

/-- What a write leaves alone whatever its address: the registers, the time, the frame, the picture being drawn, the pan's settings,
and of the processor's running state all but the NMI line. -/
structure Pan.WriteFrame (p q : Pan) : Prop where
  cpu : q.cpu = p.cpu
  core : q.core = { p.core with nmi := q.core.nmi }
  clk : q.clk = p.clk
  frame : q.frame = p.frame
  frameStart : q.frameStart = p.frameStart
  rake : q.rake = p.rake
  cfg : q.cfg = p.cfg
  cop : q.cop = p.cop
  mul : q.mul = p.mul
  served : q.crust.served = p.crust.served

theorem Pan.WriteFrame.refl (p : Pan) : Pan.WriteFrame p p := ⟨rfl, rfl, rfl, rfl, rfl, rfl, rfl, rfl, rfl, rfl⟩

theorem Pan.WriteFrame.trans {p q r : Pan} (h : Pan.WriteFrame p q) (k : Pan.WriteFrame q r) : Pan.WriteFrame p r :=
  ⟨k.1.trans h.1, by rw [k.2, h.2], k.3.trans h.3, k.4.trans h.4, k.5.trans h.5, k.6.trans h.6, k.7.trans h.7, k.8.trans h.8,
    k.9.trans h.9, k.10.trans h.10⟩

theorem Pan.WriteFrame.ite {c : Prop} {_ : Decidable c} {p a b : Pan} (h : Pan.WriteFrame p a) (k : Pan.WriteFrame p b) :
    Pan.WriteFrame p (if c then a else b) := by
  split
  · exact h
  · exact k

/-- A change to a unit that no write frame names. -/
theorem Pan.WriteFrame.unit {p q : Pan} (h1 : q.cpu = p.cpu := by rfl) (h2 : q.core = p.core := by rfl)
    (h3 : q.clk = p.clk := by rfl) (h4 : q.frame = p.frame := by rfl) (h5 : q.frameStart = p.frameStart := by rfl)
    (h6 : q.rake = p.rake := by rfl) (h7 : q.cfg = p.cfg := by rfl) (h8 : q.cop = p.cop := by rfl)
    (h9 : q.mul = p.mul := by rfl) (h10 : q.crust.served = p.crust.served := by rfl) : Pan.WriteFrame p q :=
  ⟨h1, by rw [h2], h3, h4, h5, h6, h7, h8, h9, h10⟩

theorem Pan.modCrc_frame (f : Crc → Crc) (p : Pan) : Pan.WriteFrame p (p.modCrc f) := .unit
theorem Pan.modSys_frame (f : SysRegs → SysRegs) (p : Pan) : Pan.WriteFrame p (p.modSys f) := .unit
theorem Pan.modHc_frame (f : HostCall → HostCall) (p : Pan) : Pan.WriteFrame p (p.modHc f) := .unit
theorem Pan.modDma_frame (n : Fin 4) (f : Dma → Dma) (p : Pan) : Pan.WriteFrame p (p.modDma n f) := .unit
theorem Pan.oam_frame (m : Memory) (p : Pan) : Pan.WriteFrame p { p with oam := m } := .unit
theorem Pan.wave_frame (m : Memory) (p : Pan) : Pan.WriteFrame p { p with wave := m } := .unit
theorem Pan.wram_frame (m : Memory) (p : Pan) : Pan.WriteFrame p { p with wram := m } := .unit
theorem Pan.vram_frame (m : Memory) (p : Pan) : Pan.WriteFrame p { p with vram := m } := .unit
theorem Pan.cram_frame (m : Memory) (p : Pan) : Pan.WriteFrame p { p with cram := m } := .unit
theorem Pan.late_frame (m : Option (Nat × Byte × Nat)) (p : Pan) : Pan.WriteFrame p { p with late := m } := .unit

theorem Pan.markGrain_frame (g : Nat) (p : Pan) : Pan.WriteFrame p (p.markGrain g) :=
  .unit (h10 := by simp only [Pan.markGrain]; split <;> rfl)

theorem Pan.pendSrc_frame (n : Nat) (p : Pan) : Pan.WriteFrame p (p.pendSrc n) := Pan.WriteFrame.unit

theorem Pan.mvReady_frame (r : BitVec 4) (p : Pan) : Pan.WriteFrame p (p.mvReady r) := by
  unfold Pan.mvReady
  simp only []
  split
  · exact Pan.WriteFrame.trans (Pan.WriteFrame.unit (q := p.modRas _)) (Pan.pendSrc_frame _ _)
  · exact Pan.WriteFrame.unit

theorem Pan.lineWrite_frame (dot rank k a : Nat) (w : Word) (p : Pan) : Pan.WriteFrame p (p.lineWrite dot rank k a w) :=
  Pan.WriteFrame.unit

theorem Pan.rasWrite_frame (e dot rank o : Nat) (v : Byte) (p : Pan) : Pan.WriteFrame p (p.rasWrite e dot rank o v) := by
  unfold Pan.rasWrite Pan.movePair
  repeat' first
    | exact Pan.WriteFrame.refl _ | exact Pan.lineWrite_frame _ _ _ _ _ _ | exact Pan.mvReady_frame _ _ | split
    | exact Pan.WriteFrame.unit

theorem Pan.mbDeliver_frame (p : Pan) : Pan.WriteFrame p p.mbDeliver := by
  unfold Pan.mbDeliver
  split
  · exact Pan.WriteFrame.refl _
  · split
    · exact Pan.WriteFrame.refl _
    · simp only []
      split
      · exact ⟨rfl, rfl, rfl, rfl, rfl, rfl, rfl, rfl, rfl, rfl⟩
      · exact Pan.WriteFrame.unit

theorem Pan.mbWrite_frame (o : Nat) (v : Byte) (p : Pan) : Pan.WriteFrame p (p.mbWrite o v) := by
  have i : Pan.WriteFrame p p.mbInack :=
    Pan.WriteFrame.trans (Pan.WriteFrame.unit (q := p.modMb (fun b => { b with full := false }))) (Pan.mbDeliver_frame _)
  have snd : ∀ q : Pan, Pan.WriteFrame q q.mbSend := fun q => Pan.WriteFrame.unit
  unfold Pan.mbWrite
  split <;> try exact Pan.WriteFrame.unit
  simp only []
  split <;> split
  · exact i.trans (snd _)
  · exact snd _
  · exact i
  · exact Pan.WriteFrame.refl _

theorem Pan.capture_frame (n : Fin 4) (p : Pan) : Pan.WriteFrame p (p.capture n) := by
  unfold Pan.capture
  simp only []
  repeat' first | exact Pan.WriteFrame.refl _ | split | exact Pan.WriteFrame.unit

theorem Pan.tmWrite_frame (e : Nat) (n : Fin 4) (o : Nat) (v : Byte) (p : Pan) : Pan.WriteFrame p (p.tmWrite e n o v) := by
  unfold Pan.tmWrite
  split
  · simp only []
    split
    · exact Pan.WriteFrame.trans (Pan.capture_frame n p) Pan.WriteFrame.unit
    · exact Pan.WriteFrame.unit
  · exact Pan.WriteFrame.refl _

theorem Pan.s0Refill_frame (p : Pan) : Pan.WriteFrame p p.s0Refill := by
  unfold Pan.s0Refill Pan.s0Refuse
  repeat' first | exact Pan.WriteFrame.refl _ | split | exact Pan.WriteFrame.unit

theorem Pan.s0Own_frame (e : Nat) (p : Pan) : Pan.WriteFrame p (p.s0Own e) := by
  unfold Pan.s0Own
  refine Pan.WriteFrame.trans ?_ (Pan.s0Refill_frame _)
  exact Pan.WriteFrame.unit

theorem Pan.s0Disable_frame (b : Bool) (p : Pan) : Pan.WriteFrame p (p.s0Disable b) := by
  unfold Pan.s0Disable
  cases b <;> exact Pan.WriteFrame.unit

theorem Pan.s0Control_frame (e : Nat) (v : Byte) (p : Pan) : Pan.WriteFrame p (p.s0Control e v) := by
  have en : ∀ q : Pan, Pan.WriteFrame q (q.s0Enable e) := by
    intro q
    unfold Pan.s0Enable
    simp only []
    split
    · exact Pan.WriteFrame.trans (Pan.WriteFrame.unit (q := q.modS0 _)) (Pan.s0Own_frame e _)
    · exact Pan.WriteFrame.unit
  unfold Pan.s0Control
  simp only []
  generalize (if p.snd.s0.ctl.getLsbD 7 && v.getLsbD 7 then _ else _ : Byte) = c
  have b : Pan.WriteFrame p (p.modS0 (fun s => { s with ctl := c })) := Pan.WriteFrame.unit
  split
  · split
    · exact b.trans Pan.WriteFrame.unit
    · exact b
  · split
    · exact b.trans (en _)
    · split
      · exact b.trans (Pan.s0Disable_frame _ _)
      · exact b

theorem Pan.s0Write_frame (e o : Nat) (v : Byte) (p : Pan) : Pan.WriteFrame p (p.s0Write e o v) := by
  unfold Pan.s0Write Pan.s0Rate
  simp only []
  split <;> first
    | exact Pan.s0Control_frame e v p | exact Pan.WriteFrame.refl _ | exact Pan.WriteFrame.unit
    | (split <;> first | exact Pan.WriteFrame.refl _ | exact Pan.WriteFrame.unit)

theorem Pan.lateWrite_frame (e o : Nat) (v : Byte) (p : Pan) : Pan.WriteFrame p (p.lateWrite e o v) := by
  unfold Pan.lateWrite Pan.sndWrite
  split
  · split
    · exact Pan.WriteFrame.unit
    · exact Pan.s0Write_frame _ _ _ _
  · split
    · exact Pan.tmWrite_frame _ _ _ _ _
    · exact Pan.WriteFrame.unit

theorem Pan.icWrite_frame (o : Nat) (v : Byte) (p : Pan) : Pan.WriteFrame p (p.icWrite o v) := by
  unfold Pan.icWrite
  split
  · split <;> exact Pan.WriteFrame.unit
  · exact Pan.WriteFrame.unit

theorem Pan.dmaSettle_frame (p : Pan) : Pan.WriteFrame p p.dmaSettle := by
  unfold Pan.dmaSettle
  split
  · exact Pan.WriteFrame.refl _
  · split
    · exact Pan.WriteFrame.unit
    · exact Pan.WriteFrame.refl _

theorem Pan.palWrite_frame (dot rank x : Nat) (v : Byte) (p : Pan) : Pan.WriteFrame p (p.palWrite dot rank x v) := by
  unfold Pan.palWrite
  split
  · exact Pan.WriteFrame.unit
  · exact Pan.lineWrite_frame _ _ _ _ _ _

theorem Pan.ioWrite_frame (dot rank o : Nat) (v : Byte) (p : Pan) : Pan.WriteFrame p (p.ioWrite dot rank o v) := by
  unfold Pan.ioWrite
  simp only []
  refine .ite (Pan.rasWrite_frame _ _ _ _ _ _) (.ite (.ite (Pan.lateWrite_frame _ _ _ _) (Pan.late_frame _ _)) (.ite (.refl _)
    (.ite (Pan.icWrite_frame _ _ _) (.ite ?_ (.ite (.refl _) (.ite (Pan.modCrc_frame _ _) (.ite (.refl _)
    (.ite (Pan.modSys_frame _ _) (.ite (Pan.modHc_frame _ _) (.ite (Pan.mbWrite_frame _ _ _) (.ite (.refl _)
    (.ite (Pan.oam_frame _ _) (Pan.palWrite_frame _ _ _ _ _)))))))))))))
  exact (Pan.modDma_frame _ _ _).trans (Pan.dmaSettle_frame _)

theorem Pan.pokeAt_frame (dot : Nat) (a : Word) (v : Byte) (p : Pan) : Pan.WriteFrame p (p.pokeAt dot a v) := by
  unfold Pan.pokeAt Pan.bankWrite
  simp only []
  exact .ite ((Pan.wram_frame _ _).trans (Pan.markGrain_frame _ _)) (.ite (.ite ((Pan.cram_frame _ _).trans (Pan.markGrain_frame _ _)) (.refl _))
    (.ite ((Pan.vram_frame _ _).trans (Pan.markGrain_frame _ _)) (.ite (Pan.ioWrite_frame _ _ _ _ _) (.refl _))))

/-- A write of the processor, wherever it goes. -/
theorem Pan.poke_frame (a : Word) (v : Byte) (p : Pan) : Pan.WriteFrame p (p.poke a v) := Pan.pokeAt_frame 0 a v p

@[simp] theorem Pan.poke_cpu (a : Word) (v : Byte) (p : Pan) : (p.poke a v).cpu = p.cpu := (Pan.poke_frame a v p).cpu
@[simp] theorem Pan.poke_clk (a : Word) (v : Byte) (p : Pan) : (p.poke a v).clk = p.clk := (Pan.poke_frame a v p).clk
@[simp] theorem Pan.poke_frameNo (a : Word) (v : Byte) (p : Pan) : (p.poke a v).frame = p.frame := (Pan.poke_frame a v p).frame
@[simp] theorem Pan.poke_rake (a : Word) (v : Byte) (p : Pan) : (p.poke a v).rake = p.rake := (Pan.poke_frame a v p).rake
@[simp] theorem Pan.poke_served (a : Word) (v : Byte) (p : Pan) : (p.poke a v).crust.served = p.crust.served := (Pan.poke_frame a v p).served
@[simp] theorem Pan.poke_rep (a : Word) (v : Byte) (p : Pan) : (p.poke a v).core.rep = p.core.rep := by
  rw [(Pan.poke_frame a v p).core]
@[simp] theorem Pan.poke_cyc (a : Word) (v : Byte) (p : Pan) : (p.poke a v).core.cyc = p.core.cyc := by
  rw [(Pan.poke_frame a v p).core]
@[simp] theorem Pan.poke_tmp (a : Word) (v : Byte) (p : Pan) : (p.poke a v).core.tmp = p.core.tmp := by
  rw [(Pan.poke_frame a v p).core]
@[simp] theorem Pan.poke_opd (a : Word) (v : Byte) (p : Pan) : (p.poke a v).core.opd = p.core.opd := by
  rw [(Pan.poke_frame a v p).core]

/-- A write outside $E000 to $EFFF changes memory alone, and marks its grain. -/
theorem Pan.poke_plain {a : Word} (h : plainAddr a) (v : Byte) (p : Pan) :
    p.poke a v = { p with wram := (p.poke a v).wram, vram := (p.poke a v).vram, cram := (p.poke a v).cram,
                          dirty := (p.poke a v).dirty, crust := (p.poke a v).crust } := by
  unfold plainAddr at h
  unfold Pan.poke Pan.pokeAt Pan.bankWrite
  simp only []
  by_cases h1 : a.toNat < 0x8000
  · simp only [h1, if_true]; rfl
  simp only [h1, if_false]
  by_cases h2 : a.toNat < 0xC000
  · simp only [h2, if_true]
    split <;> rfl
  simp only [h2, if_false]
  by_cases h3 : a.toNat < 0xE000
  · simp only [h3, if_true]; rfl
  have h4 : ¬ a.toNat < 0xF000 := by omega
  simp only [h3, h4, if_false]

theorem Pan.poke_plain_abort {a : Word} (h : plainAddr a) (v : Byte) (p : Pan) : (p.poke a v).abort = p.abort := by
  rw [Pan.poke_plain h]
theorem Pan.poke_plain_out {a : Word} (h : plainAddr a) (v : Byte) (p : Pan) : (p.poke a v).out = p.out := by
  rw [Pan.poke_plain h]

end Sys2Proof.Machine
end

