-- ==== Sys2Proof/Laws/Settled.lean ====
section
/-!
SUPPORT. What the end of a pan-cycle can do (R146, R163): it leaves the processor, the time and the frame alone, and nothing waits after it.
-/
namespace Sys2Proof.Machine

/-! ### What it leaves alone -/

theorem Pan.modTm_frame (n : Fin 4) (f : Timer → Timer) (p : Pan) : Pan.WriteFrame p (p.modTm n f) := .unit

theorem Pan.onlyIf_frame {b : Bool} {f : Pan → Pan} {p : Pan} (h : Pan.WriteFrame p (f p)) : Pan.WriteFrame p (p.onlyIf b f) := by
  cases b
  · exact .refl _
  · exact h

theorem Pan.matchLink_frame (n : Fin 4) (p : Pan) : Pan.WriteFrame p (p.matchLink n) := by
  unfold Pan.matchLink
  exact .ite (Pan.modTm_frame _ _ _) ((Pan.modTm_frame _ _ _).trans (Pan.modTm_frame _ _ _))

theorem Pan.capNow_frame (p : Pan) : Pan.WriteFrame p p.capNow := by
  unfold Pan.capNow
  split
  · exact .ite (Pan.capture_frame _ _) (.refl _)
  · exact .refl _

theorem forFour_frame {f : Fin 4 → Pan → Pan} (h : ∀ n p, Pan.WriteFrame p (f n p)) (p : Pan) : Pan.WriteFrame p (forFour f p) :=
  (((h 0 p).trans (h 1 _)).trans (h 2 _)).trans (h 3 _)

theorem Pan.runActs_frame (p : Pan) : Pan.WriteFrame p p.runActs :=
  ((Pan.capNow_frame p).trans (forFour_frame (fun n q => Pan.onlyIf_frame (Pan.modTm_frame n _ q)) _)).trans
    (forFour_frame (fun n q => Pan.onlyIf_frame (Pan.matchLink_frame n q)) _)

theorem Pan.lateApply_frame (p : Pan) : Pan.WriteFrame p p.lateApply := by
  unfold Pan.lateApply
  split
  · exact (Pan.late_frame none p).trans (Pan.lateWrite_frame _ _ _ _)
  · exact .refl _

/-- The end of a pan-cycle leaves the registers, the time, the frame and the picture alone. -/
theorem Pan.settle_frame (p : Pan) : Pan.WriteFrame p p.settle := by
  unfold Pan.settle
  simp only []
  refine .ite (((Pan.runActs_frame p).trans (Pan.lateApply_frame _)).trans ?_) (.refl _)
  unfold Pan.lowCheck
  exact .ite (Pan.pendSrc_frame _ _) (.refl _)

@[simp] theorem Pan.settle_frameNo (p : Pan) : p.settle.frame = p.frame := (Pan.settle_frame p).frame
@[simp] theorem Pan.settle_clk (p : Pan) : p.settle.clk = p.clk := (Pan.settle_frame p).clk
@[simp] theorem Pan.settle_cpu (p : Pan) : p.settle.cpu = p.cpu := (Pan.settle_frame p).cpu
@[simp] theorem Pan.settle_rep (p : Pan) : p.settle.core.rep = p.core.rep := by rw [(Pan.settle_frame p).core]
@[simp] theorem Pan.settle_ea (p : Pan) : p.settle.core.ea = p.core.ea := by rw [(Pan.settle_frame p).core]
@[simp] theorem Pan.settle_served (p : Pan) : p.settle.crust.served = p.crust.served := (Pan.settle_frame p).served

/-! ### Nothing waits after it -/

/-- Which timers have actions due, the write that waits and what the pan hands on are the same. -/
structure Pan.SameActs (p q : Pan) : Prop where
  late : q.late = p.late
  acts : ∀ n : Fin 4, (q.tm[n]).acts = (p.tm[n]).acts
  out : q.out = p.out
  abort : q.abort = p.abort

theorem Pan.SameActs.refl (p : Pan) : Pan.SameActs p p := ⟨rfl, fun _ => rfl, rfl, rfl⟩

theorem Pan.SameActs.trans {p q r : Pan} (h : Pan.SameActs p q) (k : Pan.SameActs q r) : Pan.SameActs p r :=
  ⟨k.1.trans h.1, fun n => (k.2 n).trans (h.2 n), k.3.trans h.3, k.4.trans h.4⟩

theorem Pan.SameActs.ite {c : Prop} {_ : Decidable c} {p a b : Pan} (h : Pan.SameActs p a) (k : Pan.SameActs p b) :
    Pan.SameActs p (if c then a else b) := by
  split
  · exact h
  · exact k

/-- A change to a unit other than the timers. -/
theorem Pan.SameActs.unit {p q : Pan} (h : q.late = p.late := by rfl) (k : q.tm = p.tm := by rfl) (o : q.out = p.out := by rfl)
    (a : q.abort = p.abort := by rfl) : Pan.SameActs p q :=
  ⟨h, fun _ => by rw [k], o, a⟩

theorem Pan.modTm_get (n m : Fin 4) (f : Timer → Timer) (p : Pan) : (p.modTm n f).tm[m] = if n = m then f p.tm[n] else p.tm[m] := by
  simp only [Pan.modTm, vmod, Fin.getElem_fin, Vector.getElem_set, Fin.val_inj]

/-- A change to a timer that leaves its pending actions. -/
theorem Pan.SameActs.timer {n : Fin 4} {f : Timer → Timer} {p : Pan} (h : ∀ t, (f t).acts = t.acts) : Pan.SameActs p (p.modTm n f) := by
  refine ⟨rfl, fun m => ?_, rfl, rfl⟩
  rw [Pan.modTm_get]
  split
  · rename_i e; subst e; exact h _
  · rfl

theorem Timer.written_acts (e o : Nat) (v : Byte) (t : Timer) : (t.written e o v).acts = t.acts := by
  unfold Timer.written
  split <;> rfl

theorem Pan.capture_acts (n : Fin 4) (p : Pan) : Pan.SameActs p (p.capture n) := by
  have k : Pan.SameActs p (p.modTm n (Timer.capture p.clk (p.countAfter n))) := .timer (fun _ => rfl)
  unfold Pan.capture
  simp only []
  exact .ite (.refl _) (.ite (k.trans .unit) k)

theorem Pan.tmWrite_acts (e : Nat) (n : Fin 4) (o : Nat) (v : Byte) (p : Pan) : Pan.SameActs p (p.tmWrite e n o v) := by
  have k : ∀ q : Pan, Pan.SameActs q (q.modTm n (Timer.written e o v)) := fun _ => .timer (Timer.written_acts e o v)
  unfold Pan.tmWrite
  simp only []
  refine .ite (.trans ?_ (k _)) (.refl _)
  exact .ite (Pan.capture_acts n p) (.refl _)

theorem Pan.s0Refill_acts (p : Pan) : Pan.SameActs p p.s0Refill := by
  unfold Pan.s0Refill Pan.s0Refuse
  repeat' first | exact Pan.SameActs.refl _ | split | exact Pan.SameActs.unit

theorem Pan.s0PassStart_acts (p : Pan) : Pan.SameActs p p.s0PassStart := by
  unfold Pan.s0PassStart
  exact .unit

theorem Pan.s0Own_acts (e : Nat) (p : Pan) : Pan.SameActs p (p.s0Own e) := by
  have h : Pan.SameActs p ((p.modDma 3 Dma.stop).modTm 3 (Timer.forS0 e p.snd.s0)) :=
    Pan.SameActs.trans (q := p.modDma 3 Dma.stop) .unit (.timer (fun _ => rfl))
  exact (h.trans (Pan.s0PassStart_acts _)).trans (Pan.s0Refill_acts _)

theorem Pan.s0Enable_acts (e : Nat) (p : Pan) : Pan.SameActs p (p.s0Enable e) := by
  unfold Pan.s0Enable
  simp only []
  refine .ite (Pan.SameActs.trans ?_ (Pan.s0Own_acts e _)) ?_
  all_goals exact .unit

theorem Pan.s0Disable_acts (b : Bool) (p : Pan) : Pan.SameActs p (p.s0Disable b) := by
  unfold Pan.s0Disable
  cases b
  · exact .unit
  · exact Pan.SameActs.trans (q := (p.modS0 _).modDma 3 Dma.stop) .unit (.timer (fun _ => rfl))

theorem Pan.s0Control_acts (e : Nat) (v : Byte) (p : Pan) : Pan.SameActs p (p.s0Control e v) := by
  unfold Pan.s0Control
  simp only []
  generalize (if p.snd.s0.ctl.getLsbD 7 && v.getLsbD 7 then _ else _ : Byte) = c
  have b : Pan.SameActs p (p.modS0 (fun s => { s with ctl := c })) := .unit
  exact .ite (.ite (b.trans (.timer (fun _ => rfl))) b) (.ite (b.trans (Pan.s0Enable_acts _ _)) (.ite (b.trans (Pan.s0Disable_acts _ _)) b))

theorem Pan.s0Write_acts (e o : Nat) (v : Byte) (p : Pan) : Pan.SameActs p (p.s0Write e o v) := by
  have b : ∀ f, Pan.SameActs p (p.modS0 f) := fun _ => .unit
  have r : Pan.SameActs p (p.s0Rate v) := by
    unfold Pan.s0Rate
    exact .ite ((b _).trans (.timer (fun _ => rfl))) (b _)
  unfold Pan.s0Write
  split <;> first
    | exact Pan.s0Control_acts e v p | exact r | exact Pan.SameActs.refl _ | exact Pan.SameActs.unit | exact .ite (.refl _) .unit

theorem Pan.lateWrite_acts (e o : Nat) (v : Byte) (p : Pan) : Pan.SameActs p (p.lateWrite e o v) := by
  unfold Pan.lateWrite Pan.sndWrite
  refine .ite ?_ (.ite (Pan.tmWrite_acts _ _ _ _ _) .unit)
  split
  · exact .unit
  · exact Pan.s0Write_acts _ _ _ _

theorem Pan.matchSelf_acts (n : Fin 4) (p : Pan) : Pan.SameActs p (p.matchSelf n) :=
  .timer (fun t => by split <;> rfl)

theorem Timer.linked_acts (code clk : Nat) (t : Timer) : (t.linked code clk).acts = t.acts := by
  unfold Timer.linked
  split <;> rfl

/-- LINK deals with its own timer's match and leaves the others'. -/
theorem Pan.matchLink_acts (n m : Fin 4) (p : Pan) : ((p.matchLink n).tm[m]).acts = if n = m then false else (p.tm[m]).acts := by
  have a : ∀ q : Pan, ((q.modTm n (fun t => { t with acts := false })).tm[m]).acts = if n = m then false else (q.tm[m]).acts := by
    intro q
    rw [Pan.modTm_get]
    split <;> rfl
  unfold Pan.matchLink
  simp only []
  split
  · exact a p
  · rw [(Pan.SameActs.timer (Timer.linked_acts _ _)).acts m]
    exact a p

theorem Pan.matchLink_late (n : Fin 4) (p : Pan) : (p.matchLink n).late = p.late := by
  unfold Pan.matchLink
  simp only []
  split <;> rfl

theorem Pan.linkIf_acts (n m : Fin 4) (p : Pan) :
    ((p.onlyIf (p.tm[n]).acts (Pan.matchLink n)).tm[m]).acts = if n = m then false else (p.tm[m]).acts := by
  cases h : (p.tm[n]).acts
  · simp only [Pan.onlyIf, Bool.false_eq_true, if_false]
    split
    · rename_i e; rw [← e]; exact h
    · rfl
  · exact Pan.matchLink_acts n m p

theorem Pan.linkIf_late (n : Fin 4) (b : Bool) (p : Pan) : (p.onlyIf b (Pan.matchLink n)).late = p.late := by
  cases b
  · rfl
  · exact Pan.matchLink_late n p

/-- Once the actions have run none is due. -/
theorem Pan.runActs_done (p : Pan) : p.runActs.actsDue = false := by
  have h : ∀ q : Pan, ∀ m : Fin 4, ((forFour (fun n q => q.onlyIf (q.tm[n]).acts (Pan.matchLink n)) q).tm[m]).acts = false := by
    intro q m
    unfold forFour
    rw [Pan.linkIf_acts 3, Pan.linkIf_acts 2, Pan.linkIf_acts 1, Pan.linkIf_acts 0]
    match m with
    | 0 | 1 | 2 | 3 => rfl
  unfold Pan.actsDue Pan.runActs
  simp only [h]
  rfl

/-- The actions of matches leave the write that waits. -/
@[simp] theorem Pan.runActs_late (p : Pan) : p.runActs.late = p.late := by
  have c : p.capNow.late = p.late := by
    unfold Pan.capNow
    split
    · split
      · exact (Pan.capture_acts _ p).late
      · rfl
    · rfl
  have s : ∀ (n : Fin 4) (b : Bool) (q : Pan), (q.onlyIf b (Pan.matchSelf n)).late = q.late := by
    intro n b q
    cases b <;> rfl
  unfold Pan.runActs forFour
  simp only [Pan.linkIf_late, s, c]

/-- Without actions due and without CAPNOW written the pan-cycle has none to run. -/
theorem Pan.runActs_none {p : Pan} (h : p.actsDue = false) (k : p.capNow = p) : p.runActs = p := by
  have a : ∀ n : Fin 4, (p.tm[n]).acts = false := by
    intro n
    simp only [Pan.actsDue, List.any_eq_false] at h
    simpa using h n (List.mem_finRange n)
  unfold Pan.runActs forFour
  simp only [k, Pan.onlyIf, a, Bool.false_eq_true, if_false]

/-- After the end of a pan-cycle nothing of it waits. -/
@[simp] theorem Pan.settle_calm (p : Pan) : p.settle.unsettled = false := by
  unfold Pan.settle
  split
  · simp only []
    have l : ∀ (k m : Nat) (q : Pan), (q.lowCheck k m).unsettled = q.unsettled := by
      intro k m q
      unfold Pan.lowCheck
      split <;> rfl
    rw [l]
    have d := Pan.runActs_done p
    generalize p.runActs = r at d
    have s : Pan.SameActs { r with late := none } r.lateApply := by
      unfold Pan.lateApply
      split
      · exact Pan.lateWrite_acts _ _ _ _
      · rename_i e; exact ⟨e, fun _ => rfl, rfl, rfl⟩
    have e : r.lateApply.actsDue = r.actsDue := by
      unfold Pan.actsDue
      simp only [s.acts]
    simp only [Pan.unsettled, e, d, s.late, Option.isSome_none, Bool.or_false]
  · rename_i h; simpa using h

/-- The end of a pan-cycle hands nothing on. -/
theorem Pan.settle_hands (p : Pan) : p.settle.out = p.out ∧ p.settle.abort = p.abort := by
  have o : ∀ (b : Bool) (f : Pan → Pan) (q : Pan), ((f q).out = q.out ∧ (f q).abort = q.abort) →
      (q.onlyIf b f).out = q.out ∧ (q.onlyIf b f).abort = q.abort := by
    intro b f q h
    cases b
    · exact ⟨rfl, rfl⟩
    · exact h
  have l : ∀ (n : Fin 4) (q : Pan), (q.matchLink n).out = q.out ∧ (q.matchLink n).abort = q.abort := by
    intro n q
    unfold Pan.matchLink
    simp only []
    split <;> exact ⟨rfl, rfl⟩
  have f : ∀ {g : Fin 4 → Pan → Pan}, (∀ n q, (g n q).out = q.out ∧ (g n q).abort = q.abort) → ∀ q : Pan,
      (forFour g q).out = q.out ∧ (forFour g q).abort = q.abort := by
    intro g h q
    unfold forFour
    simp only [h, and_self]
  have c : p.capNow.out = p.out ∧ p.capNow.abort = p.abort := by
    unfold Pan.capNow
    split
    · split
      · exact ⟨(Pan.capture_acts _ p).out, (Pan.capture_acts _ p).abort⟩
      · exact ⟨rfl, rfl⟩
    · exact ⟨rfl, rfl⟩
  have r : p.runActs.out = p.out ∧ p.runActs.abort = p.abort := by
    unfold Pan.runActs
    rw [(f (fun n q => o _ _ q (l n q)) _).1, (f (fun n q => o _ _ q (l n q)) _).2,
      (f (fun n q => o _ (Pan.matchSelf n) q ⟨rfl, rfl⟩) _).1, (f (fun n q => o _ (Pan.matchSelf n) q ⟨rfl, rfl⟩) _).2]
    exact c
  have a : ∀ q : Pan, q.lateApply.out = q.out ∧ q.lateApply.abort = q.abort := by
    intro q
    unfold Pan.lateApply
    split
    · exact ⟨(Pan.lateWrite_acts _ _ _ _).out, (Pan.lateWrite_acts _ _ _ _).abort⟩
    · exact ⟨rfl, rfl⟩
  have w : ∀ (k m : Nat) (q : Pan), (q.lowCheck k m).out = q.out ∧ (q.lowCheck k m).abort = q.abort := by
    intro k m q
    unfold Pan.lowCheck
    split <;> exact ⟨rfl, rfl⟩
  unfold Pan.settle
  split
  · simp only [(w _ _ _).1, (w _ _ _).2, (a _).1, (a _).2, r, and_self]
  · exact ⟨rfl, rfl⟩

@[simp] theorem Pan.settle_out (p : Pan) : p.settle.out = p.out := (Pan.settle_hands p).1
@[simp] theorem Pan.settle_abort (p : Pan) : p.settle.abort = p.abort := (Pan.settle_hands p).2

/-- The end of a pan-cycle comes once. -/
theorem Pan.settle_of_calm {p : Pan} (h : p.unsettled = false) : p.settle = p := by simp [Pan.settle, h]

end Sys2Proof.Machine
end

