-- ==== Sys2Proof/Laws/Plans.lean ====
section
/-!
SUPPORT. What the pan-cycles of the processor can do: reads change no memory and leave the processor alone, the plan of an
instruction runs pan-cycle by pan-cycle, and its last pan-cycle samples and ends it.
-/
namespace Sys2Proof.Machine

/-! ### Reads (R28, R69) -/

/-- What a read with side effects can change: the units whose registers a read touches, and of the raster neither the palette
nor the writes that wait. -/
structure Pan.ReadFrame (p q : Pan) : Prop where
  eq : q = { p with ras := q.ras, tm := q.tm, ic := q.ic, crc := q.crc, sys := q.sys, slots := q.slots }
  palW : q.ras.palW = p.ras.palW
  palF : q.ras.palF = p.ras.palF
  lineQ : q.ras.lineQ = p.ras.lineQ

theorem Pan.touch_frame (a : Word) (p : Pan) : Pan.ReadFrame p (p.touch a) := by
  unfold Pan.touch
  split
  · generalize a.toNat - 0xE000 = o
    simp only [Pan.ioTouch, Pan.beamLatched, Pan.sprStatCleared, Pan.modRas, Pan.modTm, Pan.modIc, Pan.modCrc, Pan.modSys,
      Pan.modSlot]
    by_cases h1 : o = 0x008
    · rw [if_pos h1]; exact ⟨rfl, rfl, rfl, rfl⟩
    rw [if_neg h1]
    by_cases h2 : o = 0x061
    · rw [if_pos h2]; exact ⟨rfl, rfl, rfl, rfl⟩
    rw [if_neg h2]
    by_cases h3 : 0x180 ≤ o ∧ o < 0x1C0
    · rw [if_pos h3]; exact ⟨rfl, rfl, rfl, rfl⟩
    rw [if_neg h3]
    by_cases h4 : o = 0x1DC
    · rw [if_pos h4]; exact ⟨rfl, rfl, rfl, rfl⟩
    rw [if_neg h4]
    by_cases h5 : o = 0x2A8
    · rw [if_pos h5]; exact ⟨rfl, rfl, rfl, rfl⟩
    rw [if_neg h5]
    by_cases h6 : 0x2C0 ≤ o ∧ o < 0x2E0
    · rw [if_pos h6]
      generalize SysRegs.touched (o - 0x2C0) = f
      exact ⟨rfl, rfl, rfl, rfl⟩
    rw [if_neg h6]
    by_cases h7 : 0x300 ≤ o ∧ o < 0x380
    · rw [if_pos h7]
      generalize slotOf (o - 0x300) = k
      generalize InSlot.touched (o % 8) = f
      exact ⟨rfl, rfl, rfl, rfl⟩
    rw [if_neg h7]; exact ⟨rfl, rfl, rfl, rfl⟩
  · exact ⟨rfl, rfl, rfl, rfl⟩

/-- A read outside $E000 to $EFFF changes nothing. -/
theorem Pan.touch_plain {a : Word} (h : plainAddr a) (p : Pan) : p.touch a = p := by
  unfold plainAddr at h
  simp only [Pan.touch]
  rw [if_neg (by omega)]

@[simp] theorem Pan.touch_cpu (a : Word) (p : Pan) : (p.touch a).cpu = p.cpu := by rw [(Pan.touch_frame a p).eq]
@[simp] theorem Pan.touch_core (a : Word) (p : Pan) : (p.touch a).core = p.core := by rw [(Pan.touch_frame a p).eq]
@[simp] theorem Pan.touch_clk (a : Word) (p : Pan) : (p.touch a).clk = p.clk := by rw [(Pan.touch_frame a p).eq]
@[simp] theorem Pan.touch_out (a : Word) (p : Pan) : (p.touch a).out = p.out := by rw [(Pan.touch_frame a p).eq]
@[simp] theorem Pan.touch_abort (a : Word) (p : Pan) : (p.touch a).abort = p.abort := by rw [(Pan.touch_frame a p).eq]
@[simp] theorem Pan.touch_frameNo (a : Word) (p : Pan) : (p.touch a).frame = p.frame := by rw [(Pan.touch_frame a p).eq]
@[simp] theorem Pan.touch_crust (a : Word) (p : Pan) : (p.touch a).crust = p.crust := by rw [(Pan.touch_frame a p).eq]
@[simp] theorem Pan.touch_cop (a : Word) (p : Pan) : (p.touch a).cop = p.cop := by rw [(Pan.touch_frame a p).eq]
@[simp] theorem Pan.touch_mul (a : Word) (p : Pan) : (p.touch a).mul = p.mul := by rw [(Pan.touch_frame a p).eq]
@[simp] theorem Pan.touch_hc (a : Word) (p : Pan) : (p.touch a).hc = p.hc := by rw [(Pan.touch_frame a p).eq]

@[simp] theorem Pan.touch_stores (a : Word) (p : Pan) : (p.touch a).stores = p.stores := by
  have h := Pan.touch_frame a p
  generalize p.touch a = q at h
  obtain ⟨e, h1, h2, -⟩ := h
  rw [e]
  simp [Pan.stores, h1, h2]

theorem Pan.touch_acts (a : Word) (p : Pan) : Pan.SameActs p (p.touch a) := by
  have s : ∀ f, Pan.SameActs p (p.modSys f) := fun _ => .unit
  have l : ∀ k f, Pan.SameActs p (p.modSlot k f) := fun _ _ => .unit
  have c : ∀ f, Pan.SameActs p (p.modCrc f) := fun _ => .unit
  have i : ∀ f, Pan.SameActs p (p.modIc f) := fun _ => .unit
  have r : Pan.SameActs p p.beamLatched ∧ Pan.SameActs p p.sprStatCleared := ⟨.unit, .unit⟩
  have t : ∀ n o, Pan.SameActs p (p.modTm n (Timer.touched o)) := fun n o => .timer (fun t => by unfold Timer.touched; split <;> rfl)
  unfold Pan.touch Pan.ioTouch
  exact .ite (.ite r.1 (.ite r.2 (.ite (t _ _) (.ite (i _) (.ite (c _) (.ite (s _) (.ite (l _ _) (.refl _)))))))) (.refl _)

theorem Pan.SameActs.unsettled {p q : Pan} (h : Pan.SameActs p q) : q.unsettled = p.unsettled := by
  simp only [Pan.unsettled, Pan.actsDue, h.late, h.acts]

@[simp] theorem Pan.touch_unsettled (a : Word) (p : Pan) : (p.touch a).unsettled = p.unsettled := (Pan.touch_acts a p).unsettled

/-! ### Reads of the processor (R60) -/

/-- A read of the processor is the read, with what it changed kept among the processor's running state. -/
theorem Pan.readTouch_eq (a : Word) (p : Pan) : ∃ u, p.readTouch a = (p.touch a).modCore (fun k => { k with undo := u }) := by
  have k : ∀ (q : Pan) (l : List ReadUndo), q.modCore (fun k => { k with undo := l ++ k.undo }) =
      q.modCore (fun k => { k with undo := l ++ q.core.undo }) := fun _ _ => rfl
  have n : ∀ q : Pan, q = q.modCore (fun k => { k with undo := q.core.undo }) := fun _ => rfl
  unfold Pan.readTouch
  split
  · exact ⟨_, k _ _⟩
  · rename_i h
    have e : p.touch a = p := if_neg h
    exact ⟨p.core.undo, by rw [e]; exact n p⟩

@[simp] theorem Pan.readTouch_cpu (a : Word) (p : Pan) : (p.readTouch a).cpu = p.cpu := by
  obtain ⟨u, e⟩ := Pan.readTouch_eq a p; rw [e]; exact Pan.touch_cpu a p
@[simp] theorem Pan.readTouch_clk (a : Word) (p : Pan) : (p.readTouch a).clk = p.clk := by
  obtain ⟨u, e⟩ := Pan.readTouch_eq a p; rw [e]; exact Pan.touch_clk a p
@[simp] theorem Pan.readTouch_out (a : Word) (p : Pan) : (p.readTouch a).out = p.out := by
  obtain ⟨u, e⟩ := Pan.readTouch_eq a p; rw [e]; exact Pan.touch_out a p
@[simp] theorem Pan.readTouch_abort (a : Word) (p : Pan) : (p.readTouch a).abort = p.abort := by
  obtain ⟨u, e⟩ := Pan.readTouch_eq a p; rw [e]; exact Pan.touch_abort a p
@[simp] theorem Pan.readTouch_frameNo (a : Word) (p : Pan) : (p.readTouch a).frame = p.frame := by
  obtain ⟨u, e⟩ := Pan.readTouch_eq a p; rw [e]; exact Pan.touch_frameNo a p
@[simp] theorem Pan.readTouch_crust (a : Word) (p : Pan) : (p.readTouch a).crust = p.crust := by
  obtain ⟨u, e⟩ := Pan.readTouch_eq a p; rw [e]; exact Pan.touch_crust a p
@[simp] theorem Pan.readTouch_stores (a : Word) (p : Pan) : (p.readTouch a).stores = p.stores := by
  obtain ⟨u, e⟩ := Pan.readTouch_eq a p; rw [e]; exact Pan.touch_stores a p
@[simp] theorem Pan.readTouch_unsettled (a : Word) (p : Pan) : (p.readTouch a).unsettled = p.unsettled := by
  obtain ⟨u, e⟩ := Pan.readTouch_eq a p; rw [e]; exact Pan.touch_unsettled a p
theorem Pan.readTouch_core (a : Word) (p : Pan) : (p.readTouch a).core = { p.core with undo := (p.readTouch a).core.undo } := by
  obtain ⟨u, e⟩ := Pan.readTouch_eq a p
  rw [e]
  show { (p.touch a).core with undo := u } = { p.core with undo := u }
  rw [Pan.touch_core]
@[simp] theorem Pan.readTouch_opc (a : Word) (p : Pan) : (p.readTouch a).core.opc = p.core.opc := by rw [Pan.readTouch_core]
@[simp] theorem Pan.readTouch_cyc (a : Word) (p : Pan) : (p.readTouch a).core.cyc = p.core.cyc := by rw [Pan.readTouch_core]
@[simp] theorem Pan.readTouch_rep (a : Word) (p : Pan) : (p.readTouch a).core.rep = p.core.rep := by rw [Pan.readTouch_core]
@[simp] theorem Pan.readTouch_opd (a : Word) (p : Pan) : (p.readTouch a).core.opd = p.core.opd := by rw [Pan.readTouch_core]
@[simp] theorem Pan.readTouch_ea (a : Word) (p : Pan) : (p.readTouch a).core.ea = p.core.ea := by rw [Pan.readTouch_core]
@[simp] theorem Pan.readTouch_tmp (a : Word) (p : Pan) : (p.readTouch a).core.tmp = p.core.tmp := by rw [Pan.readTouch_core]
@[simp] theorem Pan.readTouch_start (a : Word) (p : Pan) : (p.readTouch a).core.start = p.core.start := by rw [Pan.readTouch_core]
@[simp] theorem Pan.readTouch_saved (a : Word) (p : Pan) : (p.readTouch a).core.saved = p.core.saved := by rw [Pan.readTouch_core]
@[simp] theorem Pan.readTouch_entry (a : Word) (p : Pan) : (p.readTouch a).core.entry = p.core.entry := by rw [Pan.readTouch_core]
@[simp] theorem Pan.readTouch_samp (a : Word) (p : Pan) : (p.readTouch a).core.samp = p.core.samp := by rw [Pan.readTouch_core]
@[simp] theorem Pan.readTouch_wait (a : Word) (p : Pan) : (p.readTouch a).core.wait = p.core.wait := by rw [Pan.readTouch_core]
@[simp] theorem Pan.readTouch_hcWait (a : Word) (p : Pan) : (p.readTouch a).core.hcWait = p.core.hcWait := by rw [Pan.readTouch_core]
@[simp] theorem Pan.readTouch_fault (a : Word) (p : Pan) : (p.readTouch a).core.fault = p.core.fault := by rw [Pan.readTouch_core]
@[simp] theorem Pan.readTouch_nmi (a : Word) (p : Pan) : (p.readTouch a).core.nmi = p.core.nmi := by rw [Pan.readTouch_core]
@[simp] theorem Pan.readTouch_cpStall (a : Word) (p : Pan) : (p.readTouch a).core.cpStall = p.core.cpStall := by rw [Pan.readTouch_core]
@[simp] theorem Pan.readTouch_resetLeft (a : Word) (p : Pan) : (p.readTouch a).core.resetLeft = p.core.resetLeft := by rw [Pan.readTouch_core]
@[simp] theorem Pan.readTouch_cop (a : Word) (p : Pan) : (p.readTouch a).cop = p.cop := by
  obtain ⟨u, e⟩ := Pan.readTouch_eq a p; rw [e]; exact Pan.touch_cop a p
@[simp] theorem Pan.readTouch_mul (a : Word) (p : Pan) : (p.readTouch a).mul = p.mul := by
  obtain ⟨u, e⟩ := Pan.readTouch_eq a p; rw [e]; exact Pan.touch_mul a p
@[simp] theorem Pan.readTouch_hc (a : Word) (p : Pan) : (p.readTouch a).hc = p.hc := by
  obtain ⟨u, e⟩ := Pan.readTouch_eq a p; rw [e]; exact Pan.touch_hc a p

/-! ### Nothing but the processor -/

theorem Pan.OnlyCpu.refl (p : Pan) : Pan.OnlyCpu p p := rfl

theorem Pan.OnlyCpu.trans {p q r : Pan} (h : Pan.OnlyCpu p q) (k : Pan.OnlyCpu q r) : Pan.OnlyCpu p r := by
  unfold Pan.OnlyCpu at *
  rw [k, h]

theorem Pan.OnlyCpu.cpu {p q : Pan} (h : Pan.OnlyCpu p q) (f : Cpu → Cpu) : Pan.OnlyCpu p (q.modCpu f) := h.trans rfl
theorem Pan.OnlyCpu.core {p q : Pan} (h : Pan.OnlyCpu p q) (f : Core → Core) : Pan.OnlyCpu p (q.modCore f) := h.trans rfl
theorem Pan.OnlyCpu.spend {p q : Pan} (h : Pan.OnlyCpu p q) : Pan.OnlyCpu p q.spend := h.trans rfl
theorem Pan.OnlyCpu.line {p q : Pan} (h : Pan.OnlyCpu p q) : Pan.OnlyCpu p q.resolveLine := h.trans rfl
theorem Pan.OnlyCpu.touch {p q : Pan} (h : Pan.OnlyCpu p q) {a : Word} (k : plainAddr a) : Pan.OnlyCpu p (q.touch a) := by
  rw [Pan.touch_plain k]; exact h

theorem Pan.OnlyCpu.stores {p q : Pan} (h : Pan.OnlyCpu p q) : q.stores = p.stores := by
  unfold Pan.OnlyCpu at h
  rw [h]; rfl
theorem Pan.OnlyCpu.out {p q : Pan} (h : Pan.OnlyCpu p q) : q.out = p.out := by unfold Pan.OnlyCpu at h; rw [h]
theorem Pan.OnlyCpu.abort {p q : Pan} (h : Pan.OnlyCpu p q) : q.abort = p.abort := by unfold Pan.OnlyCpu at h; rw [h]
theorem Pan.OnlyCpu.crust {p q : Pan} (h : Pan.OnlyCpu p q) : q.crust = p.crust := by unfold Pan.OnlyCpu at h; rw [h]
theorem Pan.OnlyCpu.unsettled {p q : Pan} (h : Pan.OnlyCpu p q) : q.unsettled = p.unsettled := by unfold Pan.OnlyCpu at h; rw [h]; rfl
/-- A read of the processor is the read. -/
theorem Pan.readTouch_only (a : Word) (p : Pan) : Pan.OnlyCpu (p.touch a) (p.readTouch a) := by
  obtain ⟨u, e⟩ := Pan.readTouch_eq a p; rw [e]; rfl
theorem Pan.OnlyCpu.readTouch {p q : Pan} (h : Pan.OnlyCpu p q) {a : Word} (k : plainAddr a) : Pan.OnlyCpu p (q.readTouch a) :=
  (h.touch k).trans (Pan.readTouch_only a q)
theorem Pan.OnlyCpu.frame {p q : Pan} (h : Pan.OnlyCpu p q) : q.frame = p.frame := by unfold Pan.OnlyCpu at h; rw [h]

theorem Pan.OnlyCpu.quiet {p r q : Pan} (h : Pan.OnlyCpu r q) (o : r.out = []) (f : r.frame = p.frame) (k : r.crust.served = 0) :
    Pan.Quiet p q :=
  ⟨h.out.trans o, by rw [h.frame, f], by rw [h.crust, k]⟩

/-! ### One pan-cycle after another -/

theorem Pan.micro_ok {u : Micro} {p : Pan} (h : (u p).abort = false) : p.micro u = u p := by simp [Pan.micro, h]

/-- A pan-cycle with nothing of the one before it left. -/
theorem Pan.microNext_ok {u : Micro} {p : Pan} (c : p.unsettled = false) (h : (u p).abort = false) : p.microNext u = (u p).spend := by
  simp only [Pan.microNext, Pan.settle_of_calm c, Pan.micro_ok h]

/-- A plan begins with the end of the pan-cycle before. -/
theorem runPlan_settle (u : Micro) (us : List Micro) (p : Pan) : runPlan (u :: us) p = runPlan (u :: us) p.settle := by
  have e : p.microNext u = p.settle.microNext u := by simp only [Pan.microNext, Pan.settle_of_calm (Pan.settle_calm p)]
  unfold runPlan
  simp only [e]

/-- A pan-cycle that is not the last. -/
theorem runPlan_more {u : Micro} {us : List Micro} {p : Pan} (c : p.unsettled = false) (h : (u p).abort = false)
    (k : (u p).core.cyc ≠ 0) : runPlan (u :: us) p = runPlan us (u p).spend := by
  simp only [runPlan, Pan.microNext_ok c h]
  rw [if_neg (by simpa [Pan.spend] using k)]

/-- The last pan-cycle of a plan. -/
theorem runPlan_last {u : Micro} {p : Pan} (c : p.unsettled = false) (h : (u p).abort = false) : runPlan [u] p = (u p).spend := by
  simp only [runPlan, Pan.microNext_ok c h]
  split <;> rfl

@[simp] theorem Pan.fetched_abort (p : Pan) : p.fetched.abort = p.abort := by simp [Pan.fetched, Pan.modCpu, Pan.modCore]
@[simp] theorem Pan.fetched_out (p : Pan) : p.fetched.out = p.out := by simp [Pan.fetched, Pan.modCpu, Pan.modCore]
@[simp] theorem Pan.fetched_frameNo (p : Pan) : p.fetched.frame = p.frame := by simp [Pan.fetched, Pan.modCpu, Pan.modCore]
@[simp] theorem Pan.fetched_crust (p : Pan) : p.fetched.crust = p.crust := by simp [Pan.fetched, Pan.modCpu, Pan.modCore]
@[simp] theorem Pan.fetched_unsettled (p : Pan) : p.fetched.unsettled = p.unsettled := Pan.readTouch_unsettled p.cpu.pc p
@[simp] theorem Pan.fetched_clk (p : Pan) : p.fetched.clk = p.clk := by simp [Pan.fetched, Pan.modCpu, Pan.modCore]
@[simp] theorem Pan.fetched_cyc (p : Pan) : p.fetched.core.cyc = 1 := rfl
@[simp] theorem Pan.fetched_rep (p : Pan) : p.fetched.core.rep = p.core.rep := by simp [Pan.fetched, Pan.modCpu, Pan.modCore]
@[simp] theorem Pan.fetched_stores (p : Pan) : p.fetched.stores = p.stores := Pan.readTouch_stores p.cpu.pc p
@[simp] theorem Pan.fetched_cpu (p : Pan) : p.fetched.cpu = { p.cpu with pc := p.cpu.pc + 1 } := by
  simp [Pan.fetched, Pan.modCpu, Pan.modCore]

@[simp] theorem Pan.operand_abort (p : Pan) : p.operand.abort = p.abort := by simp [Pan.operand, Pan.modCpu, Pan.modCore]
@[simp] theorem Pan.operand_out (p : Pan) : p.operand.out = p.out := by simp [Pan.operand, Pan.modCpu, Pan.modCore]
@[simp] theorem Pan.operand_frameNo (p : Pan) : p.operand.frame = p.frame := by simp [Pan.operand, Pan.modCpu, Pan.modCore]
@[simp] theorem Pan.operand_crust (p : Pan) : p.operand.crust = p.crust := by simp [Pan.operand, Pan.modCpu, Pan.modCore]
@[simp] theorem Pan.operand_unsettled (p : Pan) : p.operand.unsettled = p.unsettled := Pan.readTouch_unsettled p.cpu.pc p
@[simp] theorem Pan.operand_clk (p : Pan) : p.operand.clk = p.clk := by simp [Pan.operand, Pan.modCpu, Pan.modCore]
@[simp] theorem Pan.operand_cyc (p : Pan) : p.operand.core.cyc = p.core.cyc + 1 := by
  simp [Pan.operand, Pan.modCpu, Pan.modCore, Core.advance]
@[simp] theorem Pan.operand_rep (p : Pan) : p.operand.core.rep = p.core.rep := by
  simp [Pan.operand, Pan.modCpu, Pan.modCore, Core.advance]
@[simp] theorem Pan.operand_stores (p : Pan) : p.operand.stores = p.stores := Pan.readTouch_stores p.cpu.pc p
@[simp] theorem Pan.operand_cpu (p : Pan) : p.operand.cpu = { p.cpu with pc := p.cpu.pc + 1 } := by
  simp [Pan.operand, Pan.modCpu, Pan.modCore]

@[simp] theorem Pan.spend_cpu (p : Pan) : p.spend.cpu = p.cpu := rfl
@[simp] theorem Pan.spend_core (p : Pan) : p.spend.core = p.core := rfl
@[simp] theorem Pan.spend_clk (p : Pan) : p.spend.clk = p.clk + 1 := rfl
@[simp] theorem Pan.spend_out (p : Pan) : p.spend.out = p.out := rfl
@[simp] theorem Pan.spend_abort (p : Pan) : p.spend.abort = p.abort := rfl
@[simp] theorem Pan.spend_frameNo (p : Pan) : p.spend.frame = p.frame := rfl
@[simp] theorem Pan.spend_crust (p : Pan) : p.spend.crust = p.crust := rfl
@[simp] theorem Pan.spend_unsettled (p : Pan) : p.spend.unsettled = p.unsettled := rfl
@[simp] theorem Pan.spend_stores (p : Pan) : p.spend.stores = p.stores := rfl
@[simp] theorem Pan.modCpu_cpu (f : Cpu → Cpu) (p : Pan) : (p.modCpu f).cpu = f p.cpu := rfl
@[simp] theorem Pan.modCpu_core (f : Cpu → Cpu) (p : Pan) : (p.modCpu f).core = p.core := rfl
@[simp] theorem Pan.modCpu_clk (f : Cpu → Cpu) (p : Pan) : (p.modCpu f).clk = p.clk := rfl
@[simp] theorem Pan.modCpu_out (f : Cpu → Cpu) (p : Pan) : (p.modCpu f).out = p.out := rfl
@[simp] theorem Pan.modCpu_abort (f : Cpu → Cpu) (p : Pan) : (p.modCpu f).abort = p.abort := rfl
@[simp] theorem Pan.modCpu_frameNo (f : Cpu → Cpu) (p : Pan) : (p.modCpu f).frame = p.frame := rfl
@[simp] theorem Pan.modCpu_crust (f : Cpu → Cpu) (p : Pan) : (p.modCpu f).crust = p.crust := rfl
@[simp] theorem Pan.modCpu_unsettled (f : Cpu → Cpu) (p : Pan) : (p.modCpu f).unsettled = p.unsettled := rfl
@[simp] theorem Pan.modCpu_stores (f : Cpu → Cpu) (p : Pan) : (p.modCpu f).stores = p.stores := rfl
@[simp] theorem Pan.modCore_cpu (f : Core → Core) (p : Pan) : (p.modCore f).cpu = p.cpu := rfl
@[simp] theorem Pan.modCore_core (f : Core → Core) (p : Pan) : (p.modCore f).core = f p.core := rfl
@[simp] theorem Pan.modCore_clk (f : Core → Core) (p : Pan) : (p.modCore f).clk = p.clk := rfl
@[simp] theorem Pan.modCore_out (f : Core → Core) (p : Pan) : (p.modCore f).out = p.out := rfl
@[simp] theorem Pan.modCore_abort (f : Core → Core) (p : Pan) : (p.modCore f).abort = p.abort := rfl
@[simp] theorem Pan.modCore_frameNo (f : Core → Core) (p : Pan) : (p.modCore f).frame = p.frame := rfl
@[simp] theorem Pan.modCore_crust (f : Core → Core) (p : Pan) : (p.modCore f).crust = p.crust := rfl
@[simp] theorem Pan.modCore_unsettled (f : Core → Core) (p : Pan) : (p.modCore f).unsettled = p.unsettled := rfl
@[simp] theorem Pan.modCore_stores (f : Core → Core) (p : Pan) : (p.modCore f).stores = p.stores := rfl

/-- The last pan-cycle of an instruction that is not out of order and not within `REP`. -/
theorem lastCycle_ok {f : Micro} {p : Pan} (h : (f p).abort = false) (r : (f p).core.rep = false) :
    lastCycle f p = ((f p).resolveLine).modCore
      (fun k => { k.finish with samp := { p.sampleNow with winner := lockWinner p (f p) p.sampleNow } }) := by
  have r' : ((f p).resolveLine).core.rep = false := r
  simp only [lastCycle, h, Bool.false_eq_true, if_false, Pan.repStep, r']

/-- The registers, the time and what else the last pan-cycle leaves. -/
structure LastFrame (r q : Pan) : Prop where
  only : Pan.OnlyCpu r q
  cpu : q.cpu = r.cpu
  clk : q.clk = r.clk
  ends : q.core.cyc = 0

theorem lastCycle_frame {f : Micro} {p : Pan} (h : (f p).abort = false) (r : (f p).core.rep = false) :
    LastFrame (f p) (lastCycle f p) := by
  rw [lastCycle_ok h r]
  exact ⟨((Pan.OnlyCpu.refl _).line).core _, rfl, rfl, rfl⟩

/-! ### Operand bytes -/

/-- Some operand bytes read, a pan-cycle each. -/
def Pan.operands (n : Nat) (p : Pan) : Pan := (List.replicate n (fun q : Pan => (q.operand).spend)).foldl (fun q f => f q) p

theorem Pan.operands_succ (n : Nat) (p : Pan) : p.operands (n + 1) = ((p.operand).spend).operands n := by
  simp [Pan.operands, List.replicate_succ]

theorem Pan.afterOperands_eq (m : Mode) (p : Pan) : p.afterOperands m = ((p.fetched).spend).operands (operandBytes m) := rfl

/-- What operand bytes leave. -/
theorem Pan.operands_frame : ∀ (n : Nat) (p : Pan),
    (p.operands n).abort = p.abort ∧ (p.operands n).out = p.out ∧ (p.operands n).frame = p.frame ∧
    (p.operands n).crust = p.crust ∧ (p.operands n).clk = p.clk + n ∧ (p.operands n).core.rep = p.core.rep ∧
    (p.operands n).core.cyc = p.core.cyc + n ∧ (p.operands n).stores = p.stores ∧
    (p.operands n).cpu = { p.cpu with pc := p.cpu.pc + BitVec.ofNat 16 n } ∧
    (p.operands n).unsettled = p.unsettled
  | 0, p => by simp [Pan.operands]
  | n + 1, p => by
    obtain ⟨h1, h2, h3, h4, h5, h6, h7, h8, h9, h10⟩ := Pan.operands_frame n ((p.operand).spend)
    rw [Pan.operands_succ]
    refine ⟨by simpa using h1, by simpa using h2, by simpa using h3, by simpa using h4, by rw [h5]; simp; omega, by simpa using h6,
      by rw [h7]; simp; omega, by simpa using h8, ?_, by simpa using h10⟩
    rw [h9]
    simp only [Pan.spend_cpu, Pan.operand_cpu]
    congr 1
    rw [BitVec.ofNat_add, BitVec.add_assoc, BitVec.add_comm 1]
    rfl

theorem Pan.fetched_only {p : Pan} (h : plainAddr p.cpu.pc) : Pan.OnlyCpu p p.fetched := by
  unfold Pan.fetched
  exact (((Pan.OnlyCpu.refl p).readTouch h).cpu _).core _

theorem Pan.operand_only {p : Pan} (h : plainAddr p.cpu.pc) : Pan.OnlyCpu p p.operand := by
  unfold Pan.operand
  exact (((Pan.OnlyCpu.refl p).readTouch h).cpu _).core _

theorem Pan.operands_only : ∀ (n : Nat) (p : Pan), (∀ i, i < n → plainAddr (p.cpu.pc + BitVec.ofNat 16 i)) →
    Pan.OnlyCpu p (p.operands n)
  | 0, _, _ => rfl
  | n + 1, p, h => by
    rw [Pan.operands_succ]
    have h0 : plainAddr p.cpu.pc := by simpa using h 0 (by omega)
    refine ((Pan.operand_only h0).spend).trans (Pan.operands_only n _ (fun i hi => ?_))
    have := h (i + 1) (by omega)
    simpa [BitVec.add_assoc, BitVec.add_comm 1#16, BitVec.ofNat_add] using this

/-- The operand pan-cycles of a plan. -/
theorem runPlan_operands : ∀ (n : Nat) (us : List Micro) (p : Pan), p.unsettled = false → p.abort = false →
    runPlan (List.replicate n Pan.operand ++ us) p = runPlan us (p.operands n)
  | 0, _, _, _, _ => rfl
  | n + 1, us, p, c, h => by
    rw [List.replicate_succ, List.cons_append, runPlan_more c (by simpa using h) (by simp), Pan.operands_succ]
    exact runPlan_operands n us _ (by simpa using c) (by simpa using h)

/-- The fetch and the operand pan-cycles of a form. -/
theorem runPlan_fetched {m : Mode} {us : List Micro} {p : Pan} (c : p.unsettled = false) (h : p.abort = false) :
    runPlan (Pan.fetched :: (operandCycles m ++ us)) p = runPlan us (p.afterOperands m) := by
  rw [runPlan_more c (by simpa using h) (by simp), operandCycles, runPlan_operands _ _ _ (by simpa using c) (by simpa using h),
    Pan.afterOperands_eq]

/-- What the fetch and the operand bytes leave. -/
structure Pan.Fetched (m : Mode) (p q : Pan) : Prop where
  abort : q.abort = p.abort
  out : q.out = p.out
  frame : q.frame = p.frame
  crust : q.crust = p.crust
  unsettled : q.unsettled = p.unsettled
  clk : q.clk = p.clk + 1 + operandBytes m
  rep : q.core.rep = p.core.rep
  cyc : q.core.cyc = 1 + operandBytes m
  stores : q.stores = p.stores
  cpu : q.cpu = { p.cpu with pc := p.cpu.pc + 1 + BitVec.ofNat 16 (operandBytes m) }

theorem Pan.afterOperands_frame (m : Mode) (p : Pan) : Pan.Fetched m p (p.afterOperands m) := by
  rw [Pan.afterOperands_eq]
  obtain ⟨h1, h2, h3, h4, h5, h6, h7, h8, h9, h10⟩ := Pan.operands_frame (operandBytes m) ((p.fetched).spend)
  exact ⟨by simpa using h1, by simpa using h2, by simpa using h3, by simpa using h4, by simpa using h10, by simpa using h5,
    by simpa using h6, by simpa using h7, by simpa using h8, by simpa using h9⟩

theorem Pan.afterOperands_only {m : Mode} {p : Pan} (h : plainCode m p.cpu.pc) : Pan.OnlyCpu p (p.afterOperands m) := by
  rw [Pan.afterOperands_eq]
  have h0 : plainAddr p.cpu.pc := by simpa using h 0 (by omega)
  refine ((Pan.fetched_only h0).spend).trans (Pan.operands_only _ _ (fun i hi => ?_))
  have := h (i + 1) (by omega)
  simpa [BitVec.add_assoc, BitVec.add_comm 1#16, BitVec.ofNat_add] using this

theorem Pan.poke_plain_unsettled {a : Word} (h : plainAddr a) (v : Byte) (p : Pan) : (p.poke a v).unsettled = p.unsettled := by
  rw [Pan.poke_plain h]; rfl

/-! ### One instruction -/

/-- As a pan-cycle begins nothing of the one before it waits. -/
theorem State.Goes.calm {s : State} {p : Nat} {x : Site} (g : State.Goes s p x) : x.pan.unsettled = false := by
  obtain ⟨y, -, rfl⟩ := g.live
  exact Pan.settle_calm y.pan

/-- A step of a pan-cycle that begins, with what the pan puts out handed on. -/
theorem State.panStep_goes {s : State} {p : Nat} {x : Site} {f : Pan → Option Pan} {q : Pan} (g : State.Goes s p x)
    (e : ∀ r : Pan, r.settle = x.pan → f r = some q) : s.panStep p f = .next (s.stepsTo p x q) := by
  obtain ⟨y, h, rfl⟩ := g.live
  simp only [State.panStep, h, e y.pan rfl, State.stepsTo, State.liveSite_site h, Option.map_some, Option.getD_some]
  rfl

/-- Where nothing is handed on, the device changes in the pan's record alone. -/
theorem State.stepsTo_quiet {s : State} {p : Nat} {x : Site} {q : Pan} (g : State.Goes s p x) (k : Pan.Quiet x.pan q) :
    s.stepsTo p x q = s.withPan p x q := by
  obtain ⟨y, h, rfl⟩ := g.live
  simp only [State.stepsTo, State.liveSite_site h, Option.map_some, Option.getD_some]
  exact State.afterPan_quiet ⟨k.1, by simpa [Site.settled] using k.2, k.3⟩

/-- The instruction that stands at PC runs its plan. -/
theorem State.instruct_steps {s : State} {p : Nat} {x : Site} {o : Op} {m : Mode} {q : Pan} (b : State.Begins s p x o m)
    (e : runPlan (plan o.action m) x.pan = q) : s.instruct p o m = .next (s.stepsTo p x q) := by
  have hr : x.pan.afterReset = x.pan := by simp [Pan.afterReset, b.reset, Pan.resetCycles]
  simp only [State.instruct, b.halt, Bool.false_eq_true, if_false]
  exact State.panStep_goes b.toGoes (fun r hs => by simp [Pan.execOp, hs, hr, b.ready, b.here, e])

/-- The instruction that stands at PC runs its plan, and hands nothing on. -/
theorem State.instruct_next {s : State} {p : Nat} {x : Site} {o : Op} {m : Mode} {q : Pan} (b : State.Begins s p x o m)
    (e : runPlan (plan o.action m) x.pan = q) (k : Pan.Quiet x.pan q) :
    s.instruct p o m = .next (s.withPan p x q) := by
  rw [State.instruct_steps b e, State.stepsTo_quiet b.toGoes k]

/-- A pan ready for an instruction is in no `REP` sequence. -/
theorem Pan.ready_rep {p : Pan} (h : p.ready = true) : p.core.rep = false := by
  simp only [Pan.ready, Bool.and_eq_true, Bool.not_eq_true'] at h
  exact h.1.1.2

/-! ### Plain reads and writes beside what only the processor changed -/

/-- The part of an image that plain addresses name. -/
structure Pan.SameMemory (p q : Pan) : Prop where
  cfg : q.cfg = p.cfg
  wram : q.wram = p.wram
  vram : q.vram = p.vram
  cram : q.cram = p.cram
  sys : q.sys = p.sys
  dirty : q.dirty = p.dirty
  crust : q.crust = p.crust

theorem Pan.OnlyCpu.memory {p q : Pan} (h : Pan.OnlyCpu p q) : Pan.SameMemory p q := by
  unfold Pan.OnlyCpu at h
  rw [h]
  exact ⟨rfl, rfl, rfl, rfl, rfl, rfl, rfl⟩

theorem Pan.SameMemory.rom {p q : Pan} (h : Pan.SameMemory p q) (n : Nat) : q.romByte n = p.romByte n := by
  unfold Pan.romByte; rw [h.cfg]
theorem Pan.SameMemory.cramAddr {p q : Pan} (h : Pan.SameMemory p q) (n : Nat) : q.cramAddr n = p.cramAddr n := by
  unfold Pan.cramAddr; rw [h.sys]
theorem Pan.SameMemory.vramAddr {p q : Pan} (h : Pan.SameMemory p q) (n : Nat) : q.vramAddr n = p.vramAddr n := by
  unfold Pan.vramAddr; rw [h.sys]
theorem Pan.SameMemory.bank {p q : Pan} (h : Pan.SameMemory p q) (n : Nat) : q.bankRead n = p.bankRead n := by
  unfold Pan.bankRead; rw [h.sys, h.cramAddr, h.cfg, h.cram, h.rom]

/-- A byte outside $E000 to $EFFF depends on the memories, the banks and the title alone. -/
theorem Pan.SameMemory.peek {p q : Pan} (h : Pan.SameMemory p q) {a : Word} (k : plainAddr a) : q.peek a = p.peek a := by
  unfold plainAddr at k
  generalize hx : a.toNat = x at k
  unfold Pan.peek
  simp only [hx]
  by_cases n1 : x < 0x8000
  · rw [if_pos n1, if_pos n1, h.wram]
  rw [if_neg n1, if_neg n1]
  by_cases n2 : x < 0xC000
  · rw [if_pos n2, if_pos n2, h.bank]
  rw [if_neg n2, if_neg n2]
  by_cases n3 : x < 0xE000
  · rw [if_pos n3, if_pos n3, h.vram, h.vramAddr]
  rw [if_neg n3, if_neg n3]
  have n4 : ¬ x < 0xF000 := by omega
  rw [if_neg n4, if_neg n4, h.rom]

theorem Pan.OnlyCpu.peek {p q : Pan} (h : Pan.OnlyCpu p q) {a : Word} (k : plainAddr a) : q.peek a = p.peek a := h.memory.peek k

theorem Pan.SameMemory.mark {p q : Pan} (h : Pan.SameMemory p q) (g : Nat) : Pan.SameMemory (p.markGrain g) (q.markGrain g) :=
  ⟨h.cfg, h.wram, h.vram, h.cram, h.sys, by simp only [Pan.markGrain, h.dirty], by simp only [Pan.markGrain, h.crust]⟩

theorem Pan.SameMemory.poke {p q : Pan} (h : Pan.SameMemory p q) {a : Word} (k : plainAddr a) (v : Byte) :
    Pan.SameMemory (p.poke a v) (q.poke a v) := by
  unfold plainAddr at k
  generalize hx : a.toNat = x at k
  unfold Pan.poke Pan.pokeAt
  simp only [hx]
  by_cases n1 : x < 0x8000
  · rw [if_pos n1, if_pos n1]
    exact Pan.SameMemory.mark (p := { p with wram := p.wram.write x v }) (q := { q with wram := q.wram.write x v })
      ⟨h.cfg, by rw [h.wram], h.vram, h.cram, h.sys, h.dirty, h.crust⟩ _
  rw [if_neg n1, if_neg n1]
  by_cases n2 : x < 0xC000
  · rw [if_pos n2, if_pos n2]
    unfold Pan.bankWrite
    by_cases c : p.sys.cramSel = true ∧ p.cramAddr x < p.cfg.cramSize
    · rw [if_pos c, if_pos (by rw [h.sys, h.cramAddr, h.cfg]; exact c), h.cramAddr]
      exact Pan.SameMemory.mark (p := { p with cram := p.cram.write (p.cramAddr x) v })
        (q := { q with cram := q.cram.write (p.cramAddr x) v }) ⟨h.cfg, h.wram, h.vram, by rw [h.cram], h.sys, h.dirty, h.crust⟩ _
    · rw [if_neg c, if_neg (by rw [h.sys, h.cramAddr, h.cfg]; exact c)]
      exact h
  rw [if_neg n2, if_neg n2]
  by_cases n3 : x < 0xE000
  · rw [if_pos n3, if_pos n3, h.vramAddr]
    exact Pan.SameMemory.mark (p := { p with vram := p.vram.write (p.vramAddr x) v })
      (q := { q with vram := q.vram.write (p.vramAddr x) v }) ⟨h.cfg, h.wram, by rw [h.vram], h.cram, h.sys, h.dirty, h.crust⟩ _
  rw [if_neg n3, if_neg n3]
  have n4 : ¬ x < 0xF000 := by omega
  rw [if_neg n4, if_neg n4]
  exact h

theorem Pan.OnlyCpu.poke {p q : Pan} (h : Pan.OnlyCpu p q) {a : Word} (k : plainAddr a) (v : Byte) :
    Pan.OnlyCpu (p.poke a v) (q.poke a v) := by
  unfold Pan.OnlyCpu at h
  obtain ⟨-, e1, e2, e3, -, e4, e5⟩ := (show Pan.OnlyCpu p q from h).memory.poke k v
  rw [Pan.poke_plain k v q, Pan.poke_plain k v p, e1, e2, e3, e4, e5, h]
  rfl

end Sys2Proof.Machine
end

