-- ==== Sys2Proof/Laws/Instructions.lean ====
section
/-!
SUPPORT. What the plan of each shape of instruction leaves: the registers, the time and the rest of the image.
-/
namespace Sys2Proof.Machine

/-- What a plan leaves: the registers `c`, `n` pan-cycles later, and of the rest what the image `r` has. -/
structure PlanLeaves (p r q : Pan) (c : Cpu) (n : Nat) : Prop where
  cpu : q.cpu = c
  clk : q.clk = p.clk + n
  only : Pan.OnlyCpu r q

/-- The last pan-cycle of a plan, from the image `r` its work leaves. -/
theorem runPlan_ends {f : Micro} {p : Pan} (c : p.unsettled = false) (h : (f p).abort = false) (r : (f p).core.rep = false) :
    ∃ q, runPlan [lastCycle f] p = q ∧ Pan.OnlyCpu (f p) q ∧ q.cpu = (f p).cpu ∧ q.clk = (f p).clk + 1 ∧ q.core.cyc = 0 := by
  have k := lastCycle_frame h r
  refine ⟨_, runPlan_last c ?_, ?_, ?_, ?_, ?_⟩
  · rw [k.only.abort, h]
  · exact k.only.spend
  · exact k.cpu
  · rw [Pan.spend_clk, k.clk]
  · exact k.ends

/-! ### Loads of a byte -/

theorem run_load (f : Byte → Cpu → Cpu) (m : Mode) {p : Pan} (c : p.unsettled = false) (h : p.abort = false) (r : p.core.rep = false) :
    ∃ q, runPlan (loadPlan f m) p = q ∧
      PlanLeaves p ((p.operandFrom m).1.touch (p.operandFrom m).2) q
        (postInc m (f ((p.operandFrom m).1.peek (p.operandFrom m).2) (p.cpu.next m)))
        (1 + operandBytes m + (if m = .imm then 0 else 1)) := by
  by_cases hm : m = .imm
  · subst hm
    obtain ⟨q, e, k1, k2, k3, -⟩ := runPlan_ends (f := fun p : Pan => let q := p.operand; q.modCpu (f q.core.opd.lo))
      (p := (p.fetched).spend) (by simpa using c) (by simpa using h) (by simpa using r)
    refine ⟨q, by rw [← e]; simp only [loadPlan]; rw [runPlan_more c (by simpa using h) (by simp)], ?_, ?_, ?_⟩
    · rw [k2]
      simp [Pan.operand, Pan.operandFrom, postInc, Cpu.next, operandBytes, BitVec.add_assoc, Word.lo, Word.ofUnsigned]
    · rw [k3]; simp [operandBytes]
    · refine Pan.OnlyCpu.trans ?_ k1
      simp only [Pan.operandFrom, if_pos]
      refine Pan.OnlyCpu.cpu ?_ _
      unfold Pan.operand
      simp only [Pan.spend_cpu, Pan.fetched_cpu]
      exact ((Pan.readTouch_only _ _).cpu _).core _
  · have P := Pan.afterOperands_frame m p
    obtain ⟨q, e, k1, k2, k3, -⟩ := runPlan_ends (f := readData m f) (p := p.afterOperands m) (by rw [P.unsettled, c])
      (by simp [readData, Pan.readByte, P.abort, h]) (by simp [readData, Pan.readByte, P.rep, r, Core.advance])
    have e2 : runPlan (loadPlan f m) p = q := by
      rw [← e, ← runPlan_fetched c h]
      cases m <;> first | exact absurd rfl hm | rfl
    refine ⟨q, e2, ?_, ?_, ?_⟩
    · rw [k2]
      simp [readData, Pan.readByte, Pan.operandFrom, hm, P.cpu, Cpu.next, BitVec.ofNat_add, BitVec.add_assoc]
    · rw [k3]
      simp [readData, Pan.readByte, P.clk, hm]; omega
    · refine Pan.OnlyCpu.trans ?_ k1
      simp only [Pan.operandFrom, if_neg hm, readData, Pan.readByte]
      exact ((Pan.readTouch_only _ _).core _).cpu _

/-- What a read instruction leaves in an image that advances hands nothing on. -/
theorem PlanLeaves.quiet {p r q : Pan} {c : Cpu} {n : Nat} (k : PlanLeaves p r q c n) (o : r.out = []) (f : r.frame = p.frame)
    (g : r.crust.served = 0) : Pan.Quiet p q := k.only.quiet o f g

theorem Pan.operandFrom_frame (m : Mode) (p : Pan) :
    (p.operandFrom m).1.out = p.out ∧ (p.operandFrom m).1.frame = p.frame ∧ (p.operandFrom m).1.crust = p.crust ∧
      (p.operandFrom m).1.stores = p.stores ∧ (plainCode m p.cpu.pc → Pan.OnlyCpu p (p.operandFrom m).1) := by
  have P := Pan.afterOperands_frame m p
  by_cases hm : m = .imm
  · subst hm
    simp only [Pan.operandFrom, if_pos]
    exact ⟨by simp, by simp, by simp, by simp, fun k => (Pan.fetched_only (by simpa using k 0 (by omega))).spend⟩
  · simp only [Pan.operandFrom, if_neg hm]
    exact ⟨P.out, P.frame, P.crust, P.stores, Pan.afterOperands_only⟩

/-- Every row that reads a byte in a form. -/
theorem loadsByte {i : Instr} {p : Nat} {o : Op} {m : Mode} {f : Byte → Cpu → Cpu} (e : ∀ s, exec i s = s.instruct p o m)
    (a : o.action = .load f) : LoadsByte i p o m f := by
  intro s x b
  obtain ⟨q, hq, k⟩ := run_load f m b.calm b.abort (Pan.ready_rep b.ready)
  have F := Pan.operandFrom_frame m x.pan
  have Q : Pan.Quiet x.pan q := k.quiet (by simp [F.1, b.out]) (by simp [F.2.1]) (by simp [F.2.2.1, b.served])
  refine ⟨q, ?_, k.cpu, by rw [k.clk]; omega, k.only, ?_, ?_⟩
  · rw [e]
    exact State.instruct_next b (by rw [a]; exact hq) Q
  · rw [k.only.stores]; simp [F.2.2.2.1]
  · intro pl
    exact ((F.2.2.2.2 pl.1).touch pl.2).trans k.only

/-! ### Registers alone -/

theorem setsRegisters {i : Instr} {p : Nat} {o : Op} {m : Mode} {n : Nat} {f : Cpu → Cpu} (hm : operandBytes m = 0)
    (e : ∀ s, exec i s = s.instruct p o m)
    (a : (n = 1 ∧ plan o.action m = [lastCycle (fun p => (p.fetched).modCpu f)]) ∨
      (n = 2 ∧ plan o.action m = [Pan.fetched, lastCycle (fun p => (p.internal).modCpu f)])) :
    SetsRegisters i p o m n f := by
  intro s x b
  have r := Pan.ready_rep b.ready
  have only : Pan.OnlyCpu (x.pan.touch x.pan.cpu.pc) x.pan.fetched := by
    unfold Pan.fetched
    exact ((Pan.readTouch_only _ _).cpu _).core _
  have main : ∃ q, runPlan (plan o.action m) x.pan = q ∧ q.cpu = f (x.pan.cpu.next m) ∧ q.clk = x.pan.clk + n ∧
      Pan.OnlyCpu x.pan.fetched q := by
    rcases a with ⟨rfl, a⟩ | ⟨rfl, a⟩
    · obtain ⟨q, h, k1, k2, k3, -⟩ := runPlan_ends (f := fun p => (p.fetched).modCpu f) (p := x.pan) b.calm (by simpa using b.abort)
        (by simpa using r)
      exact ⟨q, by rw [a, h], by rw [k2]; simp [Cpu.next, hm], by rw [k3]; simp, ((Pan.OnlyCpu.refl _).cpu _).trans k1⟩
    · obtain ⟨q, h, k1, k2, k3, -⟩ := runPlan_ends (f := fun p => (p.internal).modCpu f) (p := (x.pan.fetched).spend)
        (by simpa using b.calm) (by simpa [Pan.internal] using b.abort) (by simpa [Pan.internal, Core.advance] using r)
      refine ⟨q, by rw [a, runPlan_more b.calm (by simpa using b.abort) (by simp), h], by rw [k2]; simp [Cpu.next, hm, Pan.internal],
        by rw [k3]; simp [Pan.internal], ?_⟩
      exact ((((Pan.OnlyCpu.refl _).spend).core _).cpu _).trans k1
  obtain ⟨q, h, k1, k2, k3⟩ := main
  have k4 : Pan.OnlyCpu (x.pan.touch x.pan.cpu.pc) q := only.trans k3
  refine ⟨q, ?_, k1, k2, k4, by rw [k4.stores]; simp, fun pl => ((Pan.OnlyCpu.refl _).touch pl).trans k4⟩
  rw [e]
  exact State.instruct_next b h (k4.quiet (by simpa using b.out) (by simp) (by simpa using b.served))

/-! ### Operands with an internal pan-cycle -/

theorem usesOperand {i : Instr} {p : Nat} {o : Op} {m : Mode} {v w : Pan → Word} {f : Word → Cpu → Cpu}
    (e : ∀ s, exec i s = s.instruct p o m)
    (a : plan o.action m = Pan.fetched :: (operandCycles m ++ [lastCycle (fun p => (p.internal).modCpu (f (v p)))]))
    (hv : ∀ p : Pan, v (p.afterOperands m) = w p) : UsesOperand i p o m w f := by
  intro s x b
  have r := Pan.ready_rep b.ready
  have P := Pan.afterOperands_frame m x.pan
  obtain ⟨q, h, k1, k2, k3, -⟩ := runPlan_ends (f := fun p => (p.internal).modCpu (f (v p))) (p := x.pan.afterOperands m)
    (by rw [P.unsettled, b.calm]) (by simpa [Pan.internal, P.abort] using b.abort) (by simpa [Pan.internal, Core.advance, P.rep] using r)
  have k4 : Pan.OnlyCpu (x.pan.afterOperands m) q := (((Pan.OnlyCpu.refl _).core _).cpu _).trans k1
  refine ⟨q, ?_, ?_, ?_, k4, by rw [k4.stores, P.stores], fun pl => (Pan.afterOperands_only pl).trans k4⟩
  · rw [e]
    exact State.instruct_next b (by rw [a, runPlan_fetched b.calm b.abort, h])
      (k4.quiet (by rw [P.out, b.out]) P.frame (by rw [P.crust, b.served]))
  · rw [k2]; simp [Pan.internal, hv, P.cpu, Cpu.next, BitVec.ofNat_add, BitVec.add_assoc]
  · rw [k3]; simp [Pan.internal, P.clk]; omega

theorem Pan.opd_simm (p : Pan) : Word.ofSigned (p.afterOperands .simm).core.opd.lo = p.signedOperand := by
  simp [Pan.afterOperands, operandBytes, Pan.signedOperand, Pan.operand, Word.lo, Word.ofUnsigned]

theorem Pan.opd_rel (p : Pan) : Word.ofSigned (p.afterOperands .rel).core.opd.lo = p.signedOperand := Pan.opd_simm p

theorem Pan.opd_word {m : Mode} (h : operandBytes m = 2) (p : Pan) : (p.afterOperands m).core.opd = p.wordOperand := by
  simp [Pan.afterOperands, h, List.replicate, Pan.wordOperand, Pan.operand, Word.lo, Word.ofUnsigned, Core.advance, BitVec.add_assoc]

/-! ### Stores -/

theorem storesByte {i : Instr} {p : Nat} {o : Op} {m : Mode} {g : Cpu → Byte} (hg : ∀ (c : Cpu) (w : Word), g { c with pc := w } = g c)
    (e : ∀ s, exec i s = s.instruct p o m) (a : o.action = .store g) : StoresByte i p o m g := by
  intro s x b r ad hr ha hab
  have R := Pan.ready_rep b.ready
  have P : Pan.Fetched m x.pan r := hr ▸ Pan.afterOperands_frame m x.pan
  have hc : g r.cpu = g x.pan.cpu := by rw [P.cpu, hg]
  have wd : writeData m g r = ((r.poke ad (g x.pan.cpu)).modCore Core.advance).modCpu (postInc m) := by
    simp only [writeData, Pan.writeByte, hc, ha]
  obtain ⟨q, h, k1, k2, k3, -⟩ := runPlan_ends (f := writeData m g) (p := r)
    (by rw [P.unsettled, b.calm]) (by rw [wd]; simpa using hab) (by rw [wd]; simp [Core.advance, P.rep, R])
  rw [wd] at k1 k2 k3
  have k4 : Pan.OnlyCpu (r.poke ad (g x.pan.cpu)) q := (((Pan.OnlyCpu.refl _).core _).cpu _).trans k1
  refine ⟨q, ?_, ?_, ?_, k4, fun pl => hr ▸ Pan.afterOperands_only pl, fun pl => ?_⟩
  · rw [e]
    refine State.instruct_steps b ?_
    rw [a]
    show runPlan (Pan.fetched :: (operandCycles m ++ [lastCycle (writeData m g)])) x.pan = q
    rw [runPlan_fetched b.calm b.abort, ← hr, h]
  · rw [k2]; simp [P.cpu, Cpu.next, BitVec.ofNat_add, BitVec.add_assoc]
  · rw [k3]; simp [P.clk]; omega
  · refine State.stepsTo_quiet b.toGoes (k4.quiet ?_ ?_ ?_)
    · rw [Pan.poke_plain_out pl, P.out, b.out]
    · simp [P.frame]
    · simp [P.crust, b.served]

theorem storesWord {i : Instr} {p : Nat} {o : Op} {m : Mode} {g : Cpu → Word} (hg : ∀ (c : Cpu) (w : Word), g { c with pc := w } = g c)
    (e : ∀ s, exec i s = s.instruct p o m) (a : o.action = .store16 g) : StoresWord i p o m g := by
  intro s x b r u ad hr ha hu ab1 ab2
  have R := Pan.ready_rep b.ready
  have P : Pan.Fetched m x.pan r := hr ▸ Pan.afterOperands_frame m x.pan
  have hc : g r.cpu = g x.pan.cpu := by rw [P.cpu, hg]
  have wl : writeLow m g r = ((r.poke ad (g x.pan.cpu).lo).modCore Core.advance).modCore (fun k => { k with ea := ad }) := by
    simp only [writeLow, Pan.writeByte, hc, ha]
  have uu : u.unsettled = false := by rw [hu]; simp
  have uc : u.cpu = r.cpu := by rw [hu, wl]; simp
  have ue : u.core.ea = ad := by rw [hu, Pan.settle_ea, wl]; rfl
  have ur : u.core.rep = false := by rw [hu, wl]; simp [Core.advance, P.rep, R]
  have wh : writeHigh m g u = (u.poke (highAddr m ad) (g x.pan.cpu).hi).modCore Core.advance := by
    simp only [writeHigh, Pan.writeByte, uc, hc, ue]
  obtain ⟨q, h, k1, k2, k3, -⟩ := runPlan_ends (f := writeHigh m g) (p := u) uu
    (by rw [wh]; simpa using ab2) (by rw [wh]; simp [Core.advance, ur])
  rw [wh] at k1 k2 k3
  have k4 : Pan.OnlyCpu (u.poke (highAddr m ad) (g x.pan.cpu).hi) q := ((Pan.OnlyCpu.refl _).core _).trans k1
  have k5 : plainAddr ad → Pan.OnlyCpu (r.poke ad (g x.pan.cpu).lo) u := by
    intro pl
    rw [hu, wl, Pan.settle_of_calm (by simpa [Pan.poke_plain_unsettled pl, P.unsettled] using b.calm)]
    exact (((Pan.OnlyCpu.refl _).core _).core _).spend
  refine ⟨q, ?_, ?_, ?_, k4, k5, fun pl => hr ▸ Pan.afterOperands_only pl, fun pl pl2 => ?_⟩
  · rw [e]
    refine State.instruct_steps b ?_
    rw [a]
    show runPlan (Pan.fetched :: (operandCycles m ++ [writeLow m g, lastCycle (writeHigh m g)])) x.pan = q
    rw [runPlan_fetched b.calm b.abort, ← hr, runPlan_more (by rw [P.unsettled, b.calm]) ab1 (by rw [wl]; simp [Core.advance]),
      runPlan_settle, ← hu, h]
  · rw [k2]; simp [uc, P.cpu, Cpu.next, BitVec.ofNat_add, BitVec.add_assoc]
  · rw [k3]; simp [hu, wl, P.clk]; omega
  · have k6 := k5 pl
    refine State.stepsTo_quiet b.toGoes (k4.quiet ?_ ?_ ?_)
    · rw [Pan.poke_plain_out pl2, k6.out, Pan.poke_plain_out pl, P.out, b.out]
    · rw [Pan.poke_frameNo, k6.frame, Pan.poke_frameNo, P.frame]
    · rw [Pan.poke_served, k6.crust, Pan.poke_served, P.crust, b.served]

theorem modifiesByte {i : Instr} {p : Nat} {o : Op} {m : Mode} {g : Byte → Byte → Byte × Byte} (hm : m ≠ .acc)
    (e : ∀ s, exec i s = s.instruct p o m) (a : o.action = .modify g) : ModifiesByte i p o m g := by
  intro s x b r u ad v hr ha hv hu hab
  have R := Pan.ready_rep b.ready
  have P : Pan.Fetched m x.pan r := hr ▸ Pan.afterOperands_frame m x.pan
  have rl : readLow m r = ((r.readTouch ad).modCore Core.advance).modCore (fun k => { k with tmp := v, ea := ad }) := by
    simp only [readLow, Pan.readByte, ha, hv]
  have uu : u.unsettled = false := by rw [hu, rl]; simp [Pan.internal, P.unsettled, b.calm]
  have uc : u.cpu = r.cpu := by rw [hu, rl]; simp [Pan.internal]
  have ue : u.core.ea = ad := by rw [hu, rl]; rfl
  have ut : u.core.tmp = v := by rw [hu, rl]; rfl
  have ur : u.core.rep = false := by rw [hu, rl]; simp [Core.advance, P.rep, R, Pan.internal]
  have uk : u.clk = x.pan.clk + 3 + operandBytes m := by rw [hu, rl]; simp [Pan.internal, P.clk]; omega
  have fc : r.cpu.f = x.pan.cpu.f := by rw [P.cpu]
  have mw : modifyWrite g u =
      ((u.poke ad (g v x.pan.cpu.f).1).modCore Core.advance).modCpu (fun c => { c with f := (g v x.pan.cpu.f).2 }) := by
    simp only [modifyWrite, Pan.writeByte, uc, ue, ut, fc]
  obtain ⟨q, h, k1, k2, k3, -⟩ := runPlan_ends (f := modifyWrite g) (p := u) uu
    (by rw [mw]; simpa using hab) (by rw [mw]; simp [Core.advance, ur])
  rw [mw] at k1 k2 k3
  have k4 : Pan.OnlyCpu (u.poke ad (g v x.pan.cpu.f).1) q := (((Pan.OnlyCpu.refl _).core _).cpu _).trans k1
  have k5 : Pan.OnlyCpu (r.touch ad) u := by
    rw [hu, rl]; exact (((((Pan.readTouch_only _ _).core _).core _).spend).core _).spend
  have pe : plan (.modify g) m = Pan.fetched :: (operandCycles m ++ [readLow m, Pan.internal, lastCycle (modifyWrite g)]) := by
    cases m <;> first | exact absurd rfl hm | rfl
  refine ⟨q, ?_, ?_, ?_, k4, k5, fun pl => hr ▸ Pan.afterOperands_only pl, fun pl => ?_⟩
  · rw [e]
    refine State.instruct_steps b ?_
    rw [a, pe, runPlan_fetched b.calm b.abort, ← hr, runPlan_more (by rw [P.unsettled, b.calm]) (by rw [rl]; simp [P.abort, b.abort]) (by rw [rl]; simp [Core.advance]),
      runPlan_more (by rw [rl]; simp [P.unsettled, b.calm]) (by rw [rl]; simp [Pan.internal, P.abort, b.abort]) (by simp [Pan.internal, Core.advance]), ← hu, h]
  · rw [k2]; simp [uc, P.cpu, Cpu.next, BitVec.ofNat_add, BitVec.add_assoc]
  · rw [k3]; simp [uk]; omega
  · refine State.stepsTo_quiet b.toGoes (k4.quiet ?_ ?_ ?_)
    · rw [Pan.poke_plain_out pl, k5.out, Pan.touch_out, P.out, b.out]
    · rw [Pan.poke_frameNo, k5.frame, Pan.touch_frameNo, P.frame]
    · rw [Pan.poke_served, k5.crust, Pan.touch_crust, P.crust, b.served]

/-! ### Loads of a word -/

theorem loadsWord {i : Instr} {p : Nat} {o : Op} {m : Mode} {f : Word → Cpu → Cpu} (e : ∀ s, exec i s = s.instruct p o m)
    (a : o.action = .load16 f) : LoadsWord i p o m f := by
  intro s x b
  have R := Pan.ready_rep b.ready
  by_cases hm : m = .imm16
  · subst hm
    have ab : x.pan.fetched.abort = false := by simpa using b.abort
    obtain ⟨q, h, k1, k2, k3, -⟩ := runPlan_ends (f := fun p : Pan => let q := p.operand; q.modCpu (f q.core.opd))
      (p := (((x.pan.fetched).spend).operand).spend) (by simpa using b.calm) (by simpa using b.abort) (by simpa using R)
    have k4 : Pan.OnlyCpu ((x.pan.wordFrom .imm16).1.touch (x.pan.wordFrom .imm16).2.1) q := by
      refine Pan.OnlyCpu.trans ?_ k1
      simp only [Pan.wordFrom, if_pos]
      have pc : ((((x.pan.fetched).spend).operand).spend).cpu.pc = x.pan.cpu.pc + 2 := by simp [BitVec.add_assoc]
      generalize ((((x.pan.fetched).spend).operand).spend) = u at pc
      refine Pan.OnlyCpu.cpu ?_ _
      unfold Pan.operand
      rw [pc]
      exact ((Pan.readTouch_only _ _).cpu _).core _
    refine ⟨q, ?_, ?_, ?_, k4, ?_, fun pl => ?_⟩
    · rw [e]
      refine State.instruct_next b ?_ (k4.quiet ?_ ?_ ?_)
      · rw [a]
        show runPlan [Pan.fetched, Pan.operand, lastCycle _] x.pan = q
        rw [runPlan_more b.calm ab (by simp), runPlan_more (by simpa using b.calm) (by simpa using b.abort) (by simp), h]
      · simp [Pan.wordFrom, b.out]
      · simp [Pan.wordFrom]
      · simp [Pan.wordFrom, b.served]
    · rw [k2]
      simp [Pan.operand, Pan.wordFrom, Cpu.next, operandBytes, BitVec.add_assoc, Word.lo, Word.ofUnsigned, Core.advance]
    · rw [k3]; simp [operandBytes]
    · rw [k4.stores]; simp [Pan.wordFrom]
    · refine Pan.OnlyCpu.trans ?_ k4
      refine Pan.OnlyCpu.touch ?_ pl.2.1
      simp only [Pan.wordFrom, if_pos]
      have h0 : plainAddr x.pan.cpu.pc := by simpa using pl.1 0 (by omega)
      have h1 : plainAddr (x.pan.cpu.pc + 1) := by simpa using pl.1 1 (by simp [operandBytes])
      exact ((((Pan.fetched_only h0).spend).trans (Pan.operand_only (by simpa using h1)))).spend
  · have P := Pan.afterOperands_frame m x.pan
    generalize hr : x.pan.afterOperands m = r at P
    have rl : readLow m r = ((r.readTouch (r.dataAddr m)).modCore Core.advance).modCore
        (fun k => { k with tmp := r.peek (r.dataAddr m), ea := r.dataAddr m }) := rfl
    generalize hu : (readLow m r).spend = u
    have uc : u.cpu = r.cpu := by rw [← hu, rl]; simp
    have ue : u.core.ea = r.dataAddr m := by rw [← hu, rl]; rfl
    have ut : u.core.tmp = r.peek (r.dataAddr m) := by rw [← hu, rl]; rfl
    have ur : u.core.rep = false := by rw [← hu, rl]; simp [Core.advance, P.rep, R]
    have ub : u.abort = false := by rw [← hu, rl]; simp [P.abort, b.abort]
    have uu : u.unsettled = false := by rw [← hu, rl]; simp [P.unsettled, b.calm]
    have wf : x.pan.wordFrom m = (u, highAddr m (r.dataAddr m), r.peek (r.dataAddr m)) := by
      simp only [Pan.wordFrom, if_neg hm, hr, hu]
    have rh : readHigh m (fun w q => q.modCpu (f w)) u =
        ((u.readTouch (highAddr m (r.dataAddr m))).modCore Core.advance).modCpu
          (f (Word.ofBytes (u.peek (highAddr m (r.dataAddr m))) (r.peek (r.dataAddr m)))) := by
      simp [readHigh, Pan.readByte, ue, ut, Core.advance]
    obtain ⟨q, h, k1, k2, k3, -⟩ := runPlan_ends (f := readHigh m (fun w q => q.modCpu (f w))) (p := u) uu
      (by rw [rh]; simpa using ub) (by rw [rh]; simp [Core.advance, ur])
    rw [rh] at k1 k2 k3
    have k4 : Pan.OnlyCpu (u.touch (highAddr m (r.dataAddr m))) q := (((Pan.readTouch_only _ _).core _).cpu _).trans k1
    have k5 : Pan.OnlyCpu (r.touch (r.dataAddr m)) u := by
      rw [← hu, rl]; exact (((Pan.readTouch_only _ _).core _).core _).spend
    have pe : plan (.load16 f) m = Pan.fetched :: (operandCycles m ++ [readLow m, lastCycle (readHigh m (fun w q => q.modCpu (f w)))]) := by
      cases m <;> first | exact absurd rfl hm | rfl
    rw [wf]
    refine ⟨q, ?_, ?_, ?_, k4, ?_, fun pl => ?_⟩
    · rw [e]
      refine State.instruct_next b ?_ (k4.quiet ?_ ?_ ?_)
      · rw [a, pe, runPlan_fetched b.calm b.abort, hr, runPlan_more (by rw [P.unsettled, b.calm]) (by rw [rl]; simp [P.abort, b.abort])
          (by rw [rl]; simp [Core.advance]), hu, h]
      · rw [Pan.touch_out, k5.out, Pan.touch_out, P.out, b.out]
      · rw [Pan.touch_frameNo, k5.frame, Pan.touch_frameNo, P.frame]
      · rw [Pan.touch_crust, k5.crust, Pan.touch_crust, P.crust, b.served]
    · rw [k2]; simp [uc, P.cpu, Cpu.next, BitVec.ofNat_add, BitVec.add_assoc]
    · rw [k3]; simp [← hu, rl, P.clk, hm]
    · rw [k4.stores, Pan.touch_stores, k5.stores, Pan.touch_stores, P.stores]
    · have h1 : Pan.OnlyCpu x.pan r := hr ▸ Pan.afterOperands_only pl.1
      have h2 := (h1.touch (pl.2.2 hm)).trans k5
      exact (h2.touch pl.2.1).trans k4

/-! ### Branches -/

theorem pc_two (w : Word) : w + 1 + 1 = w + 2 := by rw [BitVec.add_assoc]; rfl

theorem branches {i : Instr} {p : Nat} {o : Op} {c : Cpu → Bool} {f : Cpu → Cpu}
    (hc : ∀ (d : Cpu) (w : Word), c (f { d with pc := w }) = c (f d))
    (hf : ∀ (d : Cpu) (w : Word), f { d with pc := w } = { f d with pc := w })
    (e : ∀ s, exec i s = s.instruct p o .rel)
    (a : plan o.action .rel = [Pan.fetched, branchOperand c f, lastCycle branchTo]) : Branches i p o c f := by
  intro s x b
  have R := Pan.ready_rep b.ready
  have ab : x.pan.fetched.abort = false := by simpa using b.abort
  have P := Pan.afterOperands_frame .rel x.pan
  have ao : x.pan.afterOperands .rel = (((x.pan.fetched).spend).operand).spend := rfl
  have cc : c (f ((x.pan.fetched).spend).cpu) = c (f x.pan.cpu) := by simp only [Pan.spend_cpu, Pan.fetched_cpu, hc]
  have opd : Word.ofSigned (((x.pan.fetched).spend).operand).core.opd.lo = x.pan.signedOperand := Pan.opd_rel x.pan
  have only0 : Pan.OnlyCpu (x.pan.afterOperands .rel) (((x.pan.fetched).spend).operand) := by rw [ao]; rfl
  have fin : ∀ q : Pan, Pan.OnlyCpu (x.pan.afterOperands .rel) q → runPlan (plan o.action .rel) x.pan = q →
      exec i s = .next (s.withPan p x q) ∧ ReadsOnly x.pan (x.pan.afterOperands .rel) q (plainCode .rel x.pan.cpu.pc) := by
    intro q k h
    refine ⟨?_, k, by rw [k.stores, P.stores], fun pl => (Pan.afterOperands_only pl).trans k⟩
    rw [e]
    exact State.instruct_next b h (k.quiet (by rw [P.out, b.out]) P.frame (by rw [P.crust, b.served]))
  by_cases t : c (f x.pan.cpu) = true
  · have bo : branchOperand c f (x.pan.fetched).spend = (((x.pan.fetched).spend).operand).modCpu f := by
      simp only [branchOperand, cc, t, if_true]
    obtain ⟨q, h, k1, k2, k3, -⟩ := runPlan_ends (f := branchTo)
      (p := ((((x.pan.fetched).spend).operand).modCpu f).spend) (by simpa using b.calm) (by simpa [branchTo, Pan.internal] using b.abort)
      (by simpa [branchTo, Pan.internal, Core.advance] using R)
    have k4 : Pan.OnlyCpu (x.pan.afterOperands .rel) q :=
      ((((only0.cpu _).spend).core _).cpu _).trans k1
    have run : runPlan (plan o.action .rel) x.pan = q := by
      rw [a, runPlan_more b.calm ab (by simp), runPlan_more (by simpa using b.calm) (by rw [bo]; simpa using b.abort) (by rw [bo]; simp), bo, h]
    have := fin q k4 run
    refine ⟨q, this.1, ?_, ?_, this.2⟩
    · rw [k2]
      simp only [branchTo, Pan.internal, Pan.modCpu_cpu, Pan.modCore_cpu, Pan.spend_cpu, Pan.spend_core, Pan.modCpu_core, opd, t,
        if_true, Pan.operand_cpu, Pan.fetched_cpu, pc_two]
      rw [hf x.pan.cpu (x.pan.cpu.pc + 2), hf x.pan.cpu (x.pan.cpu.pc + 2 + x.pan.signedOperand)]
    · rw [k3]; simp [branchTo, Pan.internal, t]
  · have t' : c (f x.pan.cpu) = false := by simpa using t
    have bo : branchOperand c f (x.pan.fetched).spend = lastCycle (fun q => (q.operand).modCpu f) (x.pan.fetched).spend := by
      simp only [branchOperand, cc, t', Bool.false_eq_true, if_false]
    have k := lastCycle_frame (f := fun q => (q.operand).modCpu f) (p := (x.pan.fetched).spend)
      (by simpa using b.abort) (by simpa using R)
    have k4 : Pan.OnlyCpu (x.pan.afterOperands .rel) (lastCycle (fun q => (q.operand).modCpu f) (x.pan.fetched).spend).spend :=
      ((only0.cpu _).trans k.only).spend
    have run : runPlan (plan o.action .rel) x.pan = (lastCycle (fun q => (q.operand).modCpu f) (x.pan.fetched).spend).spend := by
      rw [a, runPlan_more b.calm ab (by simp), runPlan, Pan.microNext_ok (by simpa using b.calm)
        (by rw [bo, k.only.abort]; simpa using b.abort), bo, if_pos]
      simpa using k.ends
    have := fin _ k4 run
    refine ⟨_, this.1, ?_, ?_, this.2⟩
    · rw [Pan.spend_cpu, k.cpu]
      simp only [Pan.modCpu_cpu, Pan.operand_cpu, Pan.spend_cpu, Pan.fetched_cpu, t', Bool.false_eq_true, if_false, pc_two]
      rw [show (0 : Word) = 0#16 from rfl, BitVec.add_zero]
    · rw [Pan.spend_clk, k.clk]; simp [t']

end Sys2Proof.Machine
end

