-- ==== Sys2Proof/Laws/Plain.lean ====
section
/-!
SUPPORT. An instruction followed pan-cycle by pan-cycle while every byte it reads or writes lies outside $E000 to $EFFF: where it
stands, and what each kind of pan-cycle adds.
-/
namespace Sys2Proof.Machine

/-- The image `q` stands `n` pan-cycles after `p`, `k` of them the instruction's, with the registers `c` and the bytes `ws` written. -/
structure At (p q : Pan) (ws : List (Word × Byte)) (c : Cpu) (n k : Nat) : Prop where
  only : Pan.OnlyCpu (p.pokes ws) q
  cpu : q.cpu = c
  clk : q.clk = p.clk + n
  cyc : q.core.cyc = k
  abort : q.abort = false
  rep : q.core.rep = false
  calm : q.unsettled = false

theorem Pan.pokes_append (ws : List (Word × Byte)) (a : Word) (v : Byte) (p : Pan) :
    p.pokes (ws ++ [(a, v)]) = (p.pokes ws).poke a v := by simp [Pan.pokes]

/-- Bytes written outside $E000 to $EFFF hand nothing on and move nothing else. -/
theorem Pan.pokes_frame : ∀ (ws : List (Word × Byte)) (p : Pan), (∀ w ∈ ws, plainAddr w.1) →
    (p.pokes ws).out = p.out ∧ (p.pokes ws).frame = p.frame ∧ (p.pokes ws).crust.served = p.crust.served ∧
      (p.pokes ws).abort = p.abort
  | [], _, _ => ⟨rfl, rfl, rfl, rfl⟩
  | w :: ws, p, h => by
    have hw := h w (by simp)
    have := Pan.pokes_frame ws (p.poke w.1 w.2) (fun u hu => h u (by simp [hu]))
    exact ⟨this.1.trans (Pan.poke_plain_out hw _ _), this.2.1.trans (Pan.poke_frameNo _ _ _), this.2.2.1.trans (Pan.poke_served _ _ _),
      this.2.2.2.trans (Pan.poke_plain_abort hw _ _)⟩

/-- Reading a byte that none of the writes reached through the title. -/
theorem Pan.pokes_memory_rom {p : Pan} : ∀ (ws : List (Word × Byte)), (∀ w ∈ ws, plainAddr w.1) → ∀ n,
    (p.pokes ws).romByte n = p.romByte n
  | [], _, _ => rfl
  | w :: ws, h, n => by
    have hw := h w (by simp)
    have := Pan.pokes_memory_rom (p := p.poke w.1 w.2) ws (fun u hu => h u (by simp [hu])) n
    refine this.trans ?_
    unfold Pan.romByte
    rw [(Pan.poke_frame w.1 w.2 p).cfg]

section steps
variable {p q : Pan} {ws : List (Word × Byte)} {c : Cpu} {n k : Nat}

theorem At.fetched (hc : p.unsettled = false) (ha : p.abort = false) (hr : p.core.rep = false) (h : plainAddr p.cpu.pc) :
    At p (p.fetched).spend [] { p.cpu with pc := p.cpu.pc + 1 } 1 1 :=
  ⟨(Pan.fetched_only h).spend, by simp, by simp, by simp, by simpa using ha, by simpa using hr, by simpa using hc⟩

theorem At.operand (h : At p q ws c n k) (hp : plainAddr c.pc) :
    At p (q.operand).spend ws { c with pc := c.pc + 1 } (n + 1) (k + 1) :=
  ⟨(h.only.trans (Pan.operand_only (h.cpu ▸ hp))).spend, by simp [h.cpu], by simp [h.clk]; omega, by simp [h.cyc], by simpa using h.abort,
    by simpa using h.rep, by simpa using h.calm⟩

theorem At.internal (h : At p q ws c n k) : At p (q.internal).spend ws c (n + 1) (k + 1) :=
  ⟨(h.only.core _).spend, by simp [Pan.internal, h.cpu], by simp [Pan.internal, h.clk]; omega, by simp [Pan.internal, Core.advance, h.cyc],
    by simpa [Pan.internal] using h.abort, by simpa [Pan.internal, Core.advance] using h.rep, by simpa [Pan.internal] using h.calm⟩

theorem At.push (h : At p q ws c n k) (hs : plainAddr c.s) {g : Pan → Byte} {v : Byte} (hv : g q = v) :
    At p (pushByte g q).spend (ws ++ [(c.s, v)]) { c with s := c.s - 1 } (n + 1) (k + 1) := by
  have e : pushByte g q = ((q.poke c.s v).modCore Core.advance).modCpu (fun c => { c with s := c.s - 1 }) := by
    simp only [pushByte, Pan.writeByte, hv, h.cpu]
  rw [e]
  refine ⟨?_, by simp [h.cpu], by simp [h.clk]; omega, by simp [Core.advance, h.cyc], ?_, by simpa [Core.advance] using h.rep,
    by simpa [Pan.poke_plain_unsettled hs] using h.calm⟩
  · rw [Pan.pokes_append]
    exact (((h.only.poke hs v).core _).cpu _).spend
  · simpa [Pan.poke_plain_abort hs] using h.abort

end steps

/-- What the last pan-cycle's work leaves is what the plan leaves. -/
theorem At.ends {p q : Pan} {ws : List (Word × Byte)} {c : Cpu} {n k : Nat} {f : Micro} (hc : q.unsettled = false) (h : At p (f q).spend ws c n k) :
    ∃ r, runPlan [lastCycle f] q = r ∧ r.cpu = c ∧ r.clk = p.clk + n ∧ Pan.OnlyCpu (p.pokes ws) r := by
  have ha : (f q).abort = false := h.abort
  have hr : (f q).core.rep = false := h.rep
  obtain ⟨r, e, k1, k2, k3, -⟩ := runPlan_ends hc ha hr
  refine ⟨r, e, k2.trans h.cpu, ?_, ?_⟩
  · rw [k3]; exact h.clk
  · exact Pan.OnlyCpu.trans (Pan.OnlyCpu.trans h.only (by rfl)) k1

/-- A pan-cycle that is not the last. -/
theorem At.more {p q : Pan} {ws : List (Word × Byte)} {c : Cpu} {n k : Nat} {u : Micro} (us : List Micro)
    (hc : q.unsettled = false) (h : At p (u q).spend ws c n (k + 1)) : runPlan (u :: us) q = runPlan us (u q).spend :=
  runPlan_more hc h.abort (by have := h.cyc; simp at this; omega)

/-- An instruction whose plan ends so completes so. -/
theorem runs_of {i : Instr} {s : State} {p : Nat} {x : Site} {o : Op} {m : Mode} {c : Cpu} {n : Nat} {ws : List (Word × Byte)}
    (b : State.Begins s p x o m) (e : exec i s = s.instruct p o m) (hw : ∀ w ∈ ws, plainAddr w.1)
    (h : ∃ r, runPlan (plan o.action m) x.pan = r ∧ r.cpu = c ∧ r.clk = x.pan.clk + n ∧ Pan.OnlyCpu (x.pan.pokes ws) r) :
    Runs i s p x c n (x.pan.pokes ws) := by
  obtain ⟨r, h1, h2, h3, h4⟩ := h
  have f := Pan.pokes_frame ws x.pan hw
  exact ⟨r, by rw [e]; exact State.instruct_next b h1 (h4.quiet (f.1.trans b.out) f.2.1 (f.2.2.1.trans b.served)), h2, h3, h4⟩

end Sys2Proof.Machine
end

