-- ==== Sys2Proof/Laws/Events.lean ====
section
/-!
SUPPORT. What a command that is one event of a pan's virtual time, one register access or one placement can do: where the step of the
image is known, these lemmas say what the device becomes.
-/
namespace Sys2Proof.Machine

/-! ### The instant of an event -/

@[simp] theorem Pan.upTo_out (t : Nat) (p : Pan) : (p.upTo t).out = p.out := by
  unfold Pan.upTo
  split
  · rfl
  · exact Pan.settle_out p

@[simp] theorem Pan.upTo_abort (t : Nat) (p : Pan) : (p.upTo t).abort = p.abort := by
  unfold Pan.upTo
  split
  · rfl
  · exact Pan.settle_abort p

@[simp] theorem Pan.upTo_frame (t : Nat) (p : Pan) : (p.upTo t).frame = p.frame := by
  unfold Pan.upTo
  split
  · rfl
  · exact Pan.settle_frameNo p

@[simp] theorem Pan.upTo_served (t : Nat) (p : Pan) : (p.upTo t).crust.served = p.crust.served := by
  unfold Pan.upTo
  split
  · rfl
  · exact Pan.settle_served p

@[simp] theorem Pan.upTo_cpu (t : Nat) (p : Pan) : (p.upTo t).cpu = p.cpu := by
  unfold Pan.upTo
  split
  · rfl
  · exact Pan.settle_cpu p

theorem Pan.upTo_clk (t : Nat) (p : Pan) : (p.upTo t).clk = max p.clk t := by
  unfold Pan.upTo
  split
  · omega
  · simp only []; omega

/-- Where the end of the pan-cycle that takes the count to `t` has come or is reached in `WAI`, an event due at `t` happens (R38). -/
theorem Pan.reach_comes {t : Nat} {p : Pan} (h : p.comes t = true) : p.reach t = p.upTo t := by
  unfold Pan.upTo Pan.reach
  simp only [Pan.comes, Bool.or_eq_true, decide_eq_true_eq, Bool.and_eq_true, Bool.not_eq_true'] at h
  by_cases ht : t ≤ p.clk
  · have : ¬ p.clk < t := by omega
    simp [ht, this]
  · have k : p.clk < t := by omega
    rcases h with h | h
    · omega
    · have : p.settle.ic.winner p.clk = none := by simpa using h.2
      simp [ht, k, Pan.sampleNow, Sample.taken, h.1.1, h.1.2, this]

theorem Pan.at_comes {t : Nat} {f : Pan → Pan} {p : Pan} (h : p.comes t = true) : p.at t f = some (f (p.upTo t)) := by
  have k : t ≤ (p.upTo t).clk := by rw [Pan.upTo_clk]; omega
  simp only [Pan.at, Pan.reach_comes h, k, if_true]

/-! ### Events -/

/-- A change of an image that hands nothing on and ends no frame. -/
def Hushes (f : Pan → Pan) (p : Pan) : Prop := (f p).out = p.out ∧ (f p).frame = p.frame ∧ (f p).crust.served = p.crust.served

theorem Hushes.quiet {f : Pan → Pan} {p q : Pan} (h : Hushes f p) (o : p.out = []) (e : p.frame = q.frame) (k : p.crust.served = 0) :
    Pan.Quiet q (f p) := ⟨h.1.trans o, by rw [h.2.1, e], h.2.2.trans k⟩

/-- A command whose step of the image is an event due at a count. -/
theorem event_of {i : Instr} {p : Nat} {t : Pan → Nat} {c : Pan → Bool} {f : Pan → Pan} {F : Pan → Option Pan}
    (e : ∀ s, exec i s = s.panStep p F) (k : ∀ q, c q = true → F q = q.at (t q) f)
    (h : ∀ q, c q = true → Hushes f (q.upTo (t q)) := by exact fun _ _ => ⟨rfl, rfl, rfl⟩) : Event i p t c f := by
  intro s x a hc hm
  rw [e]
  exact State.panStep_quiet a.live (by rw [k _ hc, Pan.at_comes hm])
    ((h _ hc).quiet (by simpa using a.out) (by simp) (by simpa using a.served))

/-- A command whose step of the image waits for nothing but a condition. -/
theorem eventNow_of {i : Instr} {p : Nat} {c : Pan → Bool} {f : Pan → Pan} {F : Pan → Option Pan}
    (e : ∀ s, exec i s = s.panStep p F) (k : ∀ q, c q = true → F q = some (f q))
    (h : ∀ q, c q = true → Hushes f q := by exact fun _ _ => ⟨rfl, rfl, rfl⟩) : EventNow i p c f := by
  intro s x a hc
  rw [e]
  exact State.panStep_quiet a.live (k _ hc) ((h _ hc).quiet a.out rfl a.served)

/-! ### Register accesses -/

/-- A command that reads a register. -/
theorem reads_of {i : Instr} {p : Nat} {a : Word} {c : Pan → Bool} {b : Pan → Byte} {f : Pan → Pan}
    (e : ∀ s, exec i s = s.access p (Pan.busRead a)) (k : ∀ q, c q = true → q.touch a = f q) (v : ∀ q, c q = true → q.peek a = b q) :
    Reads i p c b f := by
  intro s x g hc
  have t := Pan.touch_frame a x.pan
  have T := Pan.touch_acts a x.pan
  rw [e, State.access, State.panStep_goes (q := ({ f x.pan with bus := b x.pan, clk := x.pan.clk + 1 })) g]
  · rw [State.stepsTo_quiet g]
    refine ⟨?_, ?_, ?_⟩
    · rw [← k _ hc]; exact T.out.trans g.out
    · rw [← k _ hc]; simp
    · rw [← k _ hc]; simpa using g.served
  · intro r hr
    simp only [Pan.busRead, hr, k _ hc, v _ hc, Pan.spend]
    rw [← k _ hc]
    simp

/-- A write of a register that is in stack order. -/
theorem access_write {p : Nat} {s : State} {x : Site} {a : Word} {v : Byte} (g : State.Goes s p x) (h : (x.pan.poke a v).abort = false) :
    s.access p (Pan.busWrite a v) = .next (s.stepsTo p x (((x.pan.poke a v).resolveLine).spend)) := by
  rw [State.access, State.panStep_goes (q := ((x.pan.poke a v).resolveLine).spend) g]
  intro r hr
  simp [Pan.busWrite, hr, h]

/-- The dots of line-scope writes settle. -/
theorem Pan.resolveLine_only (p : Pan) : Pan.OnlyCpu p p.resolveLine := rfl

/-- A command that writes a register that takes the byte at once. -/
theorem writes_of {i : Instr} {p : Nat} {a : Word} {v : Byte} {c : Pan → Bool} {f : Pan → Pan}
    (e : ∀ s, exec i s = s.access p (Pan.busWrite a v)) (k : ∀ q, c q = true → q.poke a v = f q)
    (o : ∀ q, c q = true → (f q).out = q.out ∧ (f q).abort = q.abort := by exact fun _ _ => ⟨rfl, rfl⟩) : Writes i p c f := by
  intro s x g hc
  have e2 := k _ hc
  refine ⟨((f x.pan).resolveLine).spend, ?_, ?_, rfl, ?_, (Pan.resolveLine_only _).spend⟩
  · rw [e, access_write g (by rw [e2, (o _ hc).2]; exact g.abort), ← e2]
    rw [State.stepsTo_quiet g]
    refine ⟨?_, ?_, ?_⟩
    · show (x.pan.poke a v).out = []
      rw [e2, (o _ hc).1]; exact g.out
    · show (x.pan.poke a v).frame ≤ _
      simp
    · show (x.pan.poke a v).crust.served = 0
      simpa using g.served
  · rw [← e2]; show (x.pan.poke a v).cpu = _; simp
  · rw [← e2]; show (x.pan.poke a v).clk + 1 = _; simp

/-- What the end of a pan-cycle makes of a write that waits. -/
theorem Pan.settle_late {p : Pan} {o k : Nat} {v : Byte} (h : p.late = some (o, v, k)) :
    p.settle = (({ p.runActs with late := none }).lateWrite p.clk o v).lowCheck k
      (({ p.runActs with late := none }).lateWrite p.clk o v).snd.s0.mark := by
  have e : p.runActs.lateApply = ({ p.runActs with late := none }).lateWrite p.clk o v := by
    simp only [Pan.lateApply, Pan.runActs_late, h, (Pan.runActs_frame p).clk]
  simp only [Pan.settle, Pan.unsettled, h, Option.isSome_some, Bool.true_or, if_true, Pan.lateLevel, e]

/-- The image right after a write that waits. -/
def Pan.holding (o : Nat) (v : Byte) (p : Pan) : Pan :=
  (({ p with late := some (o, v, p.snd.s0.fifo.length) } : Pan).resolveLine).spend

/-- A command that writes a register whose write waits for the ticks of its pan-cycle. -/
theorem writesLate_of {i : Instr} {p : Nat} {a : Word} {v : Byte} {c : Pan → Bool} {f : Pan → Pan} (o : Nat)
    (e : ∀ s, exec i s = s.access p (Pan.busWrite a v))
    (k : ∀ q : Pan, q.poke a v = { q with late := some (o, v, q.snd.s0.fifo.length) })
    (w : ∀ q : Pan, c q = true → q.unsettled = false →
      ({ (q.holding o v).runActs with late := none }).lateWrite (q.clk + 1) o v = f { (q.holding o v).runActs with late := none }) :
    WritesLate i p c f := by
  intro s x g hc
  refine ⟨x.pan.holding o v, ?_, rfl, rfl, rfl, ?_, ?_⟩
  · rw [e, access_write g (by rw [k]; exact g.abort), k]
    exact congrArg _ (State.stepsTo_quiet g ⟨g.out, le_refl _, g.served⟩)
  · rfl
  · rw [Pan.settle_late (p := x.pan.holding o v) rfl]
    have h : ({ (x.pan.holding o v).runActs with late := none } : Pan).lateWrite (x.pan.holding o v).clk o v = _ := w x.pan hc g.calm
    rw [h]

end Sys2Proof.Machine
end

