-- ==== Sys2Proof/Laws/Memory.lean ====
section
/-!
SUPPORT. What the memory operations do: the canonical form is kept, a byte written is read back, every other byte stays.
-/
namespace Sys2Proof.Machine

/-! ### The canonical form -/

/-- A memory listed above a bound is listed above every lower bound. -/
theorem Memory.wfAbove_mono {lo hi : Nat} (h : lo ≤ hi) : ∀ {m : Memory}, Memory.wfAbove hi m = true → Memory.wfAbove lo m = true
  | [], _ => rfl
  | c :: t, hm => by
    simp only [Memory.wfAbove, Bool.and_eq_true, decide_eq_true_eq] at hm ⊢
    exact ⟨⟨by omega, hm.1.2⟩, hm.2⟩

/-- Below a memory's bound nothing is listed. -/
theorem Memory.read_below : ∀ {lo : Nat} {m : Memory} {a : Nat}, Memory.wfAbove lo m = true → a < lo → m.read a = 0
  | _, [], _, _, _ => rfl
  | lo, c :: t, a, hm, ha => by
    simp only [Memory.wfAbove, Bool.and_eq_true, decide_eq_true_eq] at hm
    have hne : a ≠ c.1 := by omega
    simp only [Memory.read, hne, if_false]
    exact Memory.read_below hm.2 (by omega)

theorem Memory.write_wfAbove : ∀ {lo : Nat} {m : Memory} (a : Nat) (v : Byte), Memory.wfAbove lo m = true → lo ≤ a →
    Memory.wfAbove lo (m.write a v) = true
  | lo, [], a, v, _, ha => by
    simp only [Memory.write]
    split
    · rfl
    · next hv =>
      simp only [Memory.wfAbove, Bool.and_eq_true, decide_eq_true_eq]
      exact ⟨⟨ha, hv⟩, trivial⟩
  | lo, c :: t, a, v, hm, ha => by
    have hm' := hm
    simp only [Memory.wfAbove, Bool.and_eq_true, decide_eq_true_eq] at hm'
    obtain ⟨⟨h1, h2⟩, h3⟩ := hm'
    simp only [Memory.write]
    split
    · split
      · exact hm
      · next hlt hv =>
        simp only [Memory.wfAbove, Bool.and_eq_true, decide_eq_true_eq]
        exact ⟨⟨ha, hv⟩, ⟨by omega, h2⟩, h3⟩
    · split
      · next hn he =>
        split
        · exact Memory.wfAbove_mono (by omega) h3
        · next hv =>
          simp only [Memory.wfAbove, Bool.and_eq_true, decide_eq_true_eq]
          exact ⟨⟨ha, hv⟩, he ▸ h3⟩
      · next hn he =>
        simp only [Memory.wfAbove, Bool.and_eq_true, decide_eq_true_eq]
        exact ⟨⟨h1, h2⟩, Memory.write_wfAbove a v h3 (by omega)⟩

/-- A write keeps the canonical form. -/
theorem Memory.write_wf {m : Memory} (a : Nat) (v : Byte) (h : m.wf = true) : (m.write a v).wf = true :=
  Memory.write_wfAbove a v h (Nat.zero_le a)

theorem Memory.read_write_above : ∀ {lo : Nat} {m : Memory} (a : Nat) (v : Byte), Memory.wfAbove lo m = true →
    ∀ b, (m.write a v).read b = if b = a then v else m.read b
  | _, [], a, v, _, b => by
    simp only [Memory.write]
    split
    · next hv => subst hv; by_cases hb : b = a <;> simp [Memory.read, hb]
    · by_cases hb : b = a <;> simp [Memory.read, hb]
  | lo, c :: t, a, v, hm, b => by
    have hm' := hm
    simp only [Memory.wfAbove, Bool.and_eq_true, decide_eq_true_eq] at hm'
    obtain ⟨⟨h1, h2⟩, h3⟩ := hm'
    have hbelow : ∀ x, x < c.1 + 1 → Memory.read t x = 0 := fun x hx => Memory.read_below h3 hx
    simp only [Memory.write]
    split
    · next hlt =>
      have hc : Memory.read (c :: t) a = 0 := by
        have : a ≠ c.1 := by omega
        simp only [Memory.read, this, if_false]; exact hbelow a (by omega)
      split
      · next hv =>
        subst hv
        by_cases hb : b = a
        · subst hb; simp [hc]
        · simp [hb]
      · by_cases hb : b = a <;> simp [hb, Memory.read]
    · split
      · next hn he =>
        subst he
        split
        · next hv =>
          subst hv
          by_cases hb : b = c.1
          · simp [hb, hbelow c.1 (by omega)]
          · simp [hb, Memory.read]
        · by_cases hb : b = c.1 <;> simp [hb, Memory.read]
      · next hn he =>
        simp only [Memory.read, Memory.read_write_above a v h3 b]
        by_cases hb : b = a
        · subst hb; simp [he]
        · simp [hb]

/-- The byte written is read back. -/
theorem Memory.read_write_same {m : Memory} (a : Nat) (v : Byte) (h : m.wf = true) : (m.write a v).read a = v := by
  rw [Memory.read_write_above a v h]; simp

/-- Every other byte stays. -/
theorem Memory.read_write_other {m : Memory} (a : Nat) (v : Byte) (b : Nat) (h : m.wf = true) (hb : b ≠ a) :
    (m.write a v).read b = m.read b := by
  rw [Memory.read_write_above a v h]; simp [hb]

/-! ### Byte strings -/

theorem Memory.cells_append {lo : Nat} : ∀ (a : Nat) (bs : List Byte) (t : Memory), lo ≤ a →
    Memory.wfAbove (a + bs.length) t = true → Memory.wfAbove lo (Memory.cells a bs ++ t) = true
  | a, [], t, h, ht => by
    simp only [Memory.cells, List.nil_append]
    exact Memory.wfAbove_mono (by simpa using h) ht
  | a, b :: bs, t, h, ht => by
    have ht' : Memory.wfAbove (a + 1 + bs.length) t = true := by
      have : a + (b :: bs).length = a + 1 + bs.length := by simp; omega
      exact this ▸ ht
    simp only [Memory.cells]
    split
    · exact Memory.cells_append (a + 1) bs t (by omega) ht'
    · next hb =>
      simp only [List.cons_append, Memory.wfAbove, Bool.and_eq_true, decide_eq_true_eq]
      exact ⟨⟨h, hb⟩, Memory.cells_append (a + 1) bs t (Nat.le_refl _) ht'⟩

theorem Memory.drop_wfAbove {n : Nat} : ∀ {lo : Nat} {m : Memory}, Memory.wfAbove lo m = true →
    Memory.wfAbove n (m.dropWhile (fun c => decide (c.1 < n))) = true
  | _, [], _ => rfl
  | lo, c :: t, h => by
    have h' := h
    simp only [Memory.wfAbove, Bool.and_eq_true, decide_eq_true_eq] at h'
    by_cases hc : c.1 < n
    · simp only [List.dropWhile, hc, decide_true]
      exact Memory.drop_wfAbove h'.2
    · simp only [List.dropWhile, hc, decide_false, Memory.wfAbove, Bool.and_eq_true, decide_eq_true_eq]
      exact ⟨⟨by omega, h'.1.2⟩, h'.2⟩

theorem Memory.take_append {a : Nat} : ∀ {lo : Nat} {m : Memory} {r : Memory}, Memory.wfAbove lo m = true → lo ≤ a →
    Memory.wfAbove a r = true → Memory.wfAbove lo (m.takeWhile (fun c => decide (c.1 < a)) ++ r) = true
  | lo, [], r, _, h, hr => Memory.wfAbove_mono h hr
  | lo, c :: t, r, hm, h, hr => by
    simp only [Memory.wfAbove, Bool.and_eq_true, decide_eq_true_eq] at hm
    by_cases hc : c.1 < a
    · simp only [List.takeWhile, hc, decide_true, List.cons_append, Memory.wfAbove, Bool.and_eq_true, decide_eq_true_eq]
      exact ⟨hm.1, Memory.take_append hm.2 (by omega) hr⟩
    · simp only [List.takeWhile, hc, decide_false, List.nil_append]
      exact Memory.wfAbove_mono h hr

/-- Writing bytes keeps the canonical form. -/
theorem Memory.writeBytes_wf {m : Memory} (a : Nat) (bs : List Byte) (h : m.wf = true) : (m.writeBytes a bs).wf = true := by
  simp only [Memory.writeBytes, Memory.wf, List.append_assoc]
  exact Memory.take_append h (Nat.zero_le a)
    (Memory.cells_append a bs _ (Nat.le_refl a) (Memory.drop_wfAbove h))

theorem Memory.read_take {a : Nat} (b : Nat) : ∀ {lo : Nat} {m r : Memory}, Memory.wfAbove lo m = true →
    Memory.wfAbove a r = true →
    Memory.read (m.takeWhile (fun c => decide (c.1 < a)) ++ r) b = if b < a then m.read b else r.read b
  | _, [], r, _, hr => by
    by_cases hb : b < a
    · simpa [hb, Memory.read] using Memory.read_below hr hb
    · simp [hb]
  | lo, c :: t, r, h, hr => by
    have h' := h
    simp only [Memory.wfAbove, Bool.and_eq_true, decide_eq_true_eq] at h'
    by_cases hc : c.1 < a
    · simp only [List.takeWhile, hc, decide_true, List.cons_append, Memory.read, Memory.read_take b h'.2 hr]
      by_cases hb : b = c.1
      · subst hb; simp [hc]
      · simp [hb]
    · simp only [List.takeWhile, hc, decide_false, List.nil_append]
      by_cases hb : b < a
      · rw [if_pos hb, Memory.read_below hr hb]
        have ht : Memory.wfAbove a (c :: t) = true := by
          simp only [Memory.wfAbove, Bool.and_eq_true, decide_eq_true_eq]
          exact ⟨⟨by omega, h'.1.2⟩, h'.2⟩
        exact (Memory.read_below ht hb).symm
      · rw [if_neg hb]

theorem Memory.read_cells (b : Nat) : ∀ (a : Nat) (bs : List Byte) {r : Memory}, Memory.wfAbove (a + bs.length) r = true →
    Memory.read (Memory.cells a bs ++ r) b = if a ≤ b ∧ b < a + bs.length then bs.getD (b - a) 0 else r.read b
  | a, [], r, _ => by
    have : ¬ (a ≤ b ∧ b < a + ([] : List Byte).length) := by simp
    rw [if_neg this]; rfl
  | a, v :: bs, r, h => by
    have e : a + (v :: bs).length = a + 1 + bs.length := by simp; omega
    have hr : Memory.wfAbove (a + 1 + bs.length) r = true := e ▸ h
    have ih := Memory.read_cells b (a + 1) bs hr
    have hrest : Memory.read (if v = 0 then Memory.cells (a + 1) bs ++ r else (a, v) :: (Memory.cells (a + 1) bs ++ r)) b =
        if b = a then v else Memory.read (Memory.cells (a + 1) bs ++ r) b := by
      split
      · next hv =>
        subst hv
        by_cases hb : b = a
        · subst hb
          rw [if_pos rfl]
          exact Memory.read_below (Memory.cells_append (b + 1) bs r (Nat.le_refl _) hr) (Nat.lt_succ_self b)
        · rw [if_neg hb]
      · rfl
    have hl : Memory.cells a (v :: bs) ++ r =
        (if v = 0 then Memory.cells (a + 1) bs ++ r else (a, v) :: (Memory.cells (a + 1) bs ++ r)) := by
      simp only [Memory.cells]; split <;> rfl
    rw [hl, hrest, e]
    by_cases hb : b = a
    · subst hb
      rw [if_pos rfl, if_pos ⟨Nat.le_refl b, by omega⟩]; simp
    · rw [if_neg hb, ih]
      by_cases hin : a + 1 ≤ b ∧ b < a + 1 + bs.length
      · rw [if_pos hin, if_pos ⟨by omega, hin.2⟩]
        obtain ⟨k, hk⟩ : ∃ k, b - a = k + 1 := ⟨b - a - 1, by omega⟩
        rw [hk, show b - (a + 1) = k by omega]; rfl
      · rw [if_neg hin, if_neg (by omega)]

theorem Memory.read_drop {n : Nat} (b : Nat) (hb : n ≤ b) : ∀ (m : Memory),
    Memory.read (m.dropWhile (fun c => decide (c.1 < n))) b = m.read b
  | [] => rfl
  | c :: t => by
    by_cases hc : c.1 < n
    · have hne : b ≠ c.1 := by omega
      simp only [List.dropWhile, hc, decide_true, Memory.read, hne, if_false]
      exact Memory.read_drop b hb t
    · simp only [List.dropWhile, hc, decide_false]

/-- The byte at an address after a byte string is written: that of the string within it, the one before elsewhere. -/
theorem Memory.read_writeBytes {m : Memory} (a : Nat) (bs : List Byte) (b : Nat) (h : m.wf = true) :
    (m.writeBytes a bs).read b = if a ≤ b ∧ b < a + bs.length then bs.getD (b - a) 0 else m.read b := by
  have hd : Memory.wfAbove (a + bs.length) (m.dropWhile (fun c => decide (c.1 < a + bs.length))) = true :=
    Memory.drop_wfAbove h
  have hc : Memory.wfAbove a (Memory.cells a bs ++ m.dropWhile (fun c => decide (c.1 < a + bs.length))) = true :=
    Memory.cells_append a bs _ (Nat.le_refl a) hd
  simp only [Memory.writeBytes, List.append_assoc]
  rw [Memory.read_take b h hc, Memory.read_cells b a bs hd]
  by_cases hlo : b < a
  · rw [if_pos hlo, if_neg (by omega)]
  · rw [if_neg hlo]
    by_cases hin : a ≤ b ∧ b < a + bs.length
    · rw [if_pos hin, if_pos hin]
    · rw [if_neg hin, if_neg hin, Memory.read_drop b (by omega)]

/-- A byte outside the bytes written stays. -/
theorem Memory.read_writeBytes_other {m : Memory} (a : Nat) (bs : List Byte) (b : Nat) (h : m.wf = true)
    (hb : b < a ∨ a + bs.length ≤ b) : (m.writeBytes a bs).read b = m.read b := by
  rw [Memory.read_writeBytes a bs b h, if_neg (by omega)]

theorem Memory.readFrom_length : ∀ (m : Memory) (a n : Nat), (Memory.readFrom m a n).length = n
  | _, _, 0 => by simp [Memory.readFrom]
  | [], a, n + 1 => by simp [Memory.readFrom, Memory.readFrom_length [] (a + 1) n]
  | c :: t, a, n + 1 => by
    simp only [Memory.readFrom]
    split <;> simp [Memory.readFrom_length _ (a + 1) n]

/-- As many bytes are read as are asked for. -/
theorem Memory.readBytes_length (m : Memory) (a n : Nat) : (m.readBytes a n).length = n := Memory.readFrom_length _ a n

theorem Memory.readFrom_get : ∀ (n : Nat) (m : Memory) (a i : Nat), Memory.wfAbove a m = true → i < n →
    (Memory.readFrom m a n).getD i 0 = m.read (a + i)
  | n + 1, [], a, 0, _, _ => by simp [Memory.readFrom, Memory.read]
  | n + 1, [], a, i + 1, _, h => by
    have := Memory.readFrom_get n [] (a + 1) i rfl (by omega)
    simpa [Memory.readFrom, Memory.read] using this
  | n + 1, c :: t, a, i, hm, h => by
    have hm' := hm
    simp only [Memory.wfAbove, Bool.and_eq_true, decide_eq_true_eq] at hm'
    obtain ⟨⟨h1, h2⟩, h3⟩ := hm'
    simp only [Memory.readFrom]
    split
    · next he =>
      subst he
      cases i with
      | zero => simp [Memory.read]
      | succ i =>
        have := Memory.readFrom_get n t (c.1 + 1) i h3 (by omega)
        have e : c.1 + 1 + i = c.1 + (i + 1) := by omega
        have hne : c.1 + (i + 1) ≠ c.1 := by omega
        simp only [List.getD_cons_succ, this, Memory.read, hne, if_false, e]
    · next he =>
      have hm2 : Memory.wfAbove (a + 1) (c :: t) = true := by
        simp only [Memory.wfAbove, Bool.and_eq_true, decide_eq_true_eq]
        exact ⟨⟨by omega, h2⟩, h3⟩
      cases i with
      | zero => simpa using (Memory.read_below hm2 (Nat.lt_succ_self a)).symm
      | succ i =>
        have := Memory.readFrom_get n (c :: t) (a + 1) i hm2 (by omega)
        have e : a + 1 + i = a + (i + 1) := by omega
        simpa [e] using this

/-- Each byte of a string read is the byte at its address. -/
theorem Memory.readBytes_get {m : Memory} (a n i : Nat) (h : m.wf = true) (hi : i < n) :
    (m.readBytes a n).getD i 0 = m.read (a + i) := by
  rw [Memory.readBytes, Memory.readFrom_get n _ a i (Memory.drop_wfAbove h) hi, Memory.read_drop (a + i) (by omega)]

end Sys2Proof.Machine
end

