-- ==== Sys2Proof/Laws/Kept.lean ====
section
/-!
SUPPORT. What every operation on the device keeps: the queue of waiting commands, and the canonical form of host memory and DRAM.
-/
namespace Sys2Proof.Machine

/-! ### The relation -/

theorem Kept.refl (s : State) : Kept s s := ⟨rfl, id⟩

theorem Kept.trans {a b c : State} (h : Kept a b) (k : Kept b c) : Kept a c := ⟨k.1.trans h.1, fun w => k.2 (h.2 w)⟩

/-- A state that differs in neither of the three. -/
theorem Kept.same {a s t : State} (h : Kept a s) (hp : t.pending = s.pending) (hh : t.host = s.host) (hd : t.dram = s.dram) :
    Kept a t :=
  ⟨hp.trans h.1, fun w => by have := h.2 w; simpa [State.storesWf, hh, hd] using this⟩

/-- A state written out field by field, with the three of another. -/
theorem Kept.fields {a s : State} {v0 : Timebase} {v1 : DevRegs} {v2 : Evc} {v3 : Pcie} {v4 : Boot} {v5 : Table Ring}
    {v6 : Table Title} {v7 : Table Nat} {v8 : Table Site} {v9 : Vector Boiler 32} {v10 : Stores} {v11 : Vector Nat 8}
    {v12 : Table Flow} {v13 : Vector Port 2} {v14 : Vector Head 2} {v15 : List NetPacket} {v16 : List Copy}
    {v17 : Option Nat} {v18 : Nat} {v19 : Nat} {v20 : I2s} {v21 : Vector Sluice 64} {v22 : List Waiting}
    {v23 : List HeldCpl} {v24 : List WaitCall} {v25 : Table Nat} {v26 : Table Txn} {v27 : Table Commit} {v28 : Table Nat}
    {v29 : Option (List Byte)} {v30 : List Byte} {v31 : Vector Nat 8} {v32 : Nat} {v33 : Nat} {v34 : Flash} {v35 : Power}
    {v36 : Pins} {v39 : List Made} {v40 : BitVec 32} {v41 : Nat} {v42 : Nat} (h : Kept a s) :
    Kept a (State.mk v0 v1 v2 v3 v4 v5 v6 v7 v8 v9 v10 v11 v12 v13 v14 v15 v16 v17 v18 v19 v20 v21 v22 v23 v24 v25 v26 v27
      v28 v29 v30 v31 v32 v33 v34 v35 v36 s.host s.dram v39 v40 v41 v42 s.pending) :=
  h.same rfl rfl rfl

/-- Bytes written to host memory. -/
theorem Kept.hostBytes {a s : State} (h : Kept a s) (n : Nat) (bs : List Byte) :
    Kept a { s with host := s.host.writeBytes n bs } :=
  ⟨h.1, fun w => by
    have := h.2 w
    simp only [State.storesWf, Bool.and_eq_true] at this ⊢
    exact ⟨Memory.writeBytes_wf n bs this.1, this.2⟩⟩

/-- Bytes written to device DRAM. -/
theorem Kept.dramBytes {a s : State} (h : Kept a s) (n : Nat) (bs : List Byte) :
    Kept a { s with dram := s.dram.writeBytes n bs } :=
  ⟨h.1, fun w => by
    have := h.2 w
    simp only [State.storesWf, Bool.and_eq_true] at this ⊢
    exact ⟨this.1, Memory.writeBytes_wf n bs this.2⟩⟩

theorem Kept.foldl {α : Type} {a : State} {f : State → α → State} (hf : ∀ s x, Kept a s → Kept a (f s x)) :
    ∀ (l : List α) {s : State}, Kept a s → Kept a (l.foldl f s)
  | [], _, h => h
  | x :: l, _, h => Kept.foldl hf l (hf _ x h)

/-- What an outcome keeps, if it is a next state. -/
def KeptBy (a : State) (r : Result) : Prop := ∀ t, r = .next t → Kept a t

theorem KeptBy.next {a t : State} (h : Kept a t) : KeptBy a (.next t) := by
  intro u hu; cases hu; exact h

theorem State.hostWrite_kept {a s : State} (h : Kept a s) (n : Nat) (bs : List Byte) : Kept a (s.hostWrite n bs) := h.hostBytes n bs

theorem State.putRing_kept {a s : State} (h : Kept a s) (n : Nat) (r : Ring) : Kept a (State.putRing n r s) := by
  simp only [State.putRing]
  repeat' first | (with_reducible assumption) | split | (with_reducible apply Kept.fields)

theorem State.raise_kept {a s : State} (h : Kept a s) (src : Nat) : Kept a (State.raise src s) := by
  simp only [State.raise]
  repeat' first | (with_reducible assumption) | split | (with_reducible apply Kept.fields)

theorem State.signal_kept {a s : State} (h : Kept a s) (n : Nat) (r : Ring) : Kept a (State.signal n r s) := by
  simp only [State.signal]
  repeat' first | (with_reducible assumption) | (with_reducible apply State.putRing_kept) | (with_reducible apply State.raise_kept)

theorem State.moderate_kept {a s : State} (h : Kept a s) (n : Nat) : Kept a (State.moderate n s) := by
  simp only [State.moderate]
  repeat' first | (with_reducible assumption) | (with_reducible apply State.signal_kept) | split

theorem State.pushEntry_kept {a s : State} (h : Kept a s) (n : Nat) (entry : List Byte) :
    Kept a (State.pushEntry n entry s) := by
  simp only [State.pushEntry]
  repeat' first | (with_reducible assumption) | (with_reducible apply State.hostWrite_kept) | (with_reducible apply State.moderate_kept) | (with_reducible apply State.putRing_kept) | split

theorem State.bitternWrite_kept {a s : State} (h : Kept a s) (entry : List Byte) : Kept a (State.bitternWrite entry s) := by
  simp only [State.bitternWrite]
  repeat' first | (with_reducible assumption) | (with_reducible apply State.pushEntry_kept) | split | (with_reducible apply Kept.fields)

theorem State.writeCpl_kept {a s : State} (h : Kept a s) (h : HeldCpl) : Kept a (State.writeCpl h s) := by
  simp only [State.writeCpl]
  repeat' first | (with_reducible assumption) | (with_reducible apply State.pushEntry_kept) | split | (with_reducible apply Kept.fields)

theorem State.complete_kept {a s : State} (h : Kept a s) (c : Packet) (cpl : Nat) (opcode : Nat) (status : Nat) (result : List Byte) :
    Kept a (State.complete c cpl opcode status result s) := by
  simp only [State.complete]
  repeat' first | (with_reducible assumption) | (with_reducible apply State.putRing_kept) | (with_reducible apply State.writeCpl_kept) | split

theorem State.drawn_kept {a s : State} (h : Kept a s) : Kept a (State.drawn s) := by
  simp only [State.drawn]
  repeat' first | (with_reducible assumption) | split | (with_reducible apply Kept.fields)

theorem State.loseEvent_kept {a s : State} (h : Kept a s) (key : Nat) (ev : List Byte) (fault : Bool) :
    Kept a (State.loseEvent key ev fault s) := by
  simp only [State.loseEvent]
  repeat' first | (with_reducible assumption) | (with_reducible apply State.bitternWrite_kept) | (with_reducible apply State.raise_kept) | split | (with_reducible apply Kept.fields)

theorem State.modDev_kept {a s : State} (h : Kept a s) (f : DevRegs → DevRegs) : Kept a (State.modDev f s) := by
  simp only [State.modDev]
  repeat' first | (with_reducible assumption) | split | (with_reducible apply Kept.fields)

theorem State.modPwr_kept {a s : State} (h : Kept a s) (f : Power → Power) : Kept a (State.modPwr f s) := by
  simp only [State.modPwr]
  repeat' first | (with_reducible assumption) | split | (with_reducible apply Kept.fields)

theorem State.putSite_kept {a s : State} (h : Kept a s) (p : Nat) (x : Site) : Kept a (State.putSite p x s) := by
  simp only [State.putSite]
  repeat' first | (with_reducible assumption) | split | (with_reducible apply Kept.fields)

theorem State.modSite_kept {a s : State} (h : Kept a s) (p : Nat) (f : Site → Site) : Kept a (State.modSite p f s) := by
  simp only [State.modSite]
  repeat' first | (with_reducible assumption) | (with_reducible apply State.putSite_kept) | split

theorem State.modTb_kept {a s : State} (h : Kept a s) (f : Timebase → Timebase) : Kept a (State.modTb f s) := by
  simp only [State.modTb]
  repeat' first | (with_reducible assumption) | split | (with_reducible apply Kept.fields)

theorem State.only_kept {a s : State} (h : Kept a s) (b : Bool) (f : State → State) (hf : Kept a s → Kept a (f s)) :
    Kept a (s.only b f) := by
  cases b
  · exact h
  · exact hf h

theorem State.writeLost_kept {a s : State} (h : Kept a s) (n : Nat) : Kept a (State.writeLost n s) := by
  simp only [State.writeLost]
  repeat' first | (with_reducible assumption) | (with_reducible apply State.pushEntry_kept) | split | (with_reducible apply Kept.fields)

theorem State.post_kept {a s : State} (h : Kept a s) (code : Nat) (pan : Option Nat) (flags : Byte) (data : List Byte) :
    Kept a (State.post code pan flags data s) := by
  simp only [State.post]
  repeat' first | (with_reducible assumption) | (with_reducible apply State.pushEntry_kept) | (with_reducible apply State.writeLost_kept) | (with_reducible apply State.loseEvent_kept) | split

theorem State.postDev_kept {a s : State} (h : Kept a s) (code : Nat) (data : List Byte) :
    Kept a (State.postDev code data s) := by
  simp only [State.postDev]
  repeat' first | (with_reducible assumption) | (with_reducible apply State.post_kept)

theorem State.reach_kept {a s : State} (h : Kept a s) (t : Nat) : Kept a (State.reach t s) := by
  simp only [State.reach]
  repeat' first | (with_reducible assumption) | split | (with_reducible apply Kept.fields)

theorem State.skipRecords_kept {a s : State} (h : Kept a s) (p : Nat) : Kept a (State.skipRecords p s) := by
  simp only [State.skipRecords]
  repeat' first | (with_reducible assumption) | (with_reducible apply State.modSite_kept)

theorem State.writeItem_kept {a s : State} (h : Kept a s) (n : Nat) (i : ObsItem) : Kept a (State.writeItem n i s) := by
  simp only [State.writeItem]
  repeat' first | (with_reducible assumption) | (with_reducible apply State.hostWrite_kept) | (with_reducible apply State.pushEntry_kept) | (with_reducible apply State.putRing_kept) | split

theorem State.writeItems_kept {a s : State} (h : Kept a s) (n : Nat) (is : List ObsItem) :
    Kept a (State.writeItems n is s) := by
  simp only [State.writeItems]
  repeat' first | (with_reducible assumption) | (with_reducible apply State.writeItem_kept) | split | (with_reducible refine Kept.foldl (fun _ _ _ => ?_) _ ?_)

theorem State.writeFrame_kept {a s : State} (h : Kept a s) (p : Nat) : Kept a (State.writeFrame p s) := by
  simp only [State.writeFrame]
  repeat' first | (with_reducible assumption) | (with_reducible apply State.putSite_kept) | (with_reducible apply State.writeItems_kept) | split

theorem State.finishHalt_kept {a s : State} (h : Kept a s) (p : Pan) (status : Nat) (met : Bool) (pl : Placement) :
    Kept a (State.finishHalt p status met pl s) := by
  simp only [State.finishHalt]
  repeat' first | (with_reducible assumption) | (with_reducible apply State.complete_kept) | split

theorem State.abortHalts_kept {a s : State} (h : Kept a s) (p : Nat) : Kept a (State.abortHalts p s) := by
  simp only [State.abortHalts]
  repeat' first | (with_reducible assumption) | (with_reducible apply State.finishHalt_kept) | (with_reducible apply State.putSite_kept) | split | (with_reducible refine Kept.foldl (fun _ _ _ => ?_) _ ?_)

theorem State.partDone_kept {a s : State} (h : Kept a s) (t status : Nat) : Kept a (State.partDone t status s) := by
  simp only [State.partDone]
  repeat' first | (with_reducible assumption) | (with_reducible apply State.complete_kept) | split | (with_reducible apply Kept.fields)

theorem State.finish_kept {a s : State} (h : Kept a s) (w : Waiting) (status : Nat) (result : List Byte) :
    Kept a (State.finish w status result s) := by
  simp only [State.finish]
  repeat' first | (with_reducible assumption) | (with_reducible apply State.partDone_kept) | (with_reducible apply State.complete_kept) | split

theorem State.dropWaiting_kept {a s : State} (h : Kept a s) (f : Waiting → Bool) (status : Nat) :
    Kept a (State.dropWaiting f status s) := by
  simp only [State.dropWaiting]
  repeat' first | (with_reducible assumption) | (with_reducible apply State.finish_kept) | split | (with_reducible refine Kept.foldl (fun _ _ _ => ?_) _ ?_) | (with_reducible apply Kept.fields)

theorem State.abortWaiting_kept {a s : State} (h : Kept a s) (p : Nat) : Kept a (State.abortWaiting p s) := by
  simp only [State.abortWaiting]
  repeat' first | (with_reducible assumption) | (with_reducible apply State.dropWaiting_kept) | (with_reducible apply State.abortHalts_kept)

theorem State.dropCalls_kept {a s : State} (h : Kept a s) (p : Nat) : Kept a (State.dropCalls p s) := by
  simp only [State.dropCalls]
  repeat' first | (with_reducible assumption) | split | (with_reducible apply Kept.fields)

theorem State.spaceWrite_kept {a s : State} (h : Kept a s) (space n : Nat) (bs : List Byte) : Kept a (s.spaceWrite space n bs) := by
  simp only [State.spaceWrite]
  split
  · exact h.hostBytes n bs
  · exact h.dramBytes n bs

theorem State.saveTo_kept {a s : State} (h : Kept a s) (q : Snapshot) (c : Packet) : Kept a (State.saveTo q c s) := by
  simp only [State.saveTo]
  exact (State.spaceWrite_kept h _ _ _).same rfl rfl rfl

theorem State.finishSaves_kept {a s : State} (h : Kept a s) (p : Nat) : Kept a (State.finishSaves p s) := by
  simp only [State.finishSaves]
  repeat' first | (with_reducible assumption) | (with_reducible apply State.finish_kept) | (with_reducible apply State.saveTo_kept) | split | (with_reducible refine Kept.foldl (fun _ _ _ => ?_) _ ?_) | (with_reducible apply Kept.fields)

theorem State.faultPan_kept {a s : State} (h : Kept a s) (p : Nat) (cause : Byte) (pc : Word) (redo : Bool) :
    Kept a (State.faultPan p cause pc redo s) := by
  simp only [State.faultPan]
  repeat' first | (with_reducible assumption) | (with_reducible apply State.modSite_kept) | (with_reducible apply State.abortWaiting_kept) | (with_reducible apply State.post_kept) | (with_reducible apply State.dropCalls_kept) | (with_reducible apply State.finishSaves_kept) | split

theorem State.pushCall_kept {a s : State} (h : Kept a s) (n : Nat) (entry : List Byte) : Kept a (State.pushCall n entry s) := by
  simp only [State.pushCall]
  repeat' first | (with_reducible assumption) | (with_reducible apply State.pushEntry_kept) | (with_reducible apply State.hostWrite_kept) | (with_reducible apply State.moderate_kept) | (with_reducible apply State.putRing_kept) | split

theorem State.sendCall_kept {a s : State} (h : Kept a s) (pan : Nat) (entry : List Byte) :
    Kept a (State.sendCall pan entry s) := by
  simp only [State.sendCall]
  repeat' first | (with_reducible assumption) | (with_reducible apply State.pushCall_kept) | split | (with_reducible apply Kept.fields)

theorem State.takeCall_kept {a s : State} (h : Kept a s) (p : Nat) (redo : Bool) (call : Byte) (seq : Byte) (request : List Byte) (frame : Nat) (cyc : Nat) (fcount : Nat) :
    Kept a (State.takeCall p redo call seq request frame cyc fcount s) := by
  simp only [State.takeCall]
  repeat' first | (with_reducible assumption) | (with_reducible apply State.sendCall_kept) | (with_reducible apply State.putSite_kept) | split

theorem State.takeOut_kept {a s : State} (h : Kept a s) (p : Nat) (redo : Bool) (o : PanOut) :
    Kept a (State.takeOut p redo s o) := by
  simp only [State.takeOut]
  repeat' first | (with_reducible assumption) | (with_reducible apply State.faultPan_kept) | (with_reducible apply State.post_kept) | (with_reducible apply State.takeCall_kept) | split

theorem State.flush_kept {a s : State} (h : Kept a s) (p : Nat) (redo : Bool) : Kept a (State.flush p redo s) := by
  simp only [State.flush]
  repeat' first | (with_reducible assumption) | (with_reducible apply State.takeOut_kept) | (with_reducible apply State.putSite_kept) | split | (with_reducible refine Kept.foldl (fun _ _ _ => ?_) _ ?_)

theorem State.idlePan_kept {a s : State} (h : Kept a s) (p : Nat) : Kept a (State.idlePan p s) := by
  simp only [State.idlePan]
  repeat' first | (with_reducible assumption) | (with_reducible apply State.modSite_kept) | (with_reducible apply State.abortWaiting_kept) | (with_reducible apply State.dropCalls_kept)

theorem State.crystallize_kept {a s : State} (h : Kept a s) (p : Nat) : Kept a (State.crystallize p s) := by
  simp only [State.crystallize]
  repeat' first | (with_reducible assumption) | (with_reducible apply State.putSite_kept) | split | (with_reducible apply Kept.fields)

theorem State.settleFrame_kept {a s : State} (h : Kept a s) (p : Nat) : Kept a (State.settleFrame p s) := by
  simp only [State.settleFrame]
  repeat' first | (with_reducible assumption) | (with_reducible apply State.skipRecords_kept) | (with_reducible apply State.post_kept) | (with_reducible apply State.putSite_kept) | split

theorem State.stopsHere_kept {a s : State} (h : Kept a s) (p : Nat) (frame : Nat) : Kept a (State.stopsHere p frame s) := by
  simp only [State.stopsHere]
  repeat' first | (with_reducible assumption) | (with_reducible apply State.settleFrame_kept) | (with_reducible apply State.finish_kept) | (with_reducible apply State.idlePan_kept) | (with_reducible apply State.finishSaves_kept) | split | (with_reducible refine Kept.foldl (fun _ _ _ => ?_) _ ?_) | (with_reducible apply Kept.fields)

theorem State.park_kept {a s : State} (h : Kept a s) (p : Nat) (frame : Nat) (reason : Nat) (redo : Bool) :
    Kept a (State.park p frame reason redo s) := by
  simp only [State.park]
  repeat' first | (with_reducible assumption) | (with_reducible apply State.abortHalts_kept) | (with_reducible apply State.modSite_kept) | (with_reducible apply State.post_kept) | split

theorem State.compareHash_kept {a s : State} (h : Kept a s) (p : Nat) (frame : Nat) (h : BitVec 64) (redo : Bool) :
    Kept a (State.compareHash p frame h redo s) := by
  simp only [State.compareHash]
  repeat' first | (with_reducible assumption) | (with_reducible apply State.modSite_kept) | (with_reducible apply State.park_kept) | (with_reducible apply State.post_kept) | split

theorem State.parkOnError_kept {a s : State} (h : Kept a s) (p : Nat) (frame : Nat) : Kept a (State.parkOnError p frame s) := by
  simp only [State.parkOnError]
  repeat' first | (with_reducible assumption) | (with_reducible apply State.park_kept) | (with_reducible apply State.putSite_kept) | split

theorem State.waitsForRecords_kept {a s : State} (h : Kept a s) (p : Nat) : Kept a (State.waitsForRecords p s) := by
  simp only [State.waitsForRecords]
  repeat' first | (with_reducible assumption) | (with_reducible apply State.modSite_kept)

theorem State.tidyPhase_kept {a s : State} (h : Kept a s) (p : Nat) : Kept a (State.tidyPhase p s) := by
  simp only [State.tidyPhase]
  repeat' first | (with_reducible assumption) | (with_reducible apply State.modSite_kept)

theorem State.takeMode_kept {a s : State} (h : Kept a s) (p : Nat) : Kept a (State.takeMode p s) := by
  simp only [State.takeMode]
  repeat' first | (with_reducible assumption) | (with_reducible apply State.tidyPhase_kept) | (with_reducible apply State.settleFrame_kept) | (with_reducible apply State.modSite_kept) | split

theorem State.countLate_kept {a s : State} (h : Kept a s) (p : Nat) (r : Placement) : Kept a (State.countLate p s r) := by
  simp only [State.countLate]
  repeat' first | (with_reducible assumption) | (with_reducible apply State.modSite_kept) | (with_reducible apply State.modDev_kept) | split | (with_reducible apply Kept.fields)

theorem State.sweepLate_kept {a s : State} (h : Kept a s) (p : Nat) (old : Pan) : Kept a (State.sweepLate p old s) := by
  simp only [State.sweepLate]
  repeat' first | (with_reducible assumption) | (with_reducible apply State.countLate_kept) | (with_reducible apply State.putSite_kept) | split | (with_reducible refine Kept.foldl (fun _ _ _ => ?_) _ ?_)

theorem State.frameDone_kept {a s : State} (h : Kept a s) (p : Nat) (old : Pan) (redo : Bool) :
    Kept a (State.frameDone p old redo s) := by
  simp only [State.frameDone]
  repeat' first | (with_reducible assumption) | (with_reducible apply State.stopsHere_kept) | (with_reducible apply State.compareHash_kept) | (with_reducible apply State.parkOnError_kept) | (with_reducible apply State.waitsForRecords_kept) | (with_reducible apply State.takeMode_kept) | (with_reducible apply State.sweepLate_kept) | (with_reducible apply State.putSite_kept) | split

theorem State.afterPan_kept {a s : State} (h : Kept a s) (p : Nat) (old : Pan) (redo : Bool) :
    Kept a (State.afterPan p old redo s) := by
  simp only [State.afterPan]
  repeat' first | (with_reducible assumption) | (with_reducible apply State.crystallize_kept) | (with_reducible apply State.frameDone_kept) | (with_reducible apply State.flush_kept) | split

theorem State.panCycle_kept {a s : State} (h : Kept a s) (p : Nat) (redo : Bool) : Kept a (State.panCycle p redo s) := by
  simp only [State.panCycle]
  repeat' first | (with_reducible assumption) | (with_reducible apply State.afterPan_kept) | (with_reducible apply State.putSite_kept) | split

theorem State.rerunTo_kept {a : State} (p : Nat) (frame : Nat) :
    ∀ (n : Nat) {s : State}, Kept a s → Kept a (State.rerunTo p frame n s)
  | 0, _, h => h
  | n + 1, s, h => by
    simp only [State.rerunTo]
    split
    · exact h
    · split
      · exact h
      · exact State.rerunTo_kept p frame n (State.panCycle_kept h p true)

end Sys2Proof.Machine
end

