-- ==== Sys2Proof/Laws/State.lean ====
section
/-!
SUPPORT. What each update of the device changes, field by field: the field it writes, and every other field as it was. `simp` takes
each part as a rule of its own, so that no proof unfolds a record update.
-/
namespace Sys2Proof.Machine

/-- The field changed: a pan's record put. -/
@[simp] theorem State.putSite_sites (p : Nat) (x : Site) (s : State) : (s.putSite p x).sites = Table.put s.sites p x := rfl

/-- Every other field: a pan's record put. -/
@[simp] theorem State.putSite_others (p : Nat) (x : Site) (s : State) :
    (s.putSite p x).tb = s.tb ∧ (s.putSite p x).dev = s.dev ∧ (s.putSite p x).evc = s.evc ∧ (s.putSite p x).pcie = s.pcie ∧
    (s.putSite p x).boot = s.boot ∧ (s.putSite p x).rings = s.rings ∧ (s.putSite p x).titles = s.titles ∧
    (s.putSite p x).allocs = s.allocs ∧ (s.putSite p x).boilers = s.boilers ∧ (s.putSite p x).stores = s.stores ∧
    (s.putSite p x).crystal = s.crystal ∧ (s.putSite p x).flows = s.flows ∧ (s.putSite p x).ports = s.ports ∧
    (s.putSite p x).heads = s.heads ∧ (s.putSite p x).packets = s.packets ∧ (s.putSite p x).copies = s.copies ∧
    (s.putSite p x).bittern = s.bittern ∧ (s.putSite p x).bitternWritten = s.bitternWritten ∧
    (s.putSite p x).bitternCounted = s.bitternCounted ∧ (s.putSite p x).i2s = s.i2s ∧ (s.putSite p x).sluice = s.sluice ∧
    (s.putSite p x).waiting = s.waiting ∧ (s.putSite p x).held = s.held ∧ (s.putSite p x).waitCalls = s.waitCalls ∧
    (s.putSite p x).evtLost = s.evtLost ∧ (s.putSite p x).txns = s.txns ∧ (s.putSite p x).commits = s.commits ∧
    (s.putSite p x).versions = s.versions ∧ (s.putSite p x).patch = s.patch ∧ (s.putSite p x).boilerPatch = s.boilerPatch ∧
    (s.putSite p x).rrFree = s.rrFree ∧ (s.putSite p x).rrObs = s.rrObs ∧ (s.putSite p x).rrCmd = s.rrCmd ∧
    (s.putSite p x).flash = s.flash ∧ (s.putSite p x).pwr = s.pwr ∧ (s.putSite p x).pins = s.pins ∧
    (s.putSite p x).host = s.host ∧ (s.putSite p x).dram = s.dram ∧ (s.putSite p x).made = s.made ∧
    (s.putSite p x).barRead = s.barRead ∧ (s.putSite p x).free = s.free ∧ (s.putSite p x).acc = s.acc ∧
    (s.putSite p x).pending = s.pending :=
  ⟨rfl, rfl, rfl, rfl, rfl, rfl, rfl, rfl, rfl, rfl, rfl, rfl, rfl, rfl, rfl, rfl, rfl, rfl, rfl, rfl, rfl, rfl, rfl, rfl, rfl,
    rfl, rfl, rfl, rfl, rfl, rfl, rfl, rfl, rfl, rfl, rfl, rfl, rfl, rfl, rfl, rfl, rfl, rfl⟩

/-- The field changed: a ring put. -/
@[simp] theorem State.putRing_rings (n : Nat) (r : Ring) (s : State) : (s.putRing n r).rings = Table.put s.rings n r := rfl

/-- Every other field: a ring put. -/
@[simp] theorem State.putRing_others (n : Nat) (r : Ring) (s : State) :
    (s.putRing n r).tb = s.tb ∧ (s.putRing n r).dev = s.dev ∧ (s.putRing n r).evc = s.evc ∧ (s.putRing n r).pcie = s.pcie ∧
    (s.putRing n r).boot = s.boot ∧ (s.putRing n r).titles = s.titles ∧ (s.putRing n r).allocs = s.allocs ∧
    (s.putRing n r).sites = s.sites ∧ (s.putRing n r).boilers = s.boilers ∧ (s.putRing n r).stores = s.stores ∧
    (s.putRing n r).crystal = s.crystal ∧ (s.putRing n r).flows = s.flows ∧ (s.putRing n r).ports = s.ports ∧
    (s.putRing n r).heads = s.heads ∧ (s.putRing n r).packets = s.packets ∧ (s.putRing n r).copies = s.copies ∧
    (s.putRing n r).bittern = s.bittern ∧ (s.putRing n r).bitternWritten = s.bitternWritten ∧
    (s.putRing n r).bitternCounted = s.bitternCounted ∧ (s.putRing n r).i2s = s.i2s ∧ (s.putRing n r).sluice = s.sluice ∧
    (s.putRing n r).waiting = s.waiting ∧ (s.putRing n r).held = s.held ∧ (s.putRing n r).waitCalls = s.waitCalls ∧
    (s.putRing n r).evtLost = s.evtLost ∧ (s.putRing n r).txns = s.txns ∧ (s.putRing n r).commits = s.commits ∧
    (s.putRing n r).versions = s.versions ∧ (s.putRing n r).patch = s.patch ∧ (s.putRing n r).boilerPatch = s.boilerPatch ∧
    (s.putRing n r).rrFree = s.rrFree ∧ (s.putRing n r).rrObs = s.rrObs ∧ (s.putRing n r).rrCmd = s.rrCmd ∧
    (s.putRing n r).flash = s.flash ∧ (s.putRing n r).pwr = s.pwr ∧ (s.putRing n r).pins = s.pins ∧
    (s.putRing n r).host = s.host ∧ (s.putRing n r).dram = s.dram ∧ (s.putRing n r).made = s.made ∧
    (s.putRing n r).barRead = s.barRead ∧ (s.putRing n r).free = s.free ∧ (s.putRing n r).acc = s.acc ∧
    (s.putRing n r).pending = s.pending :=
  ⟨rfl, rfl, rfl, rfl, rfl, rfl, rfl, rfl, rfl, rfl, rfl, rfl, rfl, rfl, rfl, rfl, rfl, rfl, rfl, rfl, rfl, rfl, rfl, rfl, rfl,
    rfl, rfl, rfl, rfl, rfl, rfl, rfl, rfl, rfl, rfl, rfl, rfl, rfl, rfl, rfl, rfl, rfl, rfl⟩

/-- The field changed: bytes written to host memory (R339). -/
@[simp] theorem State.hostWrite_host (a : Nat) (bs : List Byte) (s : State) : (s.hostWrite a bs).host = s.host.writeBytes a bs := rfl

/-- Every other field: bytes written to host memory (R339). -/
@[simp] theorem State.hostWrite_others (a : Nat) (bs : List Byte) (s : State) :
    (s.hostWrite a bs).tb = s.tb ∧ (s.hostWrite a bs).dev = s.dev ∧ (s.hostWrite a bs).evc = s.evc ∧
    (s.hostWrite a bs).pcie = s.pcie ∧ (s.hostWrite a bs).boot = s.boot ∧ (s.hostWrite a bs).rings = s.rings ∧
    (s.hostWrite a bs).titles = s.titles ∧ (s.hostWrite a bs).allocs = s.allocs ∧ (s.hostWrite a bs).sites = s.sites ∧
    (s.hostWrite a bs).boilers = s.boilers ∧ (s.hostWrite a bs).stores = s.stores ∧ (s.hostWrite a bs).crystal = s.crystal ∧
    (s.hostWrite a bs).flows = s.flows ∧ (s.hostWrite a bs).ports = s.ports ∧ (s.hostWrite a bs).heads = s.heads ∧
    (s.hostWrite a bs).packets = s.packets ∧ (s.hostWrite a bs).copies = s.copies ∧ (s.hostWrite a bs).bittern = s.bittern ∧
    (s.hostWrite a bs).bitternWritten = s.bitternWritten ∧ (s.hostWrite a bs).bitternCounted = s.bitternCounted ∧
    (s.hostWrite a bs).i2s = s.i2s ∧ (s.hostWrite a bs).sluice = s.sluice ∧ (s.hostWrite a bs).waiting = s.waiting ∧
    (s.hostWrite a bs).held = s.held ∧ (s.hostWrite a bs).waitCalls = s.waitCalls ∧ (s.hostWrite a bs).evtLost = s.evtLost ∧
    (s.hostWrite a bs).txns = s.txns ∧ (s.hostWrite a bs).commits = s.commits ∧ (s.hostWrite a bs).versions = s.versions ∧
    (s.hostWrite a bs).patch = s.patch ∧ (s.hostWrite a bs).boilerPatch = s.boilerPatch ∧
    (s.hostWrite a bs).rrFree = s.rrFree ∧ (s.hostWrite a bs).rrObs = s.rrObs ∧ (s.hostWrite a bs).rrCmd = s.rrCmd ∧
    (s.hostWrite a bs).flash = s.flash ∧ (s.hostWrite a bs).pwr = s.pwr ∧ (s.hostWrite a bs).pins = s.pins ∧
    (s.hostWrite a bs).dram = s.dram ∧ (s.hostWrite a bs).made = s.made ∧ (s.hostWrite a bs).barRead = s.barRead ∧
    (s.hostWrite a bs).free = s.free ∧ (s.hostWrite a bs).acc = s.acc ∧ (s.hostWrite a bs).pending = s.pending :=
  ⟨rfl, rfl, rfl, rfl, rfl, rfl, rfl, rfl, rfl, rfl, rfl, rfl, rfl, rfl, rfl, rfl, rfl, rfl, rfl, rfl, rfl, rfl, rfl, rfl, rfl,
    rfl, rfl, rfl, rfl, rfl, rfl, rfl, rfl, rfl, rfl, rfl, rfl, rfl, rfl, rfl, rfl, rfl, rfl⟩

/-- The field changed: device time moved up. -/
@[simp] theorem State.reach_tb (t : Nat) (s : State) : (s.reach t).tb = s.tb.moveTo t := rfl

/-- Every other field: device time moved up. -/
@[simp] theorem State.reach_others (t : Nat) (s : State) :
    (s.reach t).dev = s.dev ∧ (s.reach t).evc = s.evc ∧ (s.reach t).pcie = s.pcie ∧ (s.reach t).boot = s.boot ∧
    (s.reach t).rings = s.rings ∧ (s.reach t).titles = s.titles ∧ (s.reach t).allocs = s.allocs ∧
    (s.reach t).sites = s.sites ∧ (s.reach t).boilers = s.boilers ∧ (s.reach t).stores = s.stores ∧
    (s.reach t).crystal = s.crystal ∧ (s.reach t).flows = s.flows ∧ (s.reach t).ports = s.ports ∧
    (s.reach t).heads = s.heads ∧ (s.reach t).packets = s.packets ∧ (s.reach t).copies = s.copies ∧
    (s.reach t).bittern = s.bittern ∧ (s.reach t).bitternWritten = s.bitternWritten ∧
    (s.reach t).bitternCounted = s.bitternCounted ∧ (s.reach t).i2s = s.i2s ∧ (s.reach t).sluice = s.sluice ∧
    (s.reach t).waiting = s.waiting ∧ (s.reach t).held = s.held ∧ (s.reach t).waitCalls = s.waitCalls ∧
    (s.reach t).evtLost = s.evtLost ∧ (s.reach t).txns = s.txns ∧ (s.reach t).commits = s.commits ∧
    (s.reach t).versions = s.versions ∧ (s.reach t).patch = s.patch ∧ (s.reach t).boilerPatch = s.boilerPatch ∧
    (s.reach t).rrFree = s.rrFree ∧ (s.reach t).rrObs = s.rrObs ∧ (s.reach t).rrCmd = s.rrCmd ∧ (s.reach t).flash = s.flash ∧
    (s.reach t).pwr = s.pwr ∧ (s.reach t).pins = s.pins ∧ (s.reach t).host = s.host ∧ (s.reach t).dram = s.dram ∧
    (s.reach t).made = s.made ∧ (s.reach t).barRead = s.barRead ∧ (s.reach t).free = s.free ∧ (s.reach t).acc = s.acc ∧
    (s.reach t).pending = s.pending :=
  ⟨rfl, rfl, rfl, rfl, rfl, rfl, rfl, rfl, rfl, rfl, rfl, rfl, rfl, rfl, rfl, rfl, rfl, rfl, rfl, rfl, rfl, rfl, rfl, rfl, rfl,
    rfl, rfl, rfl, rfl, rfl, rfl, rfl, rfl, rfl, rfl, rfl, rfl, rfl, rfl, rfl, rfl, rfl, rfl⟩

/-- The field changed: the timebase changed. -/
@[simp] theorem State.modTb_tb (f : Timebase → Timebase) (s : State) : (s.modTb f).tb = f s.tb := rfl

/-- Every other field: the timebase changed. -/
@[simp] theorem State.modTb_others (f : Timebase → Timebase) (s : State) :
    (s.modTb f).dev = s.dev ∧ (s.modTb f).evc = s.evc ∧ (s.modTb f).pcie = s.pcie ∧ (s.modTb f).boot = s.boot ∧
    (s.modTb f).rings = s.rings ∧ (s.modTb f).titles = s.titles ∧ (s.modTb f).allocs = s.allocs ∧
    (s.modTb f).sites = s.sites ∧ (s.modTb f).boilers = s.boilers ∧ (s.modTb f).stores = s.stores ∧
    (s.modTb f).crystal = s.crystal ∧ (s.modTb f).flows = s.flows ∧ (s.modTb f).ports = s.ports ∧
    (s.modTb f).heads = s.heads ∧ (s.modTb f).packets = s.packets ∧ (s.modTb f).copies = s.copies ∧
    (s.modTb f).bittern = s.bittern ∧ (s.modTb f).bitternWritten = s.bitternWritten ∧
    (s.modTb f).bitternCounted = s.bitternCounted ∧ (s.modTb f).i2s = s.i2s ∧ (s.modTb f).sluice = s.sluice ∧
    (s.modTb f).waiting = s.waiting ∧ (s.modTb f).held = s.held ∧ (s.modTb f).waitCalls = s.waitCalls ∧
    (s.modTb f).evtLost = s.evtLost ∧ (s.modTb f).txns = s.txns ∧ (s.modTb f).commits = s.commits ∧
    (s.modTb f).versions = s.versions ∧ (s.modTb f).patch = s.patch ∧ (s.modTb f).boilerPatch = s.boilerPatch ∧
    (s.modTb f).rrFree = s.rrFree ∧ (s.modTb f).rrObs = s.rrObs ∧ (s.modTb f).rrCmd = s.rrCmd ∧ (s.modTb f).flash = s.flash ∧
    (s.modTb f).pwr = s.pwr ∧ (s.modTb f).pins = s.pins ∧ (s.modTb f).host = s.host ∧ (s.modTb f).dram = s.dram ∧
    (s.modTb f).made = s.made ∧ (s.modTb f).barRead = s.barRead ∧ (s.modTb f).free = s.free ∧ (s.modTb f).acc = s.acc ∧
    (s.modTb f).pending = s.pending :=
  ⟨rfl, rfl, rfl, rfl, rfl, rfl, rfl, rfl, rfl, rfl, rfl, rfl, rfl, rfl, rfl, rfl, rfl, rfl, rfl, rfl, rfl, rfl, rfl, rfl, rfl,
    rfl, rfl, rfl, rfl, rfl, rfl, rfl, rfl, rfl, rfl, rfl, rfl, rfl, rfl, rfl, rfl, rfl, rfl⟩

/-- The field changed: the device registers changed. -/
@[simp] theorem State.modDev_dev (f : DevRegs → DevRegs) (s : State) : (s.modDev f).dev = f s.dev := rfl

/-- Every other field: the device registers changed. -/
@[simp] theorem State.modDev_others (f : DevRegs → DevRegs) (s : State) :
    (s.modDev f).tb = s.tb ∧ (s.modDev f).evc = s.evc ∧ (s.modDev f).pcie = s.pcie ∧ (s.modDev f).boot = s.boot ∧
    (s.modDev f).rings = s.rings ∧ (s.modDev f).titles = s.titles ∧ (s.modDev f).allocs = s.allocs ∧
    (s.modDev f).sites = s.sites ∧ (s.modDev f).boilers = s.boilers ∧ (s.modDev f).stores = s.stores ∧
    (s.modDev f).crystal = s.crystal ∧ (s.modDev f).flows = s.flows ∧ (s.modDev f).ports = s.ports ∧
    (s.modDev f).heads = s.heads ∧ (s.modDev f).packets = s.packets ∧ (s.modDev f).copies = s.copies ∧
    (s.modDev f).bittern = s.bittern ∧ (s.modDev f).bitternWritten = s.bitternWritten ∧
    (s.modDev f).bitternCounted = s.bitternCounted ∧ (s.modDev f).i2s = s.i2s ∧ (s.modDev f).sluice = s.sluice ∧
    (s.modDev f).waiting = s.waiting ∧ (s.modDev f).held = s.held ∧ (s.modDev f).waitCalls = s.waitCalls ∧
    (s.modDev f).evtLost = s.evtLost ∧ (s.modDev f).txns = s.txns ∧ (s.modDev f).commits = s.commits ∧
    (s.modDev f).versions = s.versions ∧ (s.modDev f).patch = s.patch ∧ (s.modDev f).boilerPatch = s.boilerPatch ∧
    (s.modDev f).rrFree = s.rrFree ∧ (s.modDev f).rrObs = s.rrObs ∧ (s.modDev f).rrCmd = s.rrCmd ∧
    (s.modDev f).flash = s.flash ∧ (s.modDev f).pwr = s.pwr ∧ (s.modDev f).pins = s.pins ∧ (s.modDev f).host = s.host ∧
    (s.modDev f).dram = s.dram ∧ (s.modDev f).made = s.made ∧ (s.modDev f).barRead = s.barRead ∧ (s.modDev f).free = s.free ∧
    (s.modDev f).acc = s.acc ∧ (s.modDev f).pending = s.pending :=
  ⟨rfl, rfl, rfl, rfl, rfl, rfl, rfl, rfl, rfl, rfl, rfl, rfl, rfl, rfl, rfl, rfl, rfl, rfl, rfl, rfl, rfl, rfl, rfl, rfl, rfl,
    rfl, rfl, rfl, rfl, rfl, rfl, rfl, rfl, rfl, rfl, rfl, rfl, rfl, rfl, rfl, rfl, rfl, rfl⟩

/-- The field changed: the power state changed. -/
@[simp] theorem State.modPwr_pwr (f : Power → Power) (s : State) : (s.modPwr f).pwr = f s.pwr := rfl

/-- Every other field: the power state changed. -/
@[simp] theorem State.modPwr_others (f : Power → Power) (s : State) :
    (s.modPwr f).tb = s.tb ∧ (s.modPwr f).dev = s.dev ∧ (s.modPwr f).evc = s.evc ∧ (s.modPwr f).pcie = s.pcie ∧
    (s.modPwr f).boot = s.boot ∧ (s.modPwr f).rings = s.rings ∧ (s.modPwr f).titles = s.titles ∧
    (s.modPwr f).allocs = s.allocs ∧ (s.modPwr f).sites = s.sites ∧ (s.modPwr f).boilers = s.boilers ∧
    (s.modPwr f).stores = s.stores ∧ (s.modPwr f).crystal = s.crystal ∧ (s.modPwr f).flows = s.flows ∧
    (s.modPwr f).ports = s.ports ∧ (s.modPwr f).heads = s.heads ∧ (s.modPwr f).packets = s.packets ∧
    (s.modPwr f).copies = s.copies ∧ (s.modPwr f).bittern = s.bittern ∧ (s.modPwr f).bitternWritten = s.bitternWritten ∧
    (s.modPwr f).bitternCounted = s.bitternCounted ∧ (s.modPwr f).i2s = s.i2s ∧ (s.modPwr f).sluice = s.sluice ∧
    (s.modPwr f).waiting = s.waiting ∧ (s.modPwr f).held = s.held ∧ (s.modPwr f).waitCalls = s.waitCalls ∧
    (s.modPwr f).evtLost = s.evtLost ∧ (s.modPwr f).txns = s.txns ∧ (s.modPwr f).commits = s.commits ∧
    (s.modPwr f).versions = s.versions ∧ (s.modPwr f).patch = s.patch ∧ (s.modPwr f).boilerPatch = s.boilerPatch ∧
    (s.modPwr f).rrFree = s.rrFree ∧ (s.modPwr f).rrObs = s.rrObs ∧ (s.modPwr f).rrCmd = s.rrCmd ∧
    (s.modPwr f).flash = s.flash ∧ (s.modPwr f).pins = s.pins ∧ (s.modPwr f).host = s.host ∧ (s.modPwr f).dram = s.dram ∧
    (s.modPwr f).made = s.made ∧ (s.modPwr f).barRead = s.barRead ∧ (s.modPwr f).free = s.free ∧ (s.modPwr f).acc = s.acc ∧
    (s.modPwr f).pending = s.pending :=
  ⟨rfl, rfl, rfl, rfl, rfl, rfl, rfl, rfl, rfl, rfl, rfl, rfl, rfl, rfl, rfl, rfl, rfl, rfl, rfl, rfl, rfl, rfl, rfl, rfl, rfl,
    rfl, rfl, rfl, rfl, rfl, rfl, rfl, rfl, rfl, rfl, rfl, rfl, rfl, rfl, rfl, rfl, rfl, rfl⟩

/-- The field changed: a free value drawn. -/
@[simp] theorem State.drawn_free (s : State) : (s.drawn).free = s.free + 1 := rfl

/-- Every other field: a free value drawn. -/
@[simp] theorem State.drawn_others (s : State) :
    (s.drawn).tb = s.tb ∧ (s.drawn).dev = s.dev ∧ (s.drawn).evc = s.evc ∧ (s.drawn).pcie = s.pcie ∧ (s.drawn).boot = s.boot ∧
    (s.drawn).rings = s.rings ∧ (s.drawn).titles = s.titles ∧ (s.drawn).allocs = s.allocs ∧ (s.drawn).sites = s.sites ∧
    (s.drawn).boilers = s.boilers ∧ (s.drawn).stores = s.stores ∧ (s.drawn).crystal = s.crystal ∧ (s.drawn).flows = s.flows ∧
    (s.drawn).ports = s.ports ∧ (s.drawn).heads = s.heads ∧ (s.drawn).packets = s.packets ∧ (s.drawn).copies = s.copies ∧
    (s.drawn).bittern = s.bittern ∧ (s.drawn).bitternWritten = s.bitternWritten ∧
    (s.drawn).bitternCounted = s.bitternCounted ∧ (s.drawn).i2s = s.i2s ∧ (s.drawn).sluice = s.sluice ∧
    (s.drawn).waiting = s.waiting ∧ (s.drawn).held = s.held ∧ (s.drawn).waitCalls = s.waitCalls ∧
    (s.drawn).evtLost = s.evtLost ∧ (s.drawn).txns = s.txns ∧ (s.drawn).commits = s.commits ∧
    (s.drawn).versions = s.versions ∧ (s.drawn).patch = s.patch ∧ (s.drawn).boilerPatch = s.boilerPatch ∧
    (s.drawn).rrFree = s.rrFree ∧ (s.drawn).rrObs = s.rrObs ∧ (s.drawn).rrCmd = s.rrCmd ∧ (s.drawn).flash = s.flash ∧
    (s.drawn).pwr = s.pwr ∧ (s.drawn).pins = s.pins ∧ (s.drawn).host = s.host ∧ (s.drawn).dram = s.dram ∧
    (s.drawn).made = s.made ∧ (s.drawn).barRead = s.barRead ∧ (s.drawn).acc = s.acc ∧ (s.drawn).pending = s.pending :=
  ⟨rfl, rfl, rfl, rfl, rfl, rfl, rfl, rfl, rfl, rfl, rfl, rfl, rfl, rfl, rfl, rfl, rfl, rfl, rfl, rfl, rfl, rfl, rfl, rfl, rfl,
    rfl, rfl, rfl, rfl, rfl, rfl, rfl, rfl, rfl, rfl, rfl, rfl, rfl, rfl, rfl, rfl, rfl, rfl⟩

/-- The field changed: an event source raised (R332). -/
@[simp] theorem State.raise_evc (n : Nat) (s : State) : (s.raise n).evc = s.evc.raise s.now n := rfl

/-- Every other field: an event source raised (R332). -/
@[simp] theorem State.raise_others (n : Nat) (s : State) :
    (s.raise n).tb = s.tb ∧ (s.raise n).dev = s.dev ∧ (s.raise n).pcie = s.pcie ∧ (s.raise n).boot = s.boot ∧
    (s.raise n).rings = s.rings ∧ (s.raise n).titles = s.titles ∧ (s.raise n).allocs = s.allocs ∧
    (s.raise n).sites = s.sites ∧ (s.raise n).boilers = s.boilers ∧ (s.raise n).stores = s.stores ∧
    (s.raise n).crystal = s.crystal ∧ (s.raise n).flows = s.flows ∧ (s.raise n).ports = s.ports ∧
    (s.raise n).heads = s.heads ∧ (s.raise n).packets = s.packets ∧ (s.raise n).copies = s.copies ∧
    (s.raise n).bittern = s.bittern ∧ (s.raise n).bitternWritten = s.bitternWritten ∧
    (s.raise n).bitternCounted = s.bitternCounted ∧ (s.raise n).i2s = s.i2s ∧ (s.raise n).sluice = s.sluice ∧
    (s.raise n).waiting = s.waiting ∧ (s.raise n).held = s.held ∧ (s.raise n).waitCalls = s.waitCalls ∧
    (s.raise n).evtLost = s.evtLost ∧ (s.raise n).txns = s.txns ∧ (s.raise n).commits = s.commits ∧
    (s.raise n).versions = s.versions ∧ (s.raise n).patch = s.patch ∧ (s.raise n).boilerPatch = s.boilerPatch ∧
    (s.raise n).rrFree = s.rrFree ∧ (s.raise n).rrObs = s.rrObs ∧ (s.raise n).rrCmd = s.rrCmd ∧ (s.raise n).flash = s.flash ∧
    (s.raise n).pwr = s.pwr ∧ (s.raise n).pins = s.pins ∧ (s.raise n).host = s.host ∧ (s.raise n).dram = s.dram ∧
    (s.raise n).made = s.made ∧ (s.raise n).barRead = s.barRead ∧ (s.raise n).free = s.free ∧ (s.raise n).acc = s.acc ∧
    (s.raise n).pending = s.pending :=
  ⟨rfl, rfl, rfl, rfl, rfl, rfl, rfl, rfl, rfl, rfl, rfl, rfl, rfl, rfl, rfl, rfl, rfl, rfl, rfl, rfl, rfl, rfl, rfl, rfl, rfl,
    rfl, rfl, rfl, rfl, rfl, rfl, rfl, rfl, rfl, rfl, rfl, rfl, rfl, rfl, rfl, rfl, rfl, rfl⟩

end Sys2Proof.Machine
end

