-- ==== Sys2Proof/WellFormed.lean ====
section
/-!
DEFINITION. Which commands are well formed: pan and ring numbers in range (R335, R363), operand forms the opcode map gives
the operation (R32), and the sizes the spec gives a packet, a frame and a register offset. Meanings are total: an ill-formed
command has no effect of its own.
-/
namespace Sys2Proof

/-- A pan's number is 0 to 2,047. -/
def panWf (p : PanNo) : Bool := decide (p < 2048)

/-- A ring's number is 0 to 16,383 (R335). -/
def ringWf (r : RingNo) : Bool := decide (r < 16384)

/-- A packet: its ring, and the 52 bytes of offsets 12 to 63 (R355). -/
def Packet.wf (c : Packet) : Bool := ringWf c.ring && decide (c.params.length = 52)

/-- The forms of the two-operand ALU instructions (R32). -/
def aluModes : List Mode := [.imm, .dir, .dirX, .abs, .absX, .absY, .indP, .indQ]

/-- The forms of the read-modify-write instructions (R32). -/
def rmwModes : List Mode := [.dir, .abs, .acc]

/-- The checks on a command's operands. -/
def Instr.wf (i : Instr) : Bool :=
  match i with
  | .add p m => panWf p && aluModes.contains m
  | .adc p m => panWf p && aluModes.contains m
  | .sub p m => panWf p && aluModes.contains m
  | .sbc p m => panWf p && aluModes.contains m
  | .and p m => panWf p && aluModes.contains m
  | .or p m => panWf p && aluModes.contains m
  | .xor p m => panWf p && aluModes.contains m
  | .cmp p m => panWf p && aluModes.contains m
  | .cpx p m => panWf p && ([.imm, .dir, .abs] : List Mode).contains m
  | .cpy p m => panWf p && ([.imm, .dir, .abs] : List Mode).contains m
  | .cpp p => panWf p
  | .cpq p => panWf p
  | .lda p m => panWf p && ([.imm, .dir, .dirX, .abs, .absX, .absY, .indP, .indQ, .incP, .incQ, .indPX, .indPd] : List Mode).contains m
  | .sta p m => panWf p && ([.dir, .dirX, .abs, .absX, .absY, .indP, .indQ, .incP, .incQ, .indPX, .indPd] : List Mode).contains m
  | .ldb p m => panWf p && ([.imm, .dir, .abs] : List Mode).contains m
  | .stb p m => panWf p && ([.dir, .abs] : List Mode).contains m
  | .ldx p m => panWf p && ([.imm, .dir, .abs] : List Mode).contains m
  | .stx p m => panWf p && ([.dir, .abs] : List Mode).contains m
  | .ldy p m => panWf p && ([.imm, .dir, .abs] : List Mode).contains m
  | .sty p m => panWf p && ([.dir, .abs] : List Mode).contains m
  | .ldk p m => panWf p && ([.imm, .dir] : List Mode).contains m
  | .ldp p m => panWf p && ([.imm16, .dir, .abs] : List Mode).contains m
  | .stp p m => panWf p && ([.dir, .abs] : List Mode).contains m
  | .ldq p m => panWf p && ([.imm16, .dir, .abs] : List Mode).contains m
  | .stq p m => panWf p && ([.dir, .abs] : List Mode).contains m
  | .lds p => panWf p
  | .mvb p => panWf p
  | .inc p m => panWf p && rmwModes.contains m
  | .dec p m => panWf p && rmwModes.contains m
  | .asl p m => panWf p && rmwModes.contains m
  | .lsr p m => panWf p && rmwModes.contains m
  | .rol p m => panWf p && rmwModes.contains m
  | .ror p m => panWf p && rmwModes.contains m
  | .tst p m => panWf p && ([.dir, .abs] : List Mode).contains m
  | .bit p m => panWf p && ([.dir, .abs] : List Mode).contains m
  | .negA p => panWf p
  | .notA p => panWf p
  | .inx p => panWf p
  | .dex p => panWf p
  | .iny p => panWf p
  | .dey p => panWf p
  | .inp p => panWf p
  | .dep p => panWf p
  | .inq p => panWf p
  | .deq p => panWf p
  | .tab p => panWf p
  | .tba p => panWf p
  | .tax p => panWf p
  | .txa p => panWf p
  | .tay p => panWf p
  | .tya p => panWf p
  | .tak p => panWf p
  | .tka p => panWf p
  | .swab p => panWf p
  | .tpq p => panWf p
  | .tqp p => panWf p
  | .tsp p => panWf p
  | .tps p => panWf p
  | .adpa p => panWf p
  | .leap p => panWf p
  | .leaq p => panWf p
  | .daa p => panWf p
  | .nop p => panWf p
  | .bra p => panWf p
  | .beq p => panWf p
  | .bne p => panWf p
  | .bcs p => panWf p
  | .bcc p => panWf p
  | .bmi p => panWf p
  | .bpl p => panWf p
  | .bvs p => panWf p
  | .bvc p => panWf p
  | .bhi p => panWf p
  | .bls p => panWf p
  | .bge p => panWf p
  | .blt p => panWf p
  | .bgt p => panWf p
  | .ble p => panWf p
  | .djnz p => panWf p
  | .jmp p m => panWf p && ([.abs, .memInd, .indP, .memIndX] : List Mode).contains m
  | .call p m => panWf p && ([.abs, .indP] : List Mode).contains m
  | .ret p => panWf p
  | .rti p => panWf p
  | .push p _ => panWf p
  | .pop p _ => panWf p
  | .clc p => panWf p
  | .sec p => panWf p
  | .cli p => panWf p
  | .sei p => panWf p
  | .clv p => panWf p
  | .wai p => panWf p
  | .waiWake p => panWf p
  | .rep p => panWf p
  | .illegalOp p => panWf p
  | .brk p => panWf p
  | .mul p => panWf p
  | .muls p => panWf p
  | .mulDeliver p => panWf p
  | .mu16 p => panWf p
  | .ms16 p => panWf p
  | .divu p => panWf p
  | .divs p => panWf p
  | .sq32 p => panWf p
  | .sq16 p => panWf p
  | .mac p => panWf p
  | .cpcl p => panWf p
  | .coprocessorDone p => panWf p
  | .hostCall p _ => panWf p
  | .hcallReply ring => ringWf ring
  | .hcallReplyApply p => panWf p
  | .hcallTimeout p => panWf p
  | .hcallRequestWrite ring => ringWf ring
  | .irqEntry p => panWf p
  | .nmiEntry p => panWf p
  | .icClaimRead p => panWf p
  | .icCompleteWrite p _ => panWf p
  | .icSoft p _ => panWf p
  | .icHoldoffExpiry p _ => panWf p
  | .rombankHWrite p _ => panWf p
  | .registerWrite p _ _ => panWf p
  | .frameCountRead p => panWf p
  | .flipTimeRead p => panWf p
  | .panTagRead p => panWf p
  | .dmaStart p _ _ => panWf p
  | .dmaStop p _ _ => panWf p
  | .dmaUnitTransfer p _ => panWf p
  | .dmaHalf p _ => panWf p
  | .dmaFull p _ => panWf p
  | .crcDataWrite p _ => panWf p
  | .crcCtlWrite p _ => panWf p
  | .crcInit p => panWf p
  | .crcStart p => panWf p
  | .crcDone p => panWf p
  | .crcResRead p => panWf p
  | .inputSlotRead p _ => panWf p
  | .inputStatRead p _ => panWf p
  | .inputPlacement p => panWf p
  | .attachPlacement p => panWf p
  | .detachPlacement p => panWf p
  | .mailboxPlacement p => panWf p
  | .mailboxDelivery p => panWf p
  | .mbInack p => panWf p
  | .mbSend p => panWf p
  | .moviePlacement p => panWf p
  | .mvReadyWrite p _ => panWf p
  | .frameCommit p _ => panWf p
  | .frameLatch p => panWf p
  | .fetchPoint p => panWf p
  | .spriteCollision p x => panWf p && decide (x < 480)
  | .sprStatRead p => panWf p
  | .vblank p => panWf p
  | .hblank p => panWf p
  | .lineCmp p => panWf p
  | .beamRead p => panWf p
  | .frameEnd p => panWf p
  | .rasterTableEntry p _ => panWf p
  | .timerTick p _ => panWf p
  | .timerMatch p _ => panWf p
  | .timerOverflow p _ => panWf p
  | .timerCapnow p _ _ => panWf p
  | .timerCntHWrite p _ _ => panWf p
  | .timerCmpHWrite p _ _ => panWf p
  | .timerCtlWrite p _ _ => panWf p
  | .timerCaplRead p _ => panWf p
  | .soundTick p => panWf p
  | .envelopeStep p _ => panWf p
  | .sweepStep p _ => panWf p
  | .lfsrShift p => panWf p
  | .voiceKeyon p _ _ => panWf p
  | .voiceEnvWrite p _ _ => panWf p
  | .voiceSweepWrite p _ _ => panWf p
  | .resamplerEmit p => panWf p
  | .s0CtlWrite p _ => panWf p
  | .s0DataWrite p _ => panWf p
  | .s0Pop p => panWf p
  | .s0Refill p => panWf p
  | .swapIn p _ => panWf p
  | .swapOut p => panWf p
  | .burstStart p _ => panWf p
  | .burstEnd p => panWf p
  | .freeRunStart p _ => panWf p
  | .freeRunEnd p => panWf p
  | .freeRunWaitEnd p => panWf p
  | .rewind p => panWf p
  | .stepCountDone p => panWf p
  | .logRecordApply p => panWf p
  | .haltReached p => panWf p
  | .storeError _ _ _ _ => true
  | .boilerReload _ _ => true
  | .patchSwitch => true
  | .deviceEpoch => true
  | .slewAbsorbed => true
  | .tbTimeRead => true
  | .tbPpsinRead => true
  | .tbSlewRead => true
  | .ppsOutEdge => true
  | .ppsInEdge => true
  | .tbRefclkLock => true
  | .tbRefclkLoss => true
  | .rxFrame _ _ _ => true
  | .packetDeparture _ => true
  | .packetDisplaced _ => true
  | .packetLateDeparture _ => true
  | .pktTxSend ring => ringWf ring
  | .linkUp _ => true
  | .linkDown _ => true
  | .harvesterFrame p => panWf p
  | .harvesterFrameDone p => panWf p
  | .keyIntervalExpiry p => panWf p
  | .recoveryIntervalExpiry p => panWf p
  | .holdRefreshExpiry p => panWf p
  | .audioBlock p => panWf p
  | .gainTimeout p _ => panWf p
  | .opusFrameEncode p => panWf p
  | .i2sBlockPlay => true
  | .obsRecordWrite p => panWf p
  | .headVblank _ => true
  | .hpdRise _ lanes _ => decide (lanes ≤ 4)
  | .hpdFall _ => true
  | .doorbell ring _ => ringWf ring
  | .bootGo => true
  | .evcRaise _ => true
  | .evcGroupDelivery _ => true
  | .moderationTimeout ring => ringWf ring
  | .evtLostWrite ring => ringWf ring
  | .cplHeldWrite ring => ringWf ring
  | .slcDoneRead _ => true
  | .sluiceHalf _ => true
  | .sluiceChainDone _ => true
  | .sluiceFault _ bytes => decide (bytes < 2 ^ 32)
  | .devQuery c => c.wf
  | .devSet c => c.wf
  | .ringCreate c => c.wf
  | .ringDestroy c => c.wf
  | .ringQuery c => c.wf
  | .ringMod c => c.wf
  | .titleLoad c => c.wf
  | .titleUnload c => c.wf
  | .memAlloc c => c.wf
  | .memFree c => c.wf
  | .panCreate c => c.wf
  | .panDestroy c => c.wf
  | .panConfig c => c.wf
  | .panStart c => c.wf
  | .panMode c => c.wf
  | .panHalt c => c.wf
  | .panResume c => c.wf
  | .panStop c => c.wf
  | .panReset c => c.wf
  | .panDebug c => c.wf
  | .panAttach c => c.wf
  | .panDetach c => c.wf
  | .panMailbox c => c.wf
  | .panMovie c => c.wf
  | .panInput c => c.wf
  | .panHcall c => c.wf
  | .panObs c => c.wf
  | .panQuery c => c.wf
  | .heapDepth c => c.wf
  | .heapHash c => c.wf
  | .heapHashref c => c.wf
  | .heapLog c => c.wf
  | .heapSave c => c.wf
  | .heapRestore c => c.wf
  | .heapReplay c => c.wf
  | .streamCreate c => c.wf
  | .streamSet c => c.wf
  | .streamDelete c => c.wf
  | .streamKey c => c.wf
  | .streamLoss c => c.wf
  | .streamQuery c => c.wf
  | .portSet c => c.wf
  | .portAddr c => c.wf
  | .portRings c => c.wf
  | .flowSet c => c.wf
  | .flowKey c => c.wf
  | .netQuery c => c.wf
  | .audioSet c => c.wf
  | .audioRoute c => c.wf
  | .audioGauge c => c.wf
  | .headTiming c => c.wf
  | .headLayout c => c.wf
  | .headTile c => c.wf
  | .headStatus c => c.wf
  | .headSideband c => c.wf
  | .tbRate c => c.wf
  | .tbSlew c => c.wf
  | .tbStep c => c.wf
  | .tbPps c => c.wf
  | .fwWrite c => c.wf
  | .ucodePatch c => c.wf
  | .sluiceStart c => c.wf
  | .txnBegin c => c.wf
  | .txnStage _ c => c.wf
  | .txnCommit c => c.wf
  | .txnRollback c => c.wf
  | .txnExpiry _ => true
  | .commandTimeout _ => true
  | .abortSluice c => c.wf
  | .abortPan c => c.wf
  | .abortRing c => c.wf
  | .abortSession c => c.wf
  | .abortAll c => c.wf
  | .sysRstRelease => true
  | .sysRstAssert => true
  | .perstAssert => true
  | .functionLevelReset => true
  | .firmwareAccept => true
  | .dramTrained _ _ => true
  | .ucodeLoaded => true
  | .d3hotEntry => true
  | .d0Return => true
  | .avsVoutCommand _ => true
  | .railAlertAssert => true
  | .railAlertRelease => true
  | .governorStartDelay p => panWf p
  | .thermalWarning _ => true
  | .thermalThrottle _ => true
  | .thermtrip _ => true
  | .smbBlockRead _ => true
  | .smbBlockWrite _ _ => true
  | .pinEdge _ _ => true
  | .deviceRegisterWrite offset _ => decide (offset % 4 = 0) && decide (offset < 0x40000000)
  | .perstRelease => true
  | .commandInterpreterReady => true
  | .timebaseCounting _ => true
  | .ppsOutFall => true
  | .thermWarnClear _ => true
  | .thermalThrottleEnd _ => true
  | .powerRemoval => true

end Sys2Proof
end

