-- ==== Sys2Proof/Tests/Slice0.lean ====
section
/-!
SUPPORT. The model's own tests: small checks against the spec's own figures and examples, and for every obligation with hypotheses a
witness, a concrete state and operands that meet them together.
-/
namespace Sys2Proof.Tests

open Sys2Proof.Machine

theorem test_reset_sound : Machine.State.reset.storesWf = true := by decide

/-! ### Ill-formed commands: one per kind of check, and a well-formed one -/

theorem test_wf_pan_number : Instr.wf (.nop 2048) = false ∧ Instr.wf (.nop 2047) = true := by decide

theorem test_wf_operand_form : Instr.wf (.sta 0 .imm) = false ∧ Instr.wf (.sta 0 .abs) = true := by decide

theorem test_wf_ring_number : Instr.wf (.hcallReply 16384) = false ∧ Instr.wf (.hcallReply 16383) = true := by decide

theorem test_wf_packet :
    let c : Packet := { ring := 1, flags := 0, plen := 0, tag := 0, txid := 0, target := 0, params := List.replicate 52 0 }
    Instr.wf (.devQuery c) = true ∧ Instr.wf (.devQuery { c with ring := 16384 }) = false ∧
    Instr.wf (.devQuery { c with params := [0] }) = false := by decide

theorem test_wf_pixel : Instr.wf (.spriteCollision 0 480) = false ∧ Instr.wf (.spriteCollision 0 479) = true := by decide

theorem test_wf_lanes : Instr.wf (.hpdRise 0 5 0) = false ∧ Instr.wf (.hpdRise 0 4 0) = true := by decide

theorem test_wf_register_offset :
    Instr.wf (.deviceRegisterWrite 0x1002 0) = false ∧ Instr.wf (.deviceRegisterWrite 0x40000000 0) = false ∧
    Instr.wf (.deviceRegisterWrite 0x1000 0) = true := by decide

theorem test_wf_sluice_fault : Instr.wf (.sluiceFault 0 (2 ^ 32)) = false ∧ Instr.wf (.sluiceFault 0 5) = true := by decide

/-! ### Witnesses: a pan that runs -/

/-- P1, 60 Hz, kind LOCKED, no title bytes, 256 bytes of media. -/
def cfg : PanCfg :=
  { profile := 1, fp := 266666667, lb := 262, elastic := false, titleId := 0, minKpa := 2, rewindFlag := true, romLen := 4096,
    rom := [], cramSize := 8192, mediaLen := 256 }

/-- A pan past its reset sequence that stands before the byte `b` at $0200. -/
def panAt (b : Byte) : Pan :=
  let p := Pan.reset cfg 0 [] []
  { p with core := { p.core with resetLeft := 0 }, cpu := { p.cpu with pc := 0x200 }, wram := Memory.write [] 0x200 b }

/-- A record of that pan, running on boiler 0 in FREE. -/
def siteWith (q : Pan) : Site := { Site.create q 0 0 0 with mode := .free, slot := some 0, boiler := some 0 }

/-- A device out of reset with the record of pan 0. -/
def stateWith (x : Site) : State :=
  { State.reset with pwr := { State.reset.pwr with sysRst := false }, tb := { State.reset.tb with counting := true }, sites := [(0, x)] }

/-- Any record that is live makes its pan advance. -/
theorem advances (x : Site) (h : x.live = true) (r : (stateWith x).runDone x = false) (t : x.pan.Still) :
    State.Advances (stateWith x) 0 x :=
  have e : (stateWith x).engines = true := by simp [State.engines, stateWith, State.reset, DevRegs.reset]
  have f : (stateWith x).site 0 = some x := rfl
  { toStill := t, live := by simp [State.liveSite, State.runs, e, f, Option.filter, h, r] }

/-- Any image that waits for nothing makes its pan advance. -/
theorem pan_advances (q : Pan) (hw : q.core.hcWait = false) (hf : q.core.fault = 0) (t : q.Still) :
    State.Advances (stateWith (siteWith q)) 0 (siteWith q) :=
  advances _ (by simp [Site.live, siteWith, Site.create, hw, hf, Site.freeRun, Site.hasWork])
    (by simp [State.runDone, Site.runOver, Site.canRun, Site.freeRun, Site.hasWork, stateWith, siteWith, Site.create, hw, hf, Config.usUnits,
      State.now, State.reset, Timebase.reset, DevRegs.reset]) t

/-- A pan that advances begins a pan-cycle where nothing of the one before is left to do. -/
theorem goes {s : State} {p : Nat} {x : Site} (h : State.Advances s p x) (u : x.pan.unsettled = false) : State.Goes s p x :=
  { toStill := h.toStill, live := ⟨x, h.live, by simp [Site.settled, Pan.settle, u]⟩ }

/-- Every opcode of the map is one before which a pan can stand: the witness of each statement about an instruction. -/
theorem begins (b : Byte) (o : Op) (m : Mode) (h : decodeOp b = some (o, m)) :
    State.Begins (stateWith (siteWith (panAt b))) 0 (siteWith (panAt b)) o m where
  toGoes := goes (pan_advances _ rfl rfl ⟨rfl, rfl, rfl⟩) rfl
  halt := rfl
  reset := rfl
  ready := rfl
  here := by
    show decodeOp ((panAt b).peek 0x200) = _
    rw [← h]; exact congrArg decodeOp (Memory.read_write_same 0x200 b rfl)


/-- Addresses of a list are plain, as a check that evaluates. -/
theorem plain_of (as : List Word) (h : as.all (fun a => decide (a.toNat < 0xE000) || decide (0xF000 ≤ a.toNat)) = true) :
    ∀ a ∈ as, plainAddr a := by
  intro a ha; have := List.all_eq_true.mp h a ha; simpa [plainAddr] using this

/-- Any instruction at $0200 lies outside the I/O range. -/
theorem plainRun_at (b : Byte) (m : Mode) (as : List Word)
    (h : as.all (fun a => decide (a.toNat < 0xE000) || decide (0xF000 ≤ a.toNat)) = true) : plainRun m (panAt b).cpu.pc as := by
  refine ⟨fun i hi => .inl ?_, plain_of as h⟩
  show (0x200#16 + BitVec.ofNat 16 i).toNat < 0xE000
  have : operandBytes m ≤ 2 := by cases m <;> decide
  simp [BitVec.toNat_add]; omega

/-- The pan at $0200 stands before opcode `b`, an instruction of operation `o` in form `m`. -/
abbrev At (b : Byte) (o : Op) (m : Mode) : Prop := State.Begins (stateWith (siteWith (panAt b))) 0 (siteWith (panAt b)) o m

/-- The hypotheses of `Event` and `EventNow`, met by a pan image: the pan advances, and a condition holds. Where nothing of the pan-cycle
before is left to do, those of `Reads`, `Writes` and `WritesLate` as well: a pan-cycle of it begins. -/
def Meets (q : Pan) (c : Bool) : Prop :=
  State.Advances (stateWith (siteWith q)) 0 (siteWith q) ∧ (siteWith q).pan = q ∧
    State.Goes (stateWith (siteWith q)) 0 (siteWith q) ∧ c = true

/-- A check that evaluates. -/
theorem meets (q : Pan) (c : Bool)
    (h : (!q.core.hcWait && q.core.fault == 0 && q.out.isEmpty && !q.abort && q.crust.served == 0 && !q.unsettled && c) = true) :
    Meets q c := by
  simp only [Bool.and_eq_true, Bool.not_eq_true', List.isEmpty_iff, beq_iff_eq] at h
  obtain ⟨⟨⟨⟨⟨⟨h1, h2⟩, h3⟩, h4⟩, h5⟩, h6⟩, h7⟩ := h
  have a := pan_advances q h1 h2 ⟨h3, h4, h5⟩
  exact ⟨a, rfl, goes a h6, h7⟩

/-! ### The processor's statements -/

theorem witness_SumsAndDifferences : At 0x10 .add .imm ∧ At 0x19 .adc .dir ∧ At 0x22 .sub .dirX ∧ At 0x2B .sbc .abs ∧
    At 0x4C .cmp .absX ∧ At 0xDF .cpx .abs ∧ At 0xEC .cpy .abs ∧ At 0x16 .add .indP ∧ At 0x1D .adc .absY ∧ At 0x27 .sub .indQ :=
  ⟨begins _ _ _ rfl, begins _ _ _ rfl, begins _ _ _ rfl, begins _ _ _ rfl, begins _ _ _ rfl, begins _ _ _ rfl,
   begins _ _ _ rfl, begins _ _ _ rfl, begins _ _ _ rfl, begins _ _ _ rfl⟩

theorem witness_LogicAndLoads : At 0x30 .and .imm ∧ At 0x38 .or .imm ∧ At 0x40 .xor .imm ∧ At 0x58 .lda .incP ∧ At 0xE8 .lda .indPX ∧
    At 0xEA .lda .indPd ∧ At 0x63 .ldb .imm ∧ At 0x68 .ldx .imm ∧ At 0x6D .ldy .imm ∧ At 0x72 .ldk .imm ∧ At 0x8C .tst .dir ∧
    At 0x8F .bit .abs :=
  ⟨begins _ _ _ rfl, begins _ _ _ rfl, begins _ _ _ rfl, begins _ _ _ rfl, begins _ _ _ rfl, begins _ _ _ rfl, begins _ _ _ rfl,
   begins _ _ _ rfl, begins _ _ _ rfl, begins _ _ _ rfl, begins _ _ _ rfl, begins _ _ _ rfl⟩

theorem witness_WordOperands : At 0x74 .ldp .imm16 ∧ At 0x75 .ldp .dir ∧ At 0x7B .ldq .abs ∧ At 0x7E .lds .imm16 ∧ At 0xE6 .cpp .imm16 ∧
    At 0xE7 .cpq .imm16 ∧ At 0xE4 .leap .simm ∧ At 0xE5 .leaq .simm :=
  ⟨begins _ _ _ rfl, begins _ _ _ rfl, begins _ _ _ rfl, begins _ _ _ rfl, begins _ _ _ rfl, begins _ _ _ rfl, begins _ _ _ rfl,
   begins _ _ _ rfl⟩

theorem witness_Transfers : At 0xA0 .tab .implied ∧ At 0xA1 .tba .implied ∧ At 0xA2 .tax .implied ∧ At 0xA3 .txa .implied ∧
    At 0xA4 .tay .implied ∧ At 0xA5 .tya .implied ∧ At 0xA6 .tak .implied ∧ At 0xA7 .tka .implied ∧ At 0xA8 .swab .implied ∧
    At 0xA9 .tpq .implied ∧ At 0xAA .tqp .implied ∧ At 0xAB .tsp .implied ∧ At 0xAC .tps .implied ∧ At 0xAD .adpa .implied :=
  ⟨begins _ _ _ rfl, begins _ _ _ rfl, begins _ _ _ rfl, begins _ _ _ rfl, begins _ _ _ rfl, begins _ _ _ rfl, begins _ _ _ rfl,
   begins _ _ _ rfl, begins _ _ _ rfl, begins _ _ _ rfl, begins _ _ _ rfl, begins _ _ _ rfl, begins _ _ _ rfl, begins _ _ _ rfl⟩

theorem witness_RegisterArithmetic : At 0x96 .negA .implied ∧ At 0x97 .notA .implied ∧ At 0x98 .inx .implied ∧ At 0x99 .dex .implied ∧
    At 0x9A .iny .implied ∧ At 0x9B .dey .implied ∧ At 0x9C .inp .implied ∧ At 0x9D .dep .implied ∧ At 0x9E .inq .implied ∧
    At 0x9F .deq .implied ∧ At 0xAE .daa .implied ∧ At 0xAF .nop .implied ∧ At 0xD0 .clc .implied ∧ At 0xD1 .sec .implied ∧
    At 0xD2 .cli .implied ∧ At 0xD3 .sei .implied ∧ At 0xD4 .clv .implied :=
  ⟨begins _ _ _ rfl, begins _ _ _ rfl, begins _ _ _ rfl, begins _ _ _ rfl, begins _ _ _ rfl, begins _ _ _ rfl, begins _ _ _ rfl,
   begins _ _ _ rfl, begins _ _ _ rfl, begins _ _ _ rfl, begins _ _ _ rfl, begins _ _ _ rfl, begins _ _ _ rfl, begins _ _ _ rfl,
   begins _ _ _ rfl, begins _ _ _ rfl, begins _ _ _ rfl⟩

/-- The image read up to its operands, a store made at the form's address, and nothing out of order. -/
def storeOk (b : Byte) (m : Mode) (v : Byte) : Bool :=
  !((((panAt b).afterOperands m).poke (((panAt b).afterOperands m).dataAddr m) v).abort)

theorem witness_Stores : (At 0x5A .sta .dir ∧ storeOk 0x5A .dir 0 = true) ∧ (At 0x66 .stb .dir ∧ storeOk 0x66 .dir 0 = true) ∧
    (At 0x6C .stx .abs ∧ storeOk 0x6C .abs 0 = true) ∧ (At 0x70 .sty .dir ∧ storeOk 0x70 .dir 0 = true) ∧
    (At 0x61 .sta .incP ∧ storeOk 0x61 .incP 0 = true) ∧
    (At 0x77 .stp .dir ∧ ((writeLow .dir Cpu.p ((panAt 0x77).afterOperands .dir)).spend).abort = false) ∧
    (At 0x7D .stq .abs ∧ ((writeLow .abs Cpu.q ((panAt 0x7D).afterOperands .abs)).spend).abort = false) :=
  ⟨⟨begins _ _ _ rfl, by decide⟩, ⟨begins _ _ _ rfl, by decide⟩, ⟨begins _ _ _ rfl, by decide⟩, ⟨begins _ _ _ rfl, by decide⟩,
   ⟨begins _ _ _ rfl, by decide⟩, ⟨begins _ _ _ rfl, by decide⟩, ⟨begins _ _ _ rfl, by decide⟩⟩

/-- Addresses where a write lands and where it is ignored, beside one it leaves alone. -/
theorem witness_WritesOneByte : (panAt 0xAF).storesWf = true ∧ plainAddr 0x7FFF ∧ plainAddr 0x8000 ∧ plainAddr 0xDFFF ∧
    plainAddr 0xF000 := by
  refine ⟨by decide, ?_, ?_, ?_, ?_⟩ <;> (unfold plainAddr; decide)

theorem witness_PanStoresStayCanonical : (panAt 0xAF).storesWf = true := by decide

theorem witness_ReadModifyWrite : At 0x80 .inc .dir ∧ At 0x83 .dec .abs ∧ At 0x84 .asl .dir ∧ At 0x87 .lsr .abs ∧ At 0x88 .rol .dir ∧
    At 0x8B .ror .abs ∧ storeOk 0x80 .dir 1 = true ∧ storeOk 0x87 .abs 0 = true ∧ At 0x90 .inc .acc ∧ At 0x91 .dec .acc ∧
    At 0x92 .asl .acc ∧ At 0x93 .lsr .acc ∧ At 0x94 .rol .acc ∧ At 0x95 .ror .acc :=
  ⟨begins _ _ _ rfl, begins _ _ _ rfl, begins _ _ _ rfl, begins _ _ _ rfl, begins _ _ _ rfl, begins _ _ _ rfl, by decide, by decide,
   begins _ _ _ rfl, begins _ _ _ rfl, begins _ _ _ rfl, begins _ _ _ rfl, begins _ _ _ rfl, begins _ _ _ rfl⟩

theorem witness_BranchTargets : At 0xB0 (.branch .always) .rel ∧ At 0xB1 (.branch .eq) .rel ∧ At 0xB2 (.branch .ne) .rel ∧
    At 0xB3 (.branch .cs) .rel ∧ At 0xB4 (.branch .cc) .rel ∧ At 0xB5 (.branch .mi) .rel ∧ At 0xB6 (.branch .pl) .rel ∧
    At 0xB7 (.branch .vs) .rel ∧ At 0xB8 (.branch .vc) .rel ∧ At 0xB9 (.branch .hi) .rel ∧ At 0xBA (.branch .ls) .rel ∧
    At 0xBB (.branch .ge) .rel ∧ At 0xBC (.branch .lt) .rel ∧ At 0xBD (.branch .gt) .rel ∧ At 0xBE (.branch .le) .rel ∧
    At 0xBF .djnz .rel :=
  ⟨begins _ _ _ rfl, begins _ _ _ rfl, begins _ _ _ rfl, begins _ _ _ rfl, begins _ _ _ rfl, begins _ _ _ rfl, begins _ _ _ rfl,
   begins _ _ _ rfl, begins _ _ _ rfl, begins _ _ _ rfl, begins _ _ _ rfl, begins _ _ _ rfl, begins _ _ _ rfl, begins _ _ _ rfl,
   begins _ _ _ rfl, begins _ _ _ rfl⟩

/-- The addresses these instructions use at reset: the operand word and the vectors' bytes are 0, S is $7FFF, P and Q are 0. -/
def usual : List Word := [0, 1, 2, 0x7FFF, 0x7FFE, 0x7FFD, 0x8000, 0x8001, 0x8002, 0xFFF8, 0xFFF9, 0xFFFA, 0xFFFB, 0xFFFC, 0xFFFD]

theorem witness_JumpsAndCalls : (panAt 0xC0).wordAt 0x201 = 0 ∧
    (At 0xC0 .jmp .abs ∧ plainRun .abs (panAt 0xC0).cpu.pc usual) ∧ (At 0xC2 .jmp .indP ∧ plainRun .indP (panAt 0xC2).cpu.pc usual) ∧
    (At 0xC1 .jmp .memInd ∧ plainRun .memInd (panAt 0xC1).cpu.pc usual) ∧
    (At 0xCF .jmp .memIndX ∧ plainRun .memIndX (panAt 0xCF).cpu.pc usual) ∧ (At 0xC3 .call .abs ∧ plainRun .abs (panAt 0xC3).cpu.pc usual) ∧
    (At 0xC4 .call .indP ∧ plainRun .indP (panAt 0xC4).cpu.pc usual) ∧ (At 0xC5 .ret .implied ∧ plainRun .implied (panAt 0xC5).cpu.pc usual) :=
  ⟨by decide, ⟨begins _ _ _ rfl, plainRun_at _ _ _ (by decide)⟩, ⟨begins _ _ _ rfl, plainRun_at _ _ _ (by decide)⟩,
   ⟨begins _ _ _ rfl, plainRun_at _ _ _ (by decide)⟩, ⟨begins _ _ _ rfl, plainRun_at _ _ _ (by decide)⟩,
   ⟨begins _ _ _ rfl, plainRun_at _ _ _ (by decide)⟩, ⟨begins _ _ _ rfl, plainRun_at _ _ _ (by decide)⟩,
   ⟨begins _ _ _ rfl, plainRun_at _ _ _ (by decide)⟩⟩

theorem witness_StackInstructions : (panAt 0xC7).cpu.s = 0x7FFF ∧ plainRun .implied (panAt 0xC7).cpu.pc usual ∧
    At 0xC7 (.push .a) .implied ∧ At 0xC9 (.push .b) .implied ∧ At 0xCB (.push .f) .implied ∧ At 0xCD (.push .p) .implied ∧
    At 0xD5 (.push .x) .implied ∧ At 0xDD (.push .q) .implied ∧ At 0xE0 (.push .y) .implied ∧ At 0xC8 (.pop .a) .implied ∧
    At 0xCA (.pop .b) .implied ∧ At 0xCC (.pop .f) .implied ∧ At 0xCE (.pop .p) .implied ∧ At 0xD6 (.pop .x) .implied ∧
    At 0xDE (.pop .q) .implied ∧ At 0xE1 (.pop .y) .implied ∧ At 0xC6 .rti .implied :=
  ⟨rfl, plainRun_at _ _ _ (by decide), begins _ _ _ rfl, begins _ _ _ rfl, begins _ _ _ rfl, begins _ _ _ rfl, begins _ _ _ rfl,
   begins _ _ _ rfl, begins _ _ _ rfl, begins _ _ _ rfl, begins _ _ _ rfl, begins _ _ _ rfl, begins _ _ _ rfl, begins _ _ _ rfl,
   begins _ _ _ rfl, begins _ _ _ rfl, begins _ _ _ rfl⟩

theorem witness_MvbCopies : At 0x7F .mvb .implied ∧ plainRun .implied (panAt 0x7F).cpu.pc [(panAt 0x7F).cpu.p, (panAt 0x7F).cpu.q] :=
  ⟨begins _ _ _ rfl, plainRun_at _ _ _ (by decide)⟩

/-- A pan at an instruction boundary whose last sampling point saw an IRQ, or an NMI. -/
def sampled (nmi irq : Bool) (committed : Bool) : Pan :=
  (panAt 0xAF).modCore (fun k => { k with nmi := nmi, samp := { nmi := nmi, irq := irq, req := irq, winner := some 8, committed := committed } })

theorem witness_EntriesPushAndVector : (At 0x00 .brk .implied ∧ plainRun .implied (panAt 0x00).cpu.pc ((panAt 0x00).entryAddrs 0xFFFA)) ∧
    (Meets (sampled false true false) true ∧ (sampled false true false).entering ∧ (sampled false true false).core.samp.committed = false ∧
      ∀ a ∈ (sampled false true false).entryAddrs 0xFFFC, plainAddr a) ∧
    (Meets (sampled true false false) true ∧ (sampled true false false).entering ∧
      ∀ a ∈ (sampled true false false).entryAddrs 0xFFF8, plainAddr a) :=
  ⟨⟨begins _ _ _ rfl, plainRun_at _ _ _ (by decide)⟩, ⟨meets _ _ rfl, ⟨rfl, rfl, rfl⟩, rfl, plain_of _ (by decide)⟩,
   ⟨meets _ _ rfl, ⟨rfl, rfl, rfl⟩, plain_of _ (by decide)⟩⟩

/-- A pan that idles in `WAI`, with source 8 pending and enabled or not, an NMI edge or not, and I as given. -/
def idling (request nmi i : Bool) : Pan :=
  let p := panAt 0xD7
  { p with cpu := { p.cpu with f := if i then 0x08 else 0 }, core := { p.core with wait := true, nmi := nmi },
           ic := { p.ic with en := 0x100, pend := if request then 0x100 else 0 } }

theorem witness_WaiIdlesAndWakes : At 0xD7 .wai .implied ∧
    Meets (idling false false false) (!(idling false false false).core.nmi &&
      ((idling false false false).ic.winner (idling false false false).clk).isNone) ∧
    Meets (idling true false true) ((idling true false true).core.wait && (idling true false true).cpu.f.getLsbD 3 &&
      ((idling true false true).ic.winner (idling true false true).clk).isSome) ∧
    (Meets (idling false true true) ((idling false true true).core.wait && (idling false true true).core.nmi &&
      !(idling false true true).core.rep && (idling false true true).core.entry == 0) ∧
      ∀ a ∈ (idling false true true).entryAddrs 0xFFF8, plainAddr a) ∧
    (Meets (idling true false false) (!(idling true false false).cpu.f.getLsbD 3) ∧
      (idling true false false).ic.winner (idling true false false).clk = some 8 ∧
      ∀ a ∈ (idling true false false).entryAddrs 0xFFFC, plainAddr a) :=
  ⟨begins _ _ _ rfl, meets _ _ (by decide), meets _ _ (by decide), ⟨meets _ _ (by decide), plain_of _ (by decide)⟩,
   ⟨meets _ _ (by decide), by decide, plain_of _ (by decide)⟩⟩

/-- `REP` at $0200 before the byte `t`. -/
def repAt (t : Byte) : Pan := { panAt 0xD8 with wram := Memory.writeBytes [] 0x200 [0xD8, t] }

theorem rep_begins (t : Byte) (h : (repAt t).opAt = some (.rep, .implied)) :
    State.Begins (stateWith (siteWith (repAt t))) 0 (siteWith (repAt t)) .rep .implied :=
  { toGoes := goes (pan_advances _ rfl rfl ⟨rfl, rfl, rfl⟩) rfl, halt := rfl, reset := rfl, ready := rfl, here := h }

theorem witness_RepRunsItsTarget :
    State.Begins (stateWith (siteWith (repAt 0xAF))) 0 (siteWith (repAt 0xAF)) .rep .implied ∧ plainAddr (repAt 0xAF).cpu.pc ∧
    plainAddr ((repAt 0xAF).cpu.pc + 1) ∧
    decodeOp ((repAt 0xAF).peek 0x201) = some (.nop, .implied) ∧ (repAt 0xAF).cpu.k = 0 ∧ (repAt 0xAF).cpu.f.getLsbD 3 = true ∧
    State.Begins (stateWith (siteWith (repAt 0x72))) 0 (siteWith (repAt 0x72)) .rep .implied ∧
    decodeOp ((repAt 0x72).peek 0x201) = some (.ldk, .imm) ∧ Op.repForbidden .ldk = true ∧ Op.repForbidden .nop = false ∧
    State.Begins (stateWith (siteWith (repAt 0xEF))) 0 (siteWith (repAt 0xEF)) .rep .implied ∧
    decodeOp ((repAt 0xEF).peek 0x201) = none :=
  ⟨rep_begins _ (by decide), by unfold plainAddr; decide, by unfold plainAddr; decide, by decide, rfl, rfl, rep_begins _ (by decide), by decide, rfl, rfl,
   rep_begins _ (by decide), by decide⟩

theorem witness_IllegalOpFaults : Meets (panAt 0xEF) ((siteWith (panAt 0xEF)).pan.ready && (panAt 0xEF).core.resetLeft == 0) ∧
    (siteWith (panAt 0xEF)).haltsHere = false ∧ (panAt 0xEF).opAt = none :=
  ⟨meets _ _ (by decide), rfl, by decide⟩

theorem witness_ProductsArrive : (At 0xE2 .mul .implied ∧ plainRun .implied (panAt 0xE2).cpu.pc []) ∧ At 0xE3 .muls .implied ∧
    Meets { panAt 0xAF with mul := { mh := 0, ml := 0, inFlight := [(0, 0x258)] } } true :=
  ⟨⟨begins _ _ _ rfl, plainRun_at _ _ _ (by decide)⟩, begins _ _ _ rfl, meets _ _ rfl⟩

/-- A pan with a coprocessor operation in flight that completes at `due`. -/
def copBusy (b : Byte) (due : Nat) : Pan := { panAt b with cop := { (panAt b).cop with busy := true, due := due } }

theorem witness_CoprocessorResults : At 0xF0 (.cop .mu16) .implied ∧ At 0xF1 (.cop .ms16) .implied ∧ At 0xF2 (.cop .divu) .implied ∧
    At 0xF3 (.cop .divs) .implied ∧ At 0xF4 (.cop .sq32) .implied ∧ At 0xF5 (.cop .sq16) .implied ∧ At 0xF6 (.cop .mac) .implied ∧
    At 0xF7 (.cop .cpcl) .implied ∧
    State.Begins (stateWith (siteWith (copBusy 0xF6 9))) 0 (siteWith (copBusy 0xF6 9)) (.cop .mac) .implied ∧
    plainRun .implied (panAt 0xF6).cpu.pc [] ∧ Meets (copBusy 0xAF 0) ((copBusy 0xAF 0).cop.busy && decide ((copBusy 0xAF 0).cop.due ≤ 0)) :=
  ⟨begins _ _ _ rfl, begins _ _ _ rfl, begins _ _ _ rfl, begins _ _ _ rfl, begins _ _ _ rfl, begins _ _ _ rfl, begins _ _ _ rfl,
   begins _ _ _ rfl, { toGoes := goes (pan_advances _ rfl rfl ⟨rfl, rfl, rfl⟩) rfl, halt := rfl, reset := rfl, ready := rfl, here := by decide },
   plainRun_at _ _ _ (by decide), meets _ _ (by decide)⟩

/-! ### Registers and events of virtual time -/

theorem witness_LatchingReads : Meets (panAt 0xAF) true := meets _ _ rfl

/-- The controller in a mode, with source 8 enabled and pending or not, a lock and a stack. -/
def icWith (legacy pending : Bool) (lock : Option Nat) (stack : List (Nat × Nat)) : Pan :=
  (panAt 0xAF).modIc (fun c => { c with
    legacy := legacy, en := 0x100, pend := if pending then 0x100 else 0, lock := lock, stack := stack, holdAt := #v[0, 40, 0, 0] })

theorem witness_InterruptController :
    (let q := icWith false true (some 8) []; Meets q (!q.ic.legacy && q.ic.lock == some 8)) ∧
    (let q := icWith false true none []; Meets q (!q.ic.legacy && q.ic.lock == none)) ∧
    (let q := { icWith true true none [] with clk := 40 }; Meets q (q.ic.legacy && q.ic.winner q.clk == some 8)) ∧
    (let q := icWith true true none []; Meets q (q.ic.legacy && q.ic.winner q.clk == none)) ∧
    (let q := icWith false false none [(31, 7)]; Meets q (!q.ic.legacy && (q.ic.stack.head?.map (fun e => e.1)) == some 31)) ∧
    (let q := icWith true false none [(8, 3), (1, 2)]; Meets q (q.ic.legacy && q.ic.stack.any (fun e => e.1 == 1))) ∧
    (let q := icWith true false none [(8, 3)]; Meets q (q.ic.legacy && !q.ic.stack.any (fun e => e.1 == 2))) ∧
    (let q := icWith false false none []; Meets q (!q.ic.legacy && q.ic.stack.isEmpty)) ∧
    (0xC0 : Byte).getLsbD 6 = true ∧
    (let q := { icWith false false none [] with clk := 40 }; Meets q (q.ic.holdAt[1] != 0 && q.comes 40)) :=
  ⟨meets _ _ (by decide), meets _ _ (by decide), meets _ _ (by decide), meets _ _ (by decide), meets _ _ (by decide),
   meets _ _ (by decide), meets _ _ (by decide), meets _ _ (by decide), rfl, meets _ _ (by decide)⟩

theorem witness_RegisterWrites : Meets (panAt 0xAF) true ∧ (0x80 : Byte).getLsbD 7 = true ∧ ((panAt 0xAF).poke 0xE000 0).abort = false ∧
    ((panAt 0xAF).poke 0xEFFF 0xFF).abort = false :=
  ⟨meets _ _ rfl, rfl, by decide, by decide⟩

/-- A mailbox with a queue. -/
def mailWith (full : Bool) (queue : List Message) : Pan := (panAt 0xAF).modMb (fun b => { b with full := full, queue := queue })
/-- A message that asks for an NMI. -/
def message1 : Message := { bytes := #v[1, 2, 3, 4, 5, 6], num := 1, nmi := true }

theorem witness_MailboxMoves : Meets (mailWith true []) (mailWith true []).mb.queue.isEmpty ∧
    Meets (mailWith true [message1]) ((mailWith true [message1]).mb.queue == [message1]) ∧
    Meets (mailWith false [message1]) (!(mailWith false [message1]).mb.full && (mailWith false [message1]).mb.queue == [message1]) :=
  ⟨meets _ _ (by decide), meets _ _ (by decide), meets _ _ (by decide)⟩

/-- Channel 1 set as `f` says. -/
def dmaWith (f : Dma → Dma) : Pan := (panAt 0xAF).modDma 1 f

theorem witness_DmaChannels : (0x80 : Byte).getLsbD 7 = true ∧ (0x80 : Byte).getLsbD 6 = false ∧ (0x40 : Byte).getLsbD 6 = true ∧
    Meets (dmaWith (fun d => { d with busy := true })) (dmaWith (fun d => { d with busy := true })).dma[1].busy ∧
    Meets (dmaWith (fun d => { d with mode := 0x30 })) ((dmaWith (fun d => { d with mode := 0x30 })).dma[1].badStart) ∧
    Meets (dmaWith (fun d => { d with trig := 1 })) (!(dmaWith (fun d => { d with trig := 1 })).dma[1].badStart) ∧
    Meets (dmaWith id) (!(dmaWith id).dma[1].busy && !(dmaWith id).dma[1].badStart && !(dmaWith id).dma[1].refused false) ∧
    Meets (dmaWith (fun d => { d with src := 0xE000 })) ((dmaWith (fun d => { d with src := 0xE000 })).dma[1].refused false) ∧
    (let q := dmaWith (fun d => { d with mode := 0x50, busy := true, rem := 1, unitLeft := 1 })
     Meets q (!q.owned && q.dmaTurn == some 1 && q.dma[1].unitLeft == 1 && q.dma[1].dspace != 0 && q.dma[1].sspace != 0)) ∧
    (let q := dmaWith (fun d => { d with len := 4, rem := 2, busy := true }); Meets q q.dma[1].halfDue) ∧
    (let q := dmaWith (fun d => { d with len := 1, rem := 0, busy := true }); Meets q (q.dma[1].fullDue && !q.ras.auto.getLsbD 7)) ∧
    (let q := (dmaWith (fun d => { d with len := 1, rem := 0, busy := true })).modRas (fun r => { r with auto := 0x92 })
     Meets q (q.dma[1].fullDue && q.ras.auto.getLsbD 7 && bits q.ras.auto 5 4 == 1)) :=
  ⟨rfl, rfl, rfl, meets _ _ (by decide), meets _ _ (by decide), meets _ _ (by decide), meets _ _ (by decide), meets _ _ (by decide),
   meets _ _ (by decide), meets _ _ (by decide), meets _ _ (by decide), meets _ _ (by decide)⟩

/-- A block of two bytes at the top of the address space in progress. -/
def crcBusy : Pan := (panAt 0xAF).modCrc (fun c => { c with busy := true, left := 2, next := 0xFFFF })

theorem witness_CrcBlocks : Meets (panAt 0xAF) (!(panAt 0xAF).crc.busy) ∧ Meets crcBusy (crcBusy.crc.busy && crcBusy.dmaTurn == none) ∧
    ∀ i, i < crcBusy.crc.left → plainAddr (crcBusy.crc.next + BitVec.ofNat 16 i) := by
  refine ⟨meets _ _ (by decide), meets _ _ (by decide), fun i hi => ?_⟩
  have h : i < 2 := hi
  have : i = 0 ∨ i = 1 := by omega
  obtain rfl | rfl := this
  · exact .inr (by decide)
  · exact .inl (by decide)

/-- A placement that falls on pan-cycle 0 of the frame the pan runs. -/
def placement (k : PlaceKind) : Placement :=
  { arrival := 0, place := 0, order := 0, atFrame := some 0, atCyc := 0, late := false, bracketed := false, logged := false, kind := k }

/-- A pan at pan-cycle 1 of frame 0 whose next placement is of a kind. -/
def placing (k : PlaceKind) : Site :=
  let x := siteWith { panAt 0xAF with clk := 1 }
  match k with
  | .input _ _ => { x with inQ := [placement k] }
  | _ => { x with plQ := [placement k] }

/-- The hypotheses of `Places`, met by a record. -/
def Placing (k : PlaceKind) : Prop :=
  State.Advances (stateWith (placing k)) 0 (placing k) ∧ (placing k).nextPlace = some (0, placement k) ∧ (placing k).pan.comes 1 = true

theorem witness_PlacementsApply : Placing (.input 15 (Vector.replicate 7 1)) ∧ Placing (.attach 0) ∧ Placing (.detach 15) ∧
    Placing (.message message1) ∧ Placing .nmi ∧ Placing (.movie 1 0 []) ∧ Placing (.hcReply 0 (Vector.replicate 8 0)) ∧
    (Placing (.hcTimeout 0) ∧ (placing (.hcTimeout 0)).openDeadline = none) := by
  refine ⟨?_, ?_, ?_, ?_, ?_, ?_, ?_, ?_, ?_⟩ <;>
    first
    | exact ⟨advances _ (by decide) (by decide) ⟨rfl, rfl, rfl⟩, by decide, by decide⟩
    | decide

/-- The pan at a pan-cycle count. -/
def panClk (t : Nat) : Pan := { panAt 0xAF with clk := t }

/-- Two sprites with COLL = 1 on one dot, drawn on line 0 with the sprite layer shown. -/
def colliding : Pan :=
  let p := panClk 4
  let oam := Memory.writeBytes [] 0 [0, 0, 0, 0, 0, 0, 0x90, 0, 0, 0, 0, 0, 0, 0, 0x90, 0]
  { p with
    ras := { p.ras with lineF := { p.ras.lineF with layerEn := 0x10 } },
    rake := { p.rake with active := true, oamS := oam, vramS := Memory.writeBytes [] 0 [0x11], drawn := [0, 1] } }

theorem witness_RasterEvents :
    (let q := panClk 48001; Meets q (!q.beam.vbDone && q.comes (q.frameStart + q.vActive * q.cpl + 1))) ∧
    (let q := panClk 161; Meets q (q.lineExists ((q.beam.hbAt - q.frameStart) / q.cpl) && q.comes q.beam.hbAt)) ∧
    (let q := panClk 1; Meets q (q.lineExists q.ras.linecmp.toNat && decide (q.ras.linecmpCyc.toNat < q.cpl) && q.comes 1 &&
      decide (q.ras.cmpFrom ≤ q.frameStart + q.ras.linecmp.toNat * q.cpl + q.ras.linecmpCyc.toNat))) ∧
    (let q := colliding; Meets q (!q.ras.coll && q.rake.active && decide (2 ≤ (collidersAt q.rake 1).length) &&
      (q.inForceAt (q.rake.startDot + 1)).regs.layerEn.getLsbD 4 && q.comes 1)) ∧
    (let q := panClk 48000; Meets q (!q.cfg.elastic && !q.beam.latchDone && !q.copyDue && q.ras.withheld.isNone && q.comes 48000)) ∧
    (let q := (panClk 48000).modRas (fun r => { r with armed := some 48000 })
     Meets q (!q.cfg.elastic && !q.beam.latchDone && q.ras.armed == some 48000 && q.comes 48000)) ∧
    (let q := { panClk 200 with beam := { (panClk 200).beam with latchDone := true, fetchAt := 200 } }
     Meets q (q.lineExists ((q.beam.fetchAt - q.frameStart) / q.cpl) && q.beam.latchDone && q.comes q.beam.fetchAt)) :=
  ⟨meets _ _ (by decide), meets _ _ (by decide), meets _ _ (by decide), meets _ _ (by decide), meets _ _ (by decide),
   meets _ _ (by decide), meets _ _ (by decide)⟩

/-- The pan of kind ELASTIC at the end of its first blank line. -/
def blankEnds : Pan := { panClk 48200 with cfg := { cfg with elastic := true } }

theorem witness_FramesEnd :
    (let q := (panClk 1).modRas (fun r => { r with force := { r.force with rt := r.force.rt.set 0 ⟨0x3000, 0x34, 0xE0, 0, 1, 0⟩ } })
     Meets q (q.rtActive 0 && q.rtAt 0 == 0 && q.comes 1)) ∧
    (let q := panClk 52400; Meets q (!q.cfg.elastic && q.comes (q.frameStart + q.ras.frameVt * q.cpl))) ∧
    Meets blankEnds (blankEnds.cfg.elastic && decide (blankEnds.frameStart + (blankEnds.beam.blankLine + 1) * blankEnds.cpl ≤ blankEnds.clk) &&
      blankEnds.blankRule blankEnds.beam.blankLine == .continues) :=
  ⟨meets _ _ (by decide), meets _ _ (by decide), meets _ _ (by decide)⟩

/-- The pan with timer 3 set. -/
def timerWith (f : Timer → Timer) : Pan := (panClk 8).modTm 3 f
/-- S0 as it stands in the pan. -/
def s0With (f : S0 → S0) : Pan := (panClk 16).modS0 f

theorem witness_TimersCount :
    (let q := timerWith (fun t => { t with ctl := 0xB0, tickDue := true }); Meets q (q.tm[3].tickDue && q.tm[3].run && !q.frozen 3)) ∧
    (let q := timerWith (fun t => { t with ctl := 0x83 })
     Meets q (!q.tm[3].tickDue && q.tm[3].run && q.tm[3].clkSel == 0 && !q.frozen 3 && q.comes (q.tm[3].preAt + q.tm[3].divisor))) ∧
    (let q := (panClk 8).modTm 0 (fun t => { t with ctl := 0xB0, chain := [(8, true, false)] })
     Meets q (!q.tm[0].tickDue && q.tm[0].run && q.tm[0].chain.head?.any (fun c => c.2.1 && bits q.tm[0].ctl 5 4 == 3) && !q.frozen 0 &&
       q.comes 8)) ∧
    (let q := timerWith (fun t => { t with acts := true })
     ((List.finRange 4).all (fun k => (q.tm[k]).acts == (k == 3)) && q.late.isNone) = true) ∧
    (let q := timerWith (fun t => { t with hit := true }); Meets q q.tm[3].hit) ∧
    (let q := timerWith (fun t => { t with wrap := true }); Meets q q.tm[3].wrap) ∧
    Meets (panClk 8) (!(panClk 8).tmOwned 3) ∧ (0x86 : Byte).getLsbD 7 = true ∧
    Meets (panClk 8) (!(panClk 8).tmOwned 3 && !(panClk 8).frozen 3 && (panClk 8).tm[3].capAt != 9) ∧
    (let q := s0With (fun d => { d with ctl := 0xC0 }); Meets q (q.tmOwned 3)) :=
  ⟨meets _ _ (by decide), meets _ _ (by decide), meets _ _ (by decide), by decide, meets _ _ (by decide), meets _ _ (by decide),
   meets _ _ (by decide), rfl, meets _ _ (by decide), meets _ _ (by decide)⟩

/-- A pan with one voice set, at the sound tick of pan-cycle 15. -/
def voiceWith (k : Fin 7) (f : Voice → Voice) : Pan := (panClk 16).modVoice k f

theorem witness_VoicesSound : Meets (panClk 16) ((panClk 16).comes (panClk 16).snd.tickAt) ∧
    (let q := voiceWith 3 (fun v => { v with ctl := 0x83 }); Meets q (q.snd.v[3].en && q.comes q.snd.tickAt)) ∧
    (let q := voiceWith 6 (fun v => { v with envDue := true }); Meets q q.snd.v[6].envDue) ∧
    (let q := voiceWith 5 (fun v => { v with ctl := 0x80, sweep := 0x11, sweepCnt := 511 }); Meets q (q.snd.v[5].sweepDue && q.comes 16)) ∧
    (let q := voiceWith 6 (fun v => { v with ctl := 0x80, freq := 0xFFFF, phase := 0xFFFFF }); Meets q (q.snd.v[6].shiftDue && q.comes 16)) ∧
    (let q := { panClk 80 with snd := { (panClk 80).snd with tickAt := 80 } }; Meets q (decide (q.remNow q.snd.tickAt < 0) && q.comes 80)) ∧
    (0xC0 : Byte).getLsbD 6 = true :=
  ⟨meets _ _ (by decide), meets _ _ (by decide), meets _ _ (by decide), meets _ _ (by decide), meets _ _ (by decide),
   meets _ _ (by decide), rfl⟩

theorem witness_SampleVoice :
    Meets (s0With id) (!(s0With id).snd.s0.ctl.getLsbD 7 && (0x80 : Byte).getLsbD 7 && !(0x80 : Byte).getLsbD 6) ∧
    (let q := s0With (fun d => { d with ctl := 0x80 }); Meets q (q.snd.s0.tickPaced && !(0x00 : Byte).getLsbD 7)) ∧
    (let q := s0With (fun d => { d with ctl := 0xC0 }); Meets q (q.owned && !(0x00 : Byte).getLsbD 7)) ∧
    (let q := s0With (fun d => { d with ctl := 0x80 }); Meets q (q.snd.s0.tickPaced && (0x80 : Byte).getLsbD 7)) ∧
    Meets (s0With id) (!(s0With id).snd.s0.ctl.getLsbD 7 && !(0x00 : Byte).getLsbD 7) ∧
    refusedAddr 2 (s0With id).snd.s0.src = false ∧ (0xD0 : Byte).getLsbD 6 = true ∧
    Meets (s0With id) (decide ((s0With id).snd.s0.fifo.length < 16)) ∧
    (let q := s0With (fun d => { d with fifo := List.replicate 16 0 }); Meets q (decide (16 ≤ q.snd.s0.fifo.length))) ∧
    (let q := s0With (fun d => { d with ctl := 0x40 }); Meets q (q.snd.s0.ctl.getLsbD 6)) ∧
    (let q := s0With (fun d => { d with ctl := 0xC0, popDue := true }); Meets q (q.snd.s0.popDue && !q.snd.s0.fetchEnd)) ∧
    (let q := s0With (fun d => { d with ctl := 0x80, rate := 0xFFFF, phase := 0xFFFFF })
     Meets q (!q.snd.s0.popDue && q.snd.s0.tickPaced && !q.snd.s0.popped && q.snd.s0.carries && q.comes q.snd.tickAt)) ∧
    (let q := s0With (fun d => { d with ctl := 0xC0, passLeft := 8 })
     Meets q (q.owned && !q.snd.s0.fetchEnd && decide (q.snd.s0.fifo.length ≤ 8) && q.dma[3].unitLeft == 0 &&
       !refusedAddr q.dma[3].sspace q.dma[3].src)) :=
  ⟨meets _ _ (by decide), meets _ _ (by decide), meets _ _ (by decide), meets _ _ (by decide), meets _ _ (by decide), by decide, rfl, meets _ _ (by decide), meets _ _ (by decide),
   meets _ _ (by decide), meets _ _ (by decide), meets _ _ (by decide), meets _ _ (by decide)⟩

/-! ### Witnesses: the device -/

/-- The device out of reset with every function ready, and the records of some pans. -/
def devWith (l : Table Site) : State :=
  { State.reset with
    pwr := { State.reset.pwr with sysRst := false }, dev := { State.reset.dev with ready := 0xFFFFFFFF },
    tb := { State.reset.tb with counting := true, time := 1000 }, sites := l }

/-- The pan of the witnesses in a mode, on no boiler and in no slot. -/
def pan0 (m : PanMode) : Site := { Site.create (panAt 0xAF) 0 0 0 with mode := m }

/-- A record stands under number 0, and a check holds. -/
def Has (s : State) (x : Site) (c : Bool) : Prop := s.site 0 = some x ∧ c = true

/-- A host-call that is outstanding. -/
def call1 : CallOut :=
  { call := 0, seq := 1, request := [], posted := 0, deadline := 160000000, frame := 0, cyc := 0, reply := none, placed := false }

/-- A pan in FREE that waits for its synchronous host-call. -/
def calling (k : CallOut) : Site :=
  let q := panAt 0xAF
  { pan0 .free with callOut := some k, pan := { q with hc := { q.hc with pend := true, sync := true }, core := { q.core with hcWait := true } } }

/-- A ring of a kind in host memory. -/
def ringOfKind (k : Nat) : Ring :=
  { base := 4096, idxAddr := 65536, dataBase := 131072, kind := k, log2 := 4, dataLog2 := 16, int := 0x8020, count := 1, time := 0,
    owner := 0, dev := 0, hst := 0, taken := 0, dataHead := 0, dataUse := [], unsig := 0, oldest := 0, open_ := 0 }

theorem witness_HostCallsComplete :
    (∀ b o, decodeOp b = some (o, .implied) → At b o .implied) ∧ plainAddr (panAt 0xC0).cpu.pc ∧ (panAt 0xC0).hc.pend = false ∧
    (siteWith (panAt 0xC0)).mode ≠ .replay ∧ (siteWith (panAt 0xC0)).rerunning = false ∧
    (let q := { panAt 0xF8 with hc := { (panAt 0xF8).hc with pend := true } }
     State.Begins (stateWith (siteWith q)) 0 (siteWith q) (.hc 0) .implied ∧ q.hc.pend = true) ∧
    (let k := { call1 with reply := some (Vector.replicate 8 0) }
     Has (devWith [(0, calling k)]) (calling k) ((calling k).syncWaits && (devWith [(0, calling k)]).engines && (calling k).oldAnswer.isNone &&
       k.reply.isSome)) ∧
    Has (devWith [(0, calling call1)]) (calling call1) ((calling call1).syncWaits && (calling call1).pan.hc.sync && !call1.placed) ∧
    (let s := { devWith [] with rings := [(2, { ringOfKind 2 with hst := 1 })] }
     s.ring 2 = some { ringOfKind 2 with hst := 1 } ∧ (s.listens && !s.dev.status.getLsbD 31) = true) ∧
    (let s := { devWith [] with rings := [(2, ringOfKind 2)], waitCalls := [{ pan := 0, entry := [] }] }
     (s.serving 2 (some 0) == some 2 && s.room 2) = true) := by
  refine ⟨fun b o h => begins b o _ h, .inl (by decide), rfl, by decide, rfl, ⟨{ toGoes := goes (pan_advances _ rfl rfl ⟨rfl, rfl, rfl⟩) rfl, halt := rfl, reset := rfl, ready := rfl, here := by decide }, rfl⟩, ⟨rfl, by decide⟩,
    ⟨rfl, by decide⟩, ⟨rfl, by decide⟩, by decide⟩

/-- A bay whose 32 slots pans 1 to 32 hold in FREE. -/
def fullBay (x : Site) : State :=
  devWith ((0, x) :: (List.range 32).map (fun n => (n + 1, { pan0 .free with slot := some n, swappedAt := 100 - n })))

theorem witness_SlotsSwap :
    (let x := pan0 .locked
     Has (devWith [(0, x)]) x ((devWith [(0, x)]).engines && x.slot.isNone && x.realTime && !x.parked && x.wantsBurst &&
       decide ((devWith [(0, x)]).rtSlots 0 < 24) && ((devWith [(0, x)]).slotOf 0 31).isNone)) ∧
    (let x := pan0 .locked
     Has (fullBay x) x ((fullBay x).engines && x.wantsBurst && decide ((fullBay x).rtSlots 0 < 24) && ((fullBay x).slotOf 0 0).isSome &&
       (fullBay x).slotsFull 0 && (((fullBay x).reach (x.frameE - (fullBay x).dev.w * 16000)).endRuns).victim 0 == some 32)) ∧
    (let x := pan0 .free
     Has (devWith [(0, x)]) x ((devWith [(0, x)]).engines && x.slot.isNone && x.canRun && x.running && !x.realTime && (devWith [(0, x)]).swapNext 0 == some 0 &&
       ((devWith [(0, x)]).slotOf 0 0).isNone)) ∧
    (let x := { pan0 .locked with slot := some 3, resFrames := 1 }
     Has (devWith [(0, x)]) x (x.slot.isSome && x.boiler.isNone && x.realTime && !x.burst && decide (0 < x.resFrames))) ∧
    (let x := { pan0 .free with slot := some 3, resFrames := 8 }
     Has (devWith [(0, x)]) x (x.slot.isSome && x.boiler.isNone && !x.realTime && decide ((devWith [(0, x)]).dev.batch ≤ x.resFrames))) ∧
    (let x := { calling call1 with slot := some 3 }
     Has (devWith [(0, x)]) x (x.slot.isSome && x.boiler.isNone && !x.realTime && decide (x.resFrames < (devWith [(0, x)]).dev.batch) &&
       !x.waitObs && x.pan.core.hcWait && x.callOut.isSome)) := by
  refine ⟨⟨rfl, by decide⟩, ⟨rfl, by decide +kernel⟩, ⟨rfl, by decide⟩, ⟨rfl, by decide⟩, ⟨rfl, by decide⟩, ⟨rfl, by decide⟩⟩

/-- A composed picture of one white dot. -/
def pic1 : Picture :=
  { frame := 0, w := 1, h := 1, pixels := [0xFFFFFF], crc := crc32 (pixelBytes [0xFFFFFF]),
    hints := { blocks := [], ctl := Vector.replicate 4 0, sprites := [] } }

theorem witness_RunsOnBoilers :
    (let x := { pan0 .locked with slot := some 3 }
     let s := devWith [(0, x)]
     let at_ := fun d => (s.reach d).endRuns
     let from_ := x.frameE - s.dev.w * 16000
     Has s x (s.engines && x.wantsBurst && (at_ from_).boilerFree 0 3 && s.burstFirst 0 x (max s.tb.time from_) &&
       (at_ (from_ + 32000)).anyBoiler 0 == some 0 && s.burstFirst 0 x (max s.tb.time (from_ + 32000)))) ∧
    (let x := { pan0 .free with slot := some 3 }
     let s := devWith [(0, x)]
     let at_ := (s.reach (s.tb.time + 32000)).endRuns
     Has s x (s.engines && !x.realTime && x.boiler.isNone && at_.anyBoiler 0 == some 0 && at_.freeNext 0 == some 0 &&
       !at_.burstDue 0 (s.tb.time + 32000))) ∧
    (let x := { pan0 .locked with burst := true, endedE := some 999 }
     Has (devWith [(0, x)]) x (x.realTime && x.burst && x.newFrame.isNone && x.obsQ.isEmpty)) ∧
    (let x := { pan0 .locked with burst := true, endedE := some 999, newFrame := some pic1 }
     Has (devWith [(0, x)]) x (x.realTime && x.burst && x.newFrame.isSome && decide (999 < (devWith [(0, x)]).tb.time))) ∧
    (let x := { pan0 .elastic with burst := true, endedE := some 1000, newFrame := some pic1 }
     Has (devWith [(0, x)]) x (x.realTime && x.burst && x.newFrame.isSome && decide ((devWith [(0, x)]).tb.time ≤ 1000))) ∧
    (let x := { pan0 .free with slot := some 3 }
     let s := devWith [(0, x)]
     let at_ := (s.reach s.tb.time).endRuns
     Has at_ x (s.engines && at_.boilerFree 0 0 && at_.freeNext 0 == some 0 && !at_.burstDue 0 s.tb.time)) ∧
    (let x := { pan0 .free with boiler := some 0 }
     Has (devWith [(0, x)]) x (x.freeRun && x.boiler.isSome && x.canRun && decide (x.resFrames < (devWith [(0, x)]).dev.batch))) ∧
    (let x := { pan0 .free with boiler := some 0, waitObs := true }
     Has (devWith [(0, x)]) x (x.freeRun && x.boiler.isSome && !x.canRun)) ∧
    (let x := { pan0 .free with waitObs := true }
     Has (devWith [(0, x)]) x (x.waitObs && (devWith [(0, x)]).accepts x)) := by
  refine ⟨⟨rfl, by decide⟩, ⟨rfl, by decide⟩, ⟨rfl, by decide⟩, ⟨rfl, by decide⟩, ⟨rfl, by decide⟩, ⟨by decide, by decide⟩, ⟨rfl, by decide⟩,
    ⟨rfl, by decide⟩, ⟨rfl, by decide⟩⟩

/-- A packet with no parameters for a target. -/
def packet (target : BitVec 32) (params : List Byte) : Packet :=
  { ring := 0, flags := 0, plen := 0, tag := 1, txid := 0, target := target, params := params ++ List.replicate (52 - params.length) 0 }

/-- A command that waits at a boundary. -/
def waits (op : Nat) (at_ : Boundary) (c : Packet) : Waiting :=
  { opcode := op, c := c, accepted := 0, cpl := 1, at_ := at_, epochDone := false, epochTime := 0, txn := none, fromFrame := 0, place := none }

theorem witness_HaltsAndStores :
    (let x := { pan0 .free with pan := panClk 1, boiler := some 0, plQ := [placement (.halt none (packet 0 []) 1)] }
     let s := devWith [(0, x)]
     let z := if s.runs x then x.haltReach else x
     Has s x (z.running && z.haltsHere)) ∧
    (let x := pan0 .step
     Has (devWith [(0, x)]) x (x.mode == .step && decide (x.stepLeft = 0) && !x.parked && !x.waitObs)) ∧
    (let x := { pan0 .free with boiler := some 3, heap := { (pan0 .free).heap with written := some (panAt 0) } }
     let s := devWith [(0, x)]
     Has s x (s.engines && s.runOn 0 3 == some 0 && x.heap.written.isSome && x.endedE.isNone)) ∧
    (let s := { devWith [(0, pan0 .idle)] with waiting := [waits 0x0C02 .switch (packet 0xFFFFFFFF [])], patch := some [] }
     (s.tb.counting && s.patch.isSome && s.sites.all (fun e => e.2.mode == .idle)) = true) := by
  refine ⟨⟨rfl, by decide⟩, ⟨rfl, by decide⟩, ⟨rfl, by decide⟩, by decide⟩

theorem witness_TimebaseWorks :
    ((devWith []).awake && !(devWith []).pwr.perst && (devWith []).tb.counting) = true ∧
    (let b := { (devWith []).tb with slew := -5, slewing := true, ppsEn := true, ppsOffset := 15999999999 }
     (b.counting && b.slewing && b.ppsEn && !b.ppsOut && decide (b.ppsOffset < 16000000000)) = true) ∧
    (let b := { (devWith []).tb with ppsOut := true, ppsRise := some 0 }; (b.counting && b.ppsOut && b.ppsRise == some 0) = true) ∧
    (let s := { devWith [] with dev := { (devWith []).dev with ready := 1 }, tb := Timebase.reset }
     (s.awake && s.dev.ready.getLsbD 0 && !s.dev.ready.getLsbD 2 && !s.tb.counting) = true) ∧
    (let s := { devWith [] with dev := { (devWith []).dev with ready := 3 } }
     (s.awake && s.dev.ready.getLsbD 0 && s.dev.ready.getLsbD 1 && !s.dev.ready.getLsbD 2 && s.tb.counting) = true) := by
  refine ⟨?_, ?_, ?_, ?_, ?_⟩ <;> decide

theorem witness_TimePasses :
    (let s := { devWith [] with tb := { (devWith []).tb with rate := -1600000 } }
     (s.pending.isEmpty && s.waiting.isEmpty && s.tb.counting && s.pwr.supplied && !s.pwr.sysRst && !s.pwr.tripped && decide (s.tb.slew = 0) &&
       decide (-1600000 ≤ s.tb.rate)) = true) := by decide

theorem witness_ManagementPins : (devWith []).awake = true ∧ (devWith []).pins.level.getLsbD (31 : Fin 32) ≠ true ∧
    (let s := { devWith [] with pins := { (devWith []).pins with level := 1 } }; s.awake = true ∧ s.pins.level.getLsbD (0 : Fin 32) ≠ false) := by
  decide

theorem witness_DeviceRegisters : (devWith []).awake = true ∧ (devWith []).pwr.perst = false := ⟨rfl, rfl⟩

theorem witness_BringUpAndResets :
    (State.reset.pwr.sysRst && !State.reset.pwr.tripped) = true ∧
    ((devWith []).awake && !(devWith []).pwr.perst && (devWith []).dev.ready.getLsbD 0) = true ∧
    (let s := { devWith [] with pwr := { (devWith []).pwr with perst := true } }; (s.awake && s.pwr.perst) = true) ∧
    (let s := { devWith [] with dev := DevRegs.reset }
     (s.booting && !s.pins.func.getLsbD 4 && !fwAccepted s.flash.bank0 && !fwAccepted s.flash.bank1) = true) ∧
    (let s := { devWith [] with dev := { DevRegs.reset with ready := 1 } }
     (s.booting && s.dev.ready.getLsbD 0 && !s.dev.ready.getLsbD 6 && decide (s.pwr.trainFails[3] < 3) && !s.pwr.trained.getLsbD 3) = true) ∧
    (let s := { devWith [] with dev := { DevRegs.reset with ready := 5 }, pwr := { (devWith []).pwr with trained := 8 } }
     (s.booting && s.dev.ready.getLsbD 0 && s.dev.ready.getLsbD 2 && !s.dev.ready.getLsbD 6 && decide (s.pwr.trainFails[3] < 3) && s.pwr.trained.getLsbD 3) = true) ∧
    (let s := { devWith [] with dev := { DevRegs.reset with ready := 0x7B } }
     (s.booting && decide (s.dev.ready &&& 0x78 = 0x78) && !s.dev.status.getLsbD 7) = true) ∧
    (let s := { devWith [] with dev := { DevRegs.reset with ready := 0x7B, status := 0x80 } }
     (s.booting && decide (s.dev.ready &&& 0x78 = 0x78) && s.dev.status.getLsbD 7) = true) := by
  refine ⟨?_, ?_, ?_, ?_, ?_, ?_, ?_, ?_⟩ <;> decide

/-- The device with its power state and status changed. -/
def powered (f : Power → Power) (status : BitVec 32) : State :=
  { devWith [] with pwr := f (devWith []).pwr, dev := { (devWith []).dev with status := status } }

theorem witness_LowPowerAndLimits :
    ((devWith []).awake && !(devWith []).pwr.perst && !(devWith []).pwr.d3hot && (devWith []).dev.ready.getLsbD 0) = true ∧
    ((devWith []).booting && decide (7550 ≤ (devWith []).pwr.vddCore + 50) && decide ((devWith []).pwr.vddCore ≤ 7550 + 50) &&
      (devWith []).pwr.vddAt.all (fun a => decide (a + 16000000 ≤ ((devWith []).tb.time : Int)))) = true ∧
    (let s := powered (fun w => { w with vddAt := some 0 }) 0; s.pwr.vddAt.any (fun a => decide ((s.tb.time : Int) < a + 16000000))) = true ∧
    ((powered id 0).awake && !(powered id 0).pwr.railAlert && !(powered id 0).dev.status.getLsbD 0) = true ∧
    (let s := powered id 1; (s.awake && !s.pwr.railAlert && s.dev.status.getLsbD 0) = true) ∧
    (let s := powered (fun w => { w with railAlert := true }) 3; (s.awake && s.pwr.railAlert && decide (s.pwr.thermal = 0)) = true) ∧
    (let s := powered (fun w => { w with railAlert := true, thermal := 1 }) 3
     (s.awake && s.pwr.railAlert && decide (0 < s.pwr.thermal) && s.dev.status.getLsbD 0) = true) ∧
    (let s := powered id 4; (s.awake && s.dev.status.getLsbD 2 && decide ((0 : Int) < (100 * s.pwr.twarn : Nat))) = true) ∧
    (let s := powered (fun w => { w with thermal := 7 }) 1
     (s.awake && decide (0 < s.pwr.thermal) && !s.pwr.railAlert && s.dev.status.getLsbD 0) = true) ∧
    (!(powered id 0).dev.status.getLsbD 2 && decide (((100 * (powered id 0).pwr.twarn : Nat) : Int) ≤ 10000) && !(powered id 0).fatal) = true := by
  refine ⟨?_, ?_, ?_, ?_, ?_, ?_, ?_, ?_, ?_, ?_⟩ <;> decide

theorem witness_DoorbellsAndSources :
    (let s := { devWith [] with rings := [(2, ringOfKind 0)] }
     s.ring 2 = some (ringOfKind 0) ∧ (s.awake && !s.pwr.perst && decide (((16#32) - 0).toNat ≤ 2 ^ 4) && decide (2 ^ 4 < (17#32).toNat) &&
       (s.ring 3).isNone) = true) ∧
    ((devWith []).dev.ready.getLsbD 1 && !(devWith []).boot.up) = true ∧
    (let s := { devWith [] with boot := { Boot.reset with up := true } }; s.boot.up = true) ∧
    (let s := { devWith [] with evc := { Evc.reset with en := 1 } }
     (s.evc.en.getLsbD 0 && decide (s.evc.holdUntil[0] ≤ s.tb.time) && !s.evc.en.getLsbD 16) = true) ∧
    (let s := { devWith [] with evc := { Evc.reset with en := 1, holdUntil := Vector.replicate 16 2000 } }
     (s.evc.en.getLsbD 0 && decide (s.tb.time < s.evc.holdUntil[0])) = true) ∧
    (let s := { devWith [] with evc := { Evc.reset with en := 0x8000000000000000000000000000000000000000000000000000000000000000, pend := 0x8000000000000000000000000000000000000000000000000000000000000000 } }
     (s.awake && s.tb.counting && s.evc.pend.getLsbD 255 && s.evc.en.getLsbD 255) = true) := by
  refine ⟨⟨rfl, ?_⟩, ?_, ?_, ?_, ?_, ?_⟩ <;> decide

theorem witness_RingsCatchUp :
    (let r := { ringOfKind 1 with unsig := 1 }
     let s := { devWith [] with rings := [(1, r)] }
     s.ring 1 = some r ∧ (s.awake && r.int.getLsbD 15 && decide (r.kind ≠ 0) && decide (0 < r.unsig) && s.tb.counting) = true) ∧
    (let r := ringOfKind 6
     let s : State := { devWith [] with rings := [(1, r)], evtLost := [(1, 2), (65536, 1)] }
     s.ring 1 = some r ∧ (decide ((r.dev - r.hst).toNat < 2 ^ r.log2) && decide (0 < (Table.get s.evtLost 1).getD (0 : Nat))) = true) ∧
    (let r := ringOfKind 1
     let s := { devWith [] with rings := [(1, r)], held := [⟨1, 0, 0, 1, 0, []⟩] }
     s.ring 1 = some r ∧ (s.held.any (fun h => decide (h.cpl = 1) && decide (h.result.length ≤ 16)) && decide ((r.dev - r.hst).toNat < 2 ^ r.log2)) = true) := by
  refine ⟨⟨rfl, ?_⟩, ⟨rfl, ?_⟩, rfl, ?_⟩ <;> decide

/-- A device on whose channel 0 a chain runs, with a descriptor of a length and flags at host address 4096. -/
def chained (len flags : Byte) : State :=
  { devWith [] with
    host := Memory.writeBytes [] 4096 (leBytes 8 8192 ++ leBytes 8 256 ++ [len, 0, 0, 0, 0x10, flags, 0, 0] ++ leBytes 8 4128),
    sluice := (devWith []).sluice.set 0 { Sluice.reset with busy := true, next := some 4096 } }

/-- The channel of a chain runs. -/
def chainRuns (s : State) : Bool :=
  s.awake && !s.pwr.d3hot && !s.fatal && !s.pwr.railAlert && s.sluice[0].busy && s.sluice[0].next.isSome &&
    (List.finRange 64).all (fun m => decide (8 ≤ m.val) || decide ((0 : Fin 64) ≤ m) || !(s.sluice[m]).busy)

theorem witness_ChainsRun :
    (let s := chained 16 2; let d := s.descAt 4096; (chainRuns s && !d.bad 4096 && d.half && decide (15 < d.len)) = true) ∧
    (let s := chained 16 0x80; let d := s.descAt 4096; (chainRuns s && !d.bad 4096 && !d.half && d.last && decide (0 < d.len)) = true) ∧
    (let s := chained 0 0x80; let d := s.descAt 4096; (chainRuns s && d.bad 4096) = true) := by
  refine ⟨?_, ?_, ?_⟩ <;> decide

/-! ### Witnesses: network, streams, sound, heads, records -/

/-- Flow entry 0: valid, with input records, video and audio packets on port 0. -/
def flow1 : Flow := { Flow.empty with bytes := 0x9C :: List.replicate 47 0 }

/-- The device as port 0 receives: the settings of an epoch that has come are in force, and its FEC counters may have run on. -/
def receiving (b : State) : State := (b.inForce b.tb.time).countFec 0

/-- A pan offered on a device whose port 0 is up, with flow entry 0 bound to address 0. -/
def netWith (x : Site) : State :=
  { devWith [(0, x)] with
    flows := [(0, flow1)], ports := (devWith []).ports.set 0 { Port.reset with up := true, mode := 4, fec := 2, addrs := Vector.replicate 4 (some (false, List.replicate 16 0)) } }

/-- A frame of port 0 from an EtherType and what follows. -/
def frameOf (ethertype : List Byte) (rest : List Byte) : List Byte := List.replicate 12 0 ++ ethertype ++ rest

/-- An input record with a first byte and alive counter 1. -/
def inputRecord (first : Byte) : List Byte :=
  let b : List Byte := [first, 0, 0, 1] ++ List.replicate 24 0
  b ++ beBytes 4 (crc32c b).toNat

/-- The frame that carries an input record to entry 0. -/
def inputFrame (first : Byte) : List Byte :=
  let a := List.replicate 16 0
  frameOf [0x08, 0x00] (ipBytes flow1 a a (udpBytes false a a 0 0 (inputRecord first)))

/-- A pan in FREE whose slot 0 is attached. -/
def attached1 : Site := { pan0 .free with attached := 1 }

theorem witness_FramesReceived :
    (let b := netWith attached1
     let s := receiving b
     s.site 0 = some attached1 ∧ (b.awake && !b.fatal && b.dev.ready.getLsbD 15 && b.ports[0].up) = true ∧
       (s.ring s.ports[0].rxRing).isNone = true) ∧
    (let f := frameOf [0x88, 0x08] (List.replicate 46 0); decide (60 ≤ f.length ∧ f.length ≤ 9212) && beNat (slice f 12 2) == 0x8808) = true ∧
    (let f := List.replicate 59 (0 : Byte); decide (60 ≤ f.length)) = false ∧
    (let f := 2 :: List.replicate 59 (0 : Byte)
     decide (60 ≤ f.length) && beNat (slice f 12 2) != 0x8808 && !((f.headD 0).getLsbD 0 || slice f 0 6 == List.replicate 6 0)) = true ∧
    (let s := receiving (netWith attached1)
     let f := List.replicate 60 (0 : Byte)
     decide (60 ≤ f.length) && beNat (slice f 12 2) != 0x8808 && slice f 0 6 == s.ports[0].mac && ((datagramOf f).bind (s.entryOf 0)).isNone) = true ∧
    (let s := receiving { netWith attached1 with
       rings := [(4, ringOfKind 4)], ports := (netWith attached1).ports.set 0 { Port.reset with up := true, mode := 4, fec := 2, rxRing := 4 } }
     s.ring s.ports[0].rxRing = some (ringOfKind 4) ∧ (!(ringOfKind 4).full && ((ringOfKind 4).dataPlace 9212).isSome) = true) ∧
    (let s := receiving (netWith attached1)
     let f := inputFrame 0x51
     decide (60 ≤ f.length) && (datagramOf f).any (fun d => s.entryOf 0 d == some 0 && (s.flow 0).rx && !d.payload.isEmpty &&
       bits (d.payload.headD 0) 7 6 != 2 && (rejectCause (s.flow 0) 0 (some attached1) d.payload).isNone) && attached1.freeRun &&
       decide ((s.flow 0).ctr.accepted < 2 ^ 32 - 1)) = true ∧
    (let s := receiving (netWith attached1)
     (datagramOf (inputFrame 0x50)).any (fun d => s.entryOf 0 d == some 0 && bits (d.payload.headD 0) 7 6 != 2 &&
       rejectCause (s.flow 0) 0 (s.site 0) d.payload == some 1)) = true ∧
    (let s := devWith []; (s.awake && !s.fatal && s.dev.ready.getLsbD 16 && !s.ports[1].up) = true) := by
  refine ⟨⟨?_, ?_, ?_⟩, ?_, ?_, ?_, ?_, ⟨?_, ?_⟩, ?_, ?_, ?_⟩ <;> decide +kernel

/-- Settings of a stream with constant QP. -/
def stream1 : Stream :=
  { bt601 := false, rateCeil := 1000, deblockOff := false, rcMode := 0, qp := 100, qpKeyDelta := -16, qpMin := 20, qpMax := 220, rate := 1000,
    rateMax := 1000, buf := 100, keyInterval := 0, recInterval := 0, holdRefresh := 2, mtu := 1200, gap := 0, extId := 0, emitDelay := 0,
    opus10 := true, level := 0 }

/-- A video packet of pan 0. -/
def packet1 (dep ready : Nat) : NetPacket :=
  { pan := 0, video := true, unit := 0, index := 0, first := true, last := true, cont := false, more := false, elems := [], ext := 0, frame := 0,
    ts := 0, dep := dep, ready := ready, gone := 0 }

/-- The device of the witnesses with packets that wait, its port 0 changed. -/
def sends (ks : List NetPacket) (f : Port → Port) : State :=
  let s := netWith attached1
  { s with packets := ks, ports := s.ports.set 0 (f s.ports[0]) }

/-- A transmit ring with one entry, whose descriptor carries a length. -/
def txState (len : Nat) (f : Port → Port) : State :=
  { sends [] f with rings := [(5, { ringOfKind 5 with hst := 1 })], host := Memory.writeBytes [] 4096 (leBytes 8 8192 ++ leBytes 2 len) }

/-- The descriptor at the head of that ring. -/
def txDesc (s : State) : List Byte := s.host.readBytes 4096 32

theorem witness_PacketsLeave :
    (let s := sends [packet1 2000 1500] id
     (s.works && s.tb.counting && decide (s.nextPacket 0 = some (packet1 2000 1500)) && (s.flow 0).valid && (s.flow 0).txv && (s.flow 0).port == 0 &&
       s.ports[0].up && decide (s.ports[0].busyUntil ≤ 2000) && s.copies.isEmpty) = true) ∧
    (let s := sends [packet1 2000 2000] (fun q => { q with busyUntil := 2001 }); (s.works && decide (2000 < s.ports[0].busyUntil)) = true) ∧
    (let s := sends [packet1 2000 2000] (fun q => { q with up := false }); (s.works && !s.ports[0].up) = true) ∧
    (let s := sends [packet1 2000 2001] id; (s.works && decide (s.nextPacket 0 = some (packet1 2000 2001))) = true) ∧
    (let s := { sends [] id with copies := [{ port := 0, entry := 0, video := true, dep := 0, index := 0, frame := [] }] }
     (s.works && s.tb.counting && (s.copies.find? (fun q => q.port == 0)).isSome && s.ports[0].up) = true) ∧
    (let s := txState 59 id; (s.works && txBad (txDesc s)) = true ∧ s.ring 5 = some { ringOfKind 5 with hst := 1 }) ∧
    (let s := txState 60 (fun q => { q with up := false })
     (s.works && !txBad (txDesc s) && !s.ports[0].up && decide ((ringOfKind 5).owner = 0)) = true) ∧
    (let s := txState 9212 id
     (s.works && s.tb.counting && !txBad (txDesc s) && s.ports[0].up && s.copies.isEmpty && (s.nextDeparture 0).isNone) = true) := by
  refine ⟨?_, ?_, ?_, ?_, ?_, ⟨?_, rfl⟩, ?_, ?_⟩ <;> decide +kernel

/-- A stream that has emitted frames 3 to 5, whose last frame showed what the pan shows. -/
def streaming (f : StreamSt → StreamSt) : StreamSt :=
  let ref := fun n : Nat => some { frame := n, recon := pic1.yuv false, context := 0 }
  f { StreamSt.new 0 stream1 with
    slot0 := ref 5, slot1 := ref 4, slot2 := ref 3, keyDue := false, changedFor := none, lastEnc := some pic1, seen := some 5 }

/-- A pan in FREE that offers frame 6 to that stream. -/
def offering (f : StreamSt → StreamSt) : Site :=
  { pan0 .free with stream := some (streaming f), lastFrame := some { pic1 with frame := 6 } }

/-- The pan's frame can be harvested, nothing waits, and a test of the stream holds. -/
def Offers (f : StreamSt → StreamSt) (c : StreamSt → Bool) : Prop :=
  (devWith [(0, offering f)]).harvestable 0 = some (offering f) ∧ (devWith [(0, offering f)]).waiting = [] ∧ c (streaming f) = true

/-- No key frame is due. -/
def noKeyDue (g : StreamSt) : Bool := !g.keyDue && g.slot1.isSome && g.keyReqs.isEmpty && g.cfg.keyInterval == 0

/-- Frame 6 shows what the last frame encoded did, and no rewind has marked it. -/
def sameAgain (g : StreamSt) : Bool := g.changedFor != some 6 && g.lastEnc == some pic1

/-- The frames of the slots a loss report is judged by. -/
def slotFrames (g : StreamSt) : Option Nat × Option Nat := (g.slot1.map (fun r => r.frame), g.slot2.map (fun r => r.frame))

theorem witness_HarvesterFrames :
    Offers (fun g => { g with keyDue := true }) (fun g => g.keyDue) ∧
    Offers (fun g => { g with cfg := { stream1 with keyInterval := 5 }, sinceKey := 5 }) (fun g => g.cfg.keyInterval != 0 && decide (g.cfg.keyInterval ≤ g.sinceKey)) ∧
    Offers id (fun g => noKeyDue g && g.losses.isEmpty && sameAgain g && decide (g.held + 1 < g.cfg.holdRefresh)) ∧
    Offers (fun g => { g with held := 1 }) (fun g => noKeyDue g && g.losses.isEmpty && sameAgain g && decide (g.cfg.holdRefresh ≤ g.held + 1)) ∧
    Offers (fun g => { g with changedFor := some 6 }) (fun g => noKeyDue g && g.losses.isEmpty &&
      g.changeMap { pic1 with frame := 6 } == List.range 1 && !g.recDue && g.cfg.recInterval == 0 && g.slot0.isSome) ∧
    Offers (fun g => { g with changedFor := some 6, recDue := true }) (fun g => noKeyDue g && g.losses.isEmpty &&
      g.changeMap { pic1 with frame := 6 } == [0] && g.recDue) ∧
    Offers (fun g => { g with losses := [(0, 4)] }) (fun g => noKeyDue g && g.losses == [(0, 4)] && slotFrames g == (some 4, some 3)) ∧
    Offers (fun g => { g with losses := [(0, 3)] }) (fun g => noKeyDue g && g.losses == [(0, 3)] && slotFrames g == (some 4, some 3) &&
      sameAgain g && decide (g.held + 1 < g.cfg.holdRefresh)) ∧
    (let x := offering (fun g => { g with cfg := { stream1 with recInterval := 1 } })
     Has (devWith [(0, x)]) x ((devWith [(0, x)]).works && x.stream.any (fun g => g.slot1.isSome && g.cfg.recInterval != 0 && decide (g.cfg.recInterval ≤ g.sinceRec + 1)))) ∧
    (let x := offering (fun g => { g with enc := some (g.encode pic1 0 3 0 100 []) })
     Has (devWith [(0, x)]) x ((devWith [(0, x)]).works && x.stream.any (fun g => g.enc.any (fun n => decide (n.kind < 4))))) := by
  refine ⟨⟨?_, rfl, ?_⟩, ⟨?_, rfl, ?_⟩, ⟨?_, rfl, ?_⟩, ⟨?_, rfl, ?_⟩, ⟨?_, rfl, ?_⟩, ⟨?_, rfl, ?_⟩, ⟨?_, rfl, ?_⟩, ⟨?_, rfl, ?_⟩,
    ⟨rfl, ?_⟩, rfl, ?_⟩ <;> decide +kernel

/-- A pan whose chain has a whole block of samples of +100. -/
def sounding (f : Audio → Audio) : Site :=
  { pan0 .free with audio := f { Audio.reset with queue := List.replicate 48 (100, 100, 500, 0) } }

theorem witness_AudioDelivered :
    (let x := sounding (fun a => { a with routes := ⟨true, false, true, 0xFFFF⟩, nextRoutes := some ⟨true, false, true, 0xFFFF⟩ })
     Has (devWith [(0, x)]) x ((devWith [(0, x)]).chainReady 0 && x.audio.routes.opus && x.audio.routes.i2s && x.audio.rejoin != some x.audio.block && (devWith [(0, x)]).i2s.leaving.isNone &&
       decide (1000 ≤ 500 + (devWith [(0, x)]).dev.i2sDelay * 16000))) ∧
    (let x := sounding id; Has (devWith [(0, x)]) x ((devWith [(0, x)]).chainReady 0 && !x.audio.routes.opus && !x.audio.routes.i2s)) ∧
    (let x := sounding (fun a => { a with cfg := { a.cfg with gainTimeout := 1, dcCut := 0, rumble := 0 }, right := { a.right with step := some (100, 0) } })
     Has (devWith [(0, x)]) x ((devWith [(0, x)]).chainReady 0 && x.audio.timesOut true)) ∧
    (let x := { pan0 .free with audio := { Audio.reset with opusOn := true, stream := some stream1, opusFill := 480 } }
     Has (devWith [(0, x)]) x ((devWith [(0, x)]).works && x.audio.opusOn && x.audio.stream.any (fun g => g.opus10) && !x.audio.opusEnding &&
       decide (480 ≤ x.audio.opusFill))) ∧
    (let x := sounding (fun a => { a with routes := ⟨false, false, true, 0xFFFF⟩, nextRoutes := some ⟨false, false, true, 0xFFFF⟩ })
     let s := { devWith [(0, x)] with dev := { (devWith []).dev with i2sDelay := 0 } }
     Has s x (s.chainReady 0 && x.audio.routes.i2s && s.i2s.leaving.isNone && decide (500 + s.dev.i2sDelay * 16000 < s.tb.time) &&
       x.audio.i2sMissed == 0)) ∧
    (let x := sounding (fun a => { a with routes := ⟨false, false, false, 0xFFFF⟩, nextRoutes := some ⟨false, false, true, 0xFFFF⟩ })
     let s := { devWith [(0, x)] with
       dev := { (devWith []).dev with i2sDelay := 1000 }
       i2s := { (devWith []).i2s with pan := some 0, leaving := some (1, none), blocks := [(1, 2000, [])] } }
     Has s x (s.chainReady 0 && !x.audio.routes.i2s && s.i2s.pan == some 0 && s.i2s.leaving == some (1, none) &&
       decide (500 + s.dev.i2sDelay * 16000 < 2000 + 16000000) && decide (s.tb.time ≤ 500 + s.dev.i2sDelay * 16000))) ∧
    (let s := { devWith [(0, pan0 .locked)] with i2s := { (devWith []).i2s with blocks := [(0, 2000, []), (1, 16002000, [])] } }
     Has s (pan0 .locked) (s.tb.counting && decide (s.i2s.blocks = (0, 2000, []) :: [(1, 16002000, [])]))) ∧
    ((devWith []).tb.counting && (devWith []).i2s.blocks.isEmpty && (devWith []).i2sDuePans.isEmpty) = true ∧
    (let x := { pan0 .locked with audio := { Audio.reset with routes := ⟨false, false, true, 0xFFFF⟩, i2sDue := true } }
     let s := { devWith [(0, x)] with i2s := { (devWith []).i2s with pan := some 0 } }
     Has s x (s.tb.counting && s.i2s.blocks.isEmpty && s.i2sDuePans == [0])) := by
  refine ⟨⟨rfl, ?_⟩, ⟨rfl, ?_⟩, ⟨rfl, ?_⟩, ⟨rfl, ?_⟩, ⟨rfl, ?_⟩, ⟨rfl, ?_⟩, ⟨rfl, ?_⟩, ?_, rfl, ?_⟩ <;> decide +kernel

/-- A device whose head 0 is set. -/
def headed (f : Head → Head) : State :=
  let x := { pan0 .locked with lastFrame := some pic1 }
  { devWith [(0, x)] with heads := (devWith []).heads.set 0 (f Head.reset) }

/-- A trained head that shows pan 0 as tile 0. -/
def showing (h : Head) : Head := { h with hpd := true, trained := true, cfg := { h.cfg with tiles := [(0, (0, 1))] } }

/-- Head 0 is ready for a vertical blank. -/
def headReady (s : State) : Bool := s.awake && s.dev.ready.getLsbD 17 && !s.pwr.d3hot && s.waiting.isEmpty && s.heads[0].hpd

theorem witness_HeadsShow :
    (let s := headed (fun h => { h with cfg := { h.cfg with enable := true, maxLanes := 4 } })
     (s.awake && s.dev.ready.getLsbD 17 && !s.heads[0].hpd && s.heads[0].cfg.enable && decide (1 ≤ min s.heads[0].cfg.maxLanes 1)) = true) ∧
    (let s := headed (fun h => { h with hpd := true, trained := true }); (headReady s && s.heads[0].trained && s.heads[0].cfg.tiles.isEmpty) = true) ∧
    (let s := headed (fun h => { h with hpd := true }); (headReady s && !s.heads[0].trained) = true) ∧
    (let s := headed showing
     (headReady s && s.heads[0].trained && s.heads[0].cfg.tiles == [(0, (0, 1))] && s.heads[0].cfg.inLayout 0 &&
       (s.site 0).any (fun x => x.wholeFrames.head?.any (fun q => q.crc == crc32 (pixelBytes q.pixels)))) = true) ∧
    (let s := { headed showing with sites := [(0, { pan0 .locked with lastFrame := some { pic1 with crc := 0 }, prevFrame := some pic1 })] }
     (headReady s && (s.site 0).any (fun x => x.wholeFrames.head?.any (fun q => q.crc != crc32 (pixelBytes q.pixels)) && x.wholeFrames.tail == [pic1])) = true) ∧
    (let k := { showing Head.reset with
       cfg := { HeadCfg.reset with mosaic := true, c := 8, r := 4, pitchX := 10, pitchY := 10, tiles := [(31, (0, 8))] }, shown := [(31, pic1)] }
     (k.cfg.mosaic && decide (79 / k.cfg.pitchX < k.cfg.c) && decide (39 / k.cfg.pitchY < k.cfg.r) &&
       Table.get k.cfg.tiles (39 / k.cfg.pitchY * k.cfg.c + 79 / k.cfg.pitchX) == some (0, BitVec.ofNat 8 8) && (Table.get k.shown 31).isSome) = true) := by
  refine ⟨?_, ?_, ?_, ?_, ?_, ?_⟩ <;> decide +kernel

/-- Records of a frame. -/
def records (logs : List LogRec) (hash : Option (BitVec 64)) : FrameRecords :=
  { frame := 0, obs := { Obs.reset with ring := some 3 }, logs := logs, picture := none, audio := [], hash := hash, redo := false, late := false, gap := false }

/-- A log record at a position. -/
def logRec (kind : Byte) (frame cyc : Nat) (bytes : List Byte) : LogRec :=
  { frame := frame, cyc := cyc, kind := kind, arg := 15, flags := 1, conf := 2, payload := List.replicate 8 0, stamp := 0, bytes := bytes, seq := 1 }

/-- A pan whose oldest frame has records for ring 3. -/
def observing (q : List FrameRecords) (ring : Option Nat) : Site := { pan0 .free with obsQ := q, obs := { Obs.reset with ring := ring } }

/-- A pan in REPLAY on a boiler with the rest of a log, at pan-cycle 8 of frame 0. -/
def replays (l : List LogRec) : Site :=
  { pan0 .replay with pan := { panAt 0xAF with clk := 8 }, boiler := some 0, heap := { (pan0 .replay).heap with replay := l, replayOn := true } }

/-- A pan in a burst at a frame's start, with a late record that belongs in frame 4. -/
def owing (snaps : List Snapshot) (depth : Nat) : Site :=
  { pan0 .locked with
    pan := { panAt 0xAF with frame := 5 }, slot := some 0, boiler := some 0, burst := true, cutoff := 100,
    heap := { (pan0 .locked).heap with depth := depth, snaps := snaps },
    lateRecords := [{ placement (.input 0 (Vector.replicate 7 0)) with arrival := 100, atFrame := some 4, late := true }] }

/-- The premises of a replayed record, and a check. -/
def Replays (x : Site) (c : Bool) : Prop := Has (devWith [(0, x)]) x ((devWith [(0, x)]).replays x && c) ∧ x.pan.Still

theorem witness_RecordsAndRewinds :
    (let x := observing [records [logRec 1 0 0 []] none] (some 3)
     let s := { devWith [(0, x)] with rings := [(3, ringOfKind 3)] }
     Has s x (s.engines && s.obsNext == some 0 && !x.ringLost && !(ringOfKind 3).full && (logRec 1 0 0 []).kind != 0x0A) ∧
       s.ring 3 = some (ringOfKind 3)) ∧
    (let x := observing [records [] (some 7)] (some 3)
     let s := { devWith [(0, x)] with rings := [(3, ringOfKind 3)] }
     Has s x (s.engines && s.obsNext == some 0 && !x.ringLost) ∧ s.ring 3 = some (ringOfKind 3)) ∧
    (let x := observing [records [] none] none; Has (devWith [(0, x)]) x x.obs.ring.isNone) ∧
    (let x := { observing [records [] none] (some 3) with ringLost := true }; Has (devWith [(0, x)]) x x.ringLost) ∧
    (let x := observing [records [] (some 7)] (some 3)
     let s := { devWith [(0, x), (5, x)] with rings := [(3, ringOfKind 3)] }
     Has s x (x.recordsReady && s.oldestFits x && decide (0 < 5))) ∧
    Replays (replays []) (replays []).heap.replay.isEmpty ∧
    (let x := { replays [logRec 1 4 0 []] with pan := { panAt 0xAF with frame := 5 } }
     Replays x (x.heap.replay.any (fun r => r.kind != 9 && decide (r.frame < x.pan.frame)))) ∧
    (let x := replays [logRec 0x0A 0 0 [1]]
     Replays x (x.heap.replay.any (fun r => r.frame == x.pan.frame && !posBefore (r.frame, r.cyc) x.heap.replayPos &&
       leNat (slice r.payload 4 4) != (crc32 r.bytes).toNat))) ∧
    (let x := replays [logRec 1 0 7 []]
     Replays x (x.heap.replay.any (fun r => r.frame == x.pan.frame && !posBefore (r.frame, r.cyc) x.heap.replayPos &&
       !x.pan.core.hcWait && decide (x.pan.frameStart + r.cyc < x.pan.clk)))) ∧
    (let x := owing [] 0
     Has (devWith [(0, x)]) x ((devWith [(0, x)]).engines && x.boiler.isSome && x.rewindOwed &&
       x.joining.all (fun r => !(decide (x.pan.frame - r.lateAt ≤ x.heap.depth) && x.heap.snaps.any (fun q => q.frame == r.lateAt))))) ∧
    (let x := owing [{ frame := 4, kpa := 2, conf := 1, pan := { panAt 0xAF with frame := 4 } }] 1
     Has (devWith [(0, x)]) x ((devWith [(0, x)]).engines && x.boiler.isSome && x.rewindOwed && x.joining.any x.joins &&
       x.joining.all (fun r => decide (r.lateAt ≤ x.pan.frame)))) := by
  refine ⟨⟨⟨rfl, ?_⟩, rfl⟩, ⟨⟨rfl, ?_⟩, rfl⟩, ⟨rfl, ?_⟩, ⟨rfl, ?_⟩, ⟨rfl, ?_⟩, ⟨⟨rfl, ?_⟩, ⟨rfl, rfl, rfl⟩⟩, ⟨⟨rfl, ?_⟩, ⟨rfl, rfl, rfl⟩⟩,
    ⟨⟨rfl, ?_⟩, ⟨rfl, rfl, rfl⟩⟩, ⟨⟨rfl, ?_⟩, ⟨rfl, rfl, rfl⟩⟩, ⟨rfl, ?_⟩, rfl, ?_⟩ <;> decide +kernel

/-! ### Witnesses: host commands -/

/-- A command on ring 0, its 52 parameter bytes all read. -/
def command (target : BitVec 32) (params : List Byte) : Packet := { packet target params with plen := 7 }

/-- The device as a target. -/
def onDevice (params : List Byte) : Packet := command 0xFFFFFFFF params

/-- A title in a handle. -/
def title1 : Title :=
  { addr := 0, size := 4160, id := 0, profile := 1, minKpa := 2, romLen := 4096, rom := [], cramCode := 1, rewind := true, rate := 60000 }

/-- Pan 0 IDLE with a stream and a snapshot, pan 1 in FREE, pan 2 HALTED, pan 3 in LOCKED, pan 4 IDLE with nothing; rings of every
kind; two titles, the second of no pan. -/
def commandState : State :=
  { devWith [(0, { pan0 .idle with stream := some (streaming id), heap := { (pan0 .idle).heap with snaps := [{ frame := 0, kpa := 2, conf := 1, pan := panAt 0 }] } }),
             (1, pan0 .free), (2, pan0 .halted), (3, { pan0 .locked with phase := some 0 }), (4, pan0 .idle)] with
    rings := [(0, { ringOfKind 0 with owner := 1, hst := 1 }), (1, ringOfKind 1), (3, ringOfKind 3), (4, ringOfKind 4), (7, ringOfKind 7), (9, ringOfKind 2)],
    titles := [(0, title1), (1, title1)], allocs := [(1048576, 4096)], dev := { (devWith []).dev with heapBytes := 8589934592 } }

/-- The command passes the checks of R359, and acts at once or waits. -/
def passing (now : Bool) (k : CmdSpec) (c : Packet) : Bool :=
  let r := { ringOfKind 0 with owner := 1, hst := 1 }
  commandState.passes k c r && (k.boundary (commandState.consume 0 r) (packetRead c)).isNone == now

theorem witness_CommandsWait :
    [passing false devSetSpec (onDevice (leBytes 4 1 ++ leBytes 8 4000)), passing false panResumeSpec (command 2 []),
     passing false panInputSpec (command 1 (leBytes 4 50000 ++ [15, 0xC1])), passing false panHcallSpec (command 1 (leBytes 4 10)),
     passing false heapDepthSpec (command 0 [1]), passing false heapHashSpec (command 0 [1]), passing false heapHashrefSpec (command 0 []),
     passing false heapLogSpec (command 0 [1]), passing false streamCreateSpec (command 4 (leBytes 4 0 ++ leBytes 4 64 ++ leBytes 2 1024)),
     passing false streamDeleteSpec (command 0 [])].all id = true ∧
    [passing false portSetSpec (command 1 [4, 2]), passing false portAddrSpec (command 0 [3, 0x80]),
     passing false portRingsSpec (command 0 [4, 0, 7, 0]), passing false flowSetSpec (command 32767 ([0, 0, 0, 0, 0, 0, 0, 1, 0, 0, 0, 0, 0, 0, 1, 0] ++ List.replicate 16 0 ++ [1])), passing false flowKeySpec (command 0 [1]),
     passing false tbRateSpec (onDevice (leBytes 4 1600000)), passing false tbSlewSpec (onDevice (leBytes 8 16000000000)),
     passing false tbPpsSpec (onDevice ([1, 0, 0, 0] ++ leBytes 8 15999999999 ++ leBytes 4 500000)),
     passing false panObsSpec (command 0 ([3, 0, 0, 1] ++ List.replicate 8 0 ++ [1])), passing false streamSetSpec (command 0 (leBytes 4 2 ++ leBytes 4 255)),
     passing false streamKeySpec (command 0 []), passing false streamLossSpec (command 0 [])].all id = true ∧
    [passing false audioSetSpec (command 0 (leBytes 4 3 ++ leBytes 4 24)), passing false audioRouteSpec (command 0 [7, 0, 3, 0]),
     passing false headTimingSpec (command 1 (leBytes 4 25000 ++ leBytes 8 1 ++ leBytes 8 1 ++ [0, 4, 3, 1])),
     passing false headLayoutSpec (command 0 [1, 16, 16]), passing false headTileSpec (command 0 [0, 0, 0, 0, 8]),
     passing false panStartSpec (command 4 [1]), passing false panModeSpec (command 3 [3]), passing false panStopSpec (command 3 []),
     passing false heapSaveSpec (command 1 [1]), passing false sluiceStartSpec (command 63 (leBytes 8 32)),
     passing false heapReplaySpec (command 4 (List.replicate 16 0 ++ leBytes 4 32))].all id = true ∧
    (let s := { commandState with sites := [] }
     s.passes tbStepSpec (onDevice (leBytes 8 5)) { ringOfKind 0 with owner := 1, hst := 1 }) = true := by
  refine ⟨?_, ?_, ?_, ?_⟩ <;> decide +kernel

/-- Address 0 serves where nothing is allocated, whatever address the device would choose. -/
theorem memAlloc_passes : State.passes memAllocSpec (onDevice (leBytes 8 4096)) { ringOfKind 0 with owner := 1, hst := 1 }
    { commandState with allocs := [] } = true := by
  have h : ∀ s : State, s.dramOpen 0 4096 = true → (s.allocFor 4096).isSome = true := fun s hs => by
    simp only [State.allocFor, List.find?_isSome]
    exact ⟨0, by simp, hs⟩
  let r : Ring := { ringOfKind 0 with owner := 1, hst := 1 }
  let u := State.projected (State.consume 0 r { commandState with allocs := [] })
  let d := packetRead (onDevice (leBytes 8 4096))
  have a : memAllocSpec.allows u d = true := rfl
  have n : memAllocSpec.loads d = false := rfl
  have e : argOf d 12 8 = 4096 := by decide +kernel
  have f : memAllocSpec.fits u d = true := by
    have k : memAllocSpec.fits = fun s c => decide (argOf c 12 8 ≤ s.dramFree) && (s.allocFor (argOf c 12 8)).isSome := rfl
    have o : u.dramOpen 0 4096 = true := by decide +kernel
    have w : decide (4096 ≤ u.dramFree) = true := by decide +kernel
    simp only [k, e, w, h u o, Bool.and_self]
  have l : (memAllocSpec.judged (State.consume 0 r { commandState with allocs := [] }) d).isNone = true := by
    have b : memAllocSpec.allows (State.consume 0 r { commandState with allocs := [] }) d = true := rfl
    have e : memAllocSpec.judged (State.consume 0 r { commandState with allocs := [] }) d = memAllocSpec.late u d := by
      simp only [CmdSpec.judged, b, Bool.not_true, Bool.and_false, Bool.false_eq_true, ↓reduceIte, u]
    rw [e]; simp [CmdSpec.late, a, n, f]
  have b : (decide (State.takes { commandState with allocs := [] } (onDevice (leBytes 8 4096)) = some r) && !isStaged (onDevice (leBytes 8 4096)) &&
    (memAllocSpec.early (State.consume 0 r { commandState with allocs := [] }) d).isNone) = true := by decide +kernel
  exact Bool.and_eq_true_iff.mpr ⟨b, l⟩

theorem witness_DeviceCommandsAct :
    [passing true devQuerySpec (onDevice (leBytes 8 64)),
     passing true ringCreateSpec (command 16383 (leBytes 8 64 ++ leBytes 8 8 ++ leBytes 8 0 ++ [1, 16, 0, 0, 0, 0, 1, 0, 0, 0, 0, 0])),
     passing true ringDestroySpec (command 9 []), passing true ringQuerySpec (command 1 []),
     passing true ringModSpec (command 1 [0x50, 0x80, 1, 0, 0xFF, 3]), passing true titleUnloadSpec (command 1 []),
     passing true memFreeSpec (onDevice (leBytes 8 1048576)), passing true streamQuerySpec (command 0 (leBytes 8 64)),
     passing true netQuerySpec (onDevice (leBytes 8 64 ++ [2])), passing true audioGaugeSpec (command 0 (leBytes 8 64 ++ [1])),
     passing true headStatusSpec (command 1 [])].all id = true ∧
    (let s := { commandState with heads := commandState.heads.set 1 { Head.reset with hpd := true } }
     s.passes headSidebandSpec (command 1 (leBytes 8 64 ++ [1, 0, 0, 0, 0, 0, 0, 0, 0, 16])) { ringOfKind 0 with owner := 1, hst := 1 }) = true ∧
    (let s := { commandState with allocs := [] }
     s.passes memAllocSpec (onDevice (leBytes 8 4096)) { ringOfKind 0 with owner := 1, hst := 1 }) = true := by
  refine ⟨?_, ?_, ?_⟩
  · decide +kernel
  · decide +kernel
  · exact memAlloc_passes

theorem witness_PanCommandsAct :
    [passing true panCreateSpec (command 2047 [1, 0, 7, 0xFF]), passing true panDestroySpec (command 4 []),
     passing true panConfigSpec (command 4 [63, 0, 7, 3]), passing true panHaltSpec (command 1 [1]),
     passing true panStopSpec (command 0 []), passing true panResetSpec (command 0 []), passing true panDebugSpec (command 2 [1, 0, 0, 0, 1, 0]),
     passing true panAttachSpec (command 1 [15]), passing true panDetachSpec (command 1 [15]), passing true panMailboxSpec (command 1 [0, 0, 0, 0, 0, 0, 3]),
     passing true panMovieSpec (command 1 [15]), passing true panMovieSpec (command 0 ([0, 0, 0, 0] ++ leBytes 4 0 ++ leBytes 4 256)),
     passing true panQuerySpec (command 3 (leBytes 8 64)), passing true heapSaveSpec (command 0 [0])].all id = true := by
  decide +kernel

theorem witness_CommandsRefused :
    (let r := { ringOfKind 0 with owner := 1, hst := 1 }
     let s := commandState
     let t := { s with dev := { s.dev with status := 0x80000000 } }
     (let o := { s with rings := [(0, r), (1, ringOfKind 1), (9, r)] }
      turnBefore o.rrCmd 9 0 = true ∧ o.offers r = true ∧ r.open_ = 0) ∧
     (let d := packetRead (command 0 (leBytes 4 6 ++ leBytes 4 2000))
      streamSetSpec.range (s.consume 0 r) d = true ∧ streamSetSpec.orders (s.consume 0 r).projected d = false) ∧
     s.takes { packet 0 [] with ring := 1 } = none ∧ t.takes (packet 0 []) = some r ∧ s.takes (packet 0 []) = some r ∧
       (!panStartSpec.tidy (packetRead (command 4 [])) || !(command 4 [1, 1]).params.all (fun b => b == 0)) = true ∧
       panStartSpec.range (s.consume 0 r) (packetRead (command 4 [0])) = false ∧
       panStartSpec.allows (s.consume 0 r).projected (packetRead (command 1 [1])) = false ∧
       (memFreeSpec.boundary (s.consume 0 r) (packetRead (onDevice [])) = none ∧
        memFreeSpec.allows (s.consume 0 r) (packetRead (onDevice [])) = false) ∧
       (let u := ({ s with dev := { s.dev with ready := 2 } }).consume 0 r
        (panStartSpec.needs u (packetRead (command 4 [1]))).all (fun n => u.dev.ready.getLsbD n) = false) ∧
       (let d := packetRead (command 1 [0, 0, 0, 0, 0, 0, 2])
        let u := { s with sites := [(1, { pan0 .free with mbHolding := [0, 1, 2, 3] })] }
        panMailboxSpec.range u d = true ∧ panMailboxSpec.allows u.projected d = true ∧ panMailboxSpec.fits u.projected d = false)) := by
  refine ⟨⟨?_, ?_, rfl⟩, ⟨?_, ?_⟩, rfl, ?_, ?_, ?_, ?_, ?_, ?_, ?_, ?_, ?_, ?_⟩ <;> decide +kernel

/-! ### Witnesses: boundaries, transactions, aborts -/

theorem witness_CommandsLand :
    ((waits 0x0901 .epoch (onDevice [])).txn.isNone && commandState.packets.isEmpty && (let s := { commandState with sites := [] }
      s.sites.all (fun e => e.2.phase.isNone) && s.copies.isEmpty && !s.tb.ppsEn && !s.tb.ppsOut)) = true ∧
    [(commandState.site 4).any (fun x => x.mode == .idle && argOf (command 4 [1]) 12 1 != (if x.pan.cfg.elastic then 1 else 2)),
     (commandState.site 3).any (fun x => x.running && argOf (command 3 [3]) 12 1 != 2), (commandState.site 2).any (fun x => x.mode == .halted),
     (commandState.site 0).any (fun x => x.stream.isSome && !x.audio.routes.pcm && x.obs.ring != some 3), (commandState.site 4).any (fun x => x.stream.isNone),
     (commandState.ring 3).any (fun r => r.kind == 3 && r.owner == 0), (commandState.ring 4).any (fun r => r.kind == 4),
     (commandState.ring 7).any (fun r => r.kind == 7), commandState.flows.isEmpty].all id = true ∧
    (let w := waits 0x0407 .epoch (command 4 (List.replicate 16 0 ++ leBytes 4 32))
     let v := waits 0x0407 .epoch (command 4 (List.replicate 16 0 ++ leBytes 4 31))
     (commandState.site 4).any (fun x => x.mode == .idle && commandState.replayFits w.c x && !commandState.replayFits v.c x && argOf w.c 12 8 == 0)) = true ∧
    (let s := { devWith [(0, pan0 .idle)] with patch := some [] }; (s.patch.isSome && s.sites.all (fun e => e.2.mode == .idle)) = true) ∧
    (let k := { Head.reset with hpd := true, sinkLanes := 1, sinkRate := 0 }
     k.hpd && argBit (command 0 (leBytes 4 25000 ++ leBytes 8 1 ++ leBytes 8 1 ++ [0, 4, 3, 1])) 35 0 &&
       decide (25000 * 24 * 1000 ≤ 1 * 1620000 * 792) && !decide (600000 * 24 * 1000 ≤ 1 * 1620000 * 792)) = true ∧
    (panConfigSpec.allows commandState (command 1 []) = false ∧ panStartSpec.allows commandState (command 1 [1]) = false ∧ panModeSpec.allows commandState (command 0 [1]) = false ∧
      panResumeSpec.allows commandState (command 0 []) = false) := by
  refine ⟨?_, ?_, ?_, ?_, ?_, ?_, ?_, ?_, ?_⟩ <;> decide +kernel

/-- A device on which one command waits, at an instant before its next epoch. -/
def waitingOne (w : Waiting) (l : Table Site) : State := { devWith l with waiting := [w] }

/-- One command waits alone, accepted before the epoch to come. -/
def aloneBefore (s : State) (w : Waiting) : Bool :=
  s.tb.counting && s.commits.isEmpty && decide (s.waiting = [w]) && w.txn.isNone && !w.epochDone && decide (w.accepted < s.nextEpoch)

/-- A pan on its boiler in FREE as its frame latch comes. -/
def latching : Site := siteWith (panClk 48000)

theorem witness_BoundariesLand :
    (let w := waits 0x0901 .epoch (onDevice []); aloneBefore (waitingOne w []) w && decide (w.at_ = .epoch)) = true ∧
    (let w := { waits 0x0901 .epoch (onDevice []) with accepted := 4000000 }
     let s := waitingOne w []; s.tb.counting && decide (s.nextEpoch ≤ w.accepted) && s.commits.isEmpty && w.txn.isNone && !w.epochDone) = true ∧
    (let w := waits 0x0901 .epoch (onDevice []); let b := waits 0x0902 .epoch (onDevice [])
     let s := { devWith [] with waiting := [w, b] }; decide (w ≠ b) && decide (w.accepted < s.nextEpoch) && decide (b.accepted < s.nextEpoch)) = true ∧
    (let w := waits 0x0311 (.latch 0) (command 0 []); aloneBefore (waitingOne w [(0, pan0 .free)]) w && ((waitingOne w [(0, pan0 .free)]).site 0).isSome) = true ∧
    (let w := waits 0x0305 (.latch 0) (command 0 []); aloneBefore (waitingOne w [(0, pan0 .free)]) w) = true ∧
    (let w := waits 0x0701 (.audio 0) (command 0 []); aloneBefore (waitingOne w []) w) = true ∧
    (let w := waits 0x0803 (.headVb 1) (command 1 []); aloneBefore (waitingOne w []) w) = true ∧
    (let w := waits 0x0504 (.harvester 0) (command 0 []); aloneBefore (waitingOne w []) w) = true ∧
    (let w := { waits 0x0311 (.latch 0) (command 0 []) with epochDone := true }
     let s : State := { stateWith latching with waiting := [w] }
     decide (s.liveSite 0 = some latching) && latching.pan.out.isEmpty && !latching.pan.abort && !latching.rerunning && !latching.pan.beam.latchDone &&
       (match exec (.frameLatch 0) { s with waiting := [] } with
        | .next t => (t.site 0).any (fun y => y.pan.beam.latchDone && !y.rerunning)
        | _ => false)) = true ∧
    (let w := { waits 0x0702 (.audio 0) (command 0 []) with epochDone := true }; (waitingOne w [(0, sounding id)]).chainReady 0 && w.epochDone && w.c.target == 0) = true ∧
    (let w := waits 0x0505 (.harvester 0) (command 0 []); ((waitingOne w [(0, offering id)]).harvestable 0).isSome && decide (w.opcode ≠ 0x0502)) = true ∧
    (let w := waits 0x0802 (.headVb 0) (command 0 []); let s := { headed (fun h => { h with hpd := true }) with waiting := [w] }
     s.headUp 0 && !s.pwr.d3hot && s.heads[0].hpd) = true ∧
    (let x := pan0 .locked; let w := waits 0x0405 (.frameEnd 0) (command 0 [1])
     decide ((waitingOne w [(0, x)]).site 0 = some x) && x.stopAt.isNone) = true ∧
    (let x := { pan0 .locked with stopAt := some (3, some 0) }
     decide ((devWith [(0, x)]).site 0 = some x) && x.realTime && decide (x.beginsAt x.pan.frameStart ≤ 0) && decide (2 < 3)) = true ∧
    (let x := { pan0 .locked with stopAt := some (3, none) }; let w := waits 0x0308 (.frameEnd 0) (command 0 [])
     decide ((waitingOne w [(0, x)]).site 0 = some x) && x.stopAt == some (3, none) && decide (3 ≤ 3)) = true := by
  refine ⟨?_, ?_, ?_, ?_, ?_, ?_, ?_, ?_, ?_, ?_, ?_, ?_, ?_, ?_, ?_⟩ <;> decide +kernel

/-- The ring of commands of `commandState`. -/
def ring0 : Ring := { ringOfKind 0 with owner := 1, hst := 1 }

/-- A command with a transaction's number and flags. -/
def numbered (txid : Word) (flags : Byte) (c : Packet) : Packet := { c with txid := txid, flags := flags }

/-- A transaction that stages a change of the rate. -/
def txn1 (cmds : List (Nat × Packet)) (objs : List (Nat × Nat)) : State :=
  { commandState with txns := [(5, { cmds := cmds, lastAt := 0, objs := objs })] }

/-- The command is taken by a device that runs. -/
def taken (s : State) (c : Packet) : Bool := decide (s.takes c = some ring0) && !s.dev.status.getLsbD 31

/-- An abort is. -/
def takenAbort (s : State) (c : Packet) : Bool := decide (s.takesAbort c = some ring0) && !s.dev.status.getLsbD 31

theorem witness_TransactionsAndAborts :
    (taken commandState (onDevice []) && decide (commandState.txns.length < 64)) = true ∧
    (let s := { commandState with txns := (List.range 64).map (fun n => (n + 1, { cmds := [], lastAt := 0, objs := [] })) }
     taken s (onDevice []) && decide (64 ≤ s.txns.length)) = true ∧
    (taken commandState (numbered 5 1 (onDevice [])) && !(specOf 0x0001).any (fun k => k.stages)) = true ∧
    (taken commandState (onDevice []) && (specOf 0xFFFF).isNone && !(onDevice []).flags.getLsbD 0) = true ∧
    (let k : Commit := { c := onDevice [], cpl := 1, parts := 3, applied := 1, discarded := 0, timedOut := 1, epoch := 0 }
     k.parts == k.applied + k.discarded + k.timedOut + 1 && k.discarded == 0 && decide ({ k with applied := 0 }.timedOut + 1 < k.parts)) = true ∧
    (let c := numbered 5 1 (onDevice []); let s := txn1 [] []; let u := s.consume 0 ring0
     taken s c && (specOf 0x0901).any (fun k => (k.early u (packetRead c)).isNone) && (Table.get s.txns 5).any (fun q => decide (q.cmds.length < 256))) = true ∧
    (let c := numbered 5 1 (onDevice []); let s := txn1 (List.replicate 256 (0x0002, onDevice (leBytes 4 1 ++ leBytes 8 4000))) []; let u := s.consume 0 ring0
     taken s c && (specOf 0x0901).any (fun k => (k.early u (packetRead c)).isNone) && (Table.get s.txns 5).any (fun q => decide (256 ≤ q.cmds.length))) = true ∧
    (taken commandState (numbered 5 0 (onDevice [])) && !Table.has commandState.txns 5) = true ∧
    (taken (txn1 [] []) (numbered 5 0 (onDevice [])) && Table.has (txn1 [] []).txns 5) = true ∧
    (let s := { txn1 [] [(0, 1)] with versions := [(0, 2)] }
     taken s (numbered 5 0 (onDevice [])) && (Table.get s.txns 5).any (fun q => q.objs.any (fun e => (Table.get s.versions e.1).getD 0 != e.2))) = true ∧
    (let s := txn1 [(0x0307, command 0 [])] []; let v := { s.consume 0 ring0 with txns := [] }
     taken s (numbered 5 0 (onDevice [])) && (v.commitFails [(0x0307, command 0 [])]).isSome) = true ∧
    (let s := txn1 [(0x0901, onDevice [])] []; let v := { s.consume 0 ring0 with txns := [] }
     taken s (numbered 5 0 (onDevice [])) && (v.commitFails [(0x0901, onDevice [])]).isNone && (specOf 0x0901).isSome) = true ∧
    (let w := { waits 0x0901 .epoch (onDevice []) with txn := some 1 }
     let s := { waitingOne w [] with commits := [(1, { c := onDevice [], cpl := 1, parts := 1, applied := 0, discarded := 0, timedOut := 0, epoch := 0 })] }
     s.tb.counting && decide (w.accepted < s.nextEpoch) && s.commits.length == 1) = true ∧
    (let w := { waits 0x0311 (.latch 0) (command 0 []) with epochDone := true }; let s := waitingOne w []
     s.tb.counting && decide (s.waiting[0]? = some w) && w.epochDone && w.txn.isNone) = true ∧
    (takenAbort commandState (command 63 []) && decide ((command 63 []).target.toNat < 64)) = true ∧
    (let s := { waitingOne (waits 0x0D01 (.chain 0) (command 0 [])) [] with sluice := (chained 16 2).sluice }; s.sluice[0].busy && s.waiting.length == 1) = true ∧
    (takenAbort commandState (command 4 []) && (commandState.site 4).isSome && (commandState.site 5).isNone) = true ∧
    (let w := waits 0x0B04 .epoch (command 0 []); let s := { waitingOne w [] with flows := [(0, flow1), (16, flow1)] }
     aloneBefore s w && w.c.target == 0) = true ∧
    (takenAbort commandState (command 9 []) && decide ((command 9 []).target.toNat < 16384) && !decide (9 < 2)) = true ∧
    (let s := { commandState with sites := [] }; takenAbort s (onDevice []) && s.sites.isEmpty && s.waiting.isEmpty) = true := by
  refine ⟨?_, ?_, ?_, ?_, ?_, ?_, ?_, ?_, ?_, ?_, ?_, ?_, ?_, ?_, ?_, ?_, ?_, ?_, ?_, ?_⟩ <;> decide +kernel

/-! ### Expected values the spec writes out -/

/-- The bytes "123456789". -/
def checkBytes : List Byte := [0x31, 0x32, 0x33, 0x34, 0x35, 0x36, 0x37, 0x38, 0x39]

/-- The check values of R86. -/
theorem test_crc_check_values :
    crc32 checkBytes = 0xCBF43926 ∧ crc32c checkBytes = 0xE3069283 ∧
    (checkBytes.foldl (crcFold 2) 0xFFFF) = 0x29B1 := by decide +kernel

/-- The example vectors of FIPS 197, C.1 and C.3, and test case 2 of the GCM specification. -/
theorem test_aes_gcm_vectors :
    aesEncrypt (bytesOf 16 0x000102030405060708090a0b0c0d0e0f) (bytesOf 16 0x00112233445566778899aabbccddeeff) =
      bytesOf 16 0x69c4e0d86a7b0430d8cdb78070b4c55a ∧
    aesEncrypt (bytesOf 32 0x000102030405060708090a0b0c0d0e0f101112131415161718191a1b1c1d1e1f)
      (bytesOf 16 0x00112233445566778899aabbccddeeff) = bytesOf 16 0x8ea2b7ca516745bfeafc49904b496089 ∧
    gcmSeal (bytesOf 16 0) (bytesOf 12 0) [] (bytesOf 16 0) =
      bytesOf 32 0x0388dace60b6a392f328c2b971b2fe78ab6e47d42cec13bdf53a67b21257bddf := by decide +kernel

/-- The key derivation of RFC 3711, B.3: session key and session salt. -/
theorem test_srtp_derivation :
    let key := bytesOf 16 0xE1F97A0D3E018BE0D64FA32C06DE4139
    let salt := bytesOf 14 0x0EC675AD498AFEEBB6960B3AABE6
    srtpDerive key salt 0 16 = bytesOf 16 0xC61E7A93744F39EE10734AFE3FF7A087 ∧
    srtpDerive key salt 2 14 = bytesOf 14 0x30CBBC08863D8C85D49DB34A9AE1 := by decide +kernel

/-- The example after R187: k = 3, bay 5, 60 Hz. -/
theorem test_phase_example : phaseOffset 3 5 266666667 = 200651041 := by decide

/-- The example after R295: a gain of -12 half-decibels. -/
theorem test_gain_example : glin (-12) = 32846 := by decide +kernel

/-- The example after R250: pure red under BT.709. -/
theorem test_red_example :
    lumaOf false 0xFF0000 = 63 ∧ chromaOf (yuvRows false).2.1 (List.replicate 4 0xFF0000) = 102 ∧
    chromaOf (yuvRows false).2.2 (List.replicate 4 0xFF0000) = 240 := by decide

/-- The example after R49: A = $C8, B = $03; the product $0258 is due 6 pan-cycles after the final one (that of pan-cycle 1). -/
theorem test_mul_example :
    (let q := panAt 0xE2
     match exec (.mul 0) (stateWith (siteWith { q with cpu := { q.cpu with a := 0xC8, b := 3 } })) with
     | .next t => (t.sites.map (fun e => e.2.pan.mul.inFlight)) == [[(7, 0x0258)]]
     | _ => false) = true := by decide +kernel

/-- The example after R29: `STA a` to a line-scope register that starts at pan-cycle 155 takes effect at dot 320. -/
theorem test_line_write_example :
    (let q := panAt 0x5C
     let w := { q with clk := 155, cpu := { q.cpu with a := 0x12 }, wram := Memory.write (Memory.write q.wram 0x201 0x04) 0x202 0xE0 }
     match exec (.sta 0 .abs) (stateWith (siteWith w)) with
     | .next t => (t.sites.map (fun e => e.2.pan.ras.lineQ.map (fun l => l.dot))) == [[320]]
     | _ => false) = true := by decide +kernel

/-- A write that turns `LEGACY` off in the pan-cycle an IRQ is sampled in: that pan-cycle began in legacy mode, so nothing is locked
(R29, R155, R156); one that would turn it on while a lock is made is ignored (R153). -/
theorem test_lock_by_mode_at_sampling :
    let lock := fun (on : Bool) (v : Byte) =>
      let q := panAt 0x5C
      let w := { q with ic := { q.ic with legacy := on, en := 0x10, pend := 0x10, pri := q.ic.pri.set 4 3 },
                        cpu := { q.cpu with a := v, f := q.cpu.f &&& 0xF7 },
                        wram := Memory.write (Memory.write q.wram 0x201 0xDE) 0x202 0xE1 }
      match exec (.sta 0 .abs) (stateWith (siteWith w)) with
      | .next t => t.sites.map (fun e => let c := (e.2.pan.commitEntry).ic; (c.lock, c.legacy))
      | _ => []
    lock true 0x00 = [(none, false)] ∧ lock false 0x80 = [(some 4, false)] := by decide +kernel

/-- A step of a state whose stores are in canonical form answers a next state. -/
theorem witness_StoresStayCanonical :
    (let s := { commandState with pending := [.ringQuery (command 1 [])] }
     s.storesWf && (match step s with | .next t => t.storesWf | _ => false)) = true := by decide +kernel

end Sys2Proof.Tests
end

section
/-!
SUPPORT. What completions and events do to the device (R332 to R344, R357): they change nothing but what raised sources and written
records change, destroy no ring, and look at neither the commands that wait nor the heads.
-/
namespace Sys2Proof.Machine

/-! ### Nothing but events -/

theorem OnlyEvents.refl (s : State) : OnlyEvents s s := rfl

theorem OnlyEvents.eq {s t : State} (h : OnlyEvents s t) : t = { s with
    host := t.host, rings := t.rings, evc := t.evc, held := t.held, evtLost := t.evtLost,
    bitternWritten := t.bitternWritten, bitternCounted := t.bitternCounted } := h

theorem OnlyEvents.trans {a b c : State} (h : OnlyEvents a b) (k : OnlyEvents b c) : OnlyEvents a c :=
  Eq.trans k (by rw [h])

/-- A state reached by events alone, in which every ring that stood still stands. -/
structure Eventful (s t : State) : Prop where
  only : OnlyEvents s t
  rings : ∀ k, (t.ring k).isSome = (s.ring k).isSome

namespace Eventful

variable {s t : State}

theorem refl (s : State) : Eventful s s := ⟨.refl s, fun _ => rfl⟩

theorem trans {a b c : State} (h : Eventful a b) (k : Eventful b c) : Eventful a c :=
  ⟨h.only.trans k.only, fun n => (k.rings n).trans (h.rings n)⟩

/-- A change of the records and counts of events that leaves the rings alone. -/
theorem fields (h : OnlyEvents s t) (k : t.rings = s.rings) : Eventful s t := ⟨h, fun n => by simp only [State.ring, k]⟩

theorem waiting (h : Eventful s t) : t.waiting = s.waiting := (congrArg State.waiting h.only.eq).trans rfl
theorem sites (h : Eventful s t) : t.sites = s.sites := (congrArg State.sites h.only.eq).trans rfl
theorem heads (h : Eventful s t) : t.heads = s.heads := (congrArg State.heads h.only.eq).trans rfl
theorem tb (h : Eventful s t) : t.tb = s.tb := (congrArg State.tb h.only.eq).trans rfl
theorem dev (h : Eventful s t) : t.dev = s.dev := (congrArg State.dev h.only.eq).trans rfl
theorem pwr (h : Eventful s t) : t.pwr = s.pwr := (congrArg State.pwr h.only.eq).trans rfl
theorem versions (h : Eventful s t) : t.versions = s.versions := (congrArg State.versions h.only.eq).trans rfl

/-- A ring that stands, put anew. -/
theorem putRing {n : Nat} {q : Ring} (h : s.ring n = some q) (r : Ring) : Eventful s (s.putRing n r) :=
  ⟨rfl, fun k => by
    simp only [State.ring, State.putRing] at h ⊢
    rw [Table.get_put]
    split
    · next e => rw [e, h]; rfl
    · rfl⟩

end Eventful

theorem State.hostWrite_eventful (a : Nat) (bs : List Byte) (s : State) : Eventful s (s.hostWrite a bs) := .fields rfl rfl

theorem State.raise_eventful (n : Nat) (s : State) : Eventful s (s.raise n) := .fields rfl rfl

theorem State.moderate_eventful (n : Nat) (s : State) : Eventful s (s.moderate n) := by
  unfold State.moderate
  split
  · next r h =>
    split
    · exact (Eventful.putRing h _).trans (State.raise_eventful _ _)
    · exact .refl s
  · exact .refl s

theorem State.pushEntry_eventful (n : Nat) (entry : List Byte) (s : State) : Eventful s (s.pushEntry n entry) := by
  unfold State.pushEntry
  split
  · exact .refl s
  · next r h =>
    exact (((State.hostWrite_eventful _ _ _).trans (State.hostWrite_eventful _ _ _)).trans (Eventful.putRing (by exact h) _)).trans
      (State.moderate_eventful n _)

theorem State.writeCpl_eventful (h : HeldCpl) (s : State) : Eventful s (s.writeCpl h) := by
  unfold State.writeCpl
  split
  · split
    · exact .fields rfl rfl
    · exact .refl s
  · exact State.pushEntry_eventful _ _ s

/-- One command less of a ring is open. -/
def State.closeOn (n : Nat) (s : State) : State :=
  match s.ring n with
  | some r => s.putRing n r.closed
  | none => s

theorem State.closeOn_eventful (n : Nat) (s : State) : Eventful s (s.closeOn n) := by
  unfold State.closeOn
  split
  · next r h => exact Eventful.putRing h _
  · exact .refl s

/-- A completion closes its command on its own ring; then it is written, unless NOCPL spares a success. -/
theorem State.complete_eq (c : Packet) (cpl op st : Nat) (res : List Byte) (s : State) :
    s.complete c cpl op st res = if c.flags.getLsbD 1 && st == 0 then s.closeOn c.ring
      else (s.closeOn c.ring).writeCpl { cpl := cpl, ring := c.ring, tag := c.tag, opcode := op, status := st, result := res } :=
  rfl

theorem State.complete_eventful (c : Packet) (cpl op st : Nat) (res : List Byte) (s : State) :
    Eventful s (s.complete c cpl op st res) := by
  rw [State.complete_eq]
  split
  · exact State.closeOn_eventful _ s
  · exact (State.closeOn_eventful _ s).trans (State.writeCpl_eventful _ _)

theorem State.bitternWrite_eventful (entry : List Byte) (s : State) : Eventful s (s.bitternWrite entry) := by
  unfold State.bitternWrite
  split
  · split
    · exact (State.pushEntry_eventful _ entry s).trans (.fields rfl rfl)
    · exact .fields rfl rfl
  · exact .fields rfl rfl

theorem State.loseEvent_eventful (key : Nat) (ev : List Byte) (fault : Bool) (s : State) : Eventful s (s.loseEvent key ev fault) := by
  have lost : Eventful s ({ s with evtLost := Table.put s.evtLost key ((Table.get s.evtLost key).getD 0 + 1) }.raise 10) :=
    .fields rfl rfl
  unfold State.loseEvent
  cases fault with
  | true => exact lost.trans (State.bitternWrite_eventful _ _)
  | false => exact lost

theorem State.writeLost_eventful (n : Nat) (s : State) : Eventful s (s.writeLost n) := by
  unfold State.writeLost
  split
  · refine Eventful.trans ?_ (State.pushEntry_eventful _ _ _)
    exact .fields rfl rfl
  · exact .refl s

theorem State.post_eventful (code : Nat) (pan : Option Nat) (flags : Byte) (data : List Byte) (s : State) :
    Eventful s (s.post code pan flags data) := by
  unfold State.post
  split
  · exact State.loseEvent_eventful _ _ _ s
  · next n _ =>
    refine (State.writeLost_eventful n s).trans ?_
    simp only
    split
    · exact State.pushEntry_eventful _ _ _
    · exact State.loseEvent_eventful _ _ _ _

/-! ### The commands that wait and the heads stand aside -/

/-- The state with the queue of waiting commands changed by `f` and the heads by `g`. -/
def State.aside (f : List Waiting → List Waiting) (g : Vector Head 2 → Vector Head 2) (s : State) : State :=
  { s with waiting := f s.waiting, heads := g s.heads }

section
variable (f : List Waiting → List Waiting) (g : Vector Head 2 → Vector Head 2) (s : State)

@[simp] theorem State.ring_aside (n : Nat) : (s.aside f g).ring n = s.ring n := rfl
@[simp] theorem State.site_aside (p : Nat) : (s.aside f g).site p = s.site p := rfl
@[simp] theorem State.room_aside (n : Nat) : (s.aside f g).room n = s.room n := rfl
@[simp] theorem State.bittern_aside : (s.aside f g).bittern = s.bittern := rfl
@[simp] theorem State.now_aside : (s.aside f g).now = s.now := rfl
@[simp] theorem State.serving_aside (kind : Nat) (pan : Option Nat) : (s.aside f g).serving kind pan = s.serving kind pan := rfl
@[simp] theorem State.hostWrite_aside (a : Nat) (bs : List Byte) : (s.aside f g).hostWrite a bs = (s.hostWrite a bs).aside f g := rfl
@[simp] theorem State.putRing_aside (n : Nat) (r : Ring) : (s.aside f g).putRing n r = (s.putRing n r).aside f g := rfl
@[simp] theorem State.putSite_aside (p : Nat) (x : Site) : (s.aside f g).putSite p x = (s.putSite p x).aside f g := rfl
@[simp] theorem State.raise_aside (n : Nat) : (s.aside f g).raise n = (s.raise n).aside f g := rfl
@[simp] theorem State.signal_aside (n : Nat) (r : Ring) : (s.aside f g).signal n r = (s.signal n r).aside f g := rfl

@[simp] theorem State.moderate_aside (n : Nat) : (s.aside f g).moderate n = (s.moderate n).aside f g := by
  unfold State.moderate
  rw [State.ring_aside]
  cases s.ring n with
  | none => rfl
  | some r => simp only [apply_ite (State.aside f g), State.signal_aside]

@[simp] theorem State.pushEntry_aside (n : Nat) (entry : List Byte) :
    (s.aside f g).pushEntry n entry = (s.pushEntry n entry).aside f g := by
  unfold State.pushEntry
  rw [State.ring_aside]
  cases s.ring n with
  | none => rfl
  | some r => simp

@[simp] theorem State.writeCpl_aside (h : HeldCpl) : (s.aside f g).writeCpl h = (s.writeCpl h).aside f g := by
  simp only [State.writeCpl, apply_ite (State.aside f g), ← State.pushEntry_aside]
  rfl

@[simp] theorem State.closeOn_aside (n : Nat) : (s.aside f g).closeOn n = (s.closeOn n).aside f g := by
  unfold State.closeOn
  rw [State.ring_aside]
  cases s.ring n <;> rfl

@[simp] theorem State.complete_aside (c : Packet) (cpl op st : Nat) (res : List Byte) :
    (s.aside f g).complete c cpl op st res = (s.complete c cpl op st res).aside f g := by
  simp only [State.complete_eq, State.closeOn_aside, State.writeCpl_aside, apply_ite (State.aside f g)]

@[simp] theorem State.bitternWrite_aside (entry : List Byte) : (s.aside f g).bitternWrite entry = (s.bitternWrite entry).aside f g := by
  unfold State.bitternWrite
  rw [State.bittern_aside]
  cases h : s.bittern with
  | none => rfl
  | some n =>
    simp only [State.room_aside, State.pushEntry_aside, apply_ite (State.aside f g)]
    rfl

@[simp] theorem State.loseEvent_aside (key : Nat) (ev : List Byte) (fault : Bool) :
    (s.aside f g).loseEvent key ev fault = (s.loseEvent key ev fault).aside f g := by
  cases fault with
  | true =>
    exact State.bitternWrite_aside f g
      ({ s with evtLost := Table.put s.evtLost key ((Table.get s.evtLost key).getD 0 + 1) }.raise 10) _
  | false => rfl

@[simp] theorem State.writeLost_aside (n : Nat) : (s.aside f g).writeLost n = (s.writeLost n).aside f g := by
  simp only [State.writeLost, apply_ite (State.aside f g), ← State.pushEntry_aside]
  rfl

@[simp] theorem State.post_aside (code : Nat) (pan : Option Nat) (flags : Byte) (data : List Byte) :
    (s.aside f g).post code pan flags data = (s.post code pan flags data).aside f g := by
  unfold State.post
  rw [State.serving_aside]
  cases s.serving 6 pan with
  | none => simp
  | some n => simp [apply_ite (State.aside f g)]

@[simp] theorem State.modSite_aside (p : Nat) (h : Site → Site) : (s.aside f g).modSite p h = (s.modSite p h).aside f g := by
  unfold State.modSite
  rw [State.site_aside]
  cases s.site p <;> rfl

end

end Sys2Proof.Machine
end

section
/-!
SUPPORT. What a completion does (R341, R342, R357): the record stands in host memory where the CPL ring takes one, and no ring but the
command's own and the CPL ring changes.
-/
namespace Sys2Proof.Machine

/-! ### Where an entry goes -/

@[simp] theorem State.moderate_host (n : Nat) (s : State) : (s.moderate n).host = s.host := by
  unfold State.moderate
  split
  · split <;> rfl
  · rfl

/-- The entry stands at the ring's index, and the index has moved on (R338). -/
theorem State.pushEntry_host {n : Nat} {s : State} {q : Ring} (h : s.ring n = some q) (entry : List Byte) :
    (s.pushEntry n entry).host = (s.host.writeBytes (q.entryAddr q.dev) entry).writeBytes q.idxAddr (leBytes 4 (q.dev + 1).toNat) := by
  simp only [State.pushEntry, h, State.moderate_host]
  rfl

@[simp] theorem State.closeOn_host (n : Nat) (s : State) : (s.closeOn n).host = s.host := by
  unfold State.closeOn
  split <;> rfl

@[simp] theorem State.closeOn_held (n : Nat) (s : State) : (s.closeOn n).held = s.held := by
  unfold State.closeOn
  split <;> rfl

@[simp] theorem State.closeOn_now (n : Nat) (s : State) : (s.closeOn n).now = s.now := by
  unfold State.closeOn
  split <;> rfl

/-- A ring after a command has been closed, its own or another: only the count of open commands may differ. -/
theorem State.ring_closeOn (n k : Nat) (s : State) :
    (s.closeOn n).ring k = (s.ring k).map (fun q => if k = n then q.closed else q) := by
  unfold State.closeOn
  split
  · next r h =>
    by_cases e : k = n
    · subst e
      rw [h, Option.map_some, if_pos rfl]
      exact Table.get_put_same k _ _
    · simp [State.ring, State.putRing, Table.get_put, e]
  · next h =>
    by_cases e : k = n
    · subst e
      simp [h]
    · simp [e]

@[simp] theorem Ring.full_closed (r : Ring) : r.closed.full = r.full := rfl

/-- A free CPL ring takes the record at once (R341). -/
theorem State.writeCpl_free {s : State} {h : HeldCpl} (hr : s.room h.cpl = true) (hh : s.held.any (fun e => e.cpl == h.cpl) = false) :
    s.writeCpl h = s.pushEntry h.cpl (completionRecord h.tag h.opcode h.status h.ring h.result s.now) := by
  simp [State.writeCpl, hr, hh]

/-- Host memory after a completion that the CPL ring takes (R357). -/
theorem State.complete_host {s : State} {cpl : Nat} (h : s.cplFree cpl = true) (c : Packet) (op st : Nat) (res : List Byte) :
    (s.complete c cpl op st res).host = if c.flags.getLsbD 1 = true ∧ st = 0 then s.host
      else (s.ring cpl).elim s.host (fun q => s.host.completed q c op st res s.now) := by
  simp only [State.cplFree, Bool.and_eq_true, Bool.not_eq_true', Option.any_eq_true] at h
  obtain ⟨⟨q, hq, hkind, hfull⟩, hheld⟩ := h
  rw [beq_iff_eq] at hkind
  rw [State.complete_eq]
  by_cases hn : c.flags.getLsbD 1 = true ∧ st = 0
  · simp [hn]
  · have hb : (c.flags.getLsbD 1 && st == 0) = false := by simpa using hn
    have hq' := State.ring_closeOn c.ring cpl s
    rw [hq, Option.map_some] at hq'
    have hroom : (s.closeOn c.ring).room cpl = true := by
      simp only [State.room, hq', Option.any_some]
      split <;> simp [hfull]
    rw [if_neg hn, if_neg (by rw [hb]; decide), State.writeCpl_free hroom (by simpa using hheld), State.pushEntry_host hq',
      State.closeOn_host, hq, Option.elim_some]
    split <;> simp [Memory.completed, completionRecord, Ring.entryAddr, Ring.closed, Ring.size, ringEntrySize, hkind]

/-! ### Which rings change -/

theorem Table.filter_put {α : Type} {f : Nat × α → Bool} {k : Nat} (h : ∀ v, f (k, v) = false) (v : α) :
    ∀ t : Table α, (Table.put t k v).filter f = t.filter f
  | [] => by simp [Table.put, h]
  | (j, u) :: t => by
    simp only [Table.put]
    split
    · simp [h]
    · split
      · next e => cases e; simp [h]
      · simp [List.filter_cons, Table.filter_put h v t]

section
variable {f : Nat × Ring → Bool} {n : Nat}

theorem State.moderate_filter (h : ∀ r, f (n, r) = false) (s : State) : (s.moderate n).rings.filter f = s.rings.filter f := by
  unfold State.moderate
  split
  · split
    · exact Table.filter_put h _ _
    · rfl
  · rfl

theorem State.pushEntry_filter (h : ∀ r, f (n, r) = false) (entry : List Byte) (s : State) :
    (s.pushEntry n entry).rings.filter f = s.rings.filter f := by
  unfold State.pushEntry
  split
  · rfl
  · exact (State.moderate_filter h _).trans (Table.filter_put h _ _)

theorem State.closeOn_filter (h : ∀ r, f (n, r) = false) (s : State) : (s.closeOn n).rings.filter f = s.rings.filter f := by
  unfold State.closeOn
  split
  · exact Table.filter_put h _ _
  · rfl

end

theorem State.writeCpl_filter {f : Nat × Ring → Bool} {h : HeldCpl} (hf : ∀ r, f (h.cpl, r) = false) (s : State) :
    (s.writeCpl h).rings.filter f = s.rings.filter f := by
  unfold State.writeCpl
  split
  · split <;> rfl
  · exact State.pushEntry_filter hf _ s

theorem State.complete_filter {f : Nat × Ring → Bool} {c : Packet} {cpl : Nat} (hc : ∀ r, f (c.ring, r) = false)
    (hq : ∀ r, f (cpl, r) = false) (op st : Nat) (res : List Byte) (s : State) :
    (s.complete c cpl op st res).rings.filter f = s.rings.filter f := by
  rw [State.complete_eq]
  split
  · exact State.closeOn_filter hc s
  · exact (State.writeCpl_filter hq _).trans (State.closeOn_filter hc s)

/-- A completion answers its command, whatever the state it completes in. -/
theorem answered_complete (c : Packet) (cpl op st : Nat) (res : List Byte) (v : State) :
    Answered c cpl op st res v (v.complete c cpl op st res) := by
  have e := State.complete_eventful c cpl op st res v
  refine ⟨?_, fun h => State.complete_host h c op st res, State.complete_filter (by simp) (by simp) op st res v⟩
  rw [e.versions]
  exact e.only

end Sys2Proof.Machine
end

section
/-!
SUPPORT. The boundaries (R4, R213, R360, R372): which command a spec belongs to, what a landing leaves of the queue, how commands meet
the epoch, and how one that waits alone leaves the queue at its boundary.
-/
namespace Sys2Proof.Machine

/-! ### Landing (R360, R407) -/

@[simp] theorem State.complete_waiting (c : Packet) (cpl op st : Nat) (res : List Byte) (s : State) :
    (s.complete c cpl op st res).waiting = s.waiting := (State.complete_eventful c cpl op st res s).waiting

@[simp] theorem State.post_waiting (code : Nat) (pan : Option Nat) (flags : Byte) (data : List Byte) (s : State) :
    (s.post code pan flags data).waiting = s.waiting := (State.post_eventful code pan flags data s).waiting

@[simp] theorem State.modSite_waiting (p : Nat) (f : Site → Site) (s : State) : (s.modSite p f).waiting = s.waiting := by
  unfold State.modSite
  split <;> rfl

/-- A command that waits by itself, and not as a part of a commit, completes. -/
theorem State.finish_alone {w : Waiting} (h : w.txn = none) (st : Nat) (res : List Byte) (s : State) :
    s.finish w st res = s.complete w.c w.cpl w.opcode st res := by
  simp [State.finish, h]

/-- A landing whose state check holds. -/
theorem State.landWaiting_allowed {w : Waiting} {k : CmdSpec} {s : State} (hk : specOf w.opcode = some k) (hw : w.txn = none)
    (ha : k.allows s w.c = true) : State.landWaiting w s =
      (k.land w.c w.cpl s).state.complete w.c w.cpl w.opcode (k.land w.c w.cpl s).status (k.land w.c w.cpl s).result := by
  simp [State.landWaiting, hk, ha, State.finish_alone hw]

/-- A landing whose state check fails. -/
theorem State.landWaiting_refused {w : Waiting} {k : CmdSpec} {s : State} (hk : specOf w.opcode = some k)
    (ha : k.allows s w.c = false) : State.landWaiting w s = s.fails w stBadState := by
  simp [State.landWaiting, hk, ha]

theorem State.fails_waiting {w : Waiting} (hw : w.txn = none) (st : Nat) (s : State) : (s.fails w st).waiting = s.waiting := by
  simp only [State.fails, State.finish_alone hw, State.complete_waiting, State.tidyPhase]
  split
  · simp
  · split <;> simp

/-- A command whose landing leaves the queue of waiting commands as it stands. -/
def CmdSpec.KeepsQueue (k : CmdSpec) : Prop := ∀ c cpl s, (k.land c cpl s).state.waiting = s.waiting

theorem CmdSpec.KeepsQueue.landWaiting {w : Waiting} {k : CmdSpec} (q : k.KeepsQueue) (hk : specOf w.opcode = some k)
    (hw : w.txn = none) (s : State) : (State.landWaiting w s).waiting = s.waiting := by
  cases ha : k.allows s w.c with
  | true => rw [State.landWaiting_allowed hk hw ha, State.complete_waiting, q]
  | false => rw [State.landWaiting_refused hk ha, State.fails_waiting hw]

theorem State.touchObject_waiting (o : Option Nat) (s : State) : (s.touchObject o).waiting = s.waiting := by
  cases o <;> rfl

theorem State.dropFlows_waiting (w : Waiting) (s : State) : (s.dropFlows w).waiting = s.waiting := by
  unfold State.dropFlows
  exact List.foldlRecOn (motive := fun t : State => t.waiting = s.waiting) _ _ rfl
    (fun t h e _ => (State.touchObject_waiting _ t).trans h)

/-! ### Commands that land at an epoch -/

theorem State.dropLink_waiting (e : Fin 2) (s : State) : (s.dropLink e).waiting = s.waiting := by
  unfold State.dropLink
  split
  · exact State.post_waiting _ _ _ _ _
  · rfl

theorem State.waitsForRecords_waiting (p : Nat) (s : State) : (s.waitsForRecords p).waiting = s.waiting := State.modSite_waiting _ _ s

theorem beginRt_waiting (c : Packet) (s : State) : (beginRt c s).waiting = s.waiting := by
  unfold beginRt
  split
  · exact State.modSite_waiting _ _ s
  · rfl

theorem panStartSpec_keepsQueue : panStartSpec.KeepsQueue := fun c _ s =>
  calc _ = _ := State.waitsForRecords_waiting _ _
    _ = _ := State.modSite_waiting _ _ _
    _ = _ := State.modSite_waiting _ _ _
    _ = s.waiting := beginRt_waiting c s

theorem panResumeSpec_keepsQueue : panResumeSpec.KeepsQueue := fun _ _ s =>
  (State.waitsForRecords_waiting _ _).trans (State.modSite_waiting _ _ s)

theorem heapReplaySpec_keepsQueue : heapReplaySpec.KeepsQueue := fun c _ s => by
  change (s.landReplay c).state.waiting = _
  unfold State.landReplay
  split
  · rfl
  · split
    · rfl
    · exact (State.waitsForRecords_waiting _ _).trans (State.post_waiting _ _ _ _ _)

theorem streamCreateSpec_keepsQueue : streamCreateSpec.KeepsQueue := fun c _ s => by
  dsimp only [streamCreateSpec, CmdSpec.onPan, CmdSpec.plain]
  split <;> rfl

theorem portSetSpec_keepsQueue : portSetSpec.KeepsQueue := fun c _ s => by
  change (if s.ports[portArg c].mode = argOf c 12 1 ∧ s.ports[portArg c].fec = argOf c 13 1 then s
    else s.dropLink (portArg c)).waiting = _
  split
  · rfl
  · exact State.dropLink_waiting _ s

/-- Commands that wait for the device epoch and for nothing else (R213, R362 to R368, R374). -/
def epochCommands : List Nat := [0x0002, 0x0304, 0x0307, 0x030F, 0x0310, 0x0401,
      0x0402, 0x0403, 0x0404, 0x0407, 0x0501, 0x0503, 0x0601, 0x0602, 0x0603, 0x0604, 0x0605, 0x0901, 0x0902, 0x0903, 0x0904, 0x0B04, 0x0B05]

/-- None of them changes the queue as it lands. -/
theorem State.landWaiting_waiting {w : Waiting} (h : w.opcode ∈ epochCommands) (hw : w.txn = none) (s : State) :
    (State.landWaiting w s).waiting = s.waiting := by
  have of : ∀ {k : CmdSpec}, k.KeepsQueue → specOf w.opcode = some k → (State.landWaiting w s).waiting = s.waiting :=
    fun q hk => q.landWaiting hk hw s
  have ofPan : ∀ {k : CmdSpec}, (∀ c cpl t, ∃ f, (k.land c cpl t).state = State.modSite (targetOf c) f t) →
      specOf w.opcode = some k → (State.landWaiting w s).waiting = s.waiting :=
    fun q => of (fun c cpl t => by obtain ⟨f, e⟩ := q c cpl t; rw [e, State.modSite_waiting])
  have ofNone : specOf w.opcode = none → (State.landWaiting w s).waiting = s.waiting := fun hk => by
    simp only [State.landWaiting, hk, State.dropFlows_waiting]
  simp only [epochCommands, List.mem_cons, List.not_mem_nil, or_false] at h
  rcases h with h | h | h | h | h | h | h | h | h | h | h | h | h | h | h | h | h | h | h | h | h | h | h <;> rw [h] at of ofPan ofNone
  · exact of (k := devSetSpec) (fun _ _ _ => rfl) rfl
  · exact of panStartSpec_keepsQueue rfl
  · exact of panResumeSpec_keepsQueue rfl
  · exact ofPan (k := panInputSpec) (fun _ _ _ => ⟨_, rfl⟩) rfl
  · exact ofPan (k := panHcallSpec) (fun _ _ _ => ⟨_, rfl⟩) rfl
  · exact ofPan (k := heapDepthSpec) (fun _ _ _ => ⟨_, rfl⟩) rfl
  · exact ofPan (k := heapHashSpec) (fun _ _ _ => ⟨_, rfl⟩) rfl
  · exact ofPan (k := heapHashrefSpec) (fun _ _ _ => ⟨_, rfl⟩) rfl
  · exact ofPan (k := heapLogSpec) (fun _ _ _ => ⟨_, rfl⟩) rfl
  · exact of heapReplaySpec_keepsQueue rfl
  · exact of streamCreateSpec_keepsQueue rfl
  · exact ofPan (k := streamDeleteSpec) (fun _ _ _ => ⟨_, rfl⟩) rfl
  · exact of portSetSpec_keepsQueue rfl
  · exact of (k := portAddrSpec) (fun _ _ _ => rfl) rfl
  · exact of (k := portRingsSpec) (fun _ _ _ => rfl) rfl
  · exact of (k := flowSetSpec) (fun _ _ _ => rfl) rfl
  · exact of (k := flowKeySpec) (fun _ _ _ => rfl) rfl
  · exact of (k := tbRateSpec) (fun _ _ _ => rfl) rfl
  · exact of (k := tbSlewSpec) (fun _ _ _ => rfl) rfl
  · exact of (k := tbStepSpec) (fun _ _ _ => rfl) rfl
  · exact of (k := tbPpsSpec) (fun _ _ _ => rfl) rfl
  · exact ofNone rfl
  · exact ofNone rfl

/-! ### The epoch (R213) -/

/-- Epochs lie at multiples of 250 µs: the next is the first after the last one entered, or the latest that has passed. -/
theorem State.nextEpoch_spec (s : State) :
    s.nextEpoch % 4000000 = 0 ∧ s.tb.epochAt < s.nextEpoch ∧ s.tb.time < s.nextEpoch + 4000000 := by
  by_cases h : s.tb.time < (s.tb.epochAt / 4000000 + 1) * 4000000
  · have e : s.nextEpoch = (s.tb.epochAt / 4000000 + 1) * 4000000 := if_pos h
    omega
  · have e : s.nextEpoch = s.tb.time / 4000000 * 4000000 := if_neg h
    omega

/-- The device at its next epoch, before any command has met it. -/
def State.enterEpoch (s : State) : State := { s with tb := { s.tb.moveTo s.nextEpoch with epochAt := s.nextEpoch } }

/-- Without a commit in progress an epoch is the landings of the commands that meet it. -/
theorem State.epoch_eq {s : State} (h : s.commits = []) :
    s.epoch = State.epochLandings s.nextEpoch s.waiting.length s.enterEpoch := by
  have e : State.stampCommits s.nextEpoch s.enterEpoch = { s.enterEpoch with commits := [] } := by
    simp [State.stampCommits, State.enterEpoch, h]
  calc s.epoch = State.epochLandings s.nextEpoch s.waiting.length (State.stampCommits s.nextEpoch s.enterEpoch) := rfl
    _ = _ := by rw [e, ← h]; rfl

theorem completes_deviceEpoch {s : State} (h : s.tb.counting = true) : Completes .deviceEpoch s (fun t => t = s.epoch) :=
  ⟨s.epoch, by change execDeviceEpoch s = _; simp [execDeviceEpoch, h], rfl⟩

/-- The oldest command that meets the epoch meets it first. -/
theorem State.epochLandings_cons {e n : Nat} {s : State} {w : Waiting} {l : List Waiting} (hs : s.waiting = w :: l)
    (hw : w.meets e = true) : State.epochLandings e (n + 1) s = State.epochLandings e n (s.meetEpoch e w) := by
  simp [State.epochLandings, hs, hw]

/-- A command alone that does not meet the epoch waits on. -/
theorem State.epochLandings_later {e n : Nat} {s : State} {w : Waiting} (hs : s.waiting = [w]) (hw : w.meets e = false) :
    State.epochLandings e n s = s := by
  cases n <;> simp [State.epochLandings, hs, hw]

/-- What a command does that meets the epoch and lands at it. -/
theorem State.meetEpoch_lands {e : Nat} {s : State} {w : Waiting} (h : s.landsAtEpoch w = true) (ho : w.opcode ≠ 0x0308) :
    s.meetEpoch e w = State.landWaiting w { s with waiting := s.waiting.erase w } := by
  simp [State.meetEpoch, h, ho]

/-- A command that has met its epoch and waits for a later boundary. -/
def Waiting.met (e : Nat) (w : Waiting) : Waiting := { w with epochDone := true, epochTime := e }

/-- What a command does that meets the epoch and waits for a later boundary. -/
theorem State.meetEpoch_passes {e : Nat} {s : State} {w : Waiting} (h : s.landsAtEpoch w = false) (ho : w.opcode ≠ 0x0502)
    (hs : s.waiting = [w]) : s.meetEpoch e w = { s with waiting := [w.met e] } := by
  simp [State.meetEpoch, h, State.passEpoch, ho, hs, Waiting.met]

/-- The epoch of a device on which one command waits that meets it. -/
theorem State.epoch_alone {s : State} {w : Waiting} (hc : s.commits = []) (hs : s.waiting = [w]) (hw : w.meets s.nextEpoch = true) :
    s.epoch = s.enterEpoch.meetEpoch s.nextEpoch w := by
  rw [State.epoch_eq hc, hs, List.length_singleton, State.epochLandings_cons (s := s.enterEpoch) hs hw]
  rfl

/-- A boundary at which, or after which, an epoch has to come first. -/
def Boundary.meetsEpoch : Boundary → Bool
  | .frameEnd _ | .chain _ | .switch => false
  | .epoch | .latch _ | .headVb _ | .audio _ | .harvester _ => true

theorem Waiting.meets_eq (e : Nat) (w : Waiting) : w.meets e = (decide (w.accepted < e) && !w.epochDone && w.at_.meetsEpoch) := by
  unfold Waiting.meets
  cases w.at_ <;> rfl

/-! ### Boundaries of one unit -/

/-- A command that waits alone lands at a boundary whose test picks it. -/
theorem State.landParts_alone {f : Waiting → Bool} {s : State} {w : Waiting} (hs : s.waiting = [w]) (hf : f w = true)
    (ho : w.opcode ≠ 0x0308) : s.landParts f s.waiting.length = State.landWaiting w { s with waiting := [] } := by
  simp [State.landParts, hs, hf, ho]

/-- With no command waiting nothing lands. -/
theorem State.landParts_idle {f : Waiting → Bool} {s : State} (hs : s.waiting = []) : s.landParts f s.waiting.length = s := by
  simp [State.landParts, hs]

end Sys2Proof.Machine
end

section
/-!
SUPPORT. The frame latch (R106, R251, R360): the latch pan-cycle hands nothing to the device and ends no frame, so what waits for it
lands on the device as the latch leaves it.
-/
namespace Sys2Proof.Machine

/-! ### The latch in the image -/

theorem Pan.reach_out (t : Nat) (p : Pan) : (p.reach t).out = p.out := by
  unfold Pan.reach
  simp only
  split
  · exact Pan.settle_out p
  · rfl

theorem Pan.reach_frame (t : Nat) (p : Pan) : (p.reach t).frame = p.frame := by
  unfold Pan.reach
  simp only
  split
  · exact Pan.settle_frameNo p
  · rfl

theorem Pan.latchBegin_hushes (p : Pan) : Hushes Pan.latchBegin p := by
  unfold Hushes Pan.latchBegin
  simp only
  split <;> split <;> exact ⟨rfl, rfl, rfl⟩

theorem Pan.latchRaise_hushes (flip late : Bool) (p : Pan) : Hushes (Pan.latchRaise flip late) p := by
  cases flip <;> cases late <;> exact ⟨rfl, rfl, rfl⟩

/-- A latch hands nothing on and leaves the frame number alone. -/
theorem Pan.latchStep_hushes {p q : Pan} (h : p.latchStep = some q) : q.out = p.out ∧ q.frame = p.frame := by
  unfold Pan.latchStep Pan.begins Pan.at at h
  simp only [Option.ite_none_left_eq_some, Option.ite_none_right_eq_some, Option.some.injEq] at h
  obtain ⟨-, -, rfl⟩ := h
  obtain ⟨o1, f1, -⟩ := Pan.latchBegin_hushes (p.reach p.latchAt).settle
  obtain ⟨o2, f2, -⟩ := Pan.latchRaise_hushes (p.reach p.latchAt).settle.copyDue (p.reach p.latchAt).settle.lateDue
    (p.reach p.latchAt).settle.latchBegin
  exact ⟨by rw [o2, o1, Pan.settle_out, Pan.reach_out], by rw [f2, f1, Pan.settle_frameNo, Pan.reach_frame]⟩

/-! ### A step that hands nothing on -/

theorem State.crystallize_aside (f : List Waiting → List Waiting) (g : Vector Head 2 → Vector Head 2) (p : Nat) (s : State) :
    (s.aside f g).crystallize p = (s.crystallize p).aside f g := by
  unfold State.crystallize
  rw [State.site_aside]
  cases s.site p with
  | none => rfl
  | some x => simp only [apply_ite (State.aside f g)]; rfl

/-- Lines served from the crust are counted; of the pan nothing else changes. -/
theorem State.crystallize_site {s : State} {p : Nat} {x : Site} (h : s.site p = some x) :
    ∃ y, (s.crystallize p).site p = some y ∧ y.pan.out = x.pan.out ∧ y.pan.frame = x.pan.frame := by
  by_cases k : x.pan.crust.served = 0
  · exact ⟨x, by simp [State.crystallize, h, k], rfl, rfl⟩
  · refine ⟨x.modPan (fun q => { q with crust := { q.crust with served := 0 } }), ?_, rfl, rfl⟩
    simp only [State.crystallize, h, k, if_false]
    exact State.site_putSite_same p _ s

/-- Where a pan hands nothing on and no frame ends, the commands that wait and the heads stand aside. -/
theorem State.afterPan_aside {s : State} {p : Nat} {x : Site} {old : Pan} (h : s.site p = some x) (ho : x.pan.out = [])
    (hf : x.pan.frame ≤ old.frame) (redo : Bool) (f : List Waiting → List Waiting) (g : Vector Head 2 → Vector Head 2) :
    (s.aside f g).afterPan p old redo = (s.afterPan p old redo).aside f g := by
  obtain ⟨y, hy, yo, yf⟩ := State.crystallize_site h
  have flushed : ∀ f g, (((s.crystallize p).aside f g).flush p redo) =
      ((s.crystallize p).putSite p (y.settleCredits.modPan (fun q => { q with out := [] }))).aside f g := fun f g => by
    simp [State.flush, hy, yo, ho]
  have ends : ∀ f g, ((((s.crystallize p).putSite p (y.settleCredits.modPan (fun q => { q with out := [] }))).aside f g).site p).any
      (fun z => decide (old.frame < z.pan.frame)) = false := fun f g => by
    simp only [State.site_aside, State.site_putSite_same, Option.any_some, decide_eq_false_iff_not]
    change ¬ old.frame < y.pan.frame
    omega
  have k : ∀ f g, (s.aside f g).afterPan p old redo =
      ((s.crystallize p).putSite p (y.settleCredits.modPan (fun q => { q with out := [] }))).aside f g := fun f g => by
    simp only [State.afterPan, State.crystallize_aside, flushed, ends, Bool.false_eq_true, if_false]
  exact (k f g).trans (congrArg (State.aside f g) (k id id).symm)

/-- What lets the queue stand aside leaves it as it is. -/
theorem State.waiting_of_aside {h : State → State} {s : State}
    (e : ∀ f g, h (s.aside f g) = (h s).aside f g) : (h s).waiting = s.waiting :=
  (congrArg State.waiting (e (fun _ => s.waiting) id)).trans rfl

/-! ### What lands at the latch -/

theorem State.landLatch_idle {s : State} (h : s.waiting = []) (p : Nat) : s.landLatch p = s := by
  unfold State.landLatch
  split
  · rfl
  · split
    · rfl
    · exact State.landParts_idle h

/-- `FRAME_LATCH` where the latch leads to `t` and nothing waits. -/
theorem execFrameLatch_idle {s t : State} {p : Nat} (h : s.panStep p Pan.latchStep = .next t) (ht : t.waiting = []) :
    execFrameLatch p s = .next t := by
  unfold execFrameLatch
  rw [h]
  simp only
  split
  · split
    · rw [State.landLatch_idle ht]
    · rfl
  · rfl

/-- `FRAME_LATCH` where the latch comes and commands may wait for it. -/
theorem execFrameLatch_latched {s t : State} {p : Nat} {x y : Site} (h : s.panStep p Pan.latchStep = .next t)
    (hx : s.site p = some x) (hy : t.site p = some y) (hl : x.pan.latched y.pan = true) :
    execFrameLatch p s = .next (t.landLatch p) := by
  unfold execFrameLatch
  rw [h]
  simp only [hx, hy, hl, if_true]

/-- Where a latch comes, the pan moves on and the queue stands as it is, whatever waits. -/
theorem State.panStep_latch {s : State} {p : Nat} {x : Site} {q : Pan} (hx : s.liveSite p = some x) (hout : x.pan.out = [])
    (hq : x.pan.latchStep = some q) : ∃ t, s.panStep p Pan.latchStep = .next t ∧ t.waiting = s.waiting ∧
      ∀ l, State.panStep p Pan.latchStep { s with waiting := l } = .next { t with waiting := l } := by
  obtain ⟨qo, qf⟩ := Pan.latchStep_hushes hq
  let u := s.putSite p { x with pan := q, dirty := true }
  have free : ∀ f g, (u.aside f g).afterPan p x.pan false = (u.afterPan p x.pan false).aside f g :=
    State.afterPan_aside (State.site_putSite_same p _ s) (qo.trans hout) (le_of_eq qf) false
  refine ⟨u.afterPan p x.pan false, by simp only [State.panStep, hx, hq, u],
    State.waiting_of_aside (h := State.afterPan p x.pan false) free, fun l => ?_⟩
  have live : State.liveSite { s with waiting := l } p = some x := hx
  simp only [State.panStep, live, hq]
  exact congrArg _ (free (fun _ => l) id)

/-- The observation of a pan that waits alone lands on what the latch leaves (R251). -/
theorem frameLatch_lands {s t : State} {w : Waiting} {p : Nat} {x : Site} (hs : s.waiting = [w]) (hat : w.at_ = .latch p)
    (hd : w.epochDone = true) (ho : w.opcode = 0x0311) (hx : s.liveSite p = some x) (hout : x.pan.out = [])
    (hl : x.pan.beam.latchDone = false) (ht : exec (.frameLatch p) { s with waiting := [] } = .next t)
    (hy : (t.site p).any (fun y => y.pan.beam.latchDone && !y.rerunning) = true) :
    exec (.frameLatch p) s = .next (State.landWaiting w t) := by
  have site := State.liveSite_site hx
  simp only [Option.any_eq_true, Bool.and_eq_true, Bool.not_eq_true'] at hy
  obtain ⟨y, hty, hyl, hyr⟩ := hy
  change execFrameLatch p { s with waiting := [] } = _ at ht
  change execFrameLatch p s = _
  cases hq : x.pan.latchStep with
  | none =>
    -- no latch comes, and the pan stands before it still
    have live : State.liveSite { s with waiting := [] } p = some x := hx
    rw [execFrameLatch_idle (t := { s with waiting := [] }) (by simp only [State.panStep, live, hq]) rfl] at ht
    cases ht
    cases site.symm.trans hty
    simp [hl] at hyl
  | some q =>
    obtain ⟨u, step, queue, bare⟩ := State.panStep_latch hx hout hq
    rw [execFrameLatch_idle (bare []) rfl] at ht
    cases ht
    have there : u.site p = some y := hty
    have pick : Waiting.atLatch p y w = true := by simp [Waiting.atLatch, hat, hd, ho]
    rw [execFrameLatch_latched step site there (by simp [Pan.latched, hl, hyl])]
    simp only [State.landLatch, there, hyr, Bool.false_eq_true, if_false]
    rw [State.landParts_alone (queue.trans hs) pick (by simp [ho])]

end Sys2Proof.Machine
end

section
/-!
SUPPORT. The audio block and the harvester frame (R267, R289, R360): a setting that lands there leaves the chain ready and the frame on
offer, so the block or the frame that follows is the one of the device with the setting landed.
-/
namespace Sys2Proof.Machine

/-! ### The audio block -/

/-- Two devices on which a pan's chain runs alike. -/
structure SameReady (p : Nat) (s t : State) : Prop where
  dev : t.dev = s.dev
  pwr : t.pwr = s.pwr
  block : (t.site p).any (fun x => x.audio.blockReady) = (s.site p).any (fun x => x.audio.blockReady)

namespace SameReady

variable {p : Nat} {s t : State}

theorem trans {a b c : State} (h : SameReady p a b) (k : SameReady p b c) : SameReady p a c :=
  ⟨k.dev.trans h.dev, k.pwr.trans h.pwr, k.block.trans h.block⟩

theorem chainReady (h : SameReady p s t) : t.chainReady p = s.chainReady p := by
  simp only [State.chainReady, State.awake, State.fatal, h.dev, h.pwr, h.block]

theorem complete (c : Packet) (cpl op st : Nat) (res : List Byte) (s : State) : SameReady p s (s.complete c cpl op st res) := by
  have e := State.complete_eventful c cpl op st res s
  exact ⟨e.dev, e.pwr, by simp only [State.site, e.sites]⟩

/-- A change of a chain that leaves its samples and the Opus frame in progress alone. -/
theorem modAudio (q : Nat) (f : Audio → Audio) (s : State) (hf : ∀ a, (f a).blockReady = a.blockReady := by exact fun _ => rfl) :
    SameReady p s (s.modAudio q f) := by
  unfold State.modAudio State.modSite
  split
  · next x h =>
    refine ⟨rfl, rfl, ?_⟩
    by_cases e : p = q
    · subst e
      simp [h, hf]
    · rw [State.site_putSite_other e]
  · exact ⟨rfl, rfl, rfl⟩

theorem cutLeft (old : Option (Nat × Option Nat)) (s : State) : SameReady p s (s.cutLeft old) := by
  unfold State.cutLeft
  split
  · split
    · exact ⟨rfl, rfl, rfl⟩
    · exact modAudio _ _ s
  · exact ⟨rfl, rfl, rfl⟩

theorem moveI2s (q : Nat) (on : Bool) (s : State) : SameReady p s (s.moveI2s q on) := by
  unfold State.moveI2s
  split
  · exact ⟨rfl, rfl, rfl⟩
  · split
    · exact ⟨rfl, rfl, rfl⟩
    · refine trans ?_ (cutLeft s.i2s.leaving _)
      exact ⟨rfl, rfl, rfl⟩

end SameReady

theorem State.modAudio_waiting (p : Nat) (f : Audio → Audio) (s : State) : (s.modAudio p f).waiting = s.waiting :=
  State.modSite_waiting p _ s

theorem State.moveI2s_waiting (p : Nat) (on : Bool) (s : State) : (s.moveI2s p on).waiting = s.waiting := by
  unfold State.moveI2s State.cutLeft
  split
  · rfl
  · split
    · rfl
    · split
      · split
        · rfl
        · exact State.modAudio_waiting _ _ _
      · rfl

/-- Settings of sound that land leave the queue alone, and the chain ready or not as it was. -/
theorem landWaiting_sound {w : Waiting} (hw : w.txn = none) (ho : w.opcode ∈ [0x0701, 0x0702]) (p : Nat) (s : State) :
    SameReady p s (State.landWaiting w s) ∧ (State.landWaiting w s).waiting = s.waiting := by
  have of : ∀ k, specOf w.opcode = some k → (∀ st, SameReady p s (s.fails w st)) →
      SameReady p s (k.land w.c w.cpl s).state → (k.land w.c w.cpl s).state.waiting = s.waiting →
      SameReady p s (State.landWaiting w s) ∧ (State.landWaiting w s).waiting = s.waiting := fun k hk hf hr hq => by
    cases ha : k.allows s w.c with
    | true =>
      rw [State.landWaiting_allowed hk hw ha, State.complete_waiting]
      exact ⟨hr.trans (.complete ..), hq⟩
    | false =>
      rw [State.landWaiting_refused hk ha]
      exact ⟨hf _, State.fails_waiting hw _ s⟩
  have failed : ∀ st, SameReady p s (s.fails w st) := fun st => by
    rcases List.mem_pair.mp ho with h | h <;> simp only [State.fails, State.finish_alone hw, h] <;> exact .complete ..
  rcases List.mem_pair.mp ho with h | h
  · exact of audioSetSpec (by rw [h]; rfl) failed (.modAudio _ _ s) (State.modAudio_waiting _ _ s)
  · exact of audioRouteSpec (by rw [h]; rfl) failed
      ((SameReady.moveI2s _ _ s).trans (.modAudio (targetOf w.c) (fun a => { a with nextRoutes := some (routesArg w.c) }) _))
      ((State.modAudio_waiting _ _ _).trans (State.moveI2s_waiting _ _ s))

theorem exec_audioBlock {s : State} {p : Nat} (h : s.chainReady p = true) : exec (.audioBlock p) s = .next (s.block p) :=
  if_pos h

/-- A block begins with what has landed. -/
theorem State.block_landed {s t : State} {p : Nat} (h : s.landParts (Waiting.atBlock p) s.waiting.length = t) (ht : t.waiting = []) :
    s.block p = t.block p := by
  unfold State.block
  rw [h, State.landParts_idle ht]

/-- A setting of sound that waits alone lands as the block begins (R289). -/
theorem audioBlock_lands {s : State} {w : Waiting} {p : Nat} (hs : s.waiting = [w]) (hw : w.txn = none) (hat : w.at_ = .audio p)
    (hd : w.epochDone = true) (ho : w.opcode ∈ [0x0701, 0x0702]) (hr : s.chainReady p = true) :
    exec (.audioBlock p) s = exec (.audioBlock p) (State.landWaiting w { s with waiting := [] }) := by
  obtain ⟨ready, queue⟩ := landWaiting_sound hw ho p { s with waiting := [] }
  rw [exec_audioBlock hr, exec_audioBlock (ready.chainReady.trans hr)]
  have stop : w.opcode ≠ 0x0308 := by rcases List.mem_pair.mp ho with h | h <;> simp [h]
  exact congrArg _ (State.block_landed (State.landParts_alone hs (by simp [Waiting.atBlock, hat, hd]) stop) queue)

/-! ### The harvester frame -/

/-- A change of a stream that leaves the frame in the encoder and the frame last taken alone. -/
structure StreamSt.Offers (f : StreamSt → StreamSt) : Prop where
  enc : ∀ t, (f t).enc = t.enc
  seen : ∀ t, (f t).seen = t.seen

theorem Table.all_put {α : Type} {f : Nat × α → Bool} {k : Nat} (h : ∀ v, f (k, v) = true) (v : α) :
    ∀ t : Table α, (Table.put t k v).all f = t.all f
  | [] => by simp [Table.put, h]
  | (j, u) :: t => by
    simp only [Table.put]
    split
    · simp [h]
    · split
      · next e => cases e; simp [h]
      · simp [Table.all_put h v t]

/-- The record of a pan with its stream changed. -/
def Site.onStream (f : StreamSt → StreamSt) (x : Site) : Site := { x with stream := x.stream.map f }

section
variable {f : StreamSt → StreamSt} (h : StreamSt.Offers f) (x : Site)
include h

theorem Site.onStream_offers : (x.onStream f).offers = x.offers := by
  cases e : x.stream <;> simp [Site.offers, Site.onStream, e, h.enc, h.seen, Site.repeats]

theorem Site.onStream_offerEnd : (x.onStream f).offerEnd = x.offerEnd := by
  cases e : x.stream <;> simp [Site.offerEnd, Site.onStream, e, h.seen]

end

theorem State.modStream_eq {s : State} {p : Nat} {x : Site} (h : s.site p = some x) (f : StreamSt → StreamSt) :
    s.modStream p f = s.putSite p (x.onStream f) := by
  simp only [State.modStream, State.modSite, h]
  rfl

/-- Such a change leaves the pan's frame on offer. -/
theorem State.harvestable_onStream {s : State} {p : Nat} {x : Site} {f : StreamSt → StreamSt} (h : StreamSt.Offers f)
    (hx : s.harvestable p = some x) : (s.putSite p (x.onStream f)).harvestable p = some (x.onStream f) := by
  simp only [State.harvestable, Option.ite_none_right_eq_some, Option.filter_eq_some_iff, Bool.and_eq_true] at hx ⊢
  obtain ⟨works, site, offers, free⟩ := hx
  refine ⟨works, State.site_putSite_same p _ s, by rw [Site.onStream_offers h, offers], ?_⟩
  simp only [State.harvesterFree, Site.onStream_offerEnd h] at free ⊢
  rw [← free]
  exact Table.all_put (by simp) _ s.sites

/-- Completions and events leave the frame on offer. -/
theorem State.harvestable_eventful {s t : State} (e : Eventful s t) (p : Nat) : t.harvestable p = s.harvestable p := by
  have works : t.works = s.works := by simp only [State.works, State.awake, State.fatal, e.dev, e.pwr]
  unfold State.harvestable State.site State.harvesterFree
  rw [works, e.sites]

theorem StreamSt.drain_offers (now : Nat) : StreamSt.Offers (StreamSt.drain now) := ⟨fun _ => rfl, fun _ => rfl⟩

/-- Buckets drained up to an instant are drained up to it. -/
theorem StreamSt.drain_drained {now : Nat} {t : StreamSt} (h : now ≤ t.bucketAt) : t.drain now = t := by
  have z : now - t.bucketAt = 0 := by omega
  have m : max now t.bucketAt = t.bucketAt := by omega
  simp [StreamSt.drain, z, m]

/-- A record put where it stands already. -/
theorem State.putSite_same {s : State} {p : Nat} {x : Site} {t : Table Site} (h : s.sites = Table.put t p x) : s.putSite p x = s := by
  simp only [State.putSite, h, Table.put_put]
  rw [← h]

/-- What a setting, request or report of a stream does to it as it lands (R267, R277, R278). -/
def streamChange (c : Packet) (now : Nat) (opcode : Nat) (t : StreamSt) : StreamSt :=
  if opcode = 0x0502 then { t.stage c with cfg := (t.stage c).staged }
  else if opcode = 0x0504 then { t with keyReqs := t.keyReqs ++ [now], keyReqCnt := (t.keyReqCnt + 1) % 2 ^ 32 }
  else { t with losses := t.losses ++ [(now, argOf c 12 4)] }

theorem streamChange_offers (c : Packet) (now op : Nat) : StreamSt.Offers (streamChange c now op) := by
  constructor <;> intro t <;> unfold streamChange <;> split_ifs <;> rfl

theorem streamChange_bucketAt (c : Packet) (now op : Nat) (t : StreamSt) : (streamChange c now op t).bucketAt = t.bucketAt := by
  unfold streamChange
  split_ifs <;> rfl

/-- One that lands on a pan with a stream changes the stream and completes. -/
theorem landWaiting_stream {w : Waiting} (hw : w.txn = none) (ho : w.opcode ∈ [0x0502, 0x0504, 0x0505]) {s : State} {x : Site}
    (hx : s.site (targetOf w.c) = some x) (hg : x.stream.isSome = true) : State.landWaiting w s =
      (s.putSite (targetOf w.c) (x.onStream (streamChange w.c s.now w.opcode))).complete w.c w.cpl w.opcode 0 [] := by
  have allowed : s.hasStream w.c = true := by simp [State.hasStream, State.panIs, hx, hg]
  rw [← State.modStream_eq hx]
  simp only [List.mem_cons, List.not_mem_nil, or_false] at ho
  rcases ho with h | h | h
  · rw [State.landWaiting_allowed (k := streamSetSpec) (by rw [h]; rfl) hw allowed, h]
    rfl
  · rw [State.landWaiting_allowed (k := streamKeySpec) (by rw [h]; rfl) hw allowed, h]
    rfl
  · rw [State.landWaiting_allowed (k := streamLossSpec) (by rw [h]; rfl) hw allowed, h]
    rfl

theorem exec_harvesterFrame {s : State} {p : Nat} (h : (s.harvestable p).isSome = true) :
    exec (.harvesterFrame p) s = .next (s.harvest p) := if_pos h

/-- A harvester frame begins with what has landed. -/
theorem State.harvest_landed {s t : State} {p : Nat}
    (h : State.landParts (Waiting.atHarvest p) s.waiting.length (s.modStream p (StreamSt.drain s.now)) = t)
    (ht : t.waiting = []) (hd : t.modStream p (StreamSt.drain t.now) = t) : s.harvest p = t.harvest p := by
  unfold State.harvest
  rw [h, hd, State.landParts_idle ht]

/-- A frame on offer is that of a pan with a stream. -/
theorem State.harvestable_site {s : State} {p : Nat} {x : Site} (h : s.harvestable p = some x) :
    s.site p = some x ∧ ∃ g, x.stream = some g := by
  simp only [State.harvestable, Option.ite_none_right_eq_some, Option.filter_eq_some_iff, Bool.and_eq_true, Site.offers,
    Option.any_eq_true] at h
  obtain ⟨-, site, ⟨g, hg, -⟩, -⟩ := h
  exact ⟨site, g, hg⟩

/-- What lands on a stream whose buckets are drained leaves its frame on offer, the queue as it stands, and nothing to drain. -/
theorem landWaiting_stream_ready {s : State} {w : Waiting} {p : Nat} {x : Site} {g : StreamSt} (hw : w.txn = none)
    (ho : w.opcode ∈ [0x0502, 0x0504, 0x0505]) (hp : targetOf w.c = p) (hx : s.harvestable p = some x) (hg : x.stream = some g)
    (hb : s.now ≤ g.bucketAt) :
    ((State.landWaiting w s).harvestable p).isSome = true ∧ (State.landWaiting w s).waiting = s.waiting ∧
      (State.landWaiting w s).modStream p (StreamSt.drain (State.landWaiting w s).now) = State.landWaiting w s := by
  let z := x.onStream (streamChange w.c s.now w.opcode)
  have landed : State.landWaiting w s = (s.putSite p z).complete w.c w.cpl w.opcode 0 [] := by
    subst hp
    exact landWaiting_stream hw ho (State.harvestable_site hx).1 (by simp [hg])
  have events := State.complete_eventful w.c w.cpl w.opcode 0 [] (s.putSite p z)
  rw [← landed] at events
  refine ⟨?_, events.waiting, ?_⟩
  · rw [State.harvestable_eventful events, State.harvestable_onStream (streamChange_offers ..) hx]
    rfl
  · have there : (State.landWaiting w s).site p = some z := by
      simp only [State.site, events.sites]
      exact State.site_putSite_same p z s
    have drained : z.onStream (StreamSt.drain (State.landWaiting w s).now) = z := by
      have now : (State.landWaiting w s).now = s.now := congrArg Timebase.time events.tb
      have b : s.now ≤ (streamChange w.c s.now w.opcode g).bucketAt := by rwa [streamChange_bucketAt]
      simp [z, Site.onStream, hg, now, StreamSt.drain_drained b]
    rw [State.modStream_eq there, drained]
    exact State.putSite_same events.sites

/-- A setting, request or report of a stream that waits alone lands as the frame begins (R267, R277, R278). -/
theorem harvesterFrame_lands {s : State} {w : Waiting} {p : Nat} (hs : s.waiting = [w]) (hw : w.txn = none)
    (hat : w.at_ = .harvester p) (hd : w.epochDone = true ∨ w.opcode ≠ 0x0502) (ho : w.opcode ∈ [0x0502, 0x0504, 0x0505])
    (hp : targetOf w.c = p) (hh : (s.harvestable p).isSome = true) : exec (.harvesterFrame p) s =
      exec (.harvesterFrame p) (State.landWaiting w (State.modStream p (StreamSt.drain s.now) { s with waiting := [] })) := by
  obtain ⟨x, hx⟩ := Option.isSome_iff_exists.mp hh
  obtain ⟨site, g, hg⟩ := State.harvestable_site hx
  let y := x.onStream (StreamSt.drain s.now)
  obtain ⟨offered, queue, drained⟩ := landWaiting_stream_ready (s := State.putSite p y { s with waiting := [] })
    (g := g.drain s.now) hw ho hp
    (State.harvestable_onStream (s := { s with waiting := [] }) (StreamSt.drain_offers _) hx) (by simp [Site.onStream, hg])
    (le_max_left _ _)
  have pick : Waiting.atHarvest p w = true := by
    simp only [List.mem_cons, List.not_mem_nil, or_false] at ho
    rcases ho with h | h | h <;> simp_all [Waiting.atHarvest, waitsEpoch]
  have stop : w.opcode ≠ 0x0308 := by
    intro h
    simp [h] at ho
  have lands : State.landParts (Waiting.atHarvest p) s.waiting.length (s.modStream p (StreamSt.drain s.now)) =
      State.landWaiting w (State.putSite p y { s with waiting := [] }) := by
    rw [State.modStream_eq site]
    exact State.landParts_alone (s := s.putSite p y) hs pick stop
  rw [State.modStream_eq (s := { s with waiting := [] }) site, exec_harvesterFrame hh, exec_harvesterFrame offered]
  exact congrArg _ (State.harvest_landed lands queue drained)

end Sys2Proof.Machine
end

section
/-!
SUPPORT. The vertical blank of a head (R260 to R265): what lands there does not look at the frame just completed, and the frame that
begins leaves settings and training alone.
-/
namespace Sys2Proof.Machine

@[simp] theorem vmod_get {α : Type} {n : Nat} (v : Vector α n) (i j : Fin n) (f : α → α) :
    (vmod v i f)[j] = if j = i then f v[j] else v[j] := by
  unfold vmod
  by_cases h : j = i
  · subst h; simp
  · have k : i.val ≠ j.val := fun e => h (Fin.ext e.symm)
    simp [h, Vector.getElem_set_ne, k]

/-! ### Heads alike in all but the frames they have sent -/

/-- A head that differs from another in nothing but its output CRC and its frame count (R265). -/
def Head.Like (a b : Head) : Prop := a = { b with crc := a.crc, frames := a.frames }

theorem Head.Like.refl (a : Head) : a.Like a := rfl

theorem Head.Like.eq {a b : Head} (h : a.Like b) : a = { b with crc := a.crc, frames := a.frames } := h

theorem Head.complete_like (k : Head) : k.complete.Like k := by
  unfold Head.complete
  split <;> rfl

theorem Head.Like.train {a b : Head} (h : a.Like b) : a.train.Like b.train := by
  rw [h.eq]
  unfold Head.train
  dsimp only
  split_ifs <;> rfl

/-- A device that differs from another in nothing but what its heads have sent. -/
def HeadsLike (s t : State) : Prop := ∃ v : Vector Head 2, t = s.aside id (fun _ => v) ∧ ∀ i : Fin 2, v[i].Like s.heads[i]

namespace HeadsLike

variable {s t : State}

theorem ring (h : HeadsLike s t) (k : Nat) : t.ring k = s.ring k := by
  obtain ⟨v, rfl, -⟩ := h
  rfl

theorem site (h : HeadsLike s t) (p : Nat) : t.site p = s.site p := by
  obtain ⟨v, rfl, -⟩ := h
  rfl

theorem host (h : HeadsLike s t) : t.host = s.host := by
  obtain ⟨v, rfl, -⟩ := h
  rfl

theorem waiting (h : HeadsLike s t) : t.waiting = s.waiting := by
  obtain ⟨v, rfl, -⟩ := h
  rfl

theorem head (h : HeadsLike s t) (i : Fin 2) : t.heads[i].Like s.heads[i] := by
  obtain ⟨v, rfl, hv⟩ := h
  exact hv i

theorem complete (h : HeadsLike s t) (c : Packet) (cpl op st : Nat) (res : List Byte) :
    HeadsLike (s.complete c cpl op st res) (t.complete c cpl op st res) := by
  obtain ⟨v, rfl, hv⟩ := h
  refine ⟨v, State.complete_aside .., ?_⟩
  rwa [(State.complete_eventful c cpl op st res s).heads]

theorem modHead (h : HeadsLike s t) (g : Fin 2) {f e : Head → Head} (hf : (e t.heads[g]).Like (f s.heads[g])) :
    HeadsLike (s.modHead g f) (t.modHead g e) := by
  obtain ⟨v, rfl, hv⟩ := h
  refine ⟨vmod v g e, rfl, fun i => ?_⟩
  simp only [State.modHead, vmod_get]
  split
  · next k => subst k; exact hf
  · exact hv i

/-- A frame completed. -/
theorem ofComplete (h : Fin 2) (s : State) : HeadsLike s (s.modHead h Head.complete) := by
  refine ⟨vmod s.heads h Head.complete, rfl, fun i => ?_⟩
  rw [vmod_get]
  split
  · exact Head.complete_like _
  · exact .refl _

end HeadsLike

/-! ### What lands at the blank -/

/-- Commands that wait for the vertical blank of a head (R260, R261). -/
def headCommands : List Nat := [0x0801, 0x0802, 0x0803]

theorem headTimingSpec_keepsQueue : headTimingSpec.KeepsQueue := fun c _ s => by
  change (s.landTiming c).state.waiting = _
  unfold State.landTiming
  simp only
  split <;> rfl

/-- Devices alike in all but what their heads have sent take a timing alike. -/
theorem HeadsLike.landTiming {s t : State} (h : HeadsLike s t) (c : Packet) : HeadsLike (s.landTiming c).state (t.landTiming c).state ∧
    (t.landTiming c).status = (s.landTiming c).status ∧ (t.landTiming c).result = (s.landTiming c).result := by
  have k : Head.Like ({ t.heads[headArg c] with cfg := t.heads[headArg c].cfg.setTiming c } : Head).train
      ({ s.heads[headArg c] with cfg := s.heads[headArg c].cfg.setTiming c } : Head).train := by
    refine Head.Like.train ?_
    rw [(h.head (headArg c)).eq]
    rfl
  unfold State.landTiming
  simp only
  generalize ({ s.heads[headArg c] with cfg := s.heads[headArg c].cfg.setTiming c } : Head).train = a at k ⊢
  generalize ({ t.heads[headArg c] with cfg := t.heads[headArg c].cfg.setTiming c } : Head).train = b at k ⊢
  have same : (b.trained && !linkFits b.cfg.pixelKHz b.lanes b.rate) = (a.trained && !linkFits a.cfg.pixelKHz a.lanes a.rate) := by
    rw [k.eq]
  rw [same]
  split
  · exact ⟨h, rfl, rfl⟩
  · refine ⟨h.modHead _ k, rfl, ?_⟩
    rw [k.eq]
    rfl

/-- Whatever lands at a blank leaves such devices alike, and the queue as it stands. -/
theorem landWaiting_headsLike {w : Waiting} (hw : w.txn = none) (ho : w.opcode ∈ headCommands) {s t : State} (h : HeadsLike s t) :
    HeadsLike (State.landWaiting w s) (State.landWaiting w t) ∧ (State.landWaiting w s).waiting = s.waiting := by
  have of : ∀ k : CmdSpec, specOf w.opcode = some k → k.allows t w.c = k.allows s w.c → k.KeepsQueue →
      HeadsLike (k.land w.c w.cpl s).state (k.land w.c w.cpl t).state ∧
        (k.land w.c w.cpl t).status = (k.land w.c w.cpl s).status ∧ (k.land w.c w.cpl t).result = (k.land w.c w.cpl s).result →
      HeadsLike (State.landWaiting w s) (State.landWaiting w t) ∧ (State.landWaiting w s).waiting = s.waiting := by
    intro k hk ha hq ⟨hl, hst, hres⟩
    refine ⟨?_, hq.landWaiting hk hw s⟩
    cases e : k.allows s w.c with
    | true =>
      rw [State.landWaiting_allowed hk hw e, State.landWaiting_allowed hk hw (ha.trans e), hst, hres]
      exact hl.complete ..
    | false =>
      rw [State.landWaiting_refused hk e, State.landWaiting_refused hk (ha.trans e)]
      simp only [headCommands, List.mem_cons, List.not_mem_nil, or_false] at ho
      rcases ho with o | o | o <;> simpa [State.fails, o, State.finish_alone hw] using h.complete ..
  simp only [headCommands, List.mem_cons, List.not_mem_nil, or_false] at ho
  rcases ho with o | o | o <;> rw [o] at of
  · exact of headTimingSpec rfl rfl headTimingSpec_keepsQueue (h.landTiming w.c)
  · refine of headLayoutSpec rfl rfl (fun _ _ _ => rfl) ⟨h.modHead _ ?_, rfl, rfl⟩
    rw [(h.head _).eq]
    rfl
  · refine of headTileSpec rfl ?_ (fun _ _ _ => rfl) ⟨h.modHead _ ?_, rfl, rfl⟩
    · exact congrArg (fun o => argOf w.c 14 2 == 0xFFFF || Option.isSome o) (h.site _)
    · rw [(h.head _).eq]
      split <;> rfl

/-! ### The frame that begins -/

/-- What a frame that begins leaves alone: the queue, rings, and the head's settings and training. -/
structure FrameStarts (h : Fin 2) (s t : State) : Prop where
  waiting : t.waiting = s.waiting
  rings : ∀ k, (t.ring k).isSome = (s.ring k).isSome
  cfg : t.heads[h].cfg = s.heads[h].cfg
  lanes : t.heads[h].lanes = s.heads[h].lanes
  trained : t.heads[h].trained = s.heads[h].trained

namespace FrameStarts

variable {h : Fin 2}

theorem refl (s : State) : FrameStarts h s s := ⟨rfl, fun _ => rfl, rfl, rfl, rfl⟩

theorem trans {a b c : State} (k : FrameStarts h a b) (l : FrameStarts h b c) : FrameStarts h a c :=
  ⟨l.waiting.trans k.waiting, fun n => (l.rings n).trans (k.rings n), l.cfg.trans k.cfg, l.lanes.trans k.lanes,
    l.trained.trans k.trained⟩

theorem modHead (f : Head → Head) (s : State) (hc : (f s.heads[h]).cfg = s.heads[h].cfg := by rfl)
    (hl : (f s.heads[h]).lanes = s.heads[h].lanes := by rfl) (ht : (f s.heads[h]).trained = s.heads[h].trained := by rfl) :
    FrameStarts h s (s.modHead h f) := by
  refine ⟨rfl, fun _ => rfl, ?_, ?_, ?_⟩ <;> simp only [State.modHead, vmod_get, if_true] <;> assumption

theorem ofEvents {s t : State} (e : Eventful s t) : FrameStarts h s t :=
  ⟨e.waiting, e.rings, by rw [e.heads], by rw [e.heads], by rw [e.heads]⟩

theorem takeTile (e : Nat × Nat × Byte) (s : State) : FrameStarts h s (State.takeTile h s e) := by
  unfold State.takeTile
  simp only
  split
  · exact refl s
  · next pic older _ =>
    split
    · exact modHead _ s
    · cases older with
      | nil => exact trans (modHead _ s) (ofEvents (State.post_eventful ..))
      | cons q l => exact trans (trans (modHead _ s) (ofEvents (State.post_eventful ..))) (modHead _ _)

theorem startFrame (s : State) : FrameStarts h s (s.startFrame h) := by
  unfold State.startFrame
  simp only
  split
  · refine List.foldlRecOn (motive := fun t => FrameStarts h s t) _ _ (modHead _ s) (fun t k e _ => k.trans (takeTile e t))
  · exact modHead _ s

end FrameStarts

/-- A head without tiles posts nothing as its frame begins. -/
theorem State.startFrame_host {h : Fin 2} {s : State} (hk : s.heads[h].cfg.tiles = []) : (s.startFrame h).host = s.host := by
  unfold State.startFrame
  simp only
  split
  · rw [hk]; rfl
  · rfl

/-- What a head shows after a vertical blank at which a command lands that waits alone. -/
theorem headVblank_lands {s : State} {w : Waiting} {h : Fin 2} (hs : s.waiting = [w]) (hw : w.txn = none) (hat : w.at_ = .headVb h)
    (ho : w.opcode ∈ headCommands) (hu : (s.headUp h && !s.pwr.d3hot && s.heads[h].hpd) = true) :
    ∃ t u, exec (.headVblank h) s = .next t ∧ HeadsLike (State.landWaiting w { s with waiting := [] }) u ∧ u.waiting = [] ∧
      FrameStarts h u t ∧ (u.heads[h].cfg.tiles = [] → t.host = u.host) := by
  let c := s.modHead h Head.complete
  have stop : w.opcode ≠ 0x0308 := by
    intro e
    simp [e, headCommands] at ho
  have lands : c.landParts (Waiting.atBlank h) c.waiting.length = State.landWaiting w { c with waiting := [] } :=
    State.landParts_alone (s := c) hs (by simp [Waiting.atBlank, hat, hw]) stop
  obtain ⟨like, queue⟩ := landWaiting_headsLike hw ho (HeadsLike.ofComplete h { s with waiting := [] })
  refine ⟨_, _, ?_, like, like.waiting.trans queue, .startFrame _, State.startFrame_host⟩
  change execHeadVblank h s = _
  simp only [execHeadVblank, hu, if_true]
  exact congrArg (fun v => Host.Outcome.next (State.startFrame h v)) lands

end Sys2Proof.Machine
end

section
/-!
SUPPORT. The end of a frame (R245, R409): a save copies the image as it stands and is answered, and a stop is met, or waits on.
-/
namespace Sys2Proof.Machine

/-! ### Saves -/

/-- Without a save waiting the end of a frame saves nothing. -/
theorem State.finishSaves_none {s : State} {p : Nat} (h : s.waiting.filter (Waiting.isSave p) = []) : s.finishSaves p = s := by
  have all : s.waiting.filter (fun w => !w.isSave p) = s.waiting := by
    simpa [List.filter_eq_nil_iff] using h
  unfold State.finishSaves
  split
  · rfl
  · rw [h, all]
    rfl

/-- A save that waits alone copies the image and completes. -/
theorem State.finishSaves_alone {s : State} {p : Nat} {x : Site} {w : Waiting} (hx : s.site p = some x) (hs : s.waiting = [w])
    (hw : w.txn = none) (hp : w.isSave p = true) : s.finishSaves p =
      (State.saveTo { frame := x.pan.frame, kpa := s.kpa, conf := s.conf, pan := x.pan } w.c { s with waiting := [] }).complete
        w.c w.cpl w.opcode stOk (x.pan.saveResult s.kpa s.conf) := by
  simp [State.finishSaves, hx, hs, hp, State.finish_alone hw]

theorem State.saveTo_eq (q : Snapshot) (c : Packet) (s : State) : s.saveTo q c =
    { s with
      made := { image := q.pan.saveImage q.kpa q.conf, pan := q.pan.plain } :: s.made
      host := if argOf c 28 1 = 0 then s.host.writeBytes (argOf c 20 8) (q.pan.saveImage q.kpa q.conf) else s.host
      dram := if argOf c 28 1 = 0 then s.dram else s.dram.writeBytes (argOf c 20 8) (q.pan.saveImage q.kpa q.conf) } := by
  have e : s.saveTo q c = { s.spaceWrite (argOf c 28 1) (argOf c 20 8) (q.pan.saveImage q.kpa q.conf) with
    made := { image := q.pan.saveImage q.kpa q.conf, pan := q.pan.plain } :: s.made } := rfl
  rw [e]
  unfold State.spaceWrite
  split_ifs <;> rfl

/-! ### Stops -/

theorem State.skipRecords_aside (f : List Waiting → List Waiting) (g : Vector Head 2 → Vector Head 2) (s : State) (p : Nat) :
    (s.aside f g).skipRecords p = (s.skipRecords p).aside f g := State.modSite_aside f g s p _

/-- A frame is settled whatever waits. -/
theorem State.settleFrame_aside (f : List Waiting → List Waiting) (g : Vector Head 2 → Vector Head 2) (s : State) (p : Nat) :
    (s.aside f g).settleFrame p = (s.settleFrame p).aside f g := by
  unfold State.settleFrame
  rw [State.site_aside]
  cases s.site p with
  | none => rfl
  | some x =>
    simp only
    split
    · simp only [State.now_aside, State.putSite_aside, State.post_aside, State.skipRecords_aside, apply_ite (State.aside f g)]
    · rfl

/-- The commands a frame end answers: a save, or a stop, of the pan. -/
theorem Waiting.onPan_of {w : Waiting} {p : Nat} (ho : targetsPan w.opcode = true) (hp : w.c.target.toNat = p) : w.onPan p = true := by
  simp [Waiting.onPan, ho, hp]

/-- A stop whose frame has not come waits on. -/
theorem State.stopsHere_waits {s : State} {p n : Nat} {x : Site} {e : Nat × Option Nat} (hx : s.site p = some x)
    (he : x.stopAt = some e) (hs : s.waiting.filter (Waiting.isSave p) = [])
    (h : ¬ (e.1 ≤ n ∧ (!x.realTime || e.2.all (fun t => decide (t < x.beginsAt x.pan.frameStart))) = true)) : s.stopsHere p n = s := by
  simp only [State.stopsHere, hx, he, State.finishSaves_none hs, h, if_false]

/-- A stop that waits alone, at the end of its frame. -/
theorem State.stopsHere_stops {s : State} {p n : Nat} {x : Site} {w : Waiting} {e : Nat × Option Nat} (hx : s.site p = some x)
    (he : x.stopAt = some e) (hs : s.waiting = [w]) (hw : w.txn = none) (ho : w.opcode = 0x0308) (hp : w.onPan p = true)
    (h : e.1 ≤ n ∧ (!x.realTime || e.2.all (fun t => decide (t < x.beginsAt x.pan.frameStart))) = true) : s.stopsHere p n =
      State.complete w.c w.cpl w.opcode stOk [] ((State.settleFrame p { s with waiting := [] }).idlePan p) := by
  have unsaved : s.finishSaves p = s := State.finishSaves_none (by simp [hs, Waiting.isSave, ho])
  have settled := State.settleFrame_aside (fun _ => []) id s p
  have queue : (s.settleFrame p).waiting = [w] :=
    (State.waiting_of_aside (h := State.settleFrame p) (fun f g => State.settleFrame_aside f g s p)).trans hs
  have bare : ({ s.settleFrame p with waiting := [] } : State) = State.settleFrame p { s with waiting := [] } := settled.symm
  simp only [State.stopsHere, hx, he, unsaved, h, and_self, if_true, queue]
  simp [ho, hp, bare, State.finish_alone hw]

end Sys2Proof.Machine
end

section
/-!
The boundaries (R4, R106, R213, R245, R251, R261, R267, R289, R360, R407, R409): one theorem for each kind of boundary, and the statement
from them.
-/
namespace Sys2Proof.Machine

/-! ### At the epoch -/

/-- One command waits, by itself, and has met no epoch yet. -/
structure WaitsAlone (s : State) (w : Waiting) : Prop where
  counting : s.tb.counting = true
  commits : s.commits = []
  queue : s.waiting = [w]
  txn : w.txn = none
  fresh : w.epochDone = false

theorem WaitsAlone.of {s : State} {w : Waiting}
    (h : (s.tb.counting && s.commits.isEmpty && decide (s.waiting = [w]) && w.txn.isNone && !w.epochDone) = true) : WaitsAlone s w := by
  simp only [Bool.and_eq_true, List.isEmpty_iff, decide_eq_true_eq, Option.isNone_iff_eq_none, Bool.not_eq_true'] at h
  obtain ⟨⟨⟨⟨hc, hm⟩, hq⟩, ht⟩, hf⟩ := h
  exact ⟨hc, hm, hq, ht, hf⟩

/-- Without a command waiting an epoch moves time and nothing else. -/
theorem deviceEpoch_empty {s : State} (hc : s.tb.counting = true) (hq : s.waiting = []) (hm : s.commits = []) :
    Completes .deviceEpoch s (fun t => t = { s.enterEpoch with waiting := [] }) := by
  have e : s.epoch = s.enterEpoch := by rw [State.epoch_eq hm, hq]; rfl
  have bare : ({ s.enterEpoch with waiting := [] } : State) = s.enterEpoch := by rw [← hq]; rfl
  rw [bare, ← e]
  exact completes_deviceEpoch hc

section
variable {s : State} {w : Waiting} (a : WaitsAlone s w)
include a

/-- One accepted later waits on. -/
theorem WaitsAlone.later (h : s.nextEpoch ≤ w.accepted) : Completes .deviceEpoch s (fun t => t = { s.enterEpoch with waiting := [w] }) := by
  have late : w.meets s.nextEpoch = false := by simp [Waiting.meets_eq, h]
  have e : s.epoch = s.enterEpoch := by rw [State.epoch_eq a.commits, State.epochLandings_later (s := s.enterEpoch) a.queue late]
  have bare : ({ s.enterEpoch with waiting := [w] } : State) = s.enterEpoch := by rw [← a.queue]; rfl
  rw [bare, ← e]
  exact completes_deviceEpoch a.counting

variable (h : w.accepted < s.nextEpoch) (hb : w.at_.meetsEpoch = true)
include h hb

/-- One accepted before the epoch meets it. -/
theorem WaitsAlone.meets : Completes .deviceEpoch s (fun t => t = s.enterEpoch.meetEpoch s.nextEpoch w) := by
  have m : w.meets s.nextEpoch = true := by simp [Waiting.meets_eq, h, a.fresh, hb]
  rw [← State.epoch_alone a.commits a.queue m]
  exact completes_deviceEpoch a.counting

/-- One that waits for nothing later lands at the epoch. -/
theorem WaitsAlone.lands (hl : s.enterEpoch.landsAtEpoch w = true) (ho : w.opcode ≠ 0x0308) :
    Completes .deviceEpoch s (fun t => t = State.landWaiting w { s.enterEpoch with waiting := [] }) := by
  have e := State.meetEpoch_lands (e := s.nextEpoch) hl ho
  rw [show s.enterEpoch.waiting = [w] from a.queue, List.erase_cons_head] at e
  rw [← e]
  exact a.meets h hb

/-- One that waits for a later boundary has met its epoch, and waits on. -/
theorem WaitsAlone.passes (hl : s.enterEpoch.landsAtEpoch w = false) (ho : w.opcode ≠ 0x0502) :
    Completes .deviceEpoch s (fun t => t = { s.enterEpoch with waiting := [w.met s.nextEpoch] }) := by
  rw [← State.meetEpoch_passes hl ho a.queue]
  exact a.meets h hb

end

/-- Commands that wait for the epoch are not stops. -/
theorem epochCommands_ne_stop {n : Nat} (h : n ∈ epochCommands) : n ≠ 0x0308 := by
  rintro rfl
  exact absurd h (by decide)

/-- Of two commands that wait for the epoch the one accepted first lands first. -/
theorem deviceEpoch_inOrder {s : State} {w b : Waiting} (hc : s.tb.counting = true) (hm : s.commits = []) (hs : s.waiting = [w, b])
    (wt : w.txn = none) (wf : w.epochDone = false) (bf : b.epochDone = false) (wa : w.at_ = .epoch) (wo : w.opcode ∈ epochCommands)
    (ba : b.at_ = .epoch) (bo : b.opcode ∈ epochCommands) (wl : w.accepted < s.nextEpoch) (bl : b.accepted < s.nextEpoch) :
    Completes .deviceEpoch s (fun t => t =
      State.landWaiting b { State.landWaiting w { s.enterEpoch with waiting := [b] } with waiting := [] }) := by
  let u := State.landWaiting w { s.enterEpoch with waiting := [b] }
  have queue : u.waiting = [b] := State.landWaiting_waiting wo wt _
  have first : s.enterEpoch.meetEpoch s.nextEpoch w = u := by
    rw [State.meetEpoch_lands (by simp [State.landsAtEpoch, wa]) (epochCommands_ne_stop wo),
      show s.enterEpoch.waiting = [w, b] from hs, List.erase_cons_head]
  have second : u.meetEpoch s.nextEpoch b = State.landWaiting b { u with waiting := [] } := by
    rw [State.meetEpoch_lands (by simp [State.landsAtEpoch, ba]) (epochCommands_ne_stop bo), queue, List.erase_cons_head]
  have both : s.epoch = State.landWaiting b { u with waiting := [] } := by
    have m : ∀ {v : Waiting}, v.accepted < s.nextEpoch → v.epochDone = false → v.at_ = .epoch → v.meets s.nextEpoch = true :=
      fun l f e => by simp [Waiting.meets_eq, l, f, e, Boundary.meetsEpoch]
    rw [State.epoch_eq hm, hs, show [w, b].length = 0 + 1 + 1 from rfl, State.epochLandings_cons (s := s.enterEpoch) hs (m wl wf wa), first,
      State.epochLandings_cons queue (m bl bf ba), second]
    rfl
  rw [← both]
  exact completes_deviceEpoch hc

/-- Whether a setting of the observation lands at the epoch (R251, R360). -/
theorem State.landsAtEpoch_obs {s : State} {w : Waiting} {p : Nat} {x : Site} (hx : s.site p = some x) (hat : w.at_ = .latch p)
    (ho : w.opcode = 0x0311) : s.landsAtEpoch w = true ↔ x.running = false ∨ x.parked = true ∨ x.waitObs = true := by
  simp only [State.landsAtEpoch, hat, State.needsNoLatch, ho, State.still, hx, Option.any_some]
  cases x.running <;> cases x.parked <;> simp

/-- Whether a change of mode lands at the epoch (R196, R360). -/
theorem State.landsAtEpoch_mode {s : State} {w : Waiting} {p : Nat} {x : Site} (hx : s.site p = some x) (hat : w.at_ = .latch p)
    (ho : w.opcode = 0x0305) (ht : w.txn = none) : s.landsAtEpoch w = true ↔ x.running = true ∧ x.parked = true := by
  simp [State.landsAtEpoch, hat, State.needsNoLatch, ho, ht, hx]

/-- A command lands at the epoch where a condition holds, and goes on to its later boundary where it does not. -/
theorem WaitsAlone.landsIf {s : State} {w : Waiting} (a : WaitsAlone s w) (h : w.accepted < s.nextEpoch)
    (hb : w.at_.meetsEpoch = true) (ho : w.opcode ≠ 0x0308) (ho2 : w.opcode ≠ 0x0502) {c : Prop} [Decidable c]
    (hl : s.enterEpoch.landsAtEpoch w = true ↔ c) :
    Completes .deviceEpoch s (fun t => t = if c then State.landWaiting w { s.enterEpoch with waiting := [] }
      else { s.enterEpoch with waiting := [w.met s.nextEpoch] }) := by
  by_cases k : c
  · simp only [if_pos k]
    exact a.lands h hb (hl.mpr k) ho
  · simp only [if_neg k]
    exact a.passes h hb (by rwa [← Bool.not_eq_true, hl]) ho2

/-! ### The statement -/

/-- Settles O57: an epoch is its commands' landings in the order of acceptance; each later boundary is the step of its unit on the device
with the command landed; and the end of a frame answers a save, then a stop. -/
theorem boundariesLand : Obligations.BoundariesLand := by
  unfold Obligations.BoundariesLand
  intro s w e u bare alone atEpoch
  refine ⟨s.nextEpoch_spec, fun hc hq hm => deviceEpoch_empty hc hq hm, ?_, fun h => (WaitsAlone.of h).later, ?_, ?_, ?_, ?_, ?_, ?_, ?_,
    ?_, ?_, ?_, ?_, ?_, ?_⟩
  -- the device epoch
  · intro ha hw hl
    simp only [atEpoch, Bool.and_eq_true, decide_eq_true_eq] at hw
    obtain ⟨at_, op⟩ := hw
    exact (WaitsAlone.of ha).lands hl (by rw [at_]; rfl) (by simp [State.landsAtEpoch, at_]) (epochCommands_ne_stop op)
  · intro b hc hm hs wt _ wf bf hw hb wl bl _
    simp only [atEpoch, Bool.and_eq_true, decide_eq_true_eq] at hw hb
    exact deviceEpoch_inOrder hc hm hs wt wf bf hw.1 hw.2 hb.1 hb.2 wl bl
  -- settings of a pan's latch, of sound, of a head and of a stream, as they meet the epoch
  · intro p x ha at_ hl op hx
    exact (WaitsAlone.of ha).landsIf hl (by rw [at_]; rfl) (by simp [op]) (by simp [op]) (State.landsAtEpoch_obs hx at_ op)
  · intro p x ha at_ hl op hx
    have a := WaitsAlone.of ha
    exact a.landsIf hl (by rw [at_]; rfl) (by simp [op]) (by simp [op]) (State.landsAtEpoch_mode hx at_ op a.txn)
  · intro p ha at_ hl op
    exact (WaitsAlone.of ha).passes hl (by rw [at_]; rfl) (by simp [State.landsAtEpoch, at_]) (by rintro h; simp [h] at op)
  · intro h ha at_ hl op
    exact (WaitsAlone.of ha).passes hl (by rw [at_]; rfl) (by simp [State.landsAtEpoch, at_]) (by rintro h; simp [h] at op)
  · intro p ha at_ hl op
    have other : w.opcode ≠ 0x0502 := by
      rintro h
      simp [h] at op
    exact (WaitsAlone.of ha).passes hl (by rw [at_]; rfl) (by simp [State.landsAtEpoch, at_, other]) other
  -- the frame latch, the audio block, the harvester frame and the vertical blank
  · intro p x t hs _ at_ hd op hx hout _ _ hl ht hy
    exact ⟨_, frameLatch_lands hs at_ hd op hx hout hl ht hy, rfl⟩
  · intro p hs wt at_ hd op _ hr
    exact audioBlock_lands hs wt at_ hd op hr
  · intro p hs wt at_ hd op hp hh
    exact harvesterFrame_lands hs wt at_ hd op hp hh
  · intro h hs wt at_ op up awake hpd
    obtain ⟨t, v, run, like, queue, starts, posts⟩ := headVblank_lands hs wt at_ op (by rw [up, awake, hpd]; rfl)
    have k := (like.head h).eq
    refine ⟨t, run, starts.waiting.trans queue, fun n => ?_, starts.cfg.trans ?_, starts.lanes.trans ?_, starts.trained.trans ?_,
      fun no => (posts ?_).trans like.host⟩
    · rw [starts.rings, like.ring]
    · rw [k]
    · rw [k]
    · rw [k]
    · rw [k]; exact no
  -- the end of a frame
  · intro p n x hs wt op hp hx he
    have save : w.isSave p = true := by simp [Waiting.isSave, op, Waiting.onPan_of (by rw [op]; rfl) hp]
    rw [show s.stopsHere p n = s.finishSaves p by simp only [State.stopsHere, hx, he], State.finishSaves_alone hx hs wt save,
      State.saveTo_eq, op]
    exact answered_complete ..
  · intro p n x k v hs _ op _ hx he h
    refine State.stopsHere_waits hx he (by simp [hs, Waiting.isSave, op]) (fun hstop => ?_)
    obtain ⟨hk, hv⟩ := hstop
    rcases h with h | ⟨rt, t, rfl, ht⟩
    · exact absurd hk (Nat.not_le.mpr h)
    · simp [rt] at hv
      omega
  · intro p n x k v hs wt op hp hx he hk hv
    rw [State.stopsHere_stops hx he hs wt op (Waiting.onPan_of (by rw [op]; rfl) hp) ⟨hk, ?_⟩, op]
    · exact answered_complete ..
    · cases rt : x.realTime with
      | false => rfl
      | true => simpa [Option.all_eq_true] using hv rt

end Sys2Proof.Machine
end

section
/-!
SUPPORT. Runs on boilers (R13, R190, R191, R194): which pans stay as device time moves up and runs end, what the start of a burst or of
a free-run run leaves, and what the end of a burst makes of its frame.
-/
namespace Sys2Proof.Machine

/-! ### Records -/

theorem SiteThat.putSite {s : State} {p : Nat} {x : Site} {q : Site → Prop} (h : q x) : SiteThat (s.putSite p x) p q :=
  ⟨x, State.site_putSite_same p x s, h⟩

theorem State.modSite_eq {s : State} {p : Nat} {x : Site} (h : s.site p = some x) (f : Site → Site) :
    s.modSite p f = s.putSite p (f x) := by
  simp only [State.modSite, h]

theorem Table.get_map {α β : Type} (f : α → β) (k : Nat) :
    ∀ t : Table α, Table.get (t.map fun e => (e.1, f e.2)) k = (Table.get t k).map f
  | [] => rfl
  | c :: t => by
    simp only [List.map_cons, Table.get, Table.get_map f k t]
    split <;> rfl

/-- An event posted leaves the pans' records alone. -/
theorem State.site_post (code : Nat) (pan : Option Nat) (flags : Byte) (data : List Byte) (s : State) (p : Nat) :
    (s.post code pan flags data).site p = s.site p := by
  rw [State.site, (State.post_eventful code pan flags data s).sites, State.site]

/-! ### Device time moves up and runs end (R13) -/

/-- A record once the runs over by now have ended. -/
def State.runEnded (s : State) (x : Site) : Site := if s.runDone x then { x with boiler := none } else x

theorem State.site_endRuns (p : Nat) (s : State) : s.endRuns.site p = (s.site p).map s.runEnded :=
  Table.get_map s.runEnded p s.sites

/-- A pan on no boiler stands as it was when runs end. -/
theorem State.site_endRuns_waiting {s : State} {p : Nat} {x : Site} (h : s.site p = some x) (hb : x.boiler = none) :
    s.endRuns.site p = some x := by
  rw [State.site_endRuns, h]
  simp [State.runEnded, State.runDone, hb]

theorem Timebase.moveTo_past {b : Timebase} {t : Nat} (h : t ≤ b.time) : (b.moveTo t).time = b.time := max_eq_left h

theorem State.boilerFree_of_anyBoiler {s : State} {bay : Fin 8} {k : Fin 4} (h : s.anyBoiler bay = some k) : s.boilerFree bay k = true :=
  List.find?_some (p := s.boilerFree bay) h

/-! ### Starts (R190, R194) -/

/-- A new burst's cutoff is its start; one that was interrupted keeps its own. -/
theorem Site.takeBurst_eq (k : Fin 4) (now : Nat) (x : Site) : x.takeBurst k now =
    { x with boiler := some k, runStart := now, burst := true, cutoff := if x.burst then x.cutoff else now } := by
  unfold Site.takeBurst
  split
  · next h => rw [← h]
  · rfl

/-- The first burst in order starts on a free boiler once its instant and the delay have come. -/
theorem State.startBurst_eq {s : State} {p : Nat} {x : Site} {k : Fin 4} {delay : Nat} (hx : s.site p = some x)
    (he : s.engines = true) (hs : x.slot.isSome = true) (hw : x.wantsBurst = true)
    (hk : (s.reach (s.burstFrom x + delay)).endRuns.boilerFree x.bay k = true)
    (hf : s.burstFirst p x (max s.tb.time (s.burstFrom x + delay)) = true) : s.startBurst p k delay =
      (s.reach (s.burstFrom x + delay)).endRuns.putSite p (x.takeBurst k (max s.tb.time (s.burstFrom x + delay))) := by
  have now : (s.reach (s.burstFrom x + delay)).endRuns.now = max s.tb.time (s.burstFrom x + delay) := rfl
  simp only [State.startBurst, hx, now, he, hs, hw, hk, hf, Bool.and_self, if_true]

/-- The free-run pan whose turn it is starts on a free boiler where no burst is due, and is the last one started. -/
theorem State.startFree_eq {s t : State} {p : Nat} {x : Site} {k : Fin 4} {delay : Nat}
    (ht : (s.reach (s.tb.time + delay)).endRuns = t) (hx : t.site p = some x) (he : s.engines = true)
    (hk : t.boilerFree x.bay k = true) (hn : t.freeNext x.bay = some p) (hd : t.burstDue x.bay (s.tb.time + delay) = false) :
    s.startFree p k delay = { t.putSite p { x with boiler := some k, runStart := s.tb.time + delay } with
      rrFree := vmod s.rrFree x.bay (fun _ => p) } := by
  have moved : (s.reach (s.now + delay)).endRuns = t := ht
  have now : t.now = s.tb.time + delay := by
    rw [← ht]
    exact max_eq_right (Nat.le_add_right _ _)
  have runs : t.engines = true := by rwa [← ht]
  simp only [State.startFree, moved, hx, now, runs, hk, hn, hd, beq_self_eq_true, Bool.not_false, Bool.and_self, if_true]

/-- A held start goes on by itself where a boiler is free once its delay is over (R384). -/
theorem exec_governorStartDelay {s : State} {p : Nat} {x : Site} {k : Fin 4} (hx : s.site p = some x)
    (hk : (s.reach ((if x.realTime then s.burstFrom x else s.tb.time) + 32000)).endRuns.anyBoiler x.bay = some k) :
    exec (.governorStartDelay p) s = .next (if x.realTime then s.startBurst p k 32000 else s.startFree p k 32000) := by
  change execGovernorStartDelay p s = _
  have found : (s.reach ((if x.realTime then s.burstFrom x else s.now) + 2 * Config.usUnits)).endRuns.anyBoiler x.bay = some k := hk
  simp only [execGovernorStartDelay, hx, found]
  rfl

/-! ### The frame of a burst that ends (R191) -/

/-- With no records owed none are skipped. -/
theorem State.site_skipRecords {s : State} {p : Nat} {x : Site} (hx : s.site p = some x) (hq : x.obsQ = []) :
    (s.skipRecords p).site p = some x := by
  have kept : ({ x with obsQ := [] } : Site) = x := by rw [← hq]
  rw [State.skipRecords, State.modSite_eq hx, State.site_putSite_same]
  split
  · rw [kept]
  · simpa [hq, sortFrames] using kept

/-- With no frame to judge nothing is settled. -/
theorem State.settleFrame_none {s : State} {p : Nat} {x : Site} (hx : s.site p = some x) (hf : x.newFrame = none) :
    s.settleFrame p = s := by
  simp [State.settleFrame, hx, hf]

/-- A frame that ended after its E is counted as late, and the last whole frame stands. -/
theorem State.settleFrame_late {s : State} {p e : Nat} {x : Site} {f : Picture} (hx : s.site p = some x) (he : x.endedE = some e)
    (hf : x.newFrame = some f) (hq : x.obsQ = []) (h : e < s.tb.time) : SiteThat (s.settleFrame p) p (fun y =>
      y.lastFrame = x.lastFrame ∧ y.ctr = { x.ctr with late := x.ctr.late + 1 } ∧ y.pan = x.pan) := by
  have late : e < s.now := h
  simp only [State.settleFrame, hx, he, hf, late, if_true]
  refine ⟨_, State.site_skipRecords ((State.site_post ..).trans (State.site_putSite_same ..)) ?_, rfl, rfl, rfl⟩
  simp [hq]

/-- A frame in time is the newest whole frame. -/
theorem State.settleFrame_inTime {s : State} {p e : Nat} {x : Site} {f : Picture} (hx : s.site p = some x) (he : x.endedE = some e)
    (hf : x.newFrame = some f) (hq : x.obsQ = []) (h : s.tb.time ≤ e) : SiteThat (s.settleFrame p) p (fun y =>
      y.lastFrame = some f ∧ y.prevFrame = x.lastFrame ∧ y.ctr = x.ctr ∧ y.pan = x.pan) := by
  have inTime : ¬ e < s.now := Nat.not_lt.mpr h
  simp only [State.settleFrame, hx, he, hf, inTime, if_false]
  exact ⟨_, State.site_skipRecords (State.site_putSite_same ..) hq, rfl, rfl, rfl, rfl⟩

/-! ### Ends -/

/-- A burst over: the pan is on no boiler, and no frame of it waits to be judged. -/
def Site.burstOver (x : Site) : Site := { x with burst := false, boiler := none, endedE := none, newFrame := none }

theorem exec_burstEnd {s : State} {p e : Nat} {x : Site} (hx : s.site p = some x) (rt : x.realTime = true) (hb : x.burst = true)
    (he : x.endedE = some e) : exec (.burstEnd p) s = .next ((s.settleFrame p).modSite p Site.burstOver) := by
  change execBurstEnd p s = _
  simp only [execBurstEnd, hx, rt, hb, he, Option.isSome_some, Bool.and_self, if_true]
  rfl

/-- A run ends at once where the pan cannot go on, else with its 20 µs (R194). -/
theorem exec_freeRunEnd {s : State} {p : Nat} {x : Site} (hx : s.site p = some x) (fr : x.freeRun = true)
    (hb : x.boiler.isSome = true) : exec (.freeRunEnd p) s =
      .next ((if x.runOver s.dev.batch then s else s.reach (x.runStart + 320000)).putSite p { x with boiler := none }) := by
  change execFreeRunEnd p s = _
  simp only [execFreeRunEnd, hx, fr, hb, Bool.and_self, if_true]
  rfl

theorem exec_freeRunWaitEnd {s : State} {p : Nat} {x : Site} (hx : s.site p = some x) (hw : x.waitObs = true)
    (ha : s.accepts x = true) : exec (.freeRunWaitEnd p) s = .next (s.putSite p { x with waitObs := false }) := by
  change execFreeRunWaitEnd p s = _
  simp only [execFreeRunWaitEnd, hx, hw, ha, Bool.and_self, if_true]

end Sys2Proof.Machine
end

section
/-!
The runs of a bay's boilers (R13, R15, R190, R191, R194, R384): the statement, from what each start and each end leaves.
-/
namespace Sys2Proof.Machine

/-- Settles O35: a start is the record put on the device with its time moved up and the runs over by then ended; an end settles the
burst's frame, or lets the run have its 20 µs, and takes the pan off its boiler. -/
theorem runsOnBoilers : Obligations.RunsOnBoilers := by
  unfold Obligations.RunsOnBoilers
  intro s p x from_ at_
  refine ⟨?_, ?_, ?_, ?_, ?_, ?_, ?_, ?_, ?_, ?_⟩
  -- a burst starts, at its instant or after the governor's delay
  · intro k hx he hs hw hk hf
    have started := State.startBurst_eq (delay := 0) hx he hs hw hk hf
    exact ⟨_, congrArg Host.Outcome.next started, rfl, .putSite (Site.takeBurst_eq ..)⟩
  · intro k hx he rt hs hw hk hf
    have started := State.startBurst_eq (delay := 32000) hx he hs hw (State.boilerFree_of_anyBoiler hk) hf
    have released := exec_governorStartDelay hx (by rw [if_pos rt]; exact hk)
    rw [if_pos rt, started] at released
    exact ⟨_, released, rfl, .putSite (Site.takeBurst_eq ..)⟩
  -- a free-run run starts after the governor's delay
  · intro k hx he rt hb hk hn hd
    have started := State.startFree_eq rfl (State.site_endRuns_waiting hx hb) he (State.boilerFree_of_anyBoiler hk) hn hd
    have released := exec_governorStartDelay (k := k) hx (by simpa [rt] using hk)
    rw [rt, if_neg Bool.false_ne_true, started] at released
    exact ⟨_, released, rfl, (vmod_get ..).trans (if_pos rfl), ⟨_, Table.get_put_same .., rfl⟩⟩
  -- a burst ends with no frame to judge, with a late one, with one in time
  · intro e hx rt hb he hf
    have ended := exec_burstEnd hx rt hb he
    rw [State.settleFrame_none hx hf, State.modSite_eq hx] at ended
    exact ⟨_, ended, rfl, .putSite (by rw [Site.burstOver, hf])⟩
  · intro e f hx rt hb he hf hq late
    obtain ⟨z, hz, last, ctr, pan⟩ := State.settleFrame_late hx he hf hq late
    have ended := exec_burstEnd hx rt hb he
    rw [State.modSite_eq hz] at ended
    exact ⟨_, ended, .putSite ⟨rfl, rfl, rfl, rfl, last, ctr, pan⟩⟩
  · intro e f hx rt hb he hf hq inTime
    obtain ⟨z, hz, last, prev, ctr, pan⟩ := State.settleFrame_inTime hx he hf hq inTime
    have ended := exec_burstEnd hx rt hb he
    rw [State.modSite_eq hz] at ended
    exact ⟨_, ended, .putSite ⟨rfl, rfl, rfl, rfl, last, prev, ctr, pan⟩⟩
  -- a free-run run starts, and ends with its 20 µs or at once
  · intro k hx he hk hn hd
    have started := State.startFree_eq (delay := 0) rfl hx he hk hn hd
    exact ⟨_, congrArg Host.Outcome.next started, Timebase.moveTo_past le_rfl, (vmod_get ..).trans (if_pos rfl),
      ⟨_, Table.get_put_same .., rfl⟩⟩
  · intro hx fr hb hc hr
    have on : x.runOver s.dev.batch = false := by simpa [Site.runOver, hc] using hr
    have ended := exec_freeRunEnd hx fr hb
    rw [on, if_neg Bool.false_ne_true] at ended
    exact ⟨_, ended, rfl, .putSite rfl⟩
  · intro hx fr hb h
    have finished : x.runOver s.dev.batch = true := by simpa [Site.runOver] using h
    have ended := exec_freeRunEnd hx fr hb
    rw [if_pos finished] at ended
    exact ⟨_, ended, rfl, .putSite rfl⟩
  -- a wait for records ends
  · intro hx hw ha
    exact ⟨_, exec_freeRunWaitEnd hx hw ha, rfl, .putSite rfl⟩

end Sys2Proof.Machine
end

section
/-!
SUPPORT. The flags and results of the arithmetic and logic instructions (R25, R33, R34) in the terms the statements use.
-/
namespace Sys2Proof.Machine

/-! ### Flags of a result -/

theorem setNZ_eq (f r : Byte) : setNZ f r = flagsOf f r := by
  simp only [setNZ, flagsOf, withFlags, List.foldl, BitVec.msb_eq_getLsbD_last]
  rfl

theorem setNZ16_eq (f : Byte) (r : Word) : setNZ16 f r = flagsOf16 f r := by
  simp only [setNZ16, flagsOf16, withFlags, List.foldl, BitVec.msb_eq_getLsbD_last]
  rfl

/-! ### Sums and differences -/

theorem addByte_eq (a m : Byte) (ci : Bool) : addByte a m ci = sumOf a m ci.toNat := by
  apply BitVec.eq_of_toNat_eq
  cases ci <;> simp [addByte, sumOf]

theorem subByte_eq (a m : Byte) (b : Bool) : subByte a m b = differenceOf a m b.toNat := by
  have ha := a.isLt
  have hm := m.isLt
  apply BitVec.eq_of_toNat_eq
  cases b <;> simp [subByte, differenceOf, BitVec.toNat_ofInt] <;> omega

/-- A byte as a signed number. -/
theorem toInt_byte (b : Byte) : b.toInt = if b.msb then (b.toNat : Int) - 256 else b.toNat := by
  rw [BitVec.toInt_eq_msb_cond]
  norm_num

theorem msb_byte (b : Byte) : b.msb = decide (128 ≤ b.toNat) := BitVec.msb_eq_decide b

theorem sumOf_toNat (a m : Byte) (k : Nat) : (sumOf a m k).toNat = (a.toNat + m.toNat + k) % 256 := rfl

theorem differenceOf_toNat (a m : Byte) (b : Bool) : (differenceOf a m b.toNat).toNat = (a.toNat + 512 - m.toNat - b.toNat) % 256 := by
  have := Bool.toNat_le b
  rw [differenceOf, BitVec.toNat_ofInt]
  omega

/-- A sum overflows where its operands have one sign and it has the other. -/
theorem sumOf_overflows (a m : Byte) (ci : Bool) : (a.msb == m.msb && (sumOf a m ci.toNat).msb != a.msb) =
    decide (a.toInt + m.toInt + (ci.toNat : Nat) < -128 ∨ 127 < a.toInt + m.toInt + (ci.toNat : Nat)) := by
  have := Bool.toNat_le ci
  rw [toInt_byte, toInt_byte, msb_byte a, msb_byte m, msb_byte (sumOf a m ci.toNat), sumOf_toNat, Bool.eq_iff_iff]
  simp
  omega

/-- A difference overflows where its operands have different signs and it has not the first one's. -/
theorem differenceOf_overflows (a m : Byte) (b : Bool) : (a.msb != m.msb && (differenceOf a m b.toNat).msb != a.msb) =
    decide (a.toInt - m.toInt - (b.toNat : Nat) < -128 ∨ 127 < a.toInt - m.toInt - (b.toNat : Nat)) := by
  have := Bool.toNat_le b
  rw [toInt_byte, toInt_byte, msb_byte a, msb_byte m, msb_byte (differenceOf a m b.toNat), differenceOf_toNat, Bool.eq_iff_iff]
  simp
  omega

theorem addFlags_eq (f a m : Byte) (ci : Bool) : addFlags f a m ci = flagsOfSum f a m ci.toNat := by
  have k : (if ci then 1 else 0 : Nat) = ci.toNat := by cases ci <;> rfl
  simp only [addFlags, setNZ_eq, addByte_eq, k, sumOf_overflows]
  rfl

theorem subFlags_eq (f a m : Byte) (b : Bool) : subFlags f a m b = flagsOfDifference f a m b.toNat := by
  have k : (if b then 1 else 0 : Nat) = b.toNat := by cases b <;> rfl
  simp only [subFlags, setNZ_eq, subByte_eq, k, differenceOf_overflows]
  rfl

theorem toNat_not (b : Bool) : (!b).toNat = 1 - b.toNat := by cases b <;> rfl

end Sys2Proof.Machine
end

section
/-!
SUPPORT. What each group of register operations leaves (R33, R34), and how a row of a shape of R28 takes on a statement's own words for it.
-/
namespace Sys2Proof.Machine

/-! ### The shapes with a register operation that is only equal to the model's -/

theorem loadsByte_as {i : Instr} {p : Nat} {o : Op} {m : Mode} {f g : Byte → Cpu → Cpu} (e : ∀ s, exec i s = s.instruct p o m)
    (a : o.action = .load g) (h : ∀ v c, g v c = f v c) : LoadsByte i p o m f := by
  obtain rfl : g = f := funext₂ h
  exact loadsByte e a

theorem loadsWord_as {i : Instr} {p : Nat} {o : Op} {m : Mode} {f g : Word → Cpu → Cpu} (e : ∀ s, exec i s = s.instruct p o m)
    (a : o.action = .load16 g) (h : ∀ w c, g w c = f w c) : LoadsWord i p o m f := by
  obtain rfl : g = f := funext₂ h
  exact loadsWord e a

theorem setsRegisters_reg {i : Instr} {p : Nat} {o : Op} {f g : Cpu → Cpu} (e : ∀ s, exec i s = s.instruct p o .implied)
    (a : o.action = .reg g) (h : ∀ c, g c = f c) : SetsRegisters i p o .implied 1 f := by
  obtain rfl : g = f := funext h
  exact setsRegisters rfl e (.inl ⟨rfl, by rw [a, plan]⟩)

theorem setsRegisters_reg16 {i : Instr} {p : Nat} {o : Op} {f g : Cpu → Cpu} (e : ∀ s, exec i s = s.instruct p o .implied)
    (a : o.action = .reg16 g) (h : ∀ c, g c = f c) : SetsRegisters i p o .implied 2 f := by
  obtain rfl : g = f := funext h
  exact setsRegisters rfl e (.inr ⟨rfl, by rw [a, plan]⟩)

/-- `CPP` and `CPQ`. -/
theorem usesOperand_cmp16 {i : Instr} {p : Nat} {o : Op} {f g : Word → Cpu → Cpu} (e : ∀ s, exec i s = s.instruct p o .imm16)
    (a : o.action = .cmp16 g) (h : ∀ w c, g w c = f w c) : UsesOperand i p o .imm16 Pan.wordOperand f := by
  obtain rfl : g = f := funext₂ h
  exact usesOperand (v := fun q => q.core.opd) e (by rw [a]; rfl) (Pan.opd_word rfl)

/-- `LEAP` and `LEAQ`. -/
theorem usesOperand_lea {i : Instr} {p : Nat} {o : Op} {f : Word → Cpu → Cpu} (e : ∀ s, exec i s = s.instruct p o .simm)
    (a : o.action = .lea f) : UsesOperand i p o .simm Pan.signedOperand f :=
  usesOperand (v := fun q => Word.ofSigned q.core.opd.lo) e (by rw [a]; rfl) Pan.opd_simm

/-! ### Arithmetic and compares -/

theorem Cpu.add_eq (v : Byte) (c : Cpu) : c.add v = { c with a := sumOf c.a v 0, f := flagsOfSum c.f c.a v 0 } := by
  simp [Cpu.add, addByte_eq, addFlags_eq]

theorem Cpu.adc_eq (v : Byte) (c : Cpu) : c.adc v = { c with
    a := sumOf c.a v (c.f.getLsbD 0).toNat, f := flagsOfSum c.f c.a v (c.f.getLsbD 0).toNat } := by
  simp [Cpu.adc, Cpu.c, addByte_eq, addFlags_eq]

theorem Cpu.sub_eq (v : Byte) (c : Cpu) : c.sub v = { c with a := differenceOf c.a v 0, f := flagsOfDifference c.f c.a v 0 } := by
  simp [Cpu.sub, subByte_eq, subFlags_eq]

theorem Cpu.sbc_eq (v : Byte) (c : Cpu) : c.sbc v = { c with
    a := differenceOf c.a v (1 - (c.f.getLsbD 0).toNat), f := flagsOfDifference c.f c.a v (1 - (c.f.getLsbD 0).toNat) } := by
  simp only [Cpu.sbc, Cpu.c, subByte_eq, subFlags_eq, toNat_not]

theorem Cpu.cmp_eq (v : Byte) (c : Cpu) : c.cmp v = { c with f := flagsOfDifference c.f c.a v 0 } := by
  simp [Cpu.cmp, subFlags_eq]

theorem Cpu.cpx_eq (v : Byte) (c : Cpu) : c.cpx v = { c with f := flagsOfDifference c.f c.x v 0 } := by
  simp [Cpu.cpx, subFlags_eq]

theorem Cpu.cpy_eq (v : Byte) (c : Cpu) : c.cpy v = { c with f := flagsOfDifference c.f c.y v 0 } := by
  simp [Cpu.cpy, subFlags_eq]

theorem cmp16Flags_eq (f : Byte) (r w : Word) :
    cmp16Flags f r w = withFlags (flagsOf16 f (r - w)) [(0, decide (w.toNat ≤ r.toNat))] := by
  simp only [cmp16Flags, setNZ16_eq]
  rfl

/-! ### `ADPA`, `NEG A`, `NOT A`, `DAA` -/

theorem Word.ofUnsigned_eq (b : Byte) : Word.ofUnsigned b = BitVec.ofNat 16 b.toNat := (BitVec.ofNat_toNat ..).symm

theorem Cpu.neg_eq (c : Cpu) : c.neg = { c with
    a := 0 - c.a, f := withFlags (flagsOf c.f (0 - c.a)) [(6, decide (c.a = 0x80)), (4, false), (0, decide (c.a = 0))] } := by
  simp only [Cpu.neg, setNZ_eq]
  rfl

theorem Cpu.not_eq (c : Cpu) : c.not = { c with a := ~~~ c.a, f := flagsOf c.f (~~~ c.a) } := by
  have h : c.a ^^^ 0xFF = ~~~ c.a := BitVec.xor_allOnes
  simp only [Cpu.not, setNZ_eq, h]

/-- The addend of `DAA` (R34). -/
theorem daaByte_eq (c : Cpu) : daaByte c = BitVec.ofNat 8 (c.a.toNat +
    ((if 9 < c.a.toNat % 16 ∨ c.f.getLsbD 4 = true then 0x06 else 0) +
      (if 0x99 < c.a.toNat ∨ c.f.getLsbD 0 = true then 0x60 else 0))) := by
  have low : daaLow c = true ↔ (9 < c.a.toNat % 16 ∨ c.f.getLsbD 4 = true) := by simp [daaLow, Cpu.h]
  have high : daaHigh c = true ↔ (0x99 < c.a.toNat ∨ c.f.getLsbD 0 = true) := by simp [daaHigh, Cpu.c]
  apply BitVec.eq_of_toNat_eq
  simp only [daaByte, low, high]
  split <;> split <;> simp [Nat.add_assoc]

theorem Cpu.daa_eq (c : Cpu) : c.daa =
    (let adj : Nat := (if 9 < c.a.toNat % 16 ∨ c.f.getLsbD 4 = true then 0x06 else 0) +
      (if 0x99 < c.a.toNat ∨ c.f.getLsbD 0 = true then 0x60 else 0)
    { c with a := BitVec.ofNat 8 (c.a.toNat + adj),
             f := withFlags (flagsOf c.f (BitVec.ofNat 8 (c.a.toNat + adj)))
               [(4, false), (0, decide (0x99 < c.a.toNat ∨ c.f.getLsbD 0 = true))] }) := by
  have high : daaHigh c = decide (0x99 < c.a.toNat ∨ c.f.getLsbD 0 = true) := by simp [daaHigh, Cpu.c]
  simp only [Cpu.daa, daaByte_eq, setNZ_eq, high]
  rfl

end Sys2Proof.Machine
end

section
/-!
The arithmetic, logic, load and register instructions (R33, R34): each statement from the shape of its rows and the operation of each.
-/
namespace Sys2Proof.Machine

/-- Settles O2: every row has the shape of a load, and its operation is the sum or difference with R33's flags. -/
theorem sumsAndDifferences : Obligations.SumsAndDifferences := by
  unfold Obligations.SumsAndDifferences
  intro p m
  refine ⟨?_, ?_, ?_, ?_, ?_, ?_, ?_⟩
  · exact loadsByte_as (fun _ => rfl) rfl Cpu.add_eq
  · exact loadsByte_as (fun _ => rfl) rfl Cpu.adc_eq
  · exact loadsByte_as (fun _ => rfl) rfl Cpu.sub_eq
  · exact loadsByte_as (fun _ => rfl) rfl Cpu.sbc_eq
  · exact loadsByte_as (fun _ => rfl) rfl Cpu.cmp_eq
  · exact loadsByte_as (fun _ => rfl) rfl Cpu.cpx_eq
  · exact loadsByte_as (fun _ => rfl) rfl Cpu.cpy_eq

/-- Settles O3: every row has the shape of a load, and sets N and Z of the byte; `TST` and `BIT` set more. -/
theorem logicAndLoads : Obligations.LogicAndLoads := by
  unfold Obligations.LogicAndLoads
  intro p m
  refine ⟨?_, ?_, ?_, ?_, ?_, ?_, ?_, ?_, ?_, ?_⟩
  · exact loadsByte_as (fun _ => rfl) rfl (fun _ _ => by rw [Cpu.and, setNZ_eq])
  · exact loadsByte_as (fun _ => rfl) rfl (fun _ _ => by rw [Cpu.or, setNZ_eq])
  · exact loadsByte_as (fun _ => rfl) rfl (fun _ _ => by rw [Cpu.xor, setNZ_eq])
  · exact loadsByte_as (fun _ => rfl) rfl (fun _ _ => by rw [Cpu.lda, setNZ_eq])
  · exact loadsByte_as (fun _ => rfl) rfl (fun _ _ => by rw [Cpu.ldb, setNZ_eq])
  · exact loadsByte_as (fun _ => rfl) rfl (fun _ _ => by rw [Cpu.ldx, setNZ_eq])
  · exact loadsByte_as (fun _ => rfl) rfl (fun _ _ => by rw [Cpu.ldy, setNZ_eq])
  · exact loadsByte_as (fun _ => rfl) rfl (fun _ _ => by rw [Cpu.ldk, setNZ_eq])
  · exact loadsByte_as (fun _ => rfl) rfl (fun _ _ => by rw [Cpu.tst, setNZ_eq]; rfl)
  · exact loadsByte (fun _ => rfl) rfl

/-- Settles O4: the rows have the shapes of a 16-bit load and of an operand with an internal pan-cycle. -/
theorem wordOperands : Obligations.WordOperands := by
  unfold Obligations.WordOperands
  intro p m
  refine ⟨?_, ?_, ?_, ?_, ?_, ?_, ?_⟩
  · exact loadsWord_as (fun _ => rfl) rfl (fun _ _ => by rw [Cpu.ldp, setNZ16_eq])
  · exact loadsWord_as (fun _ => rfl) rfl (fun _ _ => by rw [Cpu.ldq, setNZ16_eq])
  · exact loadsWord_as (fun _ => rfl) rfl (fun _ _ => by rw [Cpu.lds, setNZ16_eq])
  · exact usesOperand_cmp16 (fun _ => rfl) rfl (fun _ _ => by rw [Cpu.cpp, cmp16Flags_eq])
  · exact usesOperand_cmp16 (fun _ => rfl) rfl (fun _ _ => by rw [Cpu.cpq, cmp16Flags_eq])
  · exact usesOperand_lea (fun _ => rfl) rfl
  · exact usesOperand_lea (fun _ => rfl) rfl

/-- Settles O5: an 8-bit transfer is a register operation of one pan-cycle that sets N and Z, a 16-bit one of two that sets none. -/
theorem transfers : Obligations.Transfers := by
  unfold Obligations.Transfers
  intro p
  refine ⟨?_, ?_, ?_, ?_, ?_, ?_, ?_, ?_, ?_, ?_, ?_, ?_, ?_, ?_⟩
  · exact setsRegisters_reg (fun _ => rfl) rfl (fun _ => by rw [Cpu.tab, setNZ_eq])
  · exact setsRegisters_reg (fun _ => rfl) rfl (fun _ => by rw [Cpu.tba, setNZ_eq])
  · exact setsRegisters_reg (fun _ => rfl) rfl (fun _ => by rw [Cpu.tax, setNZ_eq])
  · exact setsRegisters_reg (fun _ => rfl) rfl (fun _ => by rw [Cpu.txa, setNZ_eq])
  · exact setsRegisters_reg (fun _ => rfl) rfl (fun _ => by rw [Cpu.tay, setNZ_eq])
  · exact setsRegisters_reg (fun _ => rfl) rfl (fun _ => by rw [Cpu.tya, setNZ_eq])
  · exact setsRegisters_reg (fun _ => rfl) rfl (fun _ => by rw [Cpu.tak, setNZ_eq])
  · exact setsRegisters_reg (fun _ => rfl) rfl (fun _ => by rw [Cpu.tka, setNZ_eq])
  · exact setsRegisters_reg (fun _ => rfl) rfl (fun _ => by rw [Cpu.swab, setNZ_eq])
  · exact setsRegisters_reg16 (fun _ => rfl) rfl (fun _ => rfl)
  · exact setsRegisters_reg16 (fun _ => rfl) rfl (fun _ => rfl)
  · exact setsRegisters_reg16 (fun _ => rfl) rfl (fun _ => rfl)
  · exact setsRegisters_reg16 (fun _ => rfl) rfl (fun _ => rfl)
  · exact setsRegisters_reg16 (fun _ => rfl) rfl (fun _ => by rw [Cpu.adpa, Word.ofUnsigned_eq])

/-- Settles O6: register operations of one pan-cycle, those on P and Q of two; `DAA` adds R34's addend. -/
theorem registerArithmetic : Obligations.RegisterArithmetic := by
  unfold Obligations.RegisterArithmetic
  intro p
  refine ⟨?_, ?_, ?_, ?_, ?_, ?_, ?_, ?_, ?_, ?_, ?_, ?_, ?_, ?_, ?_, ?_, ?_⟩
  · exact setsRegisters_reg (fun _ => rfl) rfl Cpu.neg_eq
  · exact setsRegisters_reg (fun _ => rfl) rfl Cpu.not_eq
  · exact setsRegisters_reg (fun _ => rfl) rfl (fun _ => by rw [Cpu.inx, setNZ_eq])
  · exact setsRegisters_reg (fun _ => rfl) rfl (fun _ => by rw [Cpu.dex, setNZ_eq])
  · exact setsRegisters_reg (fun _ => rfl) rfl (fun _ => by rw [Cpu.iny, setNZ_eq])
  · exact setsRegisters_reg (fun _ => rfl) rfl (fun _ => by rw [Cpu.dey, setNZ_eq])
  · exact setsRegisters_reg16 (fun _ => rfl) rfl (fun _ => rfl)
  · exact setsRegisters_reg16 (fun _ => rfl) rfl (fun _ => rfl)
  · exact setsRegisters_reg16 (fun _ => rfl) rfl (fun _ => rfl)
  · exact setsRegisters_reg16 (fun _ => rfl) rfl (fun _ => rfl)
  · exact setsRegisters_reg (fun _ => rfl) rfl Cpu.daa_eq
  · exact setsRegisters_reg (fun _ => rfl) rfl (fun _ => rfl)
  · exact setsRegisters_reg (fun _ => rfl) rfl (fun _ => rfl)
  · exact setsRegisters_reg (fun _ => rfl) rfl (fun _ => rfl)
  · exact setsRegisters_reg (fun _ => rfl) rfl (fun _ => rfl)
  · exact setsRegisters_reg (fun _ => rfl) rfl (fun _ => rfl)
  · exact setsRegisters_reg (fun _ => rfl) rfl (fun _ => rfl)

/-- Settles O7: the rows have the shapes of a byte and of a word store, and what is stored does not depend on PC. -/
theorem stores : Obligations.Stores := by
  unfold Obligations.Stores
  intro p m
  refine ⟨?_, ?_, ?_, ?_, ?_, ?_⟩
  · exact storesByte (fun _ _ => rfl) (fun _ => rfl) rfl
  · exact storesByte (fun _ _ => rfl) (fun _ => rfl) rfl
  · exact storesByte (fun _ _ => rfl) (fun _ => rfl) rfl
  · exact storesByte (fun _ _ => rfl) (fun _ => rfl) rfl
  · exact storesWord (fun _ _ => rfl) (fun _ => rfl) rfl
  · exact storesWord (fun _ _ => rfl) (fun _ => rfl) rfl

end Sys2Proof.Machine
end

section
/-!
SUPPORT. Read-modify-write (R31, R33): the shifts as arithmetic on the byte, and the forms that work on A.
-/
namespace Sys2Proof.Machine

/-! ### The bytes the shifts write -/

theorem shiftLeft_eq (v : Byte) : v <<< 1 = BitVec.ofNat 8 (2 * v.toNat) := by
  apply BitVec.eq_of_toNat_eq
  simp [Nat.shiftLeft_eq, Nat.mul_comm]

theorem shiftRight_eq (v : Byte) : v >>> 1 = BitVec.ofNat 8 (v.toNat / 2) := by
  have := v.isLt
  apply BitVec.eq_of_toNat_eq
  simp [Nat.shiftRight_eq_div_pow]
  omega

theorem rolByte_eq (v f : Byte) : rolByte v f = BitVec.ofNat 8 (2 * v.toNat + (f.getLsbD 0).toNat) := by
  have apart : v <<< 1 &&& 1 = 0 := by ext i; simp; omega
  unfold rolByte
  cases f.getLsbD 0
  · simp [shiftLeft_eq]
  · rw [if_pos rfl, ← BitVec.add_eq_or_of_and_eq_zero _ _ apart, shiftLeft_eq, BitVec.ofNat_add]
    rfl

theorem rorByte_eq (v f : Byte) : rorByte v f = BitVec.ofNat 8 (v.toNat / 2 + 128 * (f.getLsbD 0).toNat) := by
  have apart : v >>> 1 &&& 0x80 = 0 := by
    apply BitVec.eq_of_getLsbD_eq
    intro i hi
    interval_cases i <;> simp
  unfold rorByte
  cases f.getLsbD 0
  · simp [shiftRight_eq]
  · rw [if_pos rfl, ← BitVec.add_eq_or_of_and_eq_zero _ _ apart, shiftRight_eq, BitVec.ofNat_add]
    rfl

/-! ### The shapes -/

theorem modifiesByte_as {i : Instr} {p : Nat} {o : Op} {m : Mode} {f g : Byte → Byte → Byte × Byte} (hm : m ≠ .acc)
    (e : ∀ s, exec i s = s.instruct p o m) (a : o.action = .modify g) (h : ∀ v c, g v c = f v c) : ModifiesByte i p o m f := by
  obtain rfl : g = f := funext₂ h
  exact modifiesByte hm e a

theorem setsRegisters_acc {i : Instr} {p : Nat} {o : Op} {f g : Byte → Byte → Byte × Byte} (e : ∀ s, exec i s = s.instruct p o .acc)
    (a : o.action = .modify g) (h : ∀ v c, g v c = f v c) : SetsRegisters i p o .acc 1 (Cpu.onA f) := by
  obtain rfl : g = f := funext₂ h
  exact setsRegisters rfl e (.inl ⟨rfl, by rw [a]; rfl⟩)

/-! ### The operations -/

theorem rmwInc_eq (v f : Byte) : rmwInc v f = (v + 1, flagsOf f (v + 1)) := by rw [rmwInc, setNZ_eq]

theorem rmwDec_eq (v f : Byte) : rmwDec v f = (v - 1, flagsOf f (v - 1)) := by rw [rmwDec, setNZ_eq]

/-- A shift to the left that brings in the bit `b`. -/
def shiftedLeft (b : Nat) (v f : Byte) : Byte × Byte :=
  (BitVec.ofNat 8 (2 * v.toNat + b), withFlags (flagsOf f (BitVec.ofNat 8 (2 * v.toNat + b))) [(0, v.getLsbD 7)])

/-- A shift to the right that brings in the bit `b`. -/
def shiftedRight (b : Nat) (v f : Byte) : Byte × Byte :=
  (BitVec.ofNat 8 (v.toNat / 2 + 128 * b), withFlags (flagsOf f (BitVec.ofNat 8 (v.toNat / 2 + 128 * b))) [(0, v.getLsbD 0)])

theorem rmwAsl_eq (v f : Byte) : rmwAsl v f = shiftedLeft 0 v f := by
  rw [rmwAsl, setNZ_eq, shiftLeft_eq]
  rfl

theorem rmwLsr_eq (v f : Byte) : rmwLsr v f = shiftedRight 0 v f := by
  rw [rmwLsr, setNZ_eq, shiftRight_eq]
  rfl

theorem rmwRol_eq (v f : Byte) : rmwRol v f = shiftedLeft (f.getLsbD 0).toNat v f := by
  rw [rmwRol, setNZ_eq, rolByte_eq]
  rfl

theorem rmwRor_eq (v f : Byte) : rmwRor v f = shiftedRight (f.getLsbD 0).toNat v f := by
  rw [rmwRor, setNZ_eq, rorByte_eq]
  rfl

end Sys2Proof.Machine
end

section
/-!
Read-modify-write and the branches (R31, R33, R35): the statements.
-/
namespace Sys2Proof.Machine

/-- Settles O10: in memory each row has the shape of a read-modify-write, of A that of a register operation of one pan-cycle. -/
theorem readModifyWrite : Obligations.ReadModifyWrite := by
  unfold Obligations.ReadModifyWrite
  intro inc dec left right rol ror ofA p m hm
  refine ⟨?_, ?_, ?_, ?_, ?_, ?_, ?_, ?_, ?_, ?_, ?_, ?_⟩
  -- of a byte of memory
  · exact modifiesByte_as hm (fun _ => rfl) rfl rmwInc_eq
  · exact modifiesByte_as hm (fun _ => rfl) rfl rmwDec_eq
  · exact modifiesByte_as hm (fun _ => rfl) rfl rmwAsl_eq
  · exact modifiesByte_as hm (fun _ => rfl) rfl rmwLsr_eq
  · exact modifiesByte_as hm (fun _ => rfl) rfl rmwRol_eq
  · exact modifiesByte_as hm (fun _ => rfl) rfl rmwRor_eq
  -- of A
  · exact setsRegisters_acc (fun _ => rfl) rfl rmwInc_eq
  · exact setsRegisters_acc (fun _ => rfl) rfl rmwDec_eq
  · exact setsRegisters_acc (fun _ => rfl) rfl rmwAsl_eq
  · exact setsRegisters_acc (fun _ => rfl) rfl rmwLsr_eq
  · exact setsRegisters_acc (fun _ => rfl) rfl rmwRol_eq
  · exact setsRegisters_acc (fun _ => rfl) rfl rmwRor_eq

/-- A branch on a condition of F, which PC does not change. -/
theorem branches_on {i : Instr} {p : Nat} (d : Cond) (e : ∀ s, exec i s = s.instruct p (.branch d) .rel) :
    Branches i p (.branch d) d.holds id :=
  branches (fun _ _ => by cases d <;> rfl) (fun _ _ => rfl) e rfl

/-- Settles O11: a branch with a condition tests F as R35 says, and `DJNZ` tests X once it has counted down. -/
theorem branchTargets : Obligations.BranchTargets := by
  unfold Obligations.BranchTargets
  intro n v z c p
  refine ⟨?_, ?_, ?_, ?_, ?_, ?_, ?_, ?_, ?_, ?_, ?_, ?_, ?_, ?_, ?_, ?_⟩
  · exact branches_on .always (fun _ => rfl)
  · exact branches_on .eq (fun _ => rfl)
  · exact branches_on .ne (fun _ => rfl)
  · exact branches_on .cs (fun _ => rfl)
  · exact branches_on .cc (fun _ => rfl)
  · exact branches_on .mi (fun _ => rfl)
  · exact branches_on .pl (fun _ => rfl)
  · exact branches_on .vs (fun _ => rfl)
  · exact branches_on .vc (fun _ => rfl)
  · exact branches_on .hi (fun _ => rfl)
  · exact branches_on .ls (fun _ => rfl)
  · exact branches_on .ge (fun _ => rfl)
  · exact branches_on .lt (fun _ => rfl)
  · exact branches_on .gt (fun _ => rfl)
  · exact branches_on .le (fun _ => rfl)
  · exact branches (fun _ _ => rfl) (fun _ _ => rfl) (fun _ => rfl) rfl

end Sys2Proof.Machine
end

section
/-!
SUPPORT. Instructions followed pan-cycle by pan-cycle outside $E000 to $EFFF, continued: operands whole, bytes read, bytes popped, and
what each leaves of the processor's running state.
-/
namespace Sys2Proof.Machine

/-! ### Plain accesses -/

theorem Pan.readTouch_plain {a : Word} (h : plainAddr a) (p : Pan) : p.readTouch a = p := by
  unfold plainAddr at h
  unfold Pan.readTouch
  rw [if_neg (by omega)]

theorem Pan.poke_plain_core {a : Word} (h : plainAddr a) (v : Byte) (p : Pan) : (p.poke a v).core = p.core := by
  rw [Pan.poke_plain h]

theorem pushByte_core {q : Pan} (h : plainAddr q.cpu.s) (g : Pan → Byte) : (pushByte g q).core = q.core.advance := by
  simp [pushByte, Pan.writeByte, Pan.poke_plain_core h]

/-- A push leaves the operand held. -/
theorem pushByte_opd {q : Pan} (h : plainAddr q.cpu.s) (g : Pan → Byte) : (pushByte g q).core.opd = q.core.opd := by
  rw [pushByte_core h, Core.advance]

/-- A word read outside $E000 to $EFFF depends on the memories alone. -/
theorem Pan.OnlyCpu.wordAt {p q : Pan} (h : Pan.OnlyCpu p q) {a : Word} (k : plainAddr a) (l : plainAddr (a + 1)) :
    q.wordAt a = p.wordAt a := by
  rw [Pan.wordAt, Pan.wordAt, h.peek k, h.peek l]

/-- An operand byte lies within the instruction's bytes. -/
theorem plainCode.get {m : Mode} {pc : Word} (h : plainCode m pc) {n : Nat} (k : n ≤ operandBytes m) : plainAddr (pc + BitVec.ofNat 16 n) :=
  h n k

theorem plainCode.opcode {m : Mode} {pc : Word} (h : plainCode m pc) : plainAddr pc := by simpa using h.get (Nat.zero_le _)

/-- The 16-bit operand is the word after the opcode. -/
theorem Pan.wordOperand_plain {m : Mode} {p : Pan} (hm : operandBytes m = 2) (h : plainCode m p.cpu.pc) :
    p.wordOperand = p.wordAt (p.cpu.pc + 1) := by
  have h1 : plainAddr (p.cpu.pc + 1) := h.get (n := 1) (by omega)
  have h2 : plainAddr (p.cpu.pc + 2) := h.get (n := 2) (by omega)
  have f : Pan.OnlyCpu p p.fetched.spend := (Pan.fetched_only h.opcode).spend
  have o : Pan.OnlyCpu p p.fetched.spend.operand.spend := (f.trans (Pan.operand_only (by simpa using h1))).spend
  rw [Pan.wordOperand, Pan.wordAt, o.peek h2, f.peek h1, pc_two]

theorem Pan.afterOperands_two {m : Mode} (hm : operandBytes m = 2) (p : Pan) :
    p.afterOperands m = p.fetched.spend.operand.spend.operand.spend := by
  rw [Pan.afterOperands, hm]
  rfl

theorem plain_one {a : Word} {v : Byte} (h : plainAddr a) : ∀ w ∈ [(a, v)], plainAddr w.1 :=
  List.forall_mem_singleton.2 h

theorem plain_two {a b : Word} {u v : Byte} (h : plainAddr a) (k : plainAddr b) : ∀ w ∈ [(a, u), (b, v)], plainAddr w.1 :=
  List.forall_mem_cons.2 ⟨h, plain_one k⟩

/-! ### What each kind of pan-cycle adds -/

/-- The image as a byte is read. -/
def Pan.reading (a : Word) (p : Pan) : Pan := (p.readTouch a).modCore Core.advance

theorem Pan.readByte_eq (a : Word) (k : Byte → Micro) (p : Pan) : p.readByte a k = k (p.peek a) (p.reading a) := rfl

@[simp] theorem Pan.reading_tmp (a : Word) (p : Pan) : (p.reading a).core.tmp = p.core.tmp := Pan.readTouch_tmp a p
@[simp] theorem Pan.reading_ea (a : Word) (p : Pan) : (p.reading a).core.ea = p.core.ea := Pan.readTouch_ea a p
@[simp] theorem Pan.reading_opd (a : Word) (p : Pan) : (p.reading a).core.opd = p.core.opd := Pan.readTouch_opd a p

theorem readHigh_eq (m : Mode) (f : Word → Micro) (p : Pan) : readHigh m f p =
    f (Word.ofBytes (p.peek (highAddr m p.core.ea)) p.core.tmp) (p.reading (highAddr m p.core.ea)) := by
  rw [readHigh, Pan.readByte_eq, Pan.reading_tmp]

theorem Pan.reading_plain {a : Word} (h : plainAddr a) (p : Pan) : p.reading a = p.modCore Core.advance := by
  rw [Pan.reading, Pan.readTouch_plain h]

section steps
variable {p q : Pan} {ws : List (Word × Byte)} {c : Cpu} {n k : Nat}

theorem At.peek (h : At p q ws c n k) {a : Word} (ha : plainAddr a) : q.peek a = (p.pokes ws).peek a := h.only.peek ha

/-- The fetch and every operand byte of a form. -/
theorem At.operands {m : Mode} (hc : p.unsettled = false) (ha : p.abort = false) (hr : p.core.rep = false) (h : plainCode m p.cpu.pc) :
    At p (p.afterOperands m) [] (p.cpu.next m) (1 + operandBytes m) (1 + operandBytes m) := by
  have P := Pan.afterOperands_frame m p
  refine ⟨Pan.afterOperands_only h, ?_, ?_, P.cyc, P.abort.trans ha, P.rep.trans hr, P.unsettled.trans hc⟩
  · rw [P.cpu, Cpu.next, BitVec.ofNat_add, ← BitVec.add_assoc]
    rfl
  · rw [P.clk, Nat.add_assoc]

/-- A change of the registers in a pan-cycle. -/
theorem At.setCpu (h : At p q.spend ws c n k) (f : Cpu → Cpu) : At p (q.modCpu f).spend ws (f c) n k :=
  ⟨(h.only.trans rfl), congrArg f h.cpu, h.clk, h.cyc, h.abort, h.rep, h.calm⟩

/-- PC loaded in a pan-cycle. -/
theorem At.jump (h : At p q.spend ws c n k) {v w : Word} (e : v = w) : At p (q.jumpTo v).spend ws { c with pc := w } n k :=
  e ▸ h.setCpu _

/-- A change of what the processor holds between pan-cycles. -/
theorem At.setCore (h : At p q.spend ws c n k) {f : Core → Core} (hc : (f q.core).cyc = q.core.cyc := by rfl)
    (hr : (f q.core).rep = q.core.rep := by rfl) : At p (q.modCore f).spend ws c n k :=
  ⟨(h.only.trans rfl), h.cpu, h.clk, hc.trans h.cyc, h.abort, hr.trans h.rep, h.calm⟩

/-- A byte read. -/
theorem At.reading (h : At p q ws c n k) {a : Word} (ha : plainAddr a) : At p (q.reading a).spend ws c (n + 1) (k + 1) := by
  rw [Pan.reading_plain ha]
  exact h.internal

/-- A byte written at an address in the registers. -/
theorem At.write (h : At p q ws c n k) {a : Word} {v : Byte} (ha : plainAddr a) (f : Cpu → Cpu) :
    At p ((q.writeByte a v).modCpu f).spend (ws ++ [(a, v)]) (f c) (n + 1) (k + 1) := by
  refine ⟨?_, ?_, ?_, ?_, ?_, ?_, ?_⟩
  · rw [Pan.pokes_append]
    exact (((h.only.poke ha v).core _).cpu f).spend
  · simp [Pan.writeByte, h.cpu]
  · simp [Pan.writeByte, h.clk]; omega
  · simp [Pan.writeByte, Core.advance, h.cyc]
  · simpa [Pan.writeByte, Pan.poke_plain_abort ha] using h.abort
  · simpa [Pan.writeByte, Core.advance] using h.rep
  · simpa [Pan.writeByte, Pan.poke_plain_unsettled ha] using h.calm

/-- A byte popped: S counts up, and the byte is read there. -/
theorem At.pop (h : At p q ws c n k) (hs : plainAddr (c.s + 1)) (f : Byte → Micro) :
    ∃ r, popByte f q = f ((p.pokes ws).peek (c.s + 1)) r ∧ r.core = q.core.advance ∧
      At p r.spend ws { c with s := c.s + 1 } (n + 1) (k + 1) := by
  have u : At p (q.modCpu (fun c => { c with s := c.s + 1 })) ws { c with s := c.s + 1 } n k :=
    ⟨h.only.cpu _, by simp [h.cpu], h.clk, h.cyc, h.abort, h.rep, h.calm⟩
  refine ⟨(q.modCpu (fun c => { c with s := c.s + 1 })).reading (c.s + 1), ?_, ?_, u.reading hs⟩
  · rw [popByte, h.cpu, Pan.readByte_eq, u.peek hs]
  · rw [Pan.reading_plain hs]
    rfl

/-- A byte popped and held. -/
theorem At.popHold (h : At p q ws c n k) (hs : plainAddr (c.s + 1)) :
    At p (popByte holdLow q).spend ws { c with s := c.s + 1 } (n + 1) (k + 1) ∧
      (popByte holdLow q).core.tmp = (p.pokes ws).peek (c.s + 1) := by
  obtain ⟨r, e, -, a⟩ := h.pop hs holdLow
  rw [e]
  exact ⟨a.setCore, rfl⟩

/-- The high byte of PC popped by `RTI`. -/
theorem At.rtiHigh (h : At p q ws c n k) (hs : plainAddr (c.s + 1)) :
    At p (rtiHigh q).spend ws { c with s := c.s + 1 } (n + 1) (k + 1) ∧
      (Machine.rtiHigh q).core.ea = Word.ofBytes ((p.pokes ws).peek (c.s + 1)) q.core.tmp := by
  obtain ⟨r, e, hr, a⟩ := h.pop hs (fun v p => p.modCore (fun k => { k with ea := Word.ofBytes v k.tmp }))
  rw [Machine.rtiHigh, e]
  refine ⟨a.setCore, ?_⟩
  rw [Pan.modCore_core, hr]
  rfl

/-- A byte popped into the registers, with what the processor holds. -/
theorem At.popCpu (h : At p q ws c n k) (hs : plainAddr (c.s + 1)) (g : Byte → Core → Cpu → Cpu) :
    At p (popByte (fun v r => r.modCpu (g v r.core)) q).spend ws
      (g ((p.pokes ws).peek (c.s + 1)) q.core.advance { c with s := c.s + 1 }) (n + 1) (k + 1) := by
  obtain ⟨r, e, hr, a⟩ := h.pop hs (fun v r => r.modCpu (g v r.core))
  rw [e, hr]
  exact a.setCpu _

/-- The low byte of a word in memory read and held. -/
theorem At.readLow (h : At p q ws c n k) {m : Mode} (ha : plainAddr (q.dataAddr m)) :
    At p (readLow m q).spend ws c (n + 1) (k + 1) := (h.reading ha).setCore

/-- The high byte of a word in memory read, and the word used. -/
theorem At.readHigh (h : At p q ws c n k) {m : Mode} (ha : plainAddr (highAddr m q.core.ea)) (g : Word → Cpu → Cpu) :
    At p (readHigh m (fun w r => r.modCpu (g w)) q).spend ws
      (g (Word.ofBytes ((p.pokes ws).peek (highAddr m q.core.ea)) q.core.tmp) c) (n + 1) (k + 1) := by
  rw [readHigh_eq, h.peek ha]
  exact (h.reading ha).setCpu _

end steps

end Sys2Proof.Machine
end


section
/-!
Jumps, calls, the stack and `MVB` (R28, R36, R37, R45): each instruction run pan-cycle by pan-cycle, and the statements.
-/
namespace Sys2Proof.Machine

/-! ### Jumps -/

section jumps
variable {p : Nat} {s : State} {x : Site}

/-- An instruction begins in no `REP` sequence. -/
theorem State.Begins.rep {o : Op} {m : Mode} (b : State.Begins s p x o m) : x.pan.core.rep = false := Pan.ready_rep b.ready

theorem runs_jmpAbs {n : PanNo} (b : State.Begins s n x .jmp .abs) (h : plainCode .abs x.pan.cpu.pc) :
    Runs (.jmp n .abs) s n x { x.pan.cpu with pc := x.pan.wordAt (x.pan.cpu.pc + 1) } 3 x.pan := by
  have a1 := At.fetched b.calm b.abort b.rep h.opcode
  have a2 := a1.operand (h.get (n := 1) (by decide))
  have a3 := a2.operand (by rw [pc_two]; exact h.get (n := 2) (by decide))
  have opd : (x.pan.fetched.spend.operand.spend).operand.core.opd = x.pan.wordAt (x.pan.cpu.pc + 1) := by
    have e := (Pan.opd_word (m := .abs) rfl x.pan).trans (Pan.wordOperand_plain rfl h)
    rwa [Pan.afterOperands_two rfl] at e
  refine runs_of (ws := []) (o := .jmp) (m := .abs) b rfl (by simp) ?_
  show ∃ r, runPlan [Pan.fetched, Pan.operand, lastCycle _] x.pan = r ∧ _
  rw [At.more _ b.calm a1, At.more _ a1.calm a2]
  exact At.ends a2.calm (a3.jump opd)

theorem runs_jmpIndP {n : PanNo} (b : State.Begins s n x .jmp .indP) (h : plainCode .indP x.pan.cpu.pc) :
    Runs (.jmp n .indP) s n x { x.pan.cpu with pc := x.pan.cpu.p } 2 x.pan := by
  have a1 := At.fetched b.calm b.abort b.rep h.opcode
  refine runs_of (ws := []) (o := .jmp) (m := .indP) b rfl (by simp) ?_
  show ∃ r, runPlan [Pan.fetched, lastCycle _] x.pan = r ∧ _
  rw [At.more _ b.calm a1]
  exact At.ends a1.calm (a1.internal.jump (by simp))

/-- A jump through memory: the word at `a`, the address the form gives. -/
theorem runs_jmpMem {n : PanNo} {m : Mode} {a : Word} (b : State.Begins s n x .jmp m) (e : exec (.jmp n m) s = s.instruct n .jmp m)
    (hp : plan .jmp m = Pan.fetched :: (operandCycles m ++ [readLow m, lastCycle (readHigh m (fun w r => r.modCpu (fun c => { c with pc := w })))]))
    (hm : operandBytes m = 2) (hh : ∀ v, highAddr m v = v + 1) (h : plainCode m x.pan.cpu.pc)
    (ha : (x.pan.afterOperands m).dataAddr m = a) (h0 : plainAddr a) (h1 : plainAddr (a + 1)) :
    Runs (.jmp n m) s n x { x.pan.cpu with pc := x.pan.wordAt a } 5 x.pan := by
  have a1 : At x.pan (x.pan.afterOperands m) [] (x.pan.cpu.next m) 3 3 := by
    simpa [hm] using At.operands b.calm b.abort b.rep h
  have a2 := a1.readLow (m := m) (ha.symm ▸ h0)
  have ea : (readLow m (x.pan.afterOperands m)).core.ea = a := ha
  have tmp : (readLow m (x.pan.afterOperands m)).core.tmp = x.pan.peek a := by rw [← ha] at h0 ⊢; exact a1.peek h0
  refine runs_of (ws := []) b e (by simp) ?_
  show ∃ r, runPlan (plan .jmp m) x.pan = r ∧ _
  rw [hp, runPlan_fetched b.calm b.abort, At.more _ a1.calm a2]
  have a3 := At.ends a2.calm (a2.readHigh (m := m) (by rw [Pan.spend_core, ea, hh]; exact h1) (fun w c => { c with pc := w }))
  rw [Pan.spend_core, ea, tmp, hh] at a3
  exact a3

/-- `CALL` once its operand is read: the return address stands in PC, and `w` is called. -/
theorem call_ends {p q : Pan} {c : Cpu} {n k : Nat} (a : At p q [] c n k) (w : Pan → Word) (h0 : plainAddr c.s) (h1 : plainAddr (c.s - 1))
    {t : Word} (ht : w (pushByte (fun r => r.cpu.pc.hi) q).spend = t) :
    ∃ r, runPlan [pushByte (fun r => r.cpu.pc.hi), lastCycle (fun r => (pushByte (fun q => q.cpu.pc.lo) r).jumpTo (w r))] q = r ∧
      r.cpu = { c with pc := t, s := c.s - 2 } ∧ r.clk = p.clk + (n + 2) ∧
      Pan.OnlyCpu (p.pokes [(c.s, c.pc.hi), (c.s - 1, c.pc.lo)]) r := by
  have a1 := a.push h0 (g := fun r => r.cpu.pc.hi) (v := c.pc.hi) (by rw [a.cpu])
  have a2 := a1.push h1 (g := fun r => r.cpu.pc.lo) (v := c.pc.lo) (by rw [a1.cpu])
  have two : c.s - 1 - 1 = c.s - 2 := by rw [BitVec.sub_sub]; rfl
  rw [At.more _ a.calm a1]
  have e := At.ends (f := fun r => (pushByte (fun q => q.cpu.pc.lo) r).jumpTo (w r)) a1.calm (a2.jump ht)
  rw [two] at e
  exact e

theorem runs_callAbs {n : PanNo} (b : State.Begins s n x .call .abs) (h : plainCode .abs x.pan.cpu.pc)
    (h0 : plainAddr x.pan.cpu.s) (h1 : plainAddr (x.pan.cpu.s - 1)) :
    Runs (.call n .abs) s n x { x.pan.cpu with pc := x.pan.wordAt (x.pan.cpu.pc + 1), s := x.pan.cpu.s - 2 } 5
      (x.pan.pokes [(x.pan.cpu.s, (x.pan.cpu.pc + 3).hi), (x.pan.cpu.s - 1, (x.pan.cpu.pc + 3).lo)]) := by
  have a1 : At x.pan (x.pan.afterOperands .abs) [] { x.pan.cpu with pc := x.pan.cpu.pc + 3 } 3 3 := At.operands b.calm b.abort b.rep h
  have opd : (pushByte (fun r => r.cpu.pc.hi) (x.pan.afterOperands .abs)).core.opd = x.pan.wordAt (x.pan.cpu.pc + 1) := by
    rw [pushByte_opd (by rw [a1.cpu]; exact h0), Pan.opd_word rfl, Pan.wordOperand_plain rfl h]
  refine runs_of (o := .call) (m := .abs) b rfl (plain_two h0 h1) ?_
  show ∃ r, runPlan (Pan.fetched :: (operandCycles .abs ++ [_, _])) x.pan = r ∧ _
  rw [runPlan_fetched b.calm b.abort]
  exact call_ends a1 (fun r => r.core.opd) h0 h1 opd

theorem runs_callIndP {n : PanNo} (b : State.Begins s n x .call .indP) (h : plainCode .indP x.pan.cpu.pc)
    (h0 : plainAddr x.pan.cpu.s) (h1 : plainAddr (x.pan.cpu.s - 1)) :
    Runs (.call n .indP) s n x { x.pan.cpu with pc := x.pan.cpu.p, s := x.pan.cpu.s - 2 } 4
      (x.pan.pokes [(x.pan.cpu.s, (x.pan.cpu.pc + 1).hi), (x.pan.cpu.s - 1, (x.pan.cpu.pc + 1).lo)]) := by
  have a1 := At.fetched b.calm b.abort b.rep h.opcode
  have a2 := a1.internal
  have a3 := a2.push h0 (g := fun r => r.cpu.pc.hi) rfl
  refine runs_of (o := .call) (m := .indP) b rfl (plain_two h0 h1) ?_
  show ∃ r, runPlan [Pan.fetched, Pan.internal, _, _] x.pan = r ∧ _
  rw [At.more _ b.calm a1, At.more _ a1.calm a2]
  exact call_ends a2 (fun r => r.cpu.p) h0 h1 (by rw [a3.cpu])

/-- Two bytes popped: the word that the stack held, low byte first. -/
theorem popWord_ends {p q : Pan} {c : Cpu} {n k : Nat} (a : At p q [] c n k) (g : Word → Cpu → Cpu)
    (h0 : plainAddr (c.s + 1)) (h1 : plainAddr (c.s + 2)) :
    ∃ r, runPlan [popByte holdLow, lastCycle (popByte (fun v r => r.modCpu (g (Word.ofBytes v r.core.tmp))))] q = r ∧
      r.cpu = g (p.wordAt (c.s + 1)) { c with s := c.s + 2 } ∧ r.clk = p.clk + (n + 2) ∧ Pan.OnlyCpu p r := by
  obtain ⟨a1, tmp⟩ := a.popHold h0
  have a2 := a1.popCpu (by rw [pc_two]; exact h1) (fun v k => g (Word.ofBytes v k.tmp))
  rw [At.more _ a.calm a1]
  have e := At.ends (f := popByte (fun v r => r.modCpu (g (Word.ofBytes v r.core.tmp)))) a1.calm a2
  have held : (popByte holdLow q).spend.core.advance.tmp = p.peek (c.s + 1) := tmp
  rw [held, pc_two] at e
  rw [Pan.wordAt, pc_two]
  exact e

theorem runs_ret {n : PanNo} (b : State.Begins s n x .ret .implied) (h : plainCode .implied x.pan.cpu.pc)
    (h0 : plainAddr (x.pan.cpu.s + 1)) (h1 : plainAddr (x.pan.cpu.s + 2)) :
    Runs (.ret n) s n x { x.pan.cpu with pc := x.pan.wordAt (x.pan.cpu.s + 1), s := x.pan.cpu.s + 2 } 4 x.pan := by
  have a1 := At.fetched b.calm b.abort b.rep h.opcode
  have a2 := a1.internal
  refine runs_of (ws := []) (o := .ret) (m := .implied) b rfl (by simp) ?_
  show ∃ r, runPlan [Pan.fetched, Pan.internal, _, _] x.pan = r ∧ _
  rw [At.more _ b.calm a1, At.more _ a1.calm a2]
  exact popWord_ends a2 (fun w c => { c with pc := w }) h0 h1

/-! ### The stack -/

theorem runs_push {n : PanNo} {r : StackReg} {g : Cpu → Byte} (e : (Op.push r).action = .push g) (hg : ∀ (c : Cpu) w, g { c with pc := w } = g c)
    (b : State.Begins s n x (.push r) .implied) (h : plainCode .implied x.pan.cpu.pc) (h0 : plainAddr x.pan.cpu.s) :
    Runs (.push n r) s n x { x.pan.cpu with pc := x.pan.cpu.pc + 1, s := x.pan.cpu.s - 1 } 2
      (x.pan.pokes [(x.pan.cpu.s, g x.pan.cpu)]) := by
  have a1 := At.fetched b.calm b.abort b.rep h.opcode
  have a2 := a1.push h0 (g := fun r => g r.cpu) (v := g x.pan.cpu) (by rw [a1.cpu]; exact hg _ _)
  refine runs_of (o := .push r) (m := .implied) b rfl (plain_one h0) ?_
  rw [e]
  show ∃ r, runPlan [Pan.fetched, lastCycle _] x.pan = r ∧ _
  rw [At.more _ b.calm a1]
  exact At.ends a1.calm a2

theorem runs_push16 {n : PanNo} {r : StackReg} {g : Cpu → Word} (e : (Op.push r).action = .push16 g)
    (hg : ∀ (c : Cpu) w v, g { c with pc := w, s := v } = g c)
    (b : State.Begins s n x (.push r) .implied) (h : plainCode .implied x.pan.cpu.pc) (h0 : plainAddr x.pan.cpu.s)
    (h1 : plainAddr (x.pan.cpu.s - 1)) :
    Runs (.push n r) s n x { x.pan.cpu with pc := x.pan.cpu.pc + 1, s := x.pan.cpu.s - 2 } 3
      (x.pan.pokes [(x.pan.cpu.s, (g x.pan.cpu).hi), (x.pan.cpu.s - 1, (g x.pan.cpu).lo)]) := by
  have a1 := At.fetched b.calm b.abort b.rep h.opcode
  have a2 := a1.push h0 (g := fun r => (g r.cpu).hi) (v := (g x.pan.cpu).hi) (by rw [a1.cpu]; exact congrArg Word.hi (hg x.pan.cpu _ _))
  have a3 := a2.push h1 (g := fun r => (g r.cpu).lo) (v := (g x.pan.cpu).lo) (by rw [a2.cpu]; exact congrArg Word.lo (hg x.pan.cpu _ _))
  have two : x.pan.cpu.s - 1 - 1 = x.pan.cpu.s - 2 := by rw [BitVec.sub_sub]; rfl
  refine runs_of (o := .push r) (m := .implied) b rfl (plain_two h0 h1) ?_
  rw [e]
  show ∃ r, runPlan [Pan.fetched, pushByte _, lastCycle _] x.pan = r ∧ _
  rw [At.more _ b.calm a1, At.more _ a1.calm a2, ← two]
  exact At.ends a2.calm a3

theorem runs_pop {n : PanNo} {r : StackReg} {f : Byte → Cpu → Cpu} (e : (Op.pop r).action = .pop f)
    (b : State.Begins s n x (.pop r) .implied) (h : plainCode .implied x.pan.cpu.pc) (h0 : plainAddr (x.pan.cpu.s + 1)) :
    Runs (.pop n r) s n x (f (x.pan.peek (x.pan.cpu.s + 1)) { x.pan.cpu with pc := x.pan.cpu.pc + 1, s := x.pan.cpu.s + 1 }) 3 x.pan := by
  have a1 := At.fetched b.calm b.abort b.rep h.opcode
  have a2 := a1.internal
  have a3 := a2.popCpu h0 (fun v _ => f v)
  refine runs_of (ws := []) (o := .pop r) (m := .implied) b rfl (by simp) ?_
  rw [e]
  show ∃ r, runPlan [Pan.fetched, Pan.internal, lastCycle _] x.pan = r ∧ _
  rw [At.more _ b.calm a1, At.more _ a1.calm a2]
  exact At.ends a2.calm a3

theorem runs_pop16 {n : PanNo} {r : StackReg} {f : Word → Cpu → Cpu} (e : (Op.pop r).action = .pop16 f)
    (b : State.Begins s n x (.pop r) .implied) (h : plainCode .implied x.pan.cpu.pc) (h0 : plainAddr (x.pan.cpu.s + 1))
    (h1 : plainAddr (x.pan.cpu.s + 2)) :
    Runs (.pop n r) s n x (f (x.pan.wordAt (x.pan.cpu.s + 1)) { x.pan.cpu with pc := x.pan.cpu.pc + 1, s := x.pan.cpu.s + 2 }) 4
      x.pan := by
  have a1 := At.fetched b.calm b.abort b.rep h.opcode
  have a2 := a1.internal
  refine runs_of (ws := []) (o := .pop r) (m := .implied) b rfl (by simp) ?_
  rw [e]
  show ∃ r, runPlan [Pan.fetched, Pan.internal, _, _] x.pan = r ∧ _
  rw [At.more _ b.calm a1, At.more _ a1.calm a2]
  exact popWord_ends a2 f h0 h1

theorem runs_rti {n : PanNo} (b : State.Begins s n x .rti .implied) (h : plainCode .implied x.pan.cpu.pc)
    (h0 : plainAddr (x.pan.cpu.s + 1)) (h1 : plainAddr (x.pan.cpu.s + 2)) (h2 : plainAddr (x.pan.cpu.s + 3)) :
    Runs (.rti n) s n x { x.pan.cpu with
      pc := x.pan.wordAt (x.pan.cpu.s + 1), f := x.pan.peek (x.pan.cpu.s + 3) &&& 0xDB, s := x.pan.cpu.s + 3 } 5 x.pan := by
  have three : x.pan.cpu.s + 1 + 1 + 1 = x.pan.cpu.s + 3 := by rw [pc_two, BitVec.add_assoc]; rfl
  have a1 := At.fetched b.calm b.abort b.rep h.opcode
  have a2 := a1.internal
  obtain ⟨a3, tmp⟩ := a2.popHold h0
  obtain ⟨a4, ea⟩ := a3.rtiHigh (by rw [pc_two]; exact h1)
  have a5 := a4.popCpu (by rw [three]; exact h2) (fun v k c => { c with pc := k.ea, f := flagByte v })
  have pc : (rtiHigh (popByte holdLow x.pan.fetched.spend.internal.spend).spend).spend.core.advance.ea = x.pan.wordAt (x.pan.cpu.s + 1) := by
    refine ea.trans ?_
    rw [Pan.spend_core, tmp]
    rfl
  refine runs_of (ws := []) (o := .rti) (m := .implied) b rfl (by simp) ?_
  show ∃ r, runPlan [Pan.fetched, Pan.internal, popByte holdLow, rtiHigh, lastCycle rtiLast] x.pan = r ∧ _
  rw [At.more _ b.calm a1, At.more _ a1.calm a2, At.more _ a2.calm a3, At.more _ a3.calm a4]
  have e := At.ends (f := rtiLast) a4.calm a5
  rw [pc, three] at e
  exact e

/-! ### `MVB` -/

theorem runs_mvb {n : PanNo} (b : State.Begins s n x .mvb .implied) (h : plainCode .implied x.pan.cpu.pc)
    (h0 : plainAddr x.pan.cpu.p) (h1 : plainAddr x.pan.cpu.q) :
    Runs (.mvb n) s n x { x.pan.cpu with pc := x.pan.cpu.pc + 1, p := x.pan.cpu.p + 1, q := x.pan.cpu.q + 1 } 3
      (x.pan.pokes [(x.pan.cpu.q, x.pan.peek x.pan.cpu.p)]) := by
  have a1 := At.fetched b.calm b.abort b.rep h.opcode
  have at_ : x.pan.fetched.spend.dataAddr .indP = x.pan.cpu.p := by simp [Pan.dataAddr, effAddr]
  have a2 := a1.readLow (m := .indP) (by rw [at_]; exact h0)
  have tmp : (readLow .indP x.pan.fetched.spend).core.tmp = x.pan.peek x.pan.cpu.p := by
    rw [← at_] at h0 ⊢
    exact a1.peek h0
  have written := a2.write (v := (readLow .indP x.pan.fetched.spend).core.tmp) h1 (fun c => { c with p := c.p + 1, q := c.q + 1 })
  have e : mvbWrite (readLow .indP x.pan.fetched.spend).spend = ((readLow .indP x.pan.fetched.spend).spend.writeByte x.pan.cpu.q
      (readLow .indP x.pan.fetched.spend).core.tmp).modCpu (fun c => { c with p := c.p + 1, q := c.q + 1 }) := by
    rw [mvbWrite, a2.cpu]
    rfl
  rw [← e] at written
  refine runs_of (o := .mvb) (m := .implied) b rfl (plain_one h1) ?_
  show ∃ r, runPlan [Pan.fetched, readLow .indP, lastCycle mvbWrite] x.pan = r ∧ _
  rw [At.more _ b.calm a1, At.more _ a1.calm a2, ← tmp]
  exact At.ends a2.calm written

end jumps

/-! ### The statements -/

theorem memIndX_addr (w : Word) (v : Byte) : w + Word.ofUnsigned v + Word.ofUnsigned v = w + 2 * BitVec.ofNat 16 v.toNat := by
  rw [Word.ofUnsigned_eq]
  ring

/-- Settles O12: each jump, call and return run pan-cycle by pan-cycle. -/
theorem jumpsAndCalls : Obligations.JumpsAndCalls := by
  unfold Obligations.JumpsAndCalls
  intro p s x c w wx pushed
  refine ⟨?_, ?_, ?_, ?_, ?_, ?_, ?_⟩
  · exact fun b h => runs_jmpAbs b h.1
  · exact fun b h => runs_jmpIndP b h.1
  · rintro b ⟨h, hd⟩
    refine runs_jmpMem b rfl rfl rfl (fun _ => rfl) h ?_ (hd w (by simp)) (hd (w + 1) (by simp))
    rw [Pan.dataAddr, effAddr, Pan.opd_word rfl, Pan.wordOperand_plain rfl h]
  · rintro b ⟨h, hd⟩
    refine runs_jmpMem b rfl rfl rfl (fun _ => rfl) h ?_ (hd wx (by simp)) (hd (wx + 1) (by simp))
    rw [Pan.dataAddr, effAddr, Pan.opd_word rfl, Pan.wordOperand_plain rfl h, memIndX_addr, (Pan.afterOperands_frame _ _).cpu]
  · exact fun b ⟨h, hd⟩ => runs_callAbs b h (hd c.s (by simp)) (hd (c.s - 1) (by simp))
  · exact fun b ⟨h, hd⟩ => runs_callIndP b h (hd c.s (by simp)) (hd (c.s - 1) (by simp))
  · exact fun b ⟨h, hd⟩ => runs_ret b h (hd (c.s + 1) (by simp)) (hd (c.s + 2) (by simp))

/-- Settles O13: each push and pop by the width of its register. -/
theorem stackInstructions : Obligations.StackInstructions := by
  unfold Obligations.StackInstructions
  intro p s x c d byte word v popped
  refine ⟨?_, ?_, ?_, ?_, ?_⟩
  · rintro r v hv b ⟨h, hd⟩
    have h0 : plainAddr c.s := hd _ (by simp)
    cases r <;> cases hv
    all_goals exact runs_push rfl (fun _ _ => rfl) b h h0
  · rintro r hr b ⟨h, hd⟩
    have h0 : plainAddr c.s := hd _ (by simp)
    have h1 : plainAddr (c.s - 1) := hd _ (by simp)
    cases r <;> cases hr
    all_goals exact runs_push16 rfl (fun _ _ _ => rfl) b h h0 h1
  · rintro r v hv b ⟨h, hd⟩
    have h0 : plainAddr (c.s + 1) := hd _ (by simp)
    cases r <;> cases hv
    all_goals exact runs_pop rfl b h h0
  · rintro r hr b ⟨h, hd⟩
    have h0 : plainAddr (c.s + 1) := hd _ (by simp)
    have h1 : plainAddr (c.s + 2) := hd _ (by simp)
    cases r <;> cases hr
    all_goals exact runs_pop16 rfl b h h0 h1
  · exact fun b ⟨h, hd⟩ => runs_rti b h (hd (c.s + 1) (by simp)) (hd (c.s + 2) (by simp)) (hd (c.s + 3) (by simp))

/-- Settles O14: a read held over one pan-cycle and a write. -/
theorem mvbCopies : Obligations.MvbCopies := by
  unfold Obligations.MvbCopies
  exact fun p s x b ⟨h, hd⟩ => runs_mvb b h (hd _ (by simp)) (hd _ (by simp))

end Sys2Proof.Machine
end

section
/-!
SUPPORT. Interrupt entry and `BRK` (R43, R44, R155): the bytes pushed, the vector read, and what an entry commits.
-/
namespace Sys2Proof.Machine

/-! ### Bytes of the title above $F000 -/

theorem Pan.peek_rom {p q : Pan} {a : Word} (h : ∀ n, q.romByte n = p.romByte n) (ha : 0xF000 ≤ a.toNat) : q.peek a = p.peek a := by
  unfold Pan.peek
  simp only [if_neg (show ¬ a.toNat < 0x8000 by omega), if_neg (show ¬ a.toNat < 0xC000 by omega),
    if_neg (show ¬ a.toNat < 0xE000 by omega), if_neg (show ¬ a.toNat < 0xF000 by omega), h]

/-- No write reaches the title. -/
theorem Pan.pokes_peek_rom {p : Pan} {ws : List (Word × Byte)} (h : ∀ w ∈ ws, plainAddr w.1) {a : Word} (ha : 0xF000 ≤ a.toNat) :
    (p.pokes ws).peek a = p.peek a := Pan.peek_rom (Pan.pokes_memory_rom ws h) ha

/-! ### The requests the processor holds -/

/-- An NMI edge and idling in `WAI` stand as they stood. -/
structure Core.SameRequests (k l : Core) : Prop where
  nmi : l.nmi = k.nmi
  wait : l.wait = k.wait

theorem Core.SameRequests.trans {j k l : Core} (h : Core.SameRequests j k) (g : Core.SameRequests k l) : Core.SameRequests j l :=
  ⟨g.nmi.trans h.nmi, g.wait.trans h.wait⟩

theorem pushByte_requests {q : Pan} (h : plainAddr q.cpu.s) (g : Pan → Byte) : Core.SameRequests q.core (pushByte g q).core := by
  rw [pushByte_core h]
  exact ⟨rfl, rfl⟩

theorem Pan.reading_requests (a : Word) (q : Pan) : Core.SameRequests q.core (q.reading a).core :=
  ⟨Pan.readTouch_nmi a q, Pan.readTouch_wait a q⟩

theorem vectorLow_requests (v : Word) (q : Pan) : Core.SameRequests q.core (vectorLow v q.spend).core :=
  ⟨Pan.readTouch_nmi v q.spend, Pan.readTouch_wait v q.spend⟩

/-! ### The pan-cycles `BRK` and an entry share -/

section shared
variable {p q : Pan} {ws : List (Word × Byte)} {c : Cpu} {n k : Nat}

/-- The high byte of a vector read: PC is loaded. -/
theorem At.vectored (h : At p q ws c n k) (hw : ∀ w ∈ ws, plainAddr w.1) {v : Word} (hv : 0xF000 ≤ (v + 1).toNat)
    (ht : q.core.tmp = p.peek v) :
    At p (vectorHigh v q).spend ws { c with pc := p.wordAt v } (n + 1) (k + 1) ∧
      Core.SameRequests q.core (vectorHigh v q).core := by
  have e : vectorHigh v q = (q.reading (v + 1)).jumpTo (p.wordAt v) := by
    rw [vectorHigh, Pan.readByte_eq, Pan.reading_tmp, ht, h.peek (.inr hv), Pan.pokes_peek_rom hw hv]
    rfl
  rw [e]
  exact ⟨(h.reading (.inr hv)).jump rfl, Pan.reading_requests _ q⟩

/-- F and PC pushed, I set, and the low byte of the vector held. -/
theorem At.enters (h : At p q [] c n k) {v : Word} (hv : 0xF000 ≤ v.toNat) (h0 : plainAddr c.s) (h1 : plainAddr (c.s - 1))
    (h2 : plainAddr (c.s - 2)) (us : List Micro) :
    ∃ r, runPlan (pushFlags :: pushByte (fun p => p.cpu.pc.hi) :: pushByte (fun p => p.cpu.pc.lo) :: vectorLow v :: us) q = runPlan us r ∧
      At p r [(c.s, c.f), (c.s - 1, c.pc.hi), (c.s - 2, c.pc.lo)] { c with s := c.s - 3, f := withFlags c.f [(3, true)] } (n + 4) (k + 4) ∧
      r.core.tmp = p.peek v ∧ Core.SameRequests q.core r.core := by
  have two : c.s - 1 - 1 = c.s - 2 := by rw [BitVec.sub_sub]; rfl
  have three : c.s - 2 - 1 = c.s - 3 := by rw [BitVec.sub_sub]; rfl
  have a1 : At p (pushFlags q).spend [(c.s, c.f)] { c with s := c.s - 1, f := withFlags c.f [(3, true)] } (n + 1) (k + 1) :=
    (h.push h0 (g := fun r => r.cpu.f) (v := c.f) (by rw [h.cpu])).setCpu Cpu.sei
  have k1 : Core.SameRequests q.core (pushFlags q).core := pushByte_requests (q := q) (by rw [h.cpu]; exact h0) (fun r => r.cpu.f)
  have a2 := a1.push h1 (g := fun r => r.cpu.pc.hi) (v := c.pc.hi) (by rw [a1.cpu])
  have k2 := pushByte_requests (by rw [a1.cpu]; exact h1) (fun r => r.cpu.pc.hi)
  have a3 := a2.push (by rw [two]; exact h2) (g := fun r => r.cpu.pc.lo) (v := c.pc.lo) (by rw [a2.cpu])
  have k3 := pushByte_requests (by rw [a2.cpu, two]; exact h2) (fun r => r.cpu.pc.lo)
  rw [two, three] at a3
  have a4 : At p (vectorLow v _).spend _ _ _ _ := (a3.reading (.inr hv)).setCore
  refine ⟨_, ?_, a4, ?_, ?_⟩
  · rw [At.more _ h.calm a1, At.more _ a1.calm a2, At.more _ a2.calm a3, At.more _ a3.calm a4]
  · refine (a3.peek (.inr hv)).trans (Pan.pokes_peek_rom ?_ hv)
    exact List.forall_mem_cons.2 ⟨h0, plain_two h1 h2⟩
  · exact (k1.trans k2).trans (k3.trans (vectorLow_requests v _))

/-- Interrupt entry whole: the six pan-cycles. -/
theorem At.entered (h : At p q [] c 0 0) {e : Nat} (h0 : plainAddr c.s) (h1 : plainAddr (c.s - 1)) (h2 : plainAddr (c.s - 2)) :
    ∃ r, runPlan (entryPlan e) q = r ∧
      r.cpu = { c with s := c.s - 3, f := withFlags c.f [(3, true)], pc := p.wordAt (entryVector e) } ∧ r.clk = p.clk + 6 ∧
      Pan.OnlyCpu (p.pokes [(c.s, c.f), (c.s - 1, c.pc.hi), (c.s - 2, c.pc.lo)]) r ∧ Core.SameRequests q.core r.core := by
  have v0 : 0xF000 ≤ (entryVector e).toNat := by unfold entryVector; split <;> decide
  have v1 : 0xF000 ≤ (entryVector e + 1).toNat := by unfold entryVector; split <;> decide
  obtain ⟨r, er, a1, ht, k1⟩ := h.internal.enters v0 h0 h1 h2 [entryLast e]
  obtain ⟨a2, k2⟩ := a1.vectored (List.forall_mem_cons.2 ⟨h0, plain_two h1 h2⟩) v1 ht
  have el : entryLast e r = if (vectorHigh (entryVector e) r).abort then vectorHigh (entryVector e) r
      else (vectorHigh (entryVector e) r).endEntry := rfl
  have er' : runPlan (entryPlan e) q = runPlan [entryLast e] r := by rw [entryPlan, At.more _ h.calm h.internal]; exact er
  generalize vectorHigh (entryVector e) r = w at a2 k2 el
  rw [if_neg (by rw [show w.abort = false from a2.abort]; decide)] at el
  refine ⟨w.endEntry.spend, ?_, a2.cpu, a2.clk, a2.only.trans (by rfl), ?_⟩
  · rw [er', ← el]
    exact runPlan_last a1.calm (by rw [el]; exact a2.abort)
  · have k0 : Core.SameRequests q.core q.internal.spend.core := ⟨rfl, rfl⟩
    have k3 : Core.SameRequests w.core w.endEntry.spend.core := ⟨rfl, rfl⟩
    exact (k0.trans k1).trans (k2.trans k3)

end shared

/-! ### What an entry commits -/

section commits
variable {p : Pan}

/-- A taken NMI uses its edge up, and the address an entry pushes becomes PC. -/
theorem At.begunNmi (hc : p.unsettled = false) (ha : p.abort = false) (hy : p.core.cyc = 0) (hs : p.core.samp.committed = false)
    (hn : p.core.samp.nmi = true) :
    At p p.beginEntry [] { p.cpu with pc := p.returnAddress } 0 0 ∧ p.beginEntry.core.entry = 2 ∧
      p.beginEntry.core.nmi = false ∧ p.beginEntry.core.wait = p.core.wait := by
  have ht : p.core.samp.taken = true := by rw [Sample.taken, hn, Bool.true_or]
  unfold Pan.beginEntry Pan.commitEntry
  simp only [hs, ht, hn, Bool.not_true, Bool.or_self, Bool.false_eq_true, if_false, if_true, Bool.and_false]
  exact ⟨⟨rfl, rfl, rfl, hy, ha, rfl, hc⟩, rfl, rfl, rfl⟩

/-- A committed IRQ locks the winner sampled. -/
theorem At.begunIrq (hc : p.unsettled = false) (ha : p.abort = false) (hy : p.core.cyc = 0) (hs : p.core.samp.committed = false)
    (hn : p.core.samp.nmi = false) (hq : p.core.samp.irq = true) :
    At (p.locked p.core.samp.winner) p.beginEntry [] { p.cpu with pc := p.returnAddress } 0 0 ∧ p.beginEntry.core.entry = 1 ∧
      p.beginEntry.core.wait = p.core.wait := by
  have ht : p.core.samp.taken = true := by rw [Sample.taken, hq, Bool.or_true]
  unfold Pan.beginEntry Pan.commitEntry
  simp only [hs, ht, hn, Bool.not_true, Bool.or_self, Bool.false_eq_true, if_false]
  exact ⟨⟨rfl, rfl, rfl, hy, ha, rfl, hc⟩, rfl, rfl⟩

/-- NMI entry from where its edge was sampled. -/
theorem Pan.entersNmi (hc : p.unsettled = false) (ha : p.abort = false) (hy : p.core.cyc = 0) (hs : p.core.samp.committed = false)
    (hn : p.core.samp.nmi = true) (hd : ∀ a ∈ p.entryAddrs 0xFFF8, plainAddr a) :
    p.enter.cpu = p.entered 0xFFF8 ∧ p.enter.clk = p.clk + 6 ∧
      Pan.OnlyCpu (p.pokes (p.entryPushes p.returnAddress)) p.enter ∧ p.enter.core.nmi = false ∧ p.enter.core.wait = p.core.wait := by
  obtain ⟨a, he, hnmi, hwait⟩ := At.begunNmi hc ha hy hs hn
  obtain ⟨r, er, r1, r2, r3, r4⟩ := a.entered (e := 2) (hd p.cpu.s (by simp [Pan.entryAddrs])) (hd (p.cpu.s - 1) (by simp [Pan.entryAddrs]))
    (hd (p.cpu.s - 2) (by simp [Pan.entryAddrs]))
  have e : p.enter = r := by rw [Pan.enter, Pan.settle_of_calm hc, he, er]
  rw [e]
  exact ⟨r1, r2, r3, r4.nmi.trans hnmi, r4.wait.trans hwait⟩

/-- IRQ entry from where the request was sampled. -/
theorem Pan.entersIrq (hc : p.unsettled = false) (ha : p.abort = false) (hy : p.core.cyc = 0) (hs : p.core.samp.committed = false)
    (hn : p.core.samp.nmi = false) (hq : p.core.samp.irq = true) (hd : ∀ a ∈ p.entryAddrs 0xFFFC, plainAddr a) :
    p.enter.cpu = p.entered 0xFFFC ∧ p.enter.clk = p.clk + 6 ∧
      Pan.OnlyCpu ((p.locked p.core.samp.winner).pokes (p.entryPushes p.returnAddress)) p.enter ∧ p.enter.core.wait = p.core.wait := by
  obtain ⟨a, he, hwait⟩ := At.begunIrq hc ha hy hs hn hq
  obtain ⟨r, er, r1, r2, r3, r4⟩ := a.entered (e := 1) (hd p.cpu.s (by simp [Pan.entryAddrs])) (hd (p.cpu.s - 1) (by simp [Pan.entryAddrs]))
    (hd (p.cpu.s - 2) (by simp [Pan.entryAddrs]))
  have e : p.enter = r := by rw [Pan.enter, Pan.settle_of_calm hc, he, er]
  rw [e]
  refine ⟨r1.trans ?_, r2, r3, r4.wait.trans hwait⟩
  have rom : (p.locked p.core.samp.winner).wordAt (entryVector 1) = p.wordAt 0xFFFC := by
    have v : entryVector 1 = 0xFFFC := rfl
    have k (w : Word) (hw : 0xF000 ≤ w.toNat) : (p.locked p.core.samp.winner).peek w = p.peek w := Pan.peek_rom (fun _ => rfl) hw
    rw [v, Pan.wordAt, Pan.wordAt, k _ (by decide), k _ (by decide)]
  rw [rom]
  rfl

end commits

/-! ### What is handed on -/

/-- A step of a pan-cycle that begins, after which the image differs from the base `r` and plain writes in the processor alone. -/
theorem exec_pokes {i : Instr} {s : State} {p : Nat} {x : Site} {f : Pan → Option Pan} {r q : Pan} {ws : List (Word × Byte)}
    (g : State.Goes s p x) (e : exec i s = s.panStep p f) (hf : ∀ y : Pan, y.settle = x.pan → f y = some q)
    (ho : r.out = x.pan.out) (hk : r.frame = x.pan.frame) (hs : r.crust = x.pan.crust) (hw : ∀ w ∈ ws, plainAddr w.1)
    (h : Pan.OnlyCpu (r.pokes ws) q) : exec i s = .next (s.withPan p x q) := by
  obtain ⟨w1, w2, w3, -⟩ := Pan.pokes_frame ws r hw
  have quiet : Pan.Quiet x.pan q := h.quiet (w1.trans (ho.trans g.out)) (w2.trans hk) (w3.trans (hs ▸ g.served))
  rw [e, State.panStep_goes g hf, State.stepsTo_quiet g quiet]

/-- An entry's bytes lie where it may write. -/
theorem Pan.entryPushes_plain {p : Pan} {v : Word} (hd : ∀ a ∈ p.entryAddrs v, plainAddr a) (ret : Word) :
    ∀ w ∈ p.entryPushes ret, plainAddr w.1 :=
  List.forall_mem_cons.2 ⟨hd p.cpu.s (by simp [Pan.entryAddrs]),
    plain_two (hd (p.cpu.s - 1) (by simp [Pan.entryAddrs])) (hd (p.cpu.s - 2) (by simp [Pan.entryAddrs]))⟩

end Sys2Proof.Machine
end

section
/-!
Entries and `WAI` (R38, R42 to R44, R155): the statements.
-/
namespace Sys2Proof.Machine

section entries
variable {p : PanNo} {s : State} {x : Site}

theorem Pan.settle_samp (y : Pan) : y.settle.core.samp = y.core.samp := by rw [(Pan.settle_frame y).core]

/-- An entry is due before the pan-cycle before it has ended as well as after. -/
theorem Pan.canEnter_settle (y : Pan) : y.settle.canEnter = y.canEnter := by
  rw [Pan.canEnter, Pan.canEnter, (Pan.settle_frame y).core]

theorem Pan.enter_settle (y : Pan) : y.settle.enter = y.enter := by
  rw [Pan.enter, Pan.enter, Pan.settle_of_calm (Pan.settle_calm y)]

theorem runs_brk (b : State.Begins s p x .brk .implied) (h : plainCode .implied x.pan.cpu.pc)
    (hd : ∀ a ∈ x.pan.entryAddrs 0xFFFA, plainAddr a) :
    Runs (.brk p) s p x (x.pan.entered 0xFFFA) 6 (x.pan.pokes (x.pan.entryPushes (x.pan.cpu.pc + 1))) := by
  have a1 := At.fetched b.calm b.abort b.rep h.opcode
  have hw := Pan.entryPushes_plain hd (x.pan.cpu.pc + 1)
  obtain ⟨r, er, a2, ht, -⟩ := a1.enters (v := 0xFFFA) (by decide) (hd x.pan.cpu.s (by simp [Pan.entryAddrs]))
    (hd (x.pan.cpu.s - 1) (by simp [Pan.entryAddrs])) (hd (x.pan.cpu.s - 2) (by simp [Pan.entryAddrs])) [lastCycle (vectorHigh 0xFFFA)]
  obtain ⟨a3, -⟩ := a2.vectored hw (by decide) ht
  refine runs_of (o := .brk) (m := .implied) b rfl hw ?_
  show ∃ r, runPlan [Pan.fetched, pushFlags, _, _, vectorLow 0xFFFA, _] x.pan = r ∧ _
  rw [At.more _ b.calm a1, er]
  exact At.ends a2.calm a3

theorem runs_irqEntry (g : State.Goes s p x) (h : x.pan.entering) (hn : x.pan.core.samp.nmi = false) (hq : x.pan.core.samp.irq = true)
    (hs : x.pan.core.samp.committed = false) (hd : ∀ a ∈ x.pan.entryAddrs 0xFFFC, plainAddr a) :
    Runs (.irqEntry p) s p x (x.pan.entered 0xFFFC) 6
      ((x.pan.locked x.pan.core.samp.winner).pokes (x.pan.entryPushes x.pan.returnAddress)) := by
  obtain ⟨hy, he, hf⟩ := h
  obtain ⟨r1, r2, r3, -⟩ := Pan.entersIrq g.calm g.abort hy hs hn hq hd
  have due : x.pan.canEnter = true := by simp [Pan.canEnter, Sample.taken, hq, hy, he, hf]
  have e : exec (.irqEntry p) s = execIrqEntry p s := rfl
  refine ⟨x.pan.enter, exec_pokes (r := x.pan.locked x.pan.core.samp.winner) g (e.trans (execIrqEntry.eq_1 _ _))
    (fun y hy => ?_) rfl rfl rfl (Pan.entryPushes_plain hd _) r3, r1, r2, r3⟩
  rw [← Pan.canEnter_settle, ← Pan.settle_samp, hy, due, hn, ← Pan.enter_settle, hy]
  rfl

theorem exec_nmiEntry (g : State.Goes s p x) (h : x.pan.entering) (hn : x.pan.core.samp.nmi = true)
    (hs : x.pan.core.samp.committed = false) (hd : ∀ a ∈ x.pan.entryAddrs 0xFFF8, plainAddr a) :
    exec (.nmiEntry p) s = .next (s.withPan p x x.pan.enter) := by
  obtain ⟨hy, he, hf⟩ := h
  obtain ⟨-, -, r3, -⟩ := Pan.entersNmi g.calm g.abort hy hs hn hd
  have due : x.pan.canEnter = true := by simp [Pan.canEnter, Sample.taken, hn, hy, he, hf]
  have e : exec (.nmiEntry p) s = execNmiEntry p s := rfl
  refine exec_pokes (r := x.pan) g (e.trans (execNmiEntry.eq_1 _ _)) (fun y hy => ?_) rfl rfl rfl (Pan.entryPushes_plain hd _) r3
  rw [← Pan.canEnter_settle, ← Pan.settle_samp, hy, due, hn, ← Pan.enter_settle, hy]
  rfl

end entries

/-- Settles O15: `BRK` and the entries share the pushes and the vector; an entry first commits what was sampled. -/
theorem entriesPushAndVector : Obligations.EntriesPushAndVector := by
  unfold Obligations.EntriesPushAndVector
  intro p s x ret
  refine ⟨?_, ?_, ?_⟩
  · exact fun b ⟨h, hd⟩ => runs_brk b h hd
  · exact fun g h hn hq hs hd => runs_irqEntry g h hn hq hs hd
  · intro g h hn hs hd
    obtain ⟨r1, r2, r3, r4, -⟩ := Pan.entersNmi g.calm g.abort h.1 hs hn hd
    exact ⟨_, exec_nmiEntry g h hn hs hd, r1, r2, r3, r4⟩

end Sys2Proof.Machine
end

section
/-!
`WAI` (R38, R42, R43, R155): the fetch that begins it, the pan-cycle that samples a request, and what follows.
-/
namespace Sys2Proof.Machine

/-! ### The pan-cycle that ends idling -/

/-- The image after the last pan-cycle of `WAI`, which samples `s`. -/
def Pan.woken (s : Sample) (p : Pan) : Pan := (p.modCore (fun k => { k.finish with wait := false, samp := s })).spend

section woken
variable {p : Pan}

theorem Pan.woken_only (s : Sample) (p : Pan) : Pan.OnlyCpu p (p.woken s) := rfl

theorem Pan.woken_wait (s : Sample) (p : Pan) : (p.woken s).core.wait = false := rfl

/-- What an entry takes from the image is what it was before the pan-cycle. -/
theorem Pan.woken_entered (s : Sample) {v : Word} (h0 : plainAddr v) (h1 : plainAddr (v + 1)) (p : Pan) :
    (p.woken s).entered v = p.entered v := by
  have w : (p.woken s).wordAt v = p.wordAt v := (Pan.woken_only s p).wordAt h0 h1
  unfold Pan.entered
  rw [w]
  rfl

theorem Pan.sampleNow_taken (p : Pan) : p.sampleNow.taken = (p.core.nmi || ((p.ic.winner p.clk).isSome && !p.cpu.f.getLsbD 3)) := rfl

/-- A request that is not admitted lets the pan go on. -/
theorem Pan.wake_goesOn (hc : p.unsettled = false) (hn : p.core.nmi = false) (hi : p.cpu.f.getLsbD 3 = true)
    (hw : (p.ic.winner p.clk).isSome = true) : p.wake = p.woken Sample.none := by
  have ht : p.sampleNow.taken = false := by rw [Pan.sampleNow_taken, hn, hi, Bool.not_true, Bool.and_false]; rfl
  have hr : p.sampleNow.req = true := hw
  have e : p.idle.spend = p.woken Sample.none := by rw [Pan.idle, ht, hr]; rfl
  have n : (p.woken Sample.none).core.samp.taken = false := rfl
  simp only [Pan.wake, Pan.settle_of_calm hc, e, n, Bool.false_eq_true, if_false]

/-- A request that is admitted is entered. -/
theorem Pan.wake_enters (hc : p.unsettled = false) (ht : p.sampleNow.taken = true) : p.wake = (p.woken p.sampleNow).enter := by
  have e : p.idle.spend = p.woken p.sampleNow := by rw [Pan.idle, ht]; rfl
  have n : (p.woken p.sampleNow).core.samp.taken = true := ht
  simp only [Pan.wake, Pan.settle_of_calm hc, e, n, if_true]

end woken

/-- Plain writes to images that differ in the processor alone leave images that do. -/
theorem Pan.OnlyCpu.pokes : ∀ {p q : Pan} (_ : Pan.OnlyCpu p q) {ws : List (Word × Byte)} (_ : ∀ w ∈ ws, plainAddr w.1),
    Pan.OnlyCpu (p.pokes ws) (q.pokes ws)
  | _, _, h, [], _ => h
  | _, _, h, w :: _, hw => (h.poke (hw w (by simp)) w.2).pokes (fun u hu => hw u (by simp [hu]))

/-! ### The instruction -/

section wai
variable {p : PanNo} {s : State} {x : Site}

theorem exec_wai (b : State.Begins s p x .wai .implied) :
    exec (.wai p) s = .next (s.withPan p x (waiFetch x.pan).spend) := by
  have ab : (waiFetch x.pan).abort = false := (Pan.fetched_abort x.pan).trans b.abort
  have q : Pan.Quiet x.pan (waiFetch x.pan).spend :=
    ⟨(Pan.fetched_out x.pan).trans b.out, (Pan.fetched_frameNo x.pan).le,
      (congrArg Crust.served (Pan.fetched_crust x.pan)).trans b.served⟩
  exact State.instruct_next b (runPlan_last b.calm ab) q

/-- Nothing is requested: `WAI` goes on idling. -/
theorem exec_waiWake_idle (g : State.Goes s p x) (hn : x.pan.core.nmi = false) (hw : x.pan.ic.winner x.pan.clk = none) :
    exec (.waiWake p) s = .next s := by
  have e : exec (.waiWake p) s = execWaiWake p s := rfl
  obtain ⟨y, hy, hx⟩ := g.live
  have hp : y.pan.settle = x.pan := by rw [hx]; rfl
  rw [e, execWaiWake]
  refine State.panStep_none (fun z hz => ?_)
  obtain rfl : y = z := Option.some.inj (hy.symm.trans hz)
  have hr : x.pan.sampleNow.req = false := by rw [Pan.sampleNow, hw]; rfl
  have ht : x.pan.sampleNow.taken = false := by rw [Pan.sampleNow_taken, hn, hw]; rfl
  simp only [hp, hr, ht, Bool.or_self, Bool.and_false, Bool.false_eq_true, if_false]

/-- A request is sampled: the pan wakes. -/
theorem exec_waiWake {r : Pan} {ws : List (Word × Byte)} (g : State.Goes s p x) (hi : x.pan.core.wait = true)
    (hr : (x.pan.sampleNow.taken || x.pan.sampleNow.req) = true) (ho : r.out = x.pan.out) (hk : r.frame = x.pan.frame)
    (hs : r.crust = x.pan.crust) (hw : ∀ w ∈ ws, plainAddr w.1) (h : Pan.OnlyCpu (r.pokes ws) x.pan.wake) :
    exec (.waiWake p) s = .next (s.withPan p x x.pan.wake) := by
  have e : exec (.waiWake p) s = execWaiWake p s := rfl
  refine exec_pokes g (e.trans (execWaiWake.eq_1 _ _)) (fun y hy => ?_) ho hk hs hw h
  simp only [hy, hi, hr, Bool.and_self, if_true]

end wai

/-- Settles O16: the fetch, the idling that samples nothing, and the pan-cycle that samples a request with what follows it. -/
theorem waiIdlesAndWakes : Obligations.WaiIdlesAndWakes := by
  unfold Obligations.WaiIdlesAndWakes
  intro p s x
  refine ⟨?_, ?_, ?_, ?_, ?_⟩
  · intro b
    have t : Pan.OnlyCpu (x.pan.touch x.pan.cpu.pc) x.pan.fetched := (Pan.readTouch_only x.pan.cpu.pc x.pan).trans rfl
    exact ⟨_, exec_wai b, Pan.fetched_cpu x.pan, congrArg (· + 1) (Pan.fetched_clk x.pan), rfl, t.trans rfl, Pan.fetched_stores x.pan,
      fun h => ((Pan.fetched_only h).core _).spend⟩
  · exact fun g hn hw => exec_waiWake_idle g hn hw
  · intro g hi hn hf hw
    have e := Pan.wake_goesOn g.calm hn hf hw
    have hr : x.pan.sampleNow.req = true := hw
    refine ⟨_, exec_waiWake (r := x.pan) (ws := []) g hi (by rw [hr, Bool.or_true]) rfl rfl rfl (by simp) (e ▸ rfl), ?_⟩
    rw [e]
    exact ⟨rfl, rfl, rfl, rfl⟩
  · intro g hi hn hd
    have ht : x.pan.sampleNow.taken = true := by rw [Pan.sampleNow_taken, hn, Bool.true_or]
    obtain ⟨r1, r2, r3, r4, r5⟩ := Pan.entersNmi (p := x.pan.woken x.pan.sampleNow) g.calm g.abort rfl rfl hn hd
    rw [← Pan.wake_enters g.calm ht] at r1 r2 r3 r4 r5
    have k := ((Pan.woken_only x.pan.sampleNow x.pan).pokes (Pan.entryPushes_plain hd x.pan.returnAddress)).trans r3
    exact ⟨_, exec_waiWake (r := x.pan) g hi (by rw [ht, Bool.true_or]) rfl rfl rfl (Pan.entryPushes_plain hd _) k,
      r1.trans (Pan.woken_entered _ (.inr (by decide)) (.inr (by decide)) _), r2, k, r4, r5⟩
  · intro w g hi hn hf hw hd
    have ht : x.pan.sampleNow.taken = true := by rw [Pan.sampleNow_taken, hn, hf, hw]; rfl
    have hq : x.pan.sampleNow.irq = true := by rw [Pan.sampleNow, hw, Cpu.i, hf]; rfl
    have hl : x.pan.sampleNow.winner = if x.pan.ic.legacy then none else some w.val := by rw [Pan.sampleNow, hw]; rfl
    obtain ⟨r1, r2, r3, r5⟩ := Pan.entersIrq (p := x.pan.woken x.pan.sampleNow) g.calm g.abort rfl rfl hn hq hd
    rw [← Pan.wake_enters g.calm ht] at r1 r2 r3 r5
    have o : Pan.OnlyCpu (x.pan.locked x.pan.sampleNow.winner) ((x.pan.woken x.pan.sampleNow).locked x.pan.sampleNow.winner) := rfl
    have k := (o.pokes (Pan.entryPushes_plain hd x.pan.returnAddress)).trans r3
    rw [hl] at k
    exact ⟨_, exec_waiWake (r := x.pan.locked _) g hi (by rw [ht, Bool.true_or]) rfl rfl rfl (Pan.entryPushes_plain hd _) k,
      r1.trans (Pan.woken_entered _ (.inr (by decide)) (.inr (by decide)) _), r2, k, r5⟩

end Sys2Proof.Machine
end

section
/-!
`REP` (R46, R47, R60): the pan-cycle of its own byte, an iteration of each kind, and the sequence of `NOP`.
-/
namespace Sys2Proof.Machine

/-! ### Where a sequence stands -/

/-- The image `q` stands before an iteration of the `REP` whose own byte `p` stands at, `n` pan-cycles on, with K at `k`. -/
structure Pan.Repeats (p q : Pan) (k : Byte) (n : Nat) : Prop where
  only : Pan.OnlyCpu p q
  cpu : q.cpu = { p.cpu with pc := p.cpu.pc + 1, k := k }
  clk : q.clk = p.clk + n
  abort : q.abort = false
  calm : q.unsettled = false
  rep : q.core.rep = true
  start : q.core.start = p.cpu.pc
  fault : q.core.fault = 0
  nmi : q.core.nmi = p.core.nmi
  idle : q.core.samp.taken = false

section sequence
variable {p q : Pan} {k : Byte} {n : Nat}

/-- An iteration follows. -/
theorem Pan.Repeats.runs (h : Pan.Repeats p q k n) (m : Nat) : Pan.repRun (m + 1) q = Pan.repRun m q.repIteration := by
  rw [Pan.repRun, h.rep, h.idle, h.fault]
  rfl

theorem Pan.repRun_over (h : q.core.rep = false) (m : Nat) : Pan.repRun m q = q := by
  cases m with
  | zero => rfl
  | succ m => rw [Pan.repRun, h]; rfl

theorem Pan.Repeats.target (h : Pan.Repeats p q k n) (hp : plainAddr (p.cpu.pc + 1)) :
    q.opAt = decodeOp (p.peek (p.cpu.pc + 1)) := by
  rw [Pan.opAt, h.cpu, h.only.peek hp]

theorem Pan.ready_idle (h : p.ready = true) : p.core.samp.taken = false ∧ p.core.fault = 0 := by
  simp only [Pan.ready, Bool.and_eq_true, Bool.not_eq_true', beq_iff_eq] at h
  exact ⟨h.1.2, h.2⟩

/-- The pan-cycle of its own byte begins the sequence. -/
theorem Pan.repeats_prefix (hc : p.unsettled = false) (ha : p.abort = false) (hr : p.ready = true) (hp : plainAddr p.cpu.pc) :
    Pan.Repeats p (repFetch p).spend p.cpu.k 1 := by
  have rep := Pan.ready_rep hr
  obtain ⟨hs, hf⟩ := Pan.ready_idle hr
  refine ⟨((Pan.fetched_only hp).core _).spend, Pan.fetched_cpu p, congrArg (· + 1) (Pan.fetched_clk p), (Pan.fetched_abort p).trans ha,
    (Pan.fetched_unsettled p).trans hc, rfl, ?_, (Pan.readTouch_fault _ p).trans hf, Pan.readTouch_nmi _ p, ?_⟩
  · show (if (p.readTouch p.cpu.pc).core.rep then _ else _) = _
    rw [Pan.readTouch_rep, rep]
    rfl
  · rw [← hs]
    exact congrArg Sample.taken (Pan.readTouch_samp _ p)

/-! ### One iteration -/

/-- A target that is refused, or undefined, faults at that byte in one pan-cycle. -/
theorem Pan.Repeats.faults (h : Pan.Repeats p q p.cpu.k n) {c : Byte} (e : q.repIteration = (q.faultWith c q.core.start).spend) (m : Nat) :
    Pan.repRun (m + 1) q = (q.faultWith c p.cpu.pc).spend ∧ (q.faultWith c p.cpu.pc).cpu = p.cpu := by
  rw [h.runs, e, h.start]
  refine ⟨Pan.repRun_over rfl m, ?_⟩
  show ({ q.cpu with pc := p.cpu.pc } : Cpu) = p.cpu
  rw [h.cpu]

theorem Pan.Repeats.undefined (h : Pan.Repeats p q k n) (t : q.opAt = none) :
    q.repIteration = (q.faultWith 1 q.core.start).spend := by
  simp only [Pan.repIteration, Pan.settle_of_calm h.calm, t]

theorem Pan.Repeats.forbidden (h : Pan.Repeats p q k n) {o : Op} {m : Mode} (t : q.opAt = some (o, m)) (hf : o.repForbidden = true) :
    q.repIteration = (q.faultWith 2 q.core.start).spend := by
  simp only [Pan.repIteration, Pan.settle_of_calm h.calm, t, hf, Bool.true_or, if_true, repTarget]

/-- The pan-cycle that skips a target of form `m`. -/
def repSkip (m : Mode) : Micro := fun q =>
  ((q.fetched).jumpTo (q.cpu.pc + BitVec.ofNat 16 (instrLength m))).modCore (fun k => { k with rep := false })

/-- With K = 0 the target is skipped in one pan-cycle. -/
theorem Pan.Repeats.skips (h : Pan.Repeats p q 0 n) {o : Op} {m : Mode} (t : q.opAt = some (o, m)) (hf : o.repForbidden = false) :
    q.repIteration = (lastCycle (repSkip m) q).spend := by
  have hk : q.cpu.k = 0 := by rw [h.cpu]
  simp only [Pan.repIteration, Pan.settle_of_calm h.calm, t, hf, hk, BEq.rfl, Bool.or_true, if_true, repTarget, Bool.false_eq_true,
    if_false]
  rfl

/-- The skip ends the sequence with PC past the target. -/
theorem Pan.Repeats.skipped (h : Pan.Repeats p q 0 n) (hp : plainAddr (p.cpu.pc + 1)) (m : Mode) :
    (lastCycle (repSkip m) q).spend.core.rep = false ∧
      (lastCycle (repSkip m) q).spend.cpu = { p.cpu with pc := p.cpu.pc + 1 + BitVec.ofNat 16 (1 + operandBytes m), k := 0 } ∧
      (lastCycle (repSkip m) q).spend.clk = p.clk + (n + 1) ∧ Pan.OnlyCpu p (lastCycle (repSkip m) q).spend := by
  have hq : plainAddr q.cpu.pc := by rw [h.cpu]; exact hp
  have ab : (repSkip m q).abort = false := (Pan.fetched_abort q).trans h.abort
  have cpu : (repSkip m q).cpu = { q.fetched.cpu with pc := q.cpu.pc + BitVec.ofNat 16 (instrLength m) } := rfl
  have clk : (repSkip m q).clk = q.clk := Pan.fetched_clk q
  have only : Pan.OnlyCpu q (repSkip m q) := ((Pan.fetched_only hq).cpu _).core _
  have rep : (repSkip m q).core.rep = false := rfl
  have k := lastCycle_ok ab rep
  generalize repSkip m q = r at *
  rw [k]
  refine ⟨rep, cpu.trans ?_, congrArg (· + 1) (clk.trans h.clk), (h.only.trans only).trans rfl⟩
  rw [Pan.fetched_cpu, h.cpu]
  rfl

/-! ### `NOP` -/

/-- The pan-cycle of `NOP`. -/
def nopCycle : Micro := fun p => (p.fetched).modCpu Cpu.nop

/-- What the pan-cycle of `NOP` leaves before K is counted. -/
structure Pan.Nopped (q r : Pan) : Prop where
  only : Pan.OnlyCpu q r
  cpu : r.cpu = { q.cpu with pc := q.cpu.pc + 1 }
  clk : r.clk = q.clk
  abort : r.abort = q.abort
  calm : r.unsettled = q.unsettled
  rep : r.core.rep = q.core.rep
  start : q.core.rep = true → r.core.start = q.core.start
  fault : r.core.fault = q.core.fault
  nmi : r.core.nmi = q.core.nmi

theorem Pan.nopped (hq : plainAddr q.cpu.pc) : Pan.Nopped q (nopCycle q) where
  only := (Pan.fetched_only hq).cpu _
  cpu := Pan.fetched_cpu q
  clk := Pan.fetched_clk q
  abort := Pan.fetched_abort q
  calm := Pan.fetched_unsettled q
  rep := Pan.fetched_rep q
  start h := by
    show (if (q.readTouch q.cpu.pc).core.rep then (q.readTouch q.cpu.pc).core.start else _) = _
    rw [Pan.readTouch_rep, h, Pan.readTouch_start]
    rfl
  fault := Pan.readTouch_fault _ q
  nmi := Pan.readTouch_nmi _ q

theorem Pan.resolveLine_cpu (p : Pan) : p.resolveLine.cpu = p.cpu := rfl

/-- The final pan-cycle of an iteration, K counted at its end. -/
theorem lastCycle_iteration {f : Micro} (h : (f p).abort = false) : lastCycle f p = (((f p).resolveLine).repStep).modCore
    (fun k => { k.finish with samp := { p.sampleNow with winner := lockWinner p (f p) p.sampleNow } }) := by
  simp only [lastCycle, h, Bool.false_eq_true, if_false]

theorem Pan.repStep_abort (p : Pan) : p.repStep.abort = p.abort := by
  unfold Pan.repStep
  by_cases h : p.core.rep = true
  · rw [if_pos h]
    by_cases k : p.cpu.k - 1 = 0
    · rw [if_pos k]; rfl
    · rw [if_neg k]; rfl
  · rw [if_neg h]

/-- The last iteration: K becomes 0 and the sequence is over. -/
theorem Pan.repStep_last (hr : p.core.rep = true) (hk : p.cpu.k = 1) :
    p.repStep = (p.modCpu (fun c => { c with k := 0 })).modCore (fun x => { x with rep := false }) := by
  simp [Pan.repStep, hr, hk]

/-- Another iteration follows: K is counted down and PC goes back to the target. -/
theorem Pan.repStep_more (hr : p.core.rep = true) (hk : p.cpu.k ≠ 1) :
    p.repStep = p.modCpu (fun c => { c with k := p.cpu.k - 1, pc := p.core.start + 1 }) := by
  have k : p.cpu.k - 1 ≠ 0 := fun e => hk (by simpa using sub_eq_zero.1 e)
  simp only [Pan.repStep, hr, k, if_true, if_false]

theorem Pan.Repeats.nops (h : Pan.Repeats p q k n) (hk : k ≠ 0) (t : q.opAt = some (.nop, .implied)) :
    q.repIteration = (lastCycle nopCycle q).spend := by
  have hk' : (q.cpu.k == 0) = false := by rw [h.cpu]; exact beq_eq_false_iff_ne.2 hk
  have hp : plan Op.nop.action .implied = [lastCycle nopCycle] := rfl
  have e : (nopCycle q).abort = false := (Pan.fetched_abort q).trans h.abort
  have ab : (lastCycle nopCycle q).abort = false := by
    rw [lastCycle_iteration e]
    exact (Pan.repStep_abort _).trans e
  simp only [Pan.repIteration, Pan.settle_of_calm h.calm, t, hk', Op.repForbidden, Bool.or_false, Bool.false_eq_true, if_false, hp]
  exact runPlan_last h.calm ab

/-- With K = 1 the iteration is the last. -/
theorem Pan.Repeats.nopLast (h : Pan.Repeats p q 1 n) (hp : plainAddr (p.cpu.pc + 1)) :
    (lastCycle nopCycle q).spend.core.rep = false ∧
      (lastCycle nopCycle q).spend.cpu = { p.cpu with pc := p.cpu.pc + 2, k := 0 } ∧
      (lastCycle nopCycle q).spend.clk = p.clk + (n + 1) ∧ Pan.OnlyCpu p (lastCycle nopCycle q).spend := by
  have N := Pan.nopped (q := q) (by rw [h.cpu]; exact hp)
  have e := lastCycle_iteration (N.abort.trans h.abort)
  generalize nopCycle q = r at N e
  rw [e, Pan.repStep_last (p := r.resolveLine) (N.rep.trans h.rep) (by rw [Pan.resolveLine_cpu, N.cpu, h.cpu])]
  refine ⟨rfl, ?_, congrArg (· + 1) (N.clk.trans h.clk), (h.only.trans N.only).trans rfl⟩
  show { r.cpu with k := 0 } = _
  rw [N.cpu, h.cpu, pc_two]

/-- With K above 1 another iteration follows, if no interrupt is admitted. -/
theorem Pan.Repeats.nopMore (h : Pan.Repeats p q k n) (hk : k ≠ 1) (hp : plainAddr (p.cpu.pc + 1)) (hn : p.core.nmi = false)
    (hi : p.cpu.f.getLsbD 3 = true) : Pan.Repeats p (lastCycle nopCycle q).spend (k - 1) (n + 1) := by
  have N := Pan.nopped (q := q) (by rw [h.cpu]; exact hp)
  have e := lastCycle_iteration (N.abort.trans h.abort)
  have hs : q.sampleNow.taken = false := by
    rw [Pan.sampleNow_taken, h.nmi, hn, h.cpu, hi, Bool.not_true, Bool.and_false]
    rfl
  generalize nopCycle q = r at N e
  rw [e, Pan.repStep_more (p := r.resolveLine) (N.rep.trans h.rep) (by rw [Pan.resolveLine_cpu, N.cpu, h.cpu]; exact hk)]
  refine ⟨(h.only.trans N.only).trans rfl, ?_, congrArg (· + 1) (N.clk.trans h.clk), N.abort.trans h.abort, N.calm.trans h.calm,
    N.rep.trans h.rep, (N.start h.rep).trans h.start, N.fault.trans h.fault, N.nmi.trans h.nmi, hs⟩
  show { r.cpu with k := r.cpu.k - 1, pc := r.core.start + 1 } = _
  rw [N.cpu, h.cpu, N.start h.rep, h.start]

/-- A sequence of `NOP`, from where K iterations are left. -/
theorem Pan.Repeats.nopRun (hp : plainAddr (p.cpu.pc + 1)) (ht : decodeOp (p.peek (p.cpu.pc + 1)) = some (.nop, .implied))
    (hn : p.core.nmi = false) (hi : p.cpu.f.getLsbD 3 = true) (j : Nat) : ∀ {q : Pan} {k : Byte} {n : Nat} (m : Nat),
    Pan.Repeats p q k n → k.toNat = j + 1 → j < m →
    (Pan.repRun m q).cpu = { p.cpu with pc := p.cpu.pc + 2, k := 0 } ∧ (Pan.repRun m q).clk = p.clk + (n + k.toNat) ∧
      Pan.OnlyCpu p (Pan.repRun m q) := by
  induction j with
  | zero =>
    intro q k n m h hk hm
    obtain ⟨m, rfl⟩ : ∃ l, m = l + 1 := ⟨m - 1, by omega⟩
    obtain rfl : k = 1 := BitVec.eq_of_toNat_eq hk
    obtain ⟨r0, r1, r2, r3⟩ := h.nopLast hp
    rw [h.runs, h.nops (by decide) ((h.target hp).trans ht), Pan.repRun_over r0]
    exact ⟨r1, r2, r3⟩
  | succ j ih =>
    intro q k n m h hk hm
    obtain ⟨m, rfl⟩ : ∃ l, m = l + 1 := ⟨m - 1, by omega⟩
    have k0 : k ≠ 0 := by rintro rfl; simp at hk
    have k1 : k ≠ 1 := by rintro rfl; simp at hk
    have less : (k - 1).toNat = j + 1 := by
      rw [BitVec.toNat_sub_of_le (BitVec.le_def.2 (by rw [hk]; simp)), hk]
      rfl
    rw [h.runs, h.nops k0 ((h.target hp).trans ht)]
    obtain ⟨r1, r2, r3⟩ := ih m (h.nopMore k1 hp hn hi) less (by omega)
    exact ⟨r1, by rw [r2]; omega, r3⟩

end sequence

/-! ### The statement -/

section rep
variable {p : PanNo} {s : State} {x : Site}

/-- `REP` runs the pan-cycle of its own byte, and then the sequence. -/
theorem exec_rep (b : State.Begins s p x .rep .implied) :
    exec (.rep p) s = .next (s.stepsTo p x (Pan.repRun 257 (repFetch x.pan).spend)) := by
  have e : exec (.rep p) s = execRep p s := rfl
  have hr : x.pan.afterReset = x.pan := by simp [Pan.afterReset, b.reset, Pan.resetCycles]
  have hp : runPlan (plan Op.rep.action .implied) x.pan = (repFetch x.pan).spend :=
    runPlan_last b.calm ((Pan.fetched_abort x.pan).trans b.abort)
  rw [e, execRep, b.halt, if_neg (by decide)]
  refine State.panStep_goes b.toGoes (fun r hs => ?_)
  have ni : x.pan.inRep = false := by simp [Pan.inRep, b.rep]
  have go : x.pan.execOp .rep .implied = some ((repFetch x.pan).spend) := by
    simp only [Pan.execOp, Pan.settle_of_calm b.calm, hr, b.ready, b.here, BEq.rfl, Bool.and_self, if_true, hp]
  simp only [Pan.execRep, hs, hr, ni, go, Bool.false_eq_true, if_false, Option.map_some]

/-- A sequence that changes nothing but the processor. -/
theorem runs_rep (b : State.Begins s p x .rep .implied) {c : Cpu} {n : Nat}
    (h : (Pan.repRun 257 (repFetch x.pan).spend).cpu = c ∧ (Pan.repRun 257 (repFetch x.pan).spend).clk = x.pan.clk + n ∧
      Pan.OnlyCpu x.pan (Pan.repRun 257 (repFetch x.pan).spend)) : Runs (.rep p) s p x c n x.pan := by
  obtain ⟨h1, h2, h3⟩ := h
  exact ⟨_, (exec_rep b).trans (by rw [State.stepsTo_quiet b.toGoes (h3.quiet b.out rfl b.served)]), h1, h2, h3⟩

end rep

/-- Settles O17: each kind of target by its iteration, the run of `NOP` by induction on K. -/
theorem repRunsItsTarget : Obligations.RepRunsItsTarget := by
  unfold Obligations.RepRunsItsTarget
  intro p s x b h0 h1 target
  have R := Pan.repeats_prefix b.calm b.abort b.ready h0
  have skip {o : Op} {m : Mode} (ht : target = some (o, m)) (hf : o.repForbidden = false) (hk : x.pan.cpu.k = 0) :
      Runs (.rep p) s p x { x.pan.cpu with pc := x.pan.cpu.pc + 1 + BitVec.ofNat 16 (1 + operandBytes m), k := 0 } 2 x.pan := by
    rw [hk] at R
    obtain ⟨r0, r1, r2, r3⟩ := R.skipped h1 m
    refine runs_rep b ?_
    rw [R.runs, R.skips ((R.target h1).trans ht) hf, Pan.repRun_over r0]
    exact ⟨r1, r2, r3⟩
  refine ⟨?_, ?_, ?_, ?_⟩
  · intro o m ht hf hk
    have e := skip ht hf hk
    rwa [← hk] at e
  · intro o m ht hf
    obtain ⟨e, hc⟩ := R.faults (R.forbidden ((R.target h1).trans ht) hf) 256
    rw [exec_rep b, e]
    exact ⟨_, rfl, rfl, hc, congrArg (· + 1) R.clk⟩
  · intro ht
    obtain ⟨e, hc⟩ := R.faults (R.undefined ((R.target h1).trans ht)) 256
    rw [exec_rep b, e]
    exact ⟨_, rfl, rfl, hc, congrArg (· + 1) R.clk⟩
  · intro ht hn hi
    by_cases hk : x.pan.cpu.k = 0
    · rw [if_pos hk]
      have e := skip ht rfl hk
      rwa [show x.pan.cpu.pc + 1 + BitVec.ofNat 16 (1 + operandBytes .implied) = x.pan.cpu.pc + 2 from pc_two _] at e
    · rw [if_neg hk]
      have hj : x.pan.cpu.k.toNat = (x.pan.cpu.k.toNat - 1) + 1 := by
        have : x.pan.cpu.k.toNat ≠ 0 := fun e => hk (BitVec.eq_of_toNat_eq e)
        omega
      exact runs_rep b (R.nopRun h1 ht hn hi _ 257 hj (by omega))

end Sys2Proof.Machine
end

section
/-!
A pan that faults (R60, R199): what is handed on leaves the image as the fault made it, and the pan `FAULTED`.
-/
namespace Sys2Proof.Machine

/-! ### Commands that end leave the pans' records alone -/

theorem State.foldl_sites {α : Type} {f : State → α → State} (h : ∀ s a, (f s a).sites = s.sites) (l : List α) (s : State) :
    (l.foldl f s).sites = s.sites := by
  induction l generalizing s with
  | nil => rfl
  | cons a l ih => exact (ih (f s a)).trans (h s a)

theorem State.partDone_sites (t status : Nat) (s : State) : (s.partDone t status).sites = s.sites := by
  unfold State.partDone
  cases Table.get s.commits t with
  | none => rfl
  | some m =>
    refine (apply_ite State.sites _ _ _).trans ?_
    rw [(State.complete_eventful _ _ _ _ _ _).sites]
    exact ite_self _

theorem State.finish_sites (w : Waiting) (status : Nat) (result : List Byte) (s : State) : (s.finish w status result).sites = s.sites := by
  unfold State.finish
  cases w.txn with
  | none => exact (State.complete_eventful _ _ _ _ _ _).sites
  | some t => exact State.partDone_sites t status s

theorem State.saveTo_sites (q : Snapshot) (c : Packet) (s : State) : (s.saveTo q c).sites = s.sites := by
  rw [State.saveTo_eq]

theorem State.finishSaves_sites (p : Nat) (s : State) : (s.finishSaves p).sites = s.sites := by
  unfold State.finishSaves
  cases s.site p with
  | none => rfl
  | some x => exact State.foldl_sites (fun t w => (State.finish_sites w _ _ _).trans (State.saveTo_sites _ _ t)) _ _

theorem State.dropWaiting_sites (f : Waiting → Bool) (status : Nat) (s : State) : (s.dropWaiting f status).sites = s.sites :=
  State.foldl_sites (fun t w => State.finish_sites w status [] t) _ _

theorem State.finishHalt_sites (q : Pan) (status : Nat) (met : Bool) (pl : Placement) (s : State) :
    (s.finishHalt q status met pl).sites = s.sites := by
  unfold State.finishHalt
  cases pl.kind
  case halt => exact (State.complete_eventful _ _ _ _ _ _).sites
  all_goals rfl

/-- The commands that wait on a pan are aborted: of its record only the halts in its queue go. -/
theorem State.abortWaiting_site {s : State} {p : Nat} {x : Site} (h : s.site p = some x) :
    (s.abortWaiting p).site p = some { x with plQ := x.plQ.filter (fun q => !q.kind.isHalt) } := by
  have e : (s.dropWaiting (Waiting.onPan p) stAborted).site p = some x := by
    rw [State.site, State.dropWaiting_sites]
    exact h
  rw [State.abortWaiting, State.abortHalts, e]
  exact State.site_putSite_same _ _ _

/-! ### The fault -/

theorem Site.log_pan (l : List LogRec) (x : Site) : (Site.log l x).pan = x.pan := by
  unfold Site.log
  split <;> rfl

/-- A call that ends, where the pan waits for none, leaves the processor and the memories as they are. -/
theorem Site.endCall_keeps (now : Nat) {x : Site} (h : x.pan.core.hcWait = false) :
    (Site.endCall now x).dropQueues.pan.core = x.pan.core ∧ (Site.endCall now x).dropQueues.pan.cpu = x.pan.cpu ∧
      (Site.endCall now x).dropQueues.pan.clk = x.pan.clk ∧ (Site.endCall now x).dropQueues.pan.stores = x.pan.stores ∧
      (Site.endCall now x).dropQueues.pan.frame = x.pan.frame := by
  have e : (Site.endCall now x).dropQueues.pan = (Site.endCall now x).pan.modMb (fun b => { b with queue := [] }) := rfl
  rw [e]
  unfold Site.endCall
  cases x.pan.hc.pend
  · exact ⟨rfl, rfl, rfl, rfl, rfl⟩
  · rw [if_pos rfl, h, if_neg (by decide), Site.log_pan]
    exact ⟨rfl, rfl, rfl, rfl, rfl⟩

/-- The pan faults: its record. -/
theorem State.faultPan_site {s : State} {p : Nat} {x : Site} (h : s.site p = some x) (hw : x.pan.core.hcWait = false) (cause : Byte)
    (pc : Word) (redo : Bool) : ∃ y, (s.faultPan p cause pc redo).site p = some y ∧ y.mode = .faulted ∧ y.boiler = none ∧
      y.pan.core = x.pan.core ∧ y.pan.cpu = x.pan.cpu ∧ y.pan.clk = x.pan.clk ∧ y.pan.stores = x.pan.stores ∧
      y.pan.frame = x.pan.frame := by
  have saved : (s.finishSaves p).site p = some x := by
    rw [State.site, State.finishSaves_sites]
    exact h
  have dropped : (((s.finishSaves p).abortWaiting p).dropCalls p).site p = some { x with plQ := x.plQ.filter (fun q => !q.kind.isHalt) } :=
    State.abortWaiting_site saved
  rw [State.faultPan, h]
  dsimp only
  rw [State.site_post, State.modSite_eq dropped, State.site_putSite_same]
  exact ⟨_, rfl, rfl, rfl, Site.endCall_keeps s.now (x := { x with plQ := x.plQ.filter (fun q => !q.kind.isHalt) }) hw⟩

section illegal
variable {p : Nat} {s : State} {x : Site}

/-- Where no frame has ended, the device is as what the pan put out left it. -/
theorem State.afterPan_flush {t u : State} {y : Site} {old : Pan} (hc : t.crystallize p = t) (hu : t.flush p false = u)
    (hy : u.site p = some y) (hf : y.pan.frame ≤ old.frame) : t.afterPan p old false = u := by
  have n : (u.site p).any (fun x => decide (old.frame < x.pan.frame)) = false := by
    rw [hy, Option.any_some]
    exact decide_eq_false (by omega)
  rw [State.afterPan, hc, hu]
  exact if_neg (by rw [n]; decide)

/-- No line was served: none is counted. -/
theorem State.crystallize_none {t : State} {y : Site} (hy : t.site p = some y) (h : y.pan.crust.served = 0) : t.crystallize p = t := by
  simp only [State.crystallize, hy, h, if_true]

/-- The outbox of a record holds one fault. -/
theorem State.flush_fault {t : State} {y : Site} (hy : t.site p = some y) {cause : Byte} {pc : Word}
    (ho : y.pan.out = [.fault cause pc]) : t.flush p false =
      (t.putSite p (y.settleCredits.modPan (fun q => { q with out := [] }))).faultPan p cause pc false := by
  simp only [State.flush, hy, ho, List.foldl_cons, List.foldl_nil, State.takeOut]

/-- A pan-cycle after which the pan hands on a fault and nothing else. -/
theorem State.stepsTo_fault (g : State.Goes s p x) {q : Pan} {cause : Byte} {pc : Word} (ho : q.out = [.fault cause pc])
    (hf : q.frame = x.pan.frame) (hc : q.crust.served = 0) (hw : q.core.hcWait = false) :
    ∃ y, (s.stepsTo p x q).site p = some y ∧ y.mode = .faulted ∧ y.boiler = none ∧
      y.pan.core = q.core ∧ y.pan.cpu = q.cpu ∧ y.pan.clk = q.clk ∧ y.pan.stores = q.stores := by
  obtain ⟨z, hz, rfl⟩ := g.live
  have old : ((s.site p).map (fun y => y.pan)).getD z.settled.pan = z.pan := by rw [State.liveSite_site hz]; rfl
  have ht : (s.putSite p { z.settled with pan := q, dirty := true }).site p = some { z.settled with pan := q, dirty := true } :=
    State.site_putSite_same _ _ _
  have crystal := State.crystallize_none ht hc
  have flushed := State.flush_fault ht ho
  obtain ⟨y, hy, hm, hb, k1, k2, k3, k4, k5⟩ := State.faultPan_site (State.site_putSite_same p
    (Site.modPan (fun q => { q with out := [] }) (Site.settleCredits { z.settled with pan := q, dirty := true }))
    (s.putSite p { z.settled with pan := q, dirty := true })) hw cause pc false
  refine ⟨y, ?_, hm, hb, k1, k2, k3, k4⟩
  have frame : y.pan.frame ≤ z.pan.frame := by
    rw [k5, ← Pan.settle_frameNo z.pan]
    exact hf.le
  rw [State.stepsTo, old, State.afterPan_flush crystal flushed hy frame]
  exact hy

theorem Pan.ready_hcWait {p : Pan} (h : p.ready = true) : p.core.hcWait = false := by
  simp only [Pan.ready, Bool.and_eq_true, Bool.not_eq_true'] at h
  exact h.1.1.1.2

theorem exec_illegalOp {p : PanNo} (g : State.Goes s p x) (hh : (s.site p).any Site.haltsHere = false) (hz : x.pan.core.resetLeft = 0)
    (hr : x.pan.ready = true) (ho : x.pan.opAt = none) : exec (.illegalOp p) s = .next (s.stepsTo p x x.pan.illegal) := by
  have e : exec (.illegalOp p) s = execIllegalOp p s := rfl
  have after : x.pan.afterReset = x.pan := by simp [Pan.afterReset, hz, Pan.resetCycles]
  rw [e, execIllegalOp, hh, if_neg (by decide)]
  refine State.panStep_goes g (fun r hs => ?_)
  simp only [hs, after, hr, ho, Option.isNone_none, Bool.and_self, if_true]

end illegal

/-- Settles O18: the fault is all the image changes by, and what the device does with it leaves the image so. -/
theorem illegalOpFaults : Obligations.IllegalOpFaults := by
  unfold Obligations.IllegalOpFaults
  intro p s x g hh hz hr ho
  have out : x.pan.illegal.out = [.fault 1 x.pan.cpu.pc] := by
    show x.pan.out ++ _ = _
    rw [g.out, List.nil_append]
  have waits : x.pan.illegal.core.hcWait = false := Pan.ready_hcWait (p := x.pan) hr
  obtain ⟨y, hy, hm, hb, k1, k2, k3, k4⟩ := State.stepsTo_fault g out rfl g.served waits
  exact ⟨_, y, exec_illegalOp g hh hz hr ho, hy, hm, hb, by rw [k1]; rfl, k2, k3, k4⟩

end Sys2Proof.Machine
end

section
/-!
Products and the coprocessor (R49 to R53): an instruction that issues, the operation that completes before it, and the statements.
-/
namespace Sys2Proof.Machine

/-! ### An instruction that changes one unit besides the processor -/

/-- An instruction whose plan leaves the base `r` and the processor, where `r` hands nothing on. -/
theorem exec_from {i : Instr} {s : State} {p : Nat} {x : Site} {o : Op} {m : Mode} {r q : Pan} (b : State.Begins s p x o m)
    (e : exec i s = s.instruct p o m) (h : runPlan (plan o.action m) x.pan = q) (k : Pan.OnlyCpu r q) (ho : r.out = x.pan.out)
    (hf : r.frame = x.pan.frame) (hc : r.crust = x.pan.crust) : exec i s = .next (s.withPan p x q) := by
  rw [e]
  exact State.instruct_next b h (k.quiet (ho.trans b.out) hf (hc ▸ b.served))

/-! ### Products -/

theorem Pan.OnlyCpu.mul {p q : Pan} (h : Pan.OnlyCpu p q) (m : Multiplier) :
    Pan.OnlyCpu { p with mul := m } { q with mul := m } := by
  unfold Pan.OnlyCpu at *
  rw [h]

theorem Pan.OnlyCpu.sameMul {p q : Pan} (h : Pan.OnlyCpu p q) : q.mul = p.mul := by
  unfold Pan.OnlyCpu at h
  rw [h]

theorem Pan.OnlyCpu.mulIssue {p q : Pan} (h : Pan.OnlyCpu p q) {g : Cpu → Word} {n : Nat} {w : Word} (hn : q.clk = n) (hw : g q.cpu = w) :
    q.mulIssue g = { q with mul := { p.mul with inFlight := p.mul.inFlight ++ [(n + 6, w)] } } := by
  subst hn hw
  rw [Pan.mulIssue, h.sameMul]

theorem runs_mul {p : PanNo} {s : State} {x : Site} {o : Op} {i : Instr} {g : Cpu → Word} (e : exec i s = s.instruct p o .implied)
    (a : o.action = .mul g) (hg : ∀ (c : Cpu) w, g { c with pc := w } = g c) (b : State.Begins s p x o .implied)
    (h : plainCode .implied x.pan.cpu.pc) : Runs i s p x { x.pan.cpu with pc := x.pan.cpu.pc + 1 } 2
      { x.pan with mul := { x.pan.mul with inFlight := x.pan.mul.inFlight ++ [(x.pan.clk + 1 + 6, g x.pan.cpu)] } } := by
  have a1 := At.fetched b.calm b.abort b.rep h.opcode
  have a2 := a1.internal
  have only : Pan.OnlyCpu x.pan x.pan.fetched.spend.internal := a2.only.trans rfl
  have issued : (x.pan.fetched.spend.internal).mulIssue g = { x.pan.fetched.spend.internal with
      mul := { x.pan.mul with inFlight := x.pan.mul.inFlight ++ [(x.pan.clk + 1 + 6, g x.pan.cpu)] } } :=
    only.mulIssue a1.clk ((congrArg g a1.cpu).trans (hg x.pan.cpu _))
  obtain ⟨r, er, k1, k2, k3, -⟩ := runPlan_ends (f := fun p => (p.internal).mulIssue g) a1.calm
    (by rw [issued]; exact a2.abort) (by rw [issued]; exact a2.rep)
  have left : Pan.OnlyCpu _ r := Pan.OnlyCpu.trans (issued ▸ only.mul _) k1
  have run : runPlan (plan o.action .implied) x.pan = r := by
    rw [a, plan, At.more _ b.calm a1, er]
  exact ⟨r, exec_from b e run left rfl rfl rfl, k2.trans a1.cpu, k3.trans (by rw [issued]; exact congrArg (· + 1) a1.clk), left⟩

/-- The oldest product in flight is delivered. -/
theorem exec_mulDeliver {p : PanNo} {s : State} {x : Site} {t : Nat} {w : Word} {r : List (Nat × Word)} (a : State.Advances s p x)
    (h : x.pan.mul.inFlight = (t, w) :: r) (ht : t ≤ x.pan.clk) :
    exec (.mulDeliver p) s = .next (s.withPan p x { x.pan with mul := { mh := w.hi, ml := w.lo, inFlight := r } }) := by
  have e : exec (.mulDeliver p) s = s.panStep p Pan.mulDeliver := rfl
  have come : x.pan.comes t = true := by simp [Pan.comes, ht]
  have now : x.pan.upTo t = x.pan := if_pos ht
  rw [e]
  refine State.panStep_quiet a.live ?_ ⟨a.out, le_refl _, a.served⟩
  rw [Pan.mulDeliver, h]
  dsimp only
  rw [Pan.at_comes come, now]

/-- Settles O19: a product issued in the final pan-cycle, and one that has come delivered. -/
theorem productsArrive : Obligations.ProductsArrive := by
  unfold Obligations.ProductsArrive
  intro p s x c flying
  refine ⟨?_, ?_, ?_⟩
  · exact fun b h => runs_mul rfl rfl (fun _ _ => rfl) b h.1
  · exact fun b h => runs_mul rfl rfl (fun _ _ => rfl) b h.1
  · exact fun t w r a h ht => exec_mulDeliver a h ht

end Sys2Proof.Machine
end

section
/-!
The coprocessor (R50 to R53): its results as arithmetic, the operation that completes before another issues, and the statement.
-/
namespace Sys2Proof.Machine

/-! ### Square roots -/

/-- Bits tried from high to low find the root that lies within what they can make up. -/
theorem isqrtFrom_eq {v : Nat} : ∀ (n r : Nat), r * r ≤ v → v < (r + 2 ^ n) * (r + 2 ^ n) → isqrtFrom n v r = Nat.sqrt v
  | 0, r, lo, hi => Nat.eq_sqrt.2 ⟨lo, hi⟩
  | n + 1, r, lo, hi => by
    rw [isqrtFrom]
    split
    case isTrue h => exact isqrtFrom_eq n _ h (by rwa [Nat.add_assoc, ← Nat.two_mul, ← Nat.pow_succ'])
    case isFalse h => exact isqrtFrom_eq n r lo (by omega)

theorem isqrt32 (p q : Word) : isqrtFrom 16 (q.toNat * 65536 + p.toNat) 0 = Nat.sqrt (q.toNat * 65536 + p.toNat) :=
  isqrtFrom_eq 16 0 (by simp) (by have := p.isLt; have := q.isLt; norm_num at *; omega)

theorem isqrt16 (p : Word) : isqrtFrom 8 p.toNat 0 = Nat.sqrt p.toNat :=
  isqrtFrom_eq 8 0 (by simp) (by have := p.isLt; norm_num at *; omega)

/-! ### The operation in flight completes -/

/-- The coprocessor once its operation in flight is complete. -/
def Coprocessor.finished (k : Coprocessor) : Coprocessor := { k with r := k.nextR, dz := k.nextDz, ov := k.nextOv, busy := false }

/-- The coprocessor as an operation finds it that issues. -/
def Coprocessor.free (k : Coprocessor) : Coprocessor := if k.busy then k.finished else k

theorem Ic.raise19 (c : Ic) : c.raise 19 = { c with pend := c.pend ||| (1#32 <<< 19) } := by
  have : (1#32 <<< 19) &&& icSources = 1#32 <<< 19 := by decide
  rw [Ic.raise, this]

theorem Pan.copDone_eq (p : Pan) : p.copDone = { p with
    cop := p.cop.free, ic := { p.ic with pend := if p.cop.busy then p.ic.pend ||| (1#32 <<< 19) else p.ic.pend } } := by
  unfold Pan.copDone Coprocessor.free
  cases p.cop.busy
  · rfl
  · rw [if_pos rfl, if_pos rfl, if_pos rfl, Pan.pendSrc, Pan.modIc, Ic.raise19]
    rfl

theorem Pan.OnlyCpu.copDone {p q : Pan} (h : Pan.OnlyCpu p q) : Pan.OnlyCpu p.copDone q.copDone := by
  rw [Pan.copDone_eq, Pan.copDone_eq]
  unfold Pan.OnlyCpu at *
  rw [h]

theorem Pan.OnlyCpu.sameCop {p q : Pan} (h : Pan.OnlyCpu p q) : q.cop = p.cop := by
  unfold Pan.OnlyCpu at h
  rw [h]

theorem Pan.OnlyCpu.sameIc {p q : Pan} (h : Pan.OnlyCpu p q) : q.ic = p.ic := by
  unfold Pan.OnlyCpu at h
  rw [h]

/-! ### Issue -/

/-- The coprocessor with an operation in flight that issued at the count `t`. -/
def Coprocessor.issued (o : CopOp) (c : Cpu) (t : Nat) (k : Coprocessor) : Coprocessor :=
  { k with busy := true, op := o.code, due := t + o.latency + 1, nextR := o.result c.p c.q k.r, nextDz := o.dz c.p c.q k.dz,
           nextOv := o.ov c.p c.q k.r k.ov }

/-- The image after an operation has issued at the count `t` in place of what was in flight. -/
def Pan.issuing (o : CopOp) (c : Cpu) (t : Nat) (p : Pan) : Pan := { p.copDone with cop := p.cop.free.issued o c t }

/-- The final pan-cycle of a coprocessor instruction, from an image `u` in which what was in flight is complete. -/
theorem issue_ends {p u : Pan} {o : CopOp} {f m : Micro} {c : Cpu} (h : Pan.OnlyCpu p.copDone u) (hc : u.cpu.p = c.p ∧ u.cpu.q = c.q)
    {q r : Pan} (hm : m q = lastCycle f r) (hf : f r = u.copIssue o) (ha : u.abort = false) (hr : u.core.rep = false)
    (hq : q.unsettled = false) (us : List Micro) :
    ∃ w, runPlan (m :: us) q = w ∧ w.cpu = u.cpu ∧ w.clk = u.clk + 1 ∧ Pan.OnlyCpu (p.issuing o c u.clk) w := by
  have k := lastCycle_frame (f := f) (p := r) (by rw [hf]; exact ha) (by rw [hf]; exact hr)
  have ab : (lastCycle f r).abort = false := by rw [k.only.abort, hf]; exact ha
  have run : runPlan (m :: us) q = (lastCycle f r).spend := by
    have e : q.microNext m = (lastCycle f r).spend := by rw [Pan.microNext_ok hq (hm ▸ ab), hm]
    simp only [runPlan, e, Pan.spend_core, k.ends, if_true]
  have cop : u.cop = p.cop.free := h.sameCop.trans (by rw [Pan.copDone_eq])
  have issued : Pan.OnlyCpu (p.issuing o c u.clk) (u.copIssue o) := by
    rw [Pan.issuing, Pan.copIssue, cop, hc.1, hc.2]
    unfold Pan.OnlyCpu at *
    rw [h]
    rfl
  exact ⟨_, run, by rw [Pan.spend_cpu, k.cpu, hf]; rfl, by rw [Pan.spend_clk, k.clk, hf]; rfl, (issued.trans (hf ▸ k.only)).spend⟩

/-- What completion of an operation leaves alone. -/
theorem Pan.copDone_keeps (p : Pan) : p.copDone.cpu = p.cpu ∧ p.copDone.core = p.core ∧ p.copDone.clk = p.clk ∧
    p.copDone.abort = p.abort ∧ p.copDone.unsettled = p.unsettled := by
  rw [Pan.copDone_eq]
  exact ⟨rfl, rfl, rfl, rfl, rfl⟩

/-- The stall pan-cycles that are left when the opcode is fetched have passed. -/
def Pan.copWaited (p : Pan) : Pan := if p.copStalls then { p with clk := p.cop.due } else p

theorem Pan.copWaited_keeps (p : Pan) : p.copWaited.cpu = p.cpu ∧ p.copWaited.core = p.core ∧ p.copWaited.abort = p.abort ∧
    Pan.OnlyCpu p p.copWaited := by
  unfold Pan.copWaited
  split <;> exact ⟨rfl, rfl, rfl, rfl⟩

theorem Pan.copWaited_clk {p : Pan} (h : p.cop.busy = true) (k : p.clk ≤ p.cop.due) : p.copWaited.clk = p.cop.due := by
  unfold Pan.copWaited Pan.copStalls
  by_cases e : p.clk < p.cop.due
  · rw [h, decide_eq_true e]
    rfl
  · rw [h, decide_eq_false e]
    show p.clk = _
    omega

section issue
variable {x : Pan} (o : CopOp)

/-- With nothing to wait for, an operation issues in its fetch pan-cycle. -/
theorem run_copAtOnce (hc : x.unsettled = false) (ha : x.abort = false) (hr : x.core.rep = false) (h : plainAddr x.cpu.pc)
    (hs : x.copStalls = false) : ∃ r, runPlan [copFetch o, copWait o] x = r ∧ r.cpu = { x.cpu with pc := x.cpu.pc + 1 } ∧
      r.clk = x.clk + 1 ∧ Pan.OnlyCpu (x.issuing o x.cpu x.clk) r := by
  obtain ⟨cpu, core, clk, abort, -⟩ := Pan.copDone_keeps x
  have u : Pan.OnlyCpu x.copDone x.copDone.fetched := Pan.fetched_only (by rw [cpu]; exact h)
  have uc := (Pan.fetched_cpu x.copDone).trans (by rw [cpu])
  have uk := (Pan.fetched_clk x.copDone).trans clk
  obtain ⟨r, e, r1, r2, r3⟩ := issue_ends (m := copFetch o) (f := fun q => (q.fetched).copIssue o) (c := x.cpu) u
    (by rw [uc]; exact ⟨rfl, rfl⟩) (q := x) (r := x.copDone) (by rw [copFetch, hs]; rfl) rfl ((Pan.fetched_abort _).trans (abort.trans ha)) (by rw [Pan.fetched_rep, core]; exact hr) hc [copWait o]
  rw [uk] at r2 r3
  exact ⟨r, e, r1.trans uc, r2, r3⟩

/-- An operation in flight is waited for: the pan stalls until its pan-cycle has come. -/
theorem run_copStalled (hc : x.unsettled = false) (ha : x.abort = false) (hr : x.core.rep = false) (h : plainAddr x.cpu.pc)
    (hb : x.cop.busy = true) (ht : x.clk < x.cop.due) : ∃ r, runPlan [copFetch o, copWait o] x = r ∧
      r.cpu = { x.cpu with pc := x.cpu.pc + 1 } ∧ r.clk = x.cop.due + 1 ∧ Pan.OnlyCpu (x.issuing o x.cpu x.cop.due) r := by
  have hs : x.copStalls = true := by simp [Pan.copStalls, hb, ht]
  have a1 : At x (copFetch o x).spend [] { x.cpu with pc := x.cpu.pc + 1 } 1 1 := by
    rw [copFetch, hs]
    exact (At.fetched hc ha hr h).setCore
  rw [At.more [copWait o] hc a1]
  generalize copFetch o x = q at a1
  have cop : q.spend.cop = x.cop := a1.only.sameCop
  obtain ⟨w1, w2, w3, w4⟩ := Pan.copWaited_keeps q.spend
  have clk : q.spend.copWaited.clk = x.cop.due := by
    rw [Pan.copWaited_clk (by rw [cop, hb]) (by rw [a1.clk, cop]; omega), cop]
  generalize hv : q.spend.copWaited = v at w1 w2 w3 w4 clk
  obtain ⟨d1, d2, d3, d4, -⟩ := Pan.copDone_keeps v
  have u : Pan.OnlyCpu x.copDone ((v.copDone).modCore (fun k => { k with cpStall := false })) := (a1.only.trans w4).copDone.core _
  have uc : ((v.copDone).modCore (fun k => { k with cpStall := false })).cpu = { x.cpu with pc := x.cpu.pc + 1 } :=
    d1.trans (w1.trans a1.cpu)
  have uk : ((v.copDone).modCore (fun k => { k with cpStall := false })).clk = x.cop.due := d3.trans clk
  have ur : ((v.copDone).modCore (fun k => { k with cpStall := false })).core.rep = false := by
    rw [Pan.modCore_core, d2, w2]
    exact a1.rep
  have ends := issue_ends (m := copWait o) (f := fun r => r.copIssue o) (c := x.cpu) u (by rw [uc]; exact ⟨rfl, rfl⟩)
    (q := q.spend) (r := (v.copDone).modCore (fun k => { k with cpStall := false })) (by rw [← hv]; rfl) rfl
    (d4.trans (w3.trans a1.abort)) ur a1.calm []
  rw [uk, uc] at ends
  exact ends

end issue

/-! ### The statement -/

section statement
variable {p : PanNo} {s : State} {x : Site}

/-- A coprocessor instruction: when it issues, and what it will deliver. -/
theorem exec_cop {i : Instr} (o : CopOp) (e : exec i s = s.instruct p (.cop o) .implied) (b : State.Begins s p x (.cop o) .implied)
    (h : plainCode .implied x.pan.cpu.pc) {r : BitVec 48} {dz ov : Bool}
    (hr : o.result x.pan.cpu.p x.pan.cpu.q x.pan.cop.free.r = r) (hd : o.dz x.pan.cpu.p x.pan.cpu.q x.pan.cop.free.dz = dz)
    (ho : o.ov x.pan.cpu.p x.pan.cpu.q x.pan.cop.free.r x.pan.cop.free.ov = ov) :
    ∃ q, exec i s = .next (s.withPan p x q) ∧ q.cpu = { x.pan.cpu with pc := x.pan.cpu.pc + 1 } ∧
      q.clk = (if x.pan.cop.busy = true ∧ x.pan.clk < x.pan.cop.due then x.pan.cop.due + 1 else x.pan.clk + 1) ∧
      q.cop = { x.pan.cop.free with
        busy := true, op := o.code, due := q.clk - 1 + o.latency + 1, nextR := r, nextDz := dz, nextOv := ov } ∧
      q.ic.pend = (if x.pan.cop.busy then x.pan.ic.pend ||| (1#32 <<< 19) else x.pan.ic.pend) ∧
      Pan.OnlyCpu { x.pan with cop := q.cop, ic := { x.pan.ic with pend := q.ic.pend } } q := by
  subst hr hd ho
  have done : ∀ {q : Pan} {t : Nat}, runPlan (plan (Op.cop o).action .implied) x.pan = q → q.clk = t + 1 →
      Pan.OnlyCpu (x.pan.issuing o x.pan.cpu t) q →
      exec i s = .next (s.withPan p x q) ∧ q.cop = x.pan.cop.free.issued o x.pan.cpu (q.clk - 1) ∧
        q.ic.pend = (if x.pan.cop.busy then x.pan.ic.pend ||| (1#32 <<< 19) else x.pan.ic.pend) ∧
        Pan.OnlyCpu { x.pan with cop := q.cop, ic := { x.pan.ic with pend := q.ic.pend } } q := by
    intro q t run clk only
    have ic : q.ic = x.pan.copDone.ic := only.sameIc
    have cop : q.cop = x.pan.cop.free.issued o x.pan.cpu t := only.sameCop
    rw [Pan.issuing, Pan.copDone_eq] at only
    rw [Pan.copDone_eq] at ic
    refine ⟨exec_from b e run only rfl rfl rfl, by rw [clk, Nat.add_sub_cancel]; exact cop, by rw [ic], ?_⟩
    rw [cop, ic]
    exact only
  by_cases hs : x.pan.cop.busy = true ∧ x.pan.clk < x.pan.cop.due
  · obtain ⟨q, run, q1, q2, q3⟩ := run_copStalled o b.calm b.abort b.rep h.opcode hs.1 hs.2
    obtain ⟨r1, r2, r3, r4⟩ := done run q2 q3
    exact ⟨q, r1, q1, by rw [if_pos hs, q2], r2, r3, r4⟩
  · have hn : x.pan.copStalls = false := by
      rw [Pan.copStalls, Bool.and_eq_false_iff]
      by_cases hb : x.pan.cop.busy = true
      · exact .inr (decide_eq_false (fun t => hs ⟨hb, t⟩))
      · exact .inl (by simpa using hb)
    obtain ⟨q, run, q1, q2, q3⟩ := run_copAtOnce o b.calm b.abort b.rep h.opcode hn
    obtain ⟨r1, r2, r3, r4⟩ := done run q2 q3
    exact ⟨q, r1, q1, by rw [if_neg hs, q2], r2, r3, r4⟩

/-- The operation in flight completes when its pan-cycle has come. -/
theorem exec_coprocessorDone (a : State.Advances s p x) (hb : x.pan.cop.busy = true) (ht : x.pan.cop.due ≤ x.pan.clk) :
    exec (.coprocessorDone p) s = .next (s.withPan p x x.pan.copDone) := by
  have e : exec (.coprocessorDone p) s = s.panStep p Pan.copStep := rfl
  have come : x.pan.comes x.pan.cop.due = true := by simp [Pan.comes, ht]
  have now : x.pan.upTo x.pan.cop.due = x.pan := if_pos ht
  rw [e]
  refine State.panStep_quiet a.live ?_ ?_
  · rw [Pan.copStep, hb, if_pos rfl, Pan.at_comes come, now]
  · rw [Pan.copDone_eq]
    exact ⟨a.out, le_refl _, a.served⟩

end statement

theorem divu_result (p q : Word) : BitVec.ofNat 48 (divuQuot p q + 65536 * divuRem p q) =
    if q = 0 then BitVec.ofNat 48 (0xFFFF + 65536 * p.toNat) else BitVec.ofNat 48 (p.toNat / q.toNat + 65536 * (p.toNat % q.toNat)) := by
  unfold divuQuot divuRem
  split <;> rfl

/-- Settles O20: one shape for the eight operations, with the result of each; the roots are found bit by bit. -/
theorem coprocessorResults : Obligations.CoprocessorResults := by
  unfold Obligations.CoprocessorResults
  intro p s x c finished stalls k sq32 sum quotient remainder issues
  refine ⟨?_, ?_, ?_, ?_, ?_, ?_, ?_, ?_, ?_⟩
  · exact fun b h => exec_cop .mu16 rfl b h.1 rfl rfl rfl
  · exact fun b h => exec_cop .ms16 rfl b h.1 rfl rfl rfl
  · exact fun b h => exec_cop .divu rfl b h.1 (divu_result _ _) rfl rfl
  · exact fun b h => exec_cop .divs rfl b h.1 rfl rfl rfl
  · exact fun b h => exec_cop .sq32 rfl b h.1 (by rw [CopOp.result, isqrt32]) rfl rfl
  · exact fun b h => exec_cop .sq16 rfl b h.1 (by rw [CopOp.result, isqrt16]) rfl rfl
  · exact fun b h => exec_cop .mac rfl b h.1 rfl rfl rfl
  · exact fun b h => exec_cop .cpcl rfl b h.1 rfl rfl rfl
  · intro a hb ht
    rw [exec_coprocessorDone a hb ht, Pan.copDone_eq, Coprocessor.free, hb]
    rfl

end Sys2Proof.Machine
end

section
/-!
The interrupt controller (R60, R151, R155 to R158, R161): its registers by address, a completion out of order, and the statement.
-/
namespace Sys2Proof.Machine

/-! ### The registers by address -/

theorem Pan.peek_io {a : Word} {o : Nat} (h : a.toNat = 0xE000 + o) (k : o < 0x1000) (p : Pan) : p.peek a = p.ioRead o := by
  unfold Pan.peek
  simp only [h, if_neg (show ¬ 0xE000 + o < 0x8000 by omega), if_neg (show ¬ 0xE000 + o < 0xC000 by omega),
    if_neg (show ¬ 0xE000 + o < 0xE000 by omega), if_pos (show 0xE000 + o < 0xF000 by omega), Nat.add_sub_cancel_left]

theorem Pan.touch_io {a : Word} {o : Nat} (h : a.toNat = 0xE000 + o) (k : o < 0x1000) (p : Pan) : p.touch a = p.ioTouch o := by
  rw [Pan.touch, if_pos ⟨by omega, by omega⟩, h, Nat.add_sub_cancel_left]

theorem Pan.poke_io {a : Word} {o : Nat} (h : a.toNat = 0xE000 + o) (k : o < 0x1000) (v : Byte) (p : Pan) :
    p.poke a v = p.ioWrite 0 4 o v := by
  unfold Pan.poke Pan.pokeAt
  simp only [h, if_neg (show ¬ 0xE000 + o < 0x8000 by omega), if_neg (show ¬ 0xE000 + o < 0xC000 by omega),
    if_neg (show ¬ 0xE000 + o < 0xE000 by omega), if_pos (show 0xE000 + o < 0xF000 by omega), Nat.add_sub_cancel_left]

theorem Pan.peek_icClaim (p : Pan) : p.peek 0xE1DC = p.ic.claimValue p.clk := by
  rw [Pan.peek_io (o := 0x1DC) (by decide) (by decide)]
  simp [Pan.ioRead, Ic.read]

theorem Pan.touch_icClaim (p : Pan) : p.touch 0xE1DC = p.modIc (Ic.claimRead p.clk (p.clk + 1)) := by
  rw [Pan.touch_io (o := 0x1DC) (by decide) (by decide)]
  simp [Pan.ioTouch]

theorem Pan.poke_icComplete (v : Byte) (p : Pan) : p.poke 0xE1DD v =
    if !p.ic.legacy && !p.ic.inOrder v then { p with abort := true } else p.modIc (Ic.complete v) := by
  rw [Pan.poke_io (o := 0x1DD) (by decide) (by decide)]
  simp [Pan.ioWrite, isLate, Pan.icWrite]

theorem Pan.poke_icCtl (v : Byte) (p : Pan) : p.poke 0xE1DE v = p.modIc (Ic.written 30 v) := by
  rw [Pan.poke_io (o := 0x1DE) (by decide) (by decide)]
  simp [Pan.ioWrite, isLate, Pan.icWrite]

/-! ### Claims -/

theorem Ic.claim_locked {c : Ic} {s : Fin 32} (hl : c.legacy = false) (h : c.lock = some s.val) (clk e : Nat) :
    c.claimRead clk e = c.claim s e ∧ c.claimValue clk = BitVec.ofNat 8 s.val := by
  simp [Ic.claimRead, Ic.claimValue, hl, h]

theorem Ic.claim_unlocked {c : Ic} (hl : c.legacy = false) (h : c.lock = none) (clk e : Nat) :
    c.claimRead clk e = c ∧ c.claimValue clk = 0 := by
  simp [Ic.claimRead, Ic.claimValue, hl, h]

theorem Ic.claim_winner {c : Ic} {s : Fin 32} {clk : Nat} (hl : c.legacy = true) (h : c.winner clk = some s) (e : Nat) :
    c.claimRead clk e = c.claim s e ∧ c.claimValue clk = BitVec.ofNat 8 s.val := by
  simp [Ic.claimRead, Ic.claimValue, hl, h]

theorem Ic.claim_nobody {c : Ic} {clk : Nat} (hl : c.legacy = true) (h : c.winner clk = none) (e : Nat) :
    c.claimRead clk e = c ∧ c.claimValue clk = 0xFF := by
  simp [Ic.claimRead, Ic.claimValue, hl, h]

/-- A read of `IC_CLAIM`, by what the controller makes of it. -/
theorem reads_icClaim {p : PanNo} {c : Pan → Bool} {b : Byte} {f : Pan → Pan}
    (h : ∀ q, c q = true → q.modIc (fun i => i.claimRead q.clk (q.clk + 1)) = f q ∧ q.ic.claimValue q.clk = b) :
    Reads (.icClaimRead p) p c (fun _ => b) f :=
  reads_of (fun _ => rfl) (fun q hq => (Pan.touch_icClaim q).trans (h q hq).1) (fun q hq => (Pan.peek_icClaim q).trans (h q hq).2)

/-! ### Completions -/

theorem Ic.inOrder_iff (c : Ic) (v : Byte) : c.inOrder v = (c.stack.head?.map (fun e => e.1) == some v.toNat) := by
  unfold Ic.inOrder
  cases c.stack with
  | nil => rfl
  | cons e t => rfl

/-- A write of `IC_COMPLETE` that is not refused, by what the controller makes of it. -/
theorem writes_icComplete {p : PanNo} {v : Byte} {c : Pan → Bool} {f : Pan → Pan}
    (h : ∀ q, c q = true → (!q.ic.legacy && !q.ic.inOrder v) = false ∧ q.modIc (Ic.complete v) = f q) :
    Writes (.icCompleteWrite p v) p c f :=
  writes_of (fun _ => rfl) (fun q hq => by rw [Pan.poke_icComplete, (h q hq).1, if_neg (by decide), (h q hq).2])
    (fun q hq => by rw [← (h q hq).2]; exact ⟨rfl, rfl⟩)

/-- A completion out of order faults the pan (R60). -/
theorem exec_icDisorder {p : PanNo} {v : Byte} {s : State} {x : Site} (g : State.Goes s p x) (hl : x.pan.ic.legacy = false)
    (ho : x.pan.ic.inOrder v = false) : ∃ q, exec (.icCompleteWrite p v) s = .next (s.stepsTo p x q) ∧ q.core.fault = 3 ∧
      q.cpu = x.pan.cpu ∧ q.ic = x.pan.ic ∧ q.clk = x.pan.clk + 1 := by
  have e : exec (.icCompleteWrite p v) s = s.access p (Pan.busWrite 0xE1DD v) := rfl
  refine ⟨(({ x.pan.resolveLine with abort := false } : Pan).faultWith 3 x.pan.cpu.pc).spend, ?_, rfl, rfl, rfl, rfl⟩
  rw [e, State.access]
  refine State.panStep_goes g (fun r hs => ?_)
  have refused : (x.pan.poke 0xE1DD v).abort = true := by rw [Pan.poke_icComplete, hl, ho]; rfl
  have pc : r.cpu = x.pan.cpu := by rw [← hs, Pan.settle_cpu]
  simp only [Pan.busWrite, hs, refused, if_true, pc]

/-! ### `SOFT` -/

theorem Ic.written_soft {c : Ic} {v : Byte} (hv : v.getLsbD 6 = true) : c.written 30 v = { c with
    pend := c.pend ||| (1#32 <<< 30), legacy := if c.stack.isEmpty && c.lock.isNone then v.getLsbD 7 else c.legacy } := by
  have source : (1#32 <<< 30) &&& icSources = 1#32 <<< 30 := by decide
  have e : c.written 30 v = (if c.stack.isEmpty && c.lock.isNone then { c with legacy := v.getLsbD 7 } else c).raise 30 := by
    simp [Ic.written, hv]
  rw [e, Ic.raise, source]
  split <;> rfl

theorem writes_icSoft {p : PanNo} {v : Byte} (hv : v.getLsbD 6 = true) : Writes (.icSoft p v) p (fun _ => true)
    (fun q => q.modIc (Ic.written 30 v)) :=
  writes_of (a := 0xE1DE) (v := v) (fun s => by
    have e : exec (.icSoft p v) s = s.accessIf (v.getLsbD 6) p (Pan.busWrite 0xE1DE v) := rfl
    rw [e, State.accessIf, hv, if_pos rfl]) (fun q _ => Pan.poke_icCtl v q)

/-! ### The statement -/

/-- Settles O22: each register by its address, and the end of a hold-off. -/
theorem interruptController : Obligations.InterruptController := by
  unfold Obligations.InterruptController
  intro p claimed
  refine ⟨?_, ?_, ?_, ?_, ?_, ?_, ?_, ?_, ?_, ?_⟩
  · refine fun n => reads_icClaim (fun q hq => ?_)
    simp only [Bool.and_eq_true, Bool.not_eq_true', beq_iff_eq] at hq
    obtain ⟨e, v⟩ := Ic.claim_locked hq.1 hq.2 q.clk (q.clk + 1)
    exact ⟨by rw [Pan.modIc, e]; rfl, v⟩
  · refine reads_icClaim (fun q hq => ?_)
    simp only [Bool.and_eq_true, Bool.not_eq_true', beq_iff_eq] at hq
    obtain ⟨e, v⟩ := Ic.claim_unlocked hq.1 hq.2 q.clk (q.clk + 1)
    exact ⟨by rw [Pan.modIc, e]; rfl, v⟩
  · refine fun n => reads_icClaim (fun q hq => ?_)
    simp only [Bool.and_eq_true, beq_iff_eq] at hq
    obtain ⟨e, v⟩ := Ic.claim_winner hq.1 hq.2 (q.clk + 1)
    exact ⟨by rw [Pan.modIc, e]; rfl, v⟩
  · refine reads_icClaim (fun q hq => ?_)
    simp only [Bool.and_eq_true, beq_iff_eq] at hq
    obtain ⟨e, v⟩ := Ic.claim_nobody hq.1 hq.2 (q.clk + 1)
    exact ⟨by rw [Pan.modIc, e]; rfl, v⟩
  · refine fun v => writes_icComplete (fun q hq => ?_)
    rw [← Ic.inOrder_iff, Bool.and_eq_true, Bool.not_eq_true'] at hq
    obtain ⟨hl, ho⟩ := hq
    exact ⟨by rw [ho, Bool.not_true, Bool.and_false], by simp [Pan.modIc, Ic.complete, hl, ho]⟩
  · refine fun v => writes_icComplete (fun q hq => ?_)
    obtain ⟨hl, ha⟩ := Bool.and_eq_true_iff.1 hq
    exact ⟨by rw [hl]; rfl, by simp [Pan.modIc, Ic.complete, hl, ha]⟩
  · refine fun v => writes_icComplete (fun q hq => ?_)
    obtain ⟨hl, ha⟩ := Bool.and_eq_true_iff.1 hq
    rw [Bool.not_eq_true'] at ha
    exact ⟨by rw [hl]; rfl, by simp only [Pan.modIc, Ic.complete, hl, ha, if_true, Bool.false_eq_true, if_false]; rfl⟩
  · intro v s x g hl hs
    exact exec_icDisorder g hl (by rw [Ic.inOrder_iff]; exact beq_eq_false_iff_ne.2 hs)
  · intro v hv
    have e : ∀ q : Pan, q.modIc (Ic.written 30 v) = { q with ic := { q.ic with
        pend := q.ic.pend ||| (1#32 <<< 30),
        legacy := if q.ic.stack.isEmpty && q.ic.lock.isNone then v.getLsbD 7 else q.ic.legacy } } := fun q => by
      rw [Pan.modIc, Ic.written_soft hv]
    exact (funext e : (fun q : Pan => q.modIc (Ic.written 30 v)) = _) ▸ writes_icSoft hv
  · refine fun g => event_of (F := Pan.holdExpiry g) (fun _ => rfl) (fun q hq => ?_)
    rw [Pan.holdExpiry, if_neg (by simpa using hq)]
    rfl

end Sys2Proof.Machine
end

section
/-!
Register writes (R29, R54, R65, R66, R105, R110, R129, R163): each register by its address, and the statement.
-/
namespace Sys2Proof.Machine

/-! ### The registers by address -/

/-- A write to a register that waits for the ticks of its pan-cycle. -/
theorem Pan.poke_late {a : Word} {o : Nat} (h : a.toNat = 0xE000 + o) (k : o < 0x1000) (hl : isLate o = true) (ht : isTickStat o = false)
    (ho : ¬ o < 0x100) (v : Byte) (p : Pan) : p.poke a v = { p with late := some (o, v, p.snd.s0.fifo.length) } := by
  rw [Pan.poke_io h k]
  simp only [Pan.ioWrite, hl, ht, if_neg ho, if_true, Bool.false_eq_true, if_false]

/-- Above the channels and the CRC unit the map goes on with the system registers. -/
theorem Pan.ioWrite_above {o : Nat} (h : 0x2C0 ≤ o) (k : isLate o = false) (dot rank : Nat) (v : Byte) (p : Pan) :
    p.ioWrite dot rank o v =
      if o < 0x2E0 then p.modSys (SysRegs.written (o - 0x2C0) v)
      else if o < 0x2F0 then p.modHc (HostCall.written (o - 0x2E0) v)
      else if o < 0x300 then p.mbWrite (o - 0x2F0) v
      else if o < 0x800 then p
      else if o < 0xC00 then { p with oam := p.oam.write (o - 0x800) v }
      else p.palWrite dot rank (o - 0xC00) v := by
  unfold Pan.ioWrite
  rw [if_neg (by omega), k, if_neg (by decide), if_neg (by omega), if_neg (by omega), if_neg (by omega), if_neg (by omega),
    if_neg (by omega), if_neg (by omega)]

theorem Pan.poke_sys {a : Word} {o : Nat} (h : a.toNat = 0xE2C0 + o) (k : o < 0x20) (v : Byte) (p : Pan) :
    p.poke a v = p.modSys (SysRegs.written o v) := by
  have late : isLate (0x2C0 + o) = false := by simp [isLate]; omega
  rw [Pan.poke_io (o := 0x2C0 + o) (by omega) (by omega), Pan.ioWrite_above (by omega) late, if_pos (by omega), Nat.add_sub_cancel_left]

theorem Pan.poke_hc {a : Word} {o : Nat} (h : a.toNat = 0xE2E0 + o) (k : o < 0x10) (v : Byte) (p : Pan) :
    p.poke a v = p.modHc (HostCall.written o v) := by
  have late : isLate (0x2E0 + o) = false := by simp [isLate]; omega
  rw [Pan.poke_io (o := 0x2E0 + o) (by omega) (by omega), Pan.ioWrite_above (by omega) late, if_neg (by omega), if_pos (by omega),
    Nat.add_sub_cancel_left]

theorem Pan.poke_oam {a : Word} {o : Nat} (h : a.toNat = 0xE800 + o) (k : o < 0x400) (v : Byte) (p : Pan) :
    p.poke a v = { p with oam := p.oam.write o v } := by
  have late : isLate (0x800 + o) = false := by simp [isLate]; omega
  rw [Pan.poke_io (o := 0x800 + o) (by omega) (by omega), Pan.ioWrite_above (by omega) late, if_neg (by omega), if_neg (by omega),
    if_neg (by omega), if_neg (by omega), if_pos (by omega), Nat.add_sub_cancel_left]

theorem Pan.poke_mvReady (v : Byte) (p : Pan) : p.poke 0xE071 v = p.mvReady (v.setWidth 4) := by
  rw [Pan.poke_io (o := 0x71) (by decide) (by decide)]
  simp [Pan.ioWrite, Pan.rasWrite, isLineByte, rasPairs]

theorem Pan.poke_frameCommit {v : Byte} (hv : v.getLsbD 7 = true) (p : Pan) :
    p.poke 0xE011 v = p.modRas (fun r => { r with armed := some (r.armed.getD (p.clk + 1)) }) := by
  rw [Pan.poke_io (o := 0x11) (by decide) (by decide)]
  simp [Pan.ioWrite, Pan.rasWrite, isLineByte, rasPairs, hv]

/-! ### Sources raised -/

/-- A source that can be raised, raised where a condition holds. -/
theorem Pan.raising_one {n : Nat} (h : (1#32 <<< n) &&& icSources = 1#32 <<< n) (b : Bool) (p : Pan) :
    p.raising [(n, b)] = if b then p.pendSrc n else p := by
  cases b
  · rfl
  · rw [if_pos rfl, Pan.pendSrc, Pan.modIc, Ic.raise, h]
    rfl

/-- Marking movie buffers ready raises source 22 for a bit that becomes 1 (R129). -/
theorem Pan.mvReady_eq (n : BitVec 4) (p : Pan) : p.mvReady n =
    ({ p with ras := { p.ras with ready := n } } : Pan).raising [(22, n &&& ~~~ p.ras.ready != 0)] := by
  rw [Pan.raising_one (by decide)]
  rfl

/-! ### The rows -/

section rows
variable {p : PanNo}

/-- A register without a row of its own. -/
theorem exec_registerWrite {a : Word} (h : 0xE000 ≤ a.toNat) (k : a.toNat < 0xF000) (v : Byte) (s : State) :
    exec (.registerWrite p a v) s = s.access p (Pan.busWrite a v) := by
  have e : exec (.registerWrite p a v) s =
      s.accessIf (decide (0xE000 ≤ a.toNat) && decide (a.toNat < 0xF000)) p (Pan.busWrite a v) := rfl
  rw [e, State.accessIf, decide_eq_true h, decide_eq_true k]
  rfl

theorem exec_frameCommit {v : Byte} (hv : v.getLsbD 7 = true) (s : State) :
    exec (.frameCommit p v) s = s.access p (Pan.busWrite 0xE011 v) := by
  have e : exec (.frameCommit p v) s = s.accessIf (v.getLsbD 7) p (Pan.busWrite 0xE011 v) := rfl
  rw [e, State.accessIf, hv]
  rfl

theorem writes_register {a : Word} {v : Byte} {f : Pan → Pan} (h : 0xE000 ≤ a.toNat) (k : a.toNat < 0xF000)
    (e : ∀ q : Pan, q.poke a v = f q) (o : ∀ q, (f q).out = q.out ∧ (f q).abort = q.abort := by exact fun _ => ⟨rfl, rfl⟩) :
    Writes (.registerWrite p a v) p (fun _ => true) f :=
  writes_of (exec_registerWrite h k v) (fun q _ => e q) (fun q _ => o q)

/-- A register whose write waits for the ticks of its pan-cycle. -/
theorem writesLate_register {a : Word} {v : Byte} {f : Pan → Pan} {o : Nat} (h : a.toNat = 0xE000 + o) (k : o < 0x1000)
    (hl : isLate o = true) (ht : isTickStat o = false) (ho : ¬ o < 0x100) (w : ∀ (e : Nat) (q : Pan), q.lateWrite e o v = f q) :
    WritesLate (.registerWrite p a v) p (fun _ => true) f :=
  writesLate_of o (exec_registerWrite (by omega) (by omega) v) (Pan.poke_late h k hl ht ho v) (fun _ _ _ => w _ _)

end rows

/-- Settles O23: each register by its address, and a write as the store it is. -/
theorem registerWrites : Obligations.RegisterWrites := by
  unfold Obligations.RegisterWrites
  intro p v
  refine ⟨?_, ?_, ?_, ?_, ?_, ?_, ?_, ?_, ?_, ?_, ?_⟩
  · exact writes_of (a := 0xE2C2) (v := v) (fun _ => rfl) (fun q _ => Pan.poke_sys (o := 2) (by decide) (by decide) v q)
  · exact writes_of (a := 0xE071) (v := v) (fun _ => rfl) (fun q _ => (Pan.poke_mvReady v q).trans (Pan.mvReady_eq _ q))
  · exact fun hv => writes_of (exec_frameCommit hv) (fun q _ => Pan.poke_frameCommit hv q)
  · exact writes_register (by decide) (by decide) (Pan.poke_sys (o := 1) (by decide) (by decide) v)
  · exact writes_register (by decide) (by decide) (Pan.poke_sys (o := 3) (by decide) (by decide) v)
  · exact writes_register (by decide) (by decide) (Pan.poke_hc (o := 0) (by decide) (by decide) v)
  · exact writes_register (by decide) (by decide) (Pan.poke_hc (o := 2) (by decide) (by decide) v)
  · exact writesLate_register (o := 0x17E) (by decide) (by decide) (by decide) (by decide) (by decide) (fun _ _ => rfl)
  · intro o ho
    have h : (BitVec.ofNat 16 (0xE800 + o)).toNat = 0xE800 + o := by rw [BitVec.toNat_ofNat]; omega
    exact writes_register (by omega) (by omega) (Pan.poke_oam h ho v)
  · intro o ho
    have h : (BitVec.ofNat 16 (0xE400 + o)).toNat = 0xE000 + (0x400 + o) := by rw [BitVec.toNat_ofNat]; omega
    refine writesLate_register h (by omega) (by simp [isLate]; omega) (by simp [isTickStat]; omega) (by omega) (fun e q => ?_)
    rw [Pan.lateWrite, if_neg (by omega), if_neg (by omega), Nat.add_sub_cancel_left]
  · intro a s x g h k ha
    refine ⟨_, (exec_registerWrite h k v s).trans (access_write g ha), ?_, ?_, (Pan.resolveLine_only _).spend⟩
    · exact (Pan.poke_frame a v x.pan).cpu
    · exact congrArg (· + 1) (Pan.poke_frame a v x.pan).clk

end Sys2Proof.Machine
end

section
/-!
Placements (R56, R84, R90 to R96, R129): what each does to the image, what the pan's record remembers, and the statement.
-/
namespace Sys2Proof.Machine

/-! ### Placements hand nothing on -/

theorem Hushes.refl (p : Pan) : Hushes id p := ⟨rfl, rfl, rfl⟩

theorem Hushes.comp {f g : Pan → Pan} {p : Pan} (h : Hushes f p) (k : Hushes g (f p)) : Hushes (fun q => g (f q)) p :=
  ⟨k.1.trans h.1, k.2.1.trans h.2.1, k.2.2.trans h.2.2⟩

theorem Pan.capture_hushes (n : Fin 4) (p : Pan) : Hushes (Pan.capture n) p := by
  unfold Hushes Pan.capture
  by_cases h : (p.frozen n || (p.tm[n]).capAt == p.clk) = true
  · rw [if_pos h]
    exact ⟨rfl, rfl, rfl⟩
  · rw [if_neg h]
    by_cases k : ((p.tm[n]).irq.getLsbD 0 && !(n == 3 && p.owned)) = true
    · rw [if_pos k]
      exact ⟨rfl, rfl, rfl⟩
    · rw [if_neg k]
      exact ⟨rfl, rfl, rfl⟩

theorem Pan.captureAll_hushes (code : Nat) (p : Pan) : Hushes (Pan.captureAll code) p := by
  unfold Pan.captureAll
  generalize List.finRange 4 = l
  induction l generalizing p with
  | nil => exact .refl p
  | cons n l ih =>
    simp only [List.foldl_cons]
    by_cases h : code ≠ 0 ∧ (p.tm[n]).capSrc.toNat = code
    · have k := ih (p.capture n)
      have c := Pan.capture_hushes n p
      simp only [Hushes, if_pos h]
      exact ⟨k.1.trans c.1, k.2.1.trans c.2.1, k.2.2.trans c.2.2⟩
    · have k := ih p
      simp only [Hushes, if_neg h]
      exact k

theorem Pan.raise_hushes (n : Nat) (p : Pan) : Hushes (Pan.raise n) p := Pan.captureAll_hushes (captureCode n) p

theorem Pan.mvReady_hushes (r : BitVec 4) (p : Pan) : Hushes (Pan.mvReady r) p := by
  unfold Hushes
  rw [Pan.mvReady_eq]
  exact ⟨rfl, rfl, rfl⟩

theorem Pan.mbDeliver_hushes (p : Pan) : Hushes Pan.mbDeliver p := by
  unfold Hushes Pan.mbDeliver
  cases p.mb.queue with
  | nil => exact ⟨rfl, rfl, rfl⟩
  | cons m t =>
    dsimp only
    cases p.mb.full
    · cases m.nmi <;> exact ⟨rfl, rfl, rfl⟩
    · exact ⟨rfl, rfl, rfl⟩

theorem Pan.place_hushes (k : PlaceKind) (late : Bool) (p : Pan) : Hushes (Pan.place k late) p := by
  cases k with
  | input s d =>
    have e : Pan.place (.input s d) late p = (p.modSlot s (InSlot.place d late)).raise 17 := rfl
    unfold Hushes
    rw [e]
    exact Pan.raise_hushes 17 (p.modSlot s (InSlot.place d late))
  | attach s => exact ⟨rfl, rfl, rfl⟩
  | detach s => exact ⟨rfl, rfl, rfl⟩
  | message m =>
    have e : Pan.place (.message m) late p = (p.modMb (fun b => { b with queue := b.queue ++ [m] })).mbDeliver := rfl
    unfold Hushes
    rw [e]
    exact Pan.mbDeliver_hushes (p.modMb (fun b => { b with queue := b.queue ++ [m] }))
  | nmi => exact ⟨rfl, rfl, rfl⟩
  | hcReply s r =>
    unfold Hushes Pan.place
    dsimp only
    cases p.callIs s <;> exact ⟨rfl, rfl, rfl⟩
  | hcTimeout s =>
    unfold Hushes Pan.place
    dsimp only
    cases p.callIs s <;> exact ⟨rfl, rfl, rfl⟩
  | movie r o bs =>
    have e : Pan.place (.movie r o bs) late p = (p.mediaCommit o bs).mvReady (p.ras.ready ||| r) := rfl
    unfold Hushes
    rw [e]
    exact Pan.mvReady_hushes (p.ras.ready ||| r) (p.mediaCommit o bs)
  | halt f c d => exact ⟨rfl, rfl, rfl⟩

/-! ### The record -/

/-- What a record remembers of a placement does not depend on what it did to the image. -/
theorem Site.apply_noted (c : Nat) (pl : Placement) (x : Site) {q : Pan} (hf : q.frame = x.pan.frame)
    (hs : q.frameStart = x.pan.frameStart) :
    ({ x with pan := q } : Site).apply c pl = { x.noted c pl with pan := q.place pl.kind pl.late } := by
  have ends : ∀ (r : Pan) (y : Site), Site.endsCall pl.kind { y with pan := r } = { y.endsCall pl.kind with pan := r } := by
    intro r y
    unfold Site.endsCall
    split
    · split <;> rfl
    · split <;> rfl
    · rfl
  have logs : ∀ (l : List LogRec) (r : Pan) (y : Site), Site.log l { y with pan := r } = { y.log l with pan := r } := by
    intro l r y
    have e : ({ y with pan := r } : Site).logging = y.logging := rfl
    unfold Site.log
    rw [e]
    split <;> rfl
  have e : ({ x with pan := q } : Site).apply c pl =
      (Site.log (if pl.logged then [] else pl.logRecs q.frame (c - q.frameStart))
        (Site.endsCall pl.kind { x.unqueue pl with pan := q.place pl.kind pl.late })).remember
          { frame := q.frame, cyc := c - q.frameStart, p := pl } := rfl
  rw [e, ends, logs, hf, hs]
  rfl

/-! ### The rows -/

section rows
variable {p : PanNo} {s : State} {x : Site}

theorem Pan.upTo_frameStart (t : Nat) (q : Pan) : (q.upTo t).frameStart = q.frameStart := by
  unfold Pan.upTo
  split
  · rfl
  · exact (Pan.settle_frame q).frameStart

/-- The next placement of a pan that advances, where it is of the kind asked for and its pan-cycle has come. -/
theorem State.placeStep_next {ok : PlaceKind → Bool} {c : Nat} {pl : Placement} (a : State.Advances s p x)
    (hn : x.nextPlace = some (c, pl)) (hk : ok pl.kind = true) (hc : x.pan.comes (c + 1) = true) :
    s.placeStep p ok = .next (s.withPan p (x.noted c pl) ((x.pan.upTo (c + 1)).place pl.kind pl.late)) := by
  have come : c + 1 ≤ (x.pan.upTo (c + 1)).clk := by rw [Pan.upTo_clk]; omega
  have next : x.placeNext ok = some { x.noted c pl with pan := (x.pan.upTo (c + 1)).place pl.kind pl.late } := by
    rw [Site.placeNext, hn]
    dsimp only
    rw [Pan.reach_comes hc, hk, decide_eq_true come, Bool.and_self, if_pos rfl,
      Site.apply_noted c pl x (Pan.upTo_frame _ _) (Pan.upTo_frameStart _ _)]
  have quiet : Pan.Quiet x.pan ((x.pan.upTo (c + 1)).place pl.kind pl.late) :=
    (Pan.place_hushes pl.kind pl.late _).quiet ((Pan.upTo_out _ _).trans a.out) (Pan.upTo_frame _ _) ((Pan.upTo_served _ _).trans a.served)
  rw [State.placeStep, a.live]
  dsimp only
  rw [next]
  exact congrArg _ (State.afterPan_quiet quiet)

/-- A row that applies placements of some kinds. -/
theorem places_of {i : Instr} {k : PlaceKind} {f : Bool → Pan → Pan} {ok : PlaceKind → Bool}
    (e : ∀ s x, State.Advances s p x → exec i s = s.placeStep p ok) (hk : ok k = true) (h : ∀ late q, Pan.place k late q = f late q) :
    Places i p k f := by
  intro s x c pl a hn hpl hc
  rw [e s x a, State.placeStep_next a hn (hpl ▸ hk) hc, hpl, h]

/-- A pan that advances waits for no call. -/
theorem State.Advances.hcWait (a : State.Advances s p x) : x.pan.core.hcWait = false := by
  have h := a.live
  rw [State.liveSite, Option.filter_eq_some_iff] at h
  have r := h.2
  simp only [State.runs, Site.live, Bool.and_eq_true, Bool.not_eq_true'] at r
  exact r.1.2.1.1.2

theorem exec_hcallReplyApply (a : State.Advances s p x) : exec (.hcallReplyApply p) s = s.placeStep p PlaceKind.isReply := by
  have e : exec (.hcallReplyApply p) s = execHcallReplyApply p s := rfl
  have w : x.syncWaits = false := by rw [Site.syncWaits, a.hcWait, Bool.and_false, Bool.false_and]
  rw [e, execHcallReplyApply, State.liveSite_site a.live]
  dsimp only
  rw [w]
  rfl

theorem exec_hcallTimeout_place (a : State.Advances s p x) (h : x.openDeadline = none) :
    exec (.hcallTimeout p) s = s.placeStep p PlaceKind.isDeadline := by
  have e : exec (.hcallTimeout p) s = execHcallTimeout p s := rfl
  rw [e, execHcallTimeout, State.liveSite_site a.live]
  dsimp only
  rw [h]

end rows

/-! ### What each kind does, in the words of the statement -/

theorem Pan.raising_source {n : Nat} (h : (1#32 <<< n) &&& icSources = 1#32 <<< n) (p : Pan) : p.raising [(n, true)] = p.pendSrc n :=
  Pan.raising_one h true p

/-- A message that waits in a queue: delivered where INFULL = 0. -/
theorem Pan.mbDeliver_queue (m : Message) (r : List Message) (q : Pan) :
    (q.modMb (fun b => { b with queue := m :: r })).mbDeliver =
      if q.mb.full then { q with mb := { q.mb with queue := m :: r } }
      else ({ q with mb := { q.mb with inb := m.bytes, inSeq := m.num, full := true, queue := r },
                     core := { q.core with nmi := q.core.nmi || m.nmi } } : Pan).raising [(31, true)] := by
  rw [Pan.raising_source (by decide)]
  cases hf : q.mb.full
  · rw [if_neg (by decide)]
    have e : (q.modMb (fun b => { b with queue := m :: r })).mbDeliver =
        if (q.modMb (fun b => { b with queue := m :: r })).mb.full then q.modMb (fun b => { b with queue := m :: r })
        else if m.nmi then ((q.modMb (fun b => { b with inb := m.bytes, inSeq := m.num, full := true, queue := r })).pendSrc 31).modCore
            (fun k => { k with nmi := true })
          else (q.modMb (fun b => { b with inb := m.bytes, inSeq := m.num, full := true, queue := r })).pendSrc 31 := rfl
    rw [e, if_neg (by rw [show (q.modMb (fun b => { b with queue := m :: r })).mb.full = q.mb.full from rfl, hf]; decide)]
    cases m.nmi
    · rw [Bool.or_false]; rfl
    · rw [Bool.or_true]; rfl
  · exact if_pos hf

/-- A bit of MV_READY that becomes 1 is one of those marked. -/
theorem marked_new (a r : BitVec 4) : (a ||| r) &&& ~~~ a = r &&& ~~~ a := by
  ext i
  simp
  cases a[i] <;> simp

/-- Settles O27: one step for every row, and what each kind does to the image. -/
theorem placementsApply : Obligations.PlacementsApply := by
  unfold Obligations.PlacementsApply
  intro p slot delivered queued ended
  have ends : ∀ (n : Byte) (f : HostCall → HostCall) (q : Pan), (if q.callIs n then (q.modHc f).pendSrc 20 else q) = ended n f q := by
    intro n f q
    show _ = if q.hc.pend && q.hc.seq == n then ({ q with hc := f q.hc } : Pan).raising [(20, true)] else q
    rw [Pan.raising_source (by decide)]
    rfl
  refine ⟨?_, ?_, ?_, ?_, ?_, ?_, ?_, ?_⟩
  · refine fun k d => places_of (fun _ _ _ => rfl) rfl (fun late q => ?_)
    rw [Pan.raising_source (by decide)]
    rfl
  · refine fun k => places_of (fun _ _ _ => rfl) rfl (fun late q => ?_)
    rw [Pan.raising_source (by decide)]
    rfl
  · refine fun k => places_of (fun _ _ _ => rfl) rfl (fun late q => ?_)
    rw [Pan.raising_source (by decide)]
    rfl
  · refine fun m => places_of (fun _ _ _ => rfl) rfl (fun late q => ?_)
    have e : Pan.place (.message m) late q = (q.modMb (fun b => { b with queue := q.mb.queue ++ [m] })).mbDeliver := rfl
    rw [e]
    generalize hl : q.mb.queue ++ [m] = l
    cases l with
    | nil => simp at hl
    | cons a r => exact Pan.mbDeliver_queue a r q
  · exact places_of (fun _ _ _ => rfl) rfl (fun _ _ => rfl)
  · refine fun r o bs => places_of (fun _ _ _ => rfl) rfl (fun late q => ?_)
    have e : Pan.place (.movie r o bs) late q = (q.mediaCommit o bs).mvReady (q.ras.ready ||| r) := rfl
    have kept : (q.mediaCommit o bs).ras.ready = q.ras.ready := rfl
    rw [e, Pan.mvReady_eq, kept, marked_new]
    rfl
  · exact fun n b => places_of (fun _ _ a => exec_hcallReplyApply a) rfl (fun _ q => ends n _ q)
  · intro n s x c pl a h hn hk hc
    rw [exec_hcallTimeout_place a h, State.placeStep_next a hn (by rw [hk]; rfl) hc, hk]
    exact congrArg (fun q => Host.Outcome.next (s.withPan p (x.noted c pl) q)) (ends n HostCall.timedOut _)

end Sys2Proof.Machine
end

section
/-!
Host-calls (R54 to R58, R341, R343): the request handed on, the call posted or refused, and the statement.
-/
namespace Sys2Proof.Machine

/-! ### Bytes -/

theorem slice_take {bs : List Byte} {o n : Nat} (h : o + n ≤ bs.length) : slice bs o n = (bs.drop o).take n := by
  have k : n - (bs.drop o).length = 0 := by rw [List.length_drop]; omega
  rw [slice, k, List.replicate_zero, List.append_nil]

theorem slice_all {bs : List Byte} {n : Nat} (h : bs.length = n) : slice bs 0 n = bs := by
  rw [slice_take (by omega), List.drop_zero, List.take_of_length_le h.le]

theorem leBytes_two (w : Word) : leBytes 2 w.toNat = [w.lo, w.hi] := by
  have lo : BitVec.ofNat 8 w.toNat = w.lo := BitVec.ofNat_toNat 8 w
  have hi : BitVec.ofNat 8 (w.toNat / 256) = w.hi := by
    apply BitVec.eq_of_toNat_eq
    simp [Word.hi, Nat.shiftRight_eq_div_pow]
  rw [← lo, ← hi]
  rfl

/-! ### What a pan in a call hands on -/

/-- The bytes of the request (R54, R55). -/
def Pan.callBytes (n : Fin 8) (p : Pan) : List Byte :=
  [BitVec.ofNat 8 n.val, p.hc.seq + 1, p.cpu.a, p.cpu.b, p.cpu.p.lo, p.cpu.p.hi, p.cpu.q.lo, p.cpu.q.hi] ++ p.hc.arg.toList

/-- The request of a host-call that began with the image `p`, posted in its last pan-cycle. -/
def Pan.callOut (n : Fin 8) (p : Pan) : PanOut :=
  .hostCall (BitVec.ofNat 8 n.val) (p.hc.seq + 1) p.cpu.a p.cpu.b p.cpu.p p.cpu.q p.hc.arg.toList p.frame (p.clk + 3 - p.frameStart)
    p.sys.frameCount.toNat

theorem Pan.OnlyCpu.send {p q : Pan} (h : Pan.OnlyCpu p q) (o : PanOut) : Pan.OnlyCpu (p.send o) (q.send o) := by
  unfold Pan.OnlyCpu Pan.send at *
  rw [h]

theorem Pan.OnlyCpu.hostCallOut {p q : Pan} (h : Pan.OnlyCpu p q) (hc : q.cpu = { p.cpu with pc := p.cpu.pc + 1 }) (hk : q.clk = p.clk + 3)
    (n : Fin 8) : q.hostCallOut n = q.send (p.callOut n) := by
  have hq : q.hc = p.hc ∧ q.frame = p.frame ∧ q.frameStart = p.frameStart ∧ q.sys = p.sys := by
    unfold Pan.OnlyCpu at h
    rw [h]
    exact ⟨rfl, rfl, rfl, rfl⟩
  rw [Pan.hostCallOut, Pan.frameCyc, hq.1, hq.2.1, hq.2.2.1, hq.2.2.2, hc, hk]
  rfl

/-- The image a host-call leaves before the device takes the request. -/
structure Pan.Called (n : Fin 8) (p q : Pan) : Prop where
  only : Pan.OnlyCpu (p.send (p.callOut n)) q
  cpu : q.cpu = { p.cpu with pc := p.cpu.pc + 1 }
  clk : q.clk = p.clk + 4
  wait : q.core.hcWait = p.core.hcWait

/-- The last pan-cycle of a host-call, from the image `u`. -/
theorem call_last {p u : Pan} (n : Fin 8) {c : Cpu} (a : At p u [] c 3 3) (a' : At p u.internal.spend [] c 4 4)
    (hc : c = { p.cpu with pc := p.cpu.pc + 1 }) (hw : u.core.hcWait = p.core.hcWait) :
    ∃ q, runPlan [lastCycle (fun q => (q.internal).hostCallOut n)] u = q ∧ Pan.Called n p q := by
  have only : Pan.OnlyCpu p u.internal := a'.only.trans rfl
  have sent : u.internal.hostCallOut n = u.internal.send (p.callOut n) := only.hostCallOut (a'.cpu.trans hc) a.clk n
  have ab : (u.internal.hostCallOut n).abort = false := by rw [sent]; exact a'.abort
  have rep : (u.internal.hostCallOut n).core.rep = false := by rw [sent]; exact a'.rep
  have k := lastCycle_ok (f := fun q => (q.internal).hostCallOut n) (p := u) ab rep
  have e := runPlan_last a.calm (u := lastCycle (fun q => (q.internal).hostCallOut n)) (by rw [k]; exact ab)
  refine ⟨_, e, ?_⟩
  rw [k, sent]
  exact ⟨(only.send _).trans rfl, a'.cpu.trans hc, congrArg (· + 1) a.clk, hw⟩

theorem run_hc {p : Pan} (n : Fin 8) (hc : p.unsettled = false) (ha : p.abort = false) (hr : p.core.rep = false) (h : plainAddr p.cpu.pc) :
    ∃ q, runPlan (plan (Op.hc n).action .implied) p = q ∧ Pan.Called n p q := by
  have a1 := At.fetched hc ha hr h
  have a2 := a1.internal
  have a3 := a2.internal
  have wait : p.fetched.core.hcWait = p.core.hcWait := Pan.readTouch_hcWait _ p
  have run : runPlan (plan (Op.hc n).action .implied) p = runPlan [lastCycle (fun q => (q.internal).hostCallOut n)]
      p.fetched.spend.internal.spend.internal.spend := by
    show runPlan [Pan.fetched, Pan.internal, Pan.internal, lastCycle _] p = _
    rw [At.more _ hc a1, At.more _ a1.calm a2, At.more _ a2.calm a3]
  rw [run]
  exact call_last n a3 a3.internal rfl wait

/-! ### The device takes the request -/

theorem State.pushCall_eventful (n : Nat) (entry : List Byte) (s : State) : Eventful s (s.pushCall n entry) := by
  unfold State.pushCall
  cases s.ring n with
  | none => exact .refl s
  | some r =>
    exact ((State.hostWrite_eventful _ _ _).trans (State.hostWrite_eventful _ _ _)).trans (State.pushEntry_eventful _ _ _)

theorem State.sendCall_sites (p : Nat) (entry : List Byte) (s : State) : (s.sendCall p entry).sites = s.sites := by
  unfold State.sendCall
  cases s.serving 2 (some p) with
  | none => rfl
  | some n =>
    refine (apply_ite State.sites _ _ _).trans ?_
    rw [(State.pushCall_eventful n entry s).sites]
    exact ite_self _

theorem State.sendCall_waits {p : Nat} {s : State} (h : s.serving 2 (some p) = none) (entry : List Byte) :
    (s.sendCall p entry).waitCalls = s.waitCalls ++ [{ pan := p, entry := entry }] := by
  simp only [State.sendCall, h]

section taken
variable {s : State} {p : Nat} {z : Site}

/-- With a call outstanding the request is refused. -/
theorem State.takeCall_refused (hz : s.site p = some z) (hp : z.pan.hc.pend = true) (call seq : Byte) (request : List Byte)
    (frame cyc fcount : Nat) :
    s.takeCall p false call seq request frame cyc fcount = s.putSite p (z.modPan Pan.rejectCall) := by
  simp only [State.takeCall, hz, hp, if_true]

/-- The call posted, as the pan's record holds it. -/
def Site.newCall (now : Nat) (call seq : Byte) (request : List Byte) (frame cyc : Nat) (x : Site) : CallOut :=
  { call := call, seq := seq, request := request, posted := now, deadline := now + x.hcTimeout, frame := frame, cyc := cyc,
    reply := none, placed := false }

/-- The record with a call posted. -/
def Site.calling (now : Nat) (call seq : Byte) (request : List Byte) (frame cyc : Nat) (x : Site) : Site :=
  { x.modPan (Pan.postCall call seq (!x.callsAsync)) with
    callOut := some (x.newCall now call seq request frame cyc)
    plQ := x.plQ.filter (fun q => !(q.logged && q.kind.answers seq))
    heap := { x.heap with calls := x.heap.calls ++ [x.newCall now call seq request frame cyc] } }

/-- With none outstanding it is posted, where no log and no re-run answers it. -/
theorem State.takeCall_posted (hz : s.site p = some z) (hp : z.pan.hc.pend = false) (hm : z.runMode ≠ .replay)
    (hr : z.rerunning = false) (call seq : Byte) (request : List Byte) (frame cyc fcount : Nat) :
    s.takeCall p false call seq request frame cyc fcount =
      (s.putSite p (z.calling s.now call seq request frame cyc)).sendCall p
        (hcallEntry p request frame cyc s.now (s.now + z.hcTimeout) fcount false) := by
  have recorded : z.recorded seq = none := if_neg hm
  have again : (z.sameCall call seq request).filter (fun _ => false || z.rerunning) = none := by
    rw [hr]
    cases z.sameCall call seq request <;> rfl
  simp only [State.takeCall, hz, hp, recorded, again, Bool.false_eq_true, if_false]
  rfl

end taken

/-! ### The step of a host-call -/

/-- The record with the image `q`, its outbox handed on. -/
def Site.handed (q : Pan) (x : Site) : Site :=
  (Site.settleCredits { x with pan := q, dirty := true }).modPan (fun r => { r with out := [] })

/-- The device as it takes what the call hands on. -/
def State.handed (p : Nat) (x : Site) (q : Pan) (s : State) : State :=
  (s.putSite p { x with pan := q, dirty := true }).putSite p (x.handed q)

/-- The device with the request of a call taken. -/
def State.called (p : Nat) (n : Fin 8) (x : Site) (q : Pan) (s : State) : State :=
  (s.handed p x q).takeCall p false (BitVec.ofNat 8 n.val) (x.pan.hc.seq + 1) (x.pan.callBytes n) x.pan.frame
    (x.pan.clk + 3 - x.pan.frameStart) x.pan.sys.frameCount.toNat

theorem State.handed_site (s : State) (p : Nat) (x : Site) (q : Pan) : (s.handed p x q).site p = some (x.handed q) :=
  State.site_putSite_same _ _ _

section posts
variable {s : State} {p : PanNo} {x : Site} {n : Fin 8} {q : Pan}

theorem exec_hostCall (b : State.Begins s p x (.hc n) .implied) (h : plainAddr x.pan.cpu.pc) :
    ∃ q, Pan.Called n x.pan q ∧ exec (.hostCall p n) s = .next (s.stepsTo p x q) := by
  obtain ⟨q, run, called⟩ := run_hc n b.calm b.abort (Pan.ready_rep b.ready) h
  have e : exec (.hostCall p n) s = s.instruct p (.hc n) .implied := rfl
  exact ⟨q, called, e.trans (State.instruct_steps b run)⟩

/-- The image of the call, in the parts of the state it began with. -/
theorem Pan.Called.fields (k : Pan.Called n x.pan q) : q.hc = x.pan.hc ∧ q.frame = x.pan.frame ∧ q.stores = x.pan.stores ∧
    q.ic = x.pan.ic ∧ q.crust = x.pan.crust ∧ q.out = x.pan.out ++ [x.pan.callOut n] := by
  have only := k.only
  unfold Pan.OnlyCpu at only
  rw [only]
  exact ⟨rfl, rfl, rfl, rfl, rfl, rfl⟩

/-- The outbox holds the request and nothing else: the device takes it. -/
theorem State.flush_call {t : State} (ht : t.site p = some { x with pan := q, dirty := true }) (ho : q.out = [x.pan.callOut n]) :
    t.flush p false = (t.putSite p (x.handed q)).takeCall p false (BitVec.ofNat 8 n.val) (x.pan.hc.seq + 1) (x.pan.callBytes n)
      x.pan.frame (x.pan.clk + 3 - x.pan.frameStart) x.pan.sys.frameCount.toNat := by
  simp only [State.flush, ht, ho, Pan.callOut, List.foldl_cons, List.foldl_nil, State.takeOut, leBytes_two]
  rfl

/-- Where the request ends no frame, the step leaves the device as the request does. -/
theorem State.stepsTo_called (g : State.Goes s p x) (k : Pan.Called n x.pan q) {y : Site} (hy : (s.called p n x q).site p = some y)
    (hf : y.pan.frame = q.frame) : s.stepsTo p x q = s.called p n x q := by
  obtain ⟨-, frame, -, -, crust, out⟩ := k.fields
  rw [g.out, List.nil_append] at out
  have ht : (s.putSite p { x with pan := q, dirty := true }).site p = some { x with pan := q, dirty := true } :=
    State.site_putSite_same _ _ _
  have crystal := State.crystallize_none ht ((congrArg (·.served) crust).trans g.served)
  have flushed : (s.putSite p { x with pan := q, dirty := true }).flush p false = s.called p n x q := State.flush_call ht out
  obtain ⟨z, hz, rfl⟩ := g.live
  have old : ((s.site p).map (fun y => y.pan)).getD z.settled.pan = z.pan := by rw [State.liveSite_site hz]; rfl
  have le : y.pan.frame ≤ z.pan.frame := by
    rw [hf, frame]
    exact (Pan.settle_frameNo z.pan).le
  rw [State.stepsTo, old]
  exact State.afterPan_flush crystal flushed hy le

/-! ### Refused -/

theorem State.called_refused (k : Pan.Called n x.pan q) (hp : x.pan.hc.pend = true) :
    s.called p n x q = (s.handed p x q).putSite p ((x.handed q).modPan Pan.rejectCall) :=
  State.takeCall_refused (State.handed_site s p x q) ((congrArg (·.pend) k.fields.1).trans hp) _ _ _ _ _ _

theorem hostCall_refused (b : State.Begins s p x (.hc n) .implied) (h : plainAddr x.pan.cpu.pc) (hp : x.pan.hc.pend = true) :
    Completes (.hostCall p n) s (fun t => SiteThat t p (fun y =>
      y.pan.hc = { x.pan.hc with rej := true } ∧
      y.pan.cpu = { x.pan.cpu with pc := x.pan.cpu.pc + 1, f := withFlags x.pan.cpu.f [(0, true)] } ∧
      y.pan.clk = x.pan.clk + 4 ∧ y.pan.stores = x.pan.stores ∧ y.callOut = x.callOut)) := by
  obtain ⟨q, called, e⟩ := exec_hostCall b h
  have refused := State.called_refused (s := s) (p := p) called hp
  have site := State.site_putSite_same p ((x.handed q).modPan Pan.rejectCall) (s.handed p x q)
  rw [← refused] at site
  obtain ⟨hc, -, stores, -, -, -⟩ := called.fields
  refine ⟨_, e, ?_⟩
  rw [State.stepsTo_called b.toGoes called site rfl]
  exact ⟨_, site, congrArg (fun h : HostCall => { h with rej := true }) hc, congrArg (Cpu.setC true) called.cpu, called.clk, stores, rfl⟩

/-! ### Posted -/

/-- A pan that advances is not halted: it posts its calls as its mode has it. -/
theorem State.Goes.callsAsync (g : State.Goes s p x) : x.runMode = x.mode ∧ x.callsAsync = x.realTime := by
  obtain ⟨z, hz, rfl⟩ := g.live
  have live : z.live = true := by
    simp only [State.liveSite, Option.filter_eq_some_iff, State.runs, Bool.and_eq_true] at hz
    exact hz.2.1.2
  have running : z.mode ≠ .halted := by
    intro halted
    simp [Site.live, Site.realTime, Site.freeRun, halted] at live
  have mode : z.settled.runMode = z.settled.mode := if_neg running
  exact ⟨mode, by rw [Site.callsAsync, mode, Site.realTime]⟩

/-- Pan-cycles on, a pan that runs nothing again still does not. -/
theorem Site.handed_rerunning (h : x.rerunning = false) (k : x.pan.clk ≤ q.clk) : (x.handed q).rerunning = false := by
  simp only [Site.rerunning, Bool.and_eq_false_iff, decide_eq_false_iff_not] at h ⊢
  exact h.imp_left (fun late => fun again => late (k.trans again))

/-- The record after the call is posted. -/
def Site.posted (now : Nat) (n : Fin 8) (q : Pan) (x : Site) : Site :=
  (x.handed q).calling now (BitVec.ofNat 8 n.val) (x.pan.hc.seq + 1) (x.pan.callBytes n) x.pan.frame (x.pan.clk + 3 - x.pan.frameStart)

/-- The entry of the call's request (R343). -/
def State.callEntry (p : Nat) (n : Fin 8) (x : Site) (s : State) : List Byte :=
  hcallEntry p (x.pan.callBytes n) x.pan.frame (x.pan.clk + 3 - x.pan.frameStart) s.now (s.now + x.hcTimeout)
    x.pan.sys.frameCount.toNat false

theorem State.called_posted (g : State.Goes s p x) (k : Pan.Called n x.pan q) (hp : x.pan.hc.pend = false) (hm : x.mode ≠ .replay)
    (hr : x.rerunning = false) :
    s.called p n x q = ((s.handed p x q).putSite p (x.posted s.now n q)).sendCall p (s.callEntry p n x) := by
  have mode : (x.handed q).runMode ≠ .replay := fun e => hm (g.callsAsync.1.symm.trans e)
  have clk : x.pan.clk ≤ q.clk := by rw [k.clk]; omega
  exact State.takeCall_posted (State.handed_site s p x q) ((congrArg (·.pend) k.fields.1).trans hp) mode
    (Site.handed_rerunning hr clk) _ _ _ _ _ _

/-- The image of a posted call: the unit, and in real time C. -/
theorem Pan.postCall_fields (call seq : Byte) (sync : Bool) (r : Pan) (h : r.core.hcWait = false) :
    (r.postCall call seq sync).hc = { r.hc with pend := true, call := call.setWidth 3, seq := seq, sync := sync } ∧
      (r.postCall call seq sync).core.hcWait = sync ∧ (r.postCall call seq sync).clk = r.clk ∧
      (r.postCall call seq sync).frame = r.frame ∧
      (r.postCall call seq sync).cpu = { r.cpu with f := if sync then r.cpu.f else withFlags r.cpu.f [(0, false)] } ∧
      (r.postCall call seq sync).stores = r.stores ∧ (r.postCall call seq sync).ic = r.ic := by
  cases sync
  · exact ⟨rfl, h, rfl, rfl, rfl, rfl, rfl⟩
  · exact ⟨rfl, rfl, rfl, rfl, rfl, rfl, rfl⟩

theorem callNumber (n : Fin 8) : (BitVec.ofNat 8 n.val).setWidth 3 = BitVec.ofNat 3 n.val := by
  apply BitVec.eq_of_toNat_eq
  simp only [BitVec.toNat_setWidth, BitVec.toNat_ofNat]
  omega

theorem hcallEntry_fields (p : Nat) {request : List Byte} (h : request.length = 14) (frame cyc posted deadline fcount : Nat) :
    hcallEntry p request frame cyc posted deadline fcount false =
      leBytes 2 p ++ request ++ leBytes 4 frame ++ leBytes 4 cyc ++ leBytes 8 posted ++ leBytes 8 deadline ++ [1, 0, 0] ++
        List.replicate 13 0 ++ leBytes 4 fcount ++ [0, 0, 0, 0] := by
  rw [hcallEntry, slice_all h]
  rfl

theorem Pan.callBytes_length (n : Fin 8) (r : Pan) : (r.callBytes n).length = 14 := by
  simp [Pan.callBytes]

theorem hostCall_posted (b : State.Begins s p x (.hc n) .implied) (h : plainAddr x.pan.cpu.pc) (hp : x.pan.hc.pend = false)
    (hm : x.mode ≠ .replay) (hr : x.rerunning = false) :
    Completes (.hostCall p n) s (fun t => SiteThat t p (fun y =>
      y.pan.hc = { x.pan.hc with pend := true, call := BitVec.ofNat 3 n.val, seq := x.pan.hc.seq + 1, sync := !x.realTime } ∧
      y.pan.core.hcWait = !x.realTime ∧ y.pan.clk = x.pan.clk + 4 ∧
      y.pan.cpu = { x.pan.cpu with
        pc := x.pan.cpu.pc + 1, f := if x.realTime then withFlags x.pan.cpu.f [(0, false)] else x.pan.cpu.f } ∧
      y.pan.stores = x.pan.stores ∧ y.pan.ic = x.pan.ic ∧
      y.callOut.map (fun k => (k.seq, k.request, k.posted, k.deadline, k.placed)) =
        some (x.pan.hc.seq + 1, x.pan.callBytes n, s.tb.time, s.tb.time + x.hcTimeout, false)) ∧
      (s.serving 2 (some p) = none → t.waitCalls = s.waitCalls ++ [{ pan := p, entry := s.callEntry p n x }])) := by
  obtain ⟨q, called, e⟩ := exec_hostCall b h
  have posts := State.called_posted b.toGoes called hp hm hr
  have site : (s.called p n x q).site p = some (x.posted s.now n q) := by
    rw [posts, State.site, State.sendCall_sites]
    exact State.site_putSite_same p _ _
  have waits : q.core.hcWait = false := called.wait.trans (Pan.ready_hcWait b.ready)
  have pan : (x.posted s.now n q).pan =
      Pan.postCall (BitVec.ofNat 8 n.val) (x.pan.hc.seq + 1) (!x.realTime) { q with out := [] } := by
    rw [← b.toGoes.callsAsync.2]
    rfl
  have fields := Pan.postCall_fields (BitVec.ofNat 8 n.val) (x.pan.hc.seq + 1) (!x.realTime) { q with out := [] } waits
  rw [← pan, callNumber] at fields
  obtain ⟨k1, k2, k3, k4, k5, k6, k7⟩ := fields
  obtain ⟨hc, -, stores, ic, -, -⟩ := called.fields
  refine ⟨_, e, ?_⟩
  rw [State.stepsTo_called b.toGoes called site k4]
  refine ⟨⟨_, site, ?_, k2, k3.trans called.clk, ?_, k6.trans stores, k7.trans ic, rfl⟩, fun none => ?_⟩
  · exact k1.trans (congrArg (fun h : HostCall => { h with
      pend := true, call := BitVec.ofNat 3 n.val, seq := x.pan.hc.seq + 1, sync := !x.realTime }) hc)
  · refine k5.trans ?_
    show ({ q.cpu with f := _ } : Cpu) = _
    rw [called.cpu]
    cases x.realTime <;> rfl
  · rw [posts]
    exact State.sendCall_waits (s := (s.handed p x q).putSite p (x.posted s.now n q)) none _

end posts

/-! ### Answers -/

section answered
variable {s : State} {p : PanNo} {x : Site}

/-- The end of a synchronous wait leaves the image as the answer does, and no call outstanding. -/
theorem Site.endSync_fields (k : PlaceKind) (stamp : Nat) (logged : Bool) (x : Site) :
    (x.endSync k stamp logged).pan = (x.endWait k).pan ∧ (x.endSync k stamp logged).callOut = (x.endWait k).callOut := by
  have log_callOut (l : List LogRec) (y : Site) : (Site.log l y).callOut = y.callOut := by
    unfold Site.log
    split <;> rfl
  exact ⟨Site.log_pan _ _, log_callOut _ _⟩

theorem hcallReplyApply_answers {b : Vector Byte 8} {k : CallOut} (hs : s.site p = some x) (hw : x.syncWaits = true)
    (he : s.engines = true) (ho : x.oldAnswer = none) (hk : x.callOut = some k) (hb : k.reply = some b) :
    exec (.hcallReplyApply p) s =
      .next (s.putSite p { x.endSync (.hcReply x.pan.hc.seq b) s.now false with dirty := true }) := by
  have e : exec (.hcallReplyApply p) s = execHcallReplyApply p s := rfl
  have reply : x.applyReply s.now = some (x.endSync (.hcReply x.pan.hc.seq b) s.now false) := by
    simp only [Site.applyReply, ho, hk, hb, Option.bind_some, Option.map_some]
  simp only [e, execHcallReplyApply, hs, hw, he, reply, Bool.and_self, if_true]

theorem hcallTimeout_expires {k : CallOut} (hs : s.site p = some x) (hc : s.tb.counting = true) (hy : x.pan.hc.sync = true)
    (hw : x.syncWaits = true) (hk : x.callOut = some k) (hp : k.placed = false) :
    exec (.hcallTimeout p) s =
      .next ((s.reach k.deadline).putSite p { x.endSync (.hcTimeout x.pan.hc.seq) k.deadline false with dirty := true }) := by
  have e : exec (.hcallTimeout p) s = execHcallTimeout p s := rfl
  have deadline : x.openDeadline = some k.deadline := by
    simp only [Site.openDeadline, hk, Option.filter_some, hp, Bool.not_false, if_true, Option.map_some]
  simp only [e, execHcallTimeout, hs, deadline, hy, hw, State.atTime, hc, if_true]

end answered

/-! ### Answers taken from a ring -/

section taking
variable {s : State} {n : RingNo} {r : Ring}

theorem State.answerTaken_fields (n : Nat) (r : Ring) (s : State) :
    (s.answerTaken n r).rings = Table.put s.rings n { r with taken := r.taken + 1 } ∧
      (s.answerTaken n r).host = s.host.writeBytes (r.idxAddr + 4) (leBytes 4 (r.taken + 1).toNat) ∧
      (s.answerTaken n r).sites = s.sites := ⟨rfl, rfl, rfl⟩

theorem hcallReply_takes (hn : s.ring n = some r) (hl : s.listens = true) (hf : s.dev.status.getLsbD 31 = false) (hk : r.kind = 2)
    (ht : r.taken ≠ r.hst) :
    exec (.hcallReply n) s = .next (if (s.answerEntry r).getD 40 0 = 2 then
      (s.answerTaken n r).modSite (leNat (slice (s.answerEntry r) 0 2))
        (fun x => if x.answers (s.answerTaken n r).now (s.answerEntry r) then x.takeReply (s.answerTaken n r).now (s.answerEntry r)
          else x.discardReply)
      else s.answerTaken n r) := by
  have e : exec (.hcallReply n) s = execHcallReply n s := rfl
  have open_ : (!s.listens || s.fatal || r.kind != 2 || r.taken == r.hst) = false := by
    simp only [hl, State.fatal, hf, hk, beq_false_of_ne ht, bne_self_eq_false, Bool.not_true, Bool.or_self]
  simp only [e, execHcallReply, hn, open_, Bool.false_eq_true, if_false]
  exact (apply_ite Host.Outcome.next _ _ _).symm

theorem State.answerEntry_bytes (hk : r.kind = 2) :
    s.answerEntry r = s.host.readBytes (r.base + (r.taken.toNat % 2 ^ r.log2) * 64) 64 := by
  rw [State.answerEntry, Ring.entryAddr, hk]
  rfl

/-- The bytes that name the pan. -/
theorem State.answerEntry_pan (s : State) (r : Ring) : slice (s.answerEntry r) 0 2 = (s.answerEntry r).take 2 := by
  have len : (s.answerEntry r).length = 64 := Memory.readBytes_length _ _ _
  exact slice_take (by omega)

/-- With no call outstanding an answer fits none. -/
theorem Site.answers_none {x : Site} (h : x.callOut = none) (now : Nat) (e : List Byte) : x.answers now e = false := by
  simp only [Site.answers, h, Option.any_none, Bool.false_and]

theorem State.modSite_keeps (p : Nat) (f : Site → Site) (s : State) :
    (s.modSite p f).rings = s.rings ∧ (s.modSite p f).host = s.host := by
  unfold State.modSite
  cases s.site p <;> exact ⟨rfl, rfl⟩

theorem hcallReply_completes (hn : s.ring n = some r) (hl : s.listens = true) (hf : s.dev.status.getLsbD 31 = false) (hk : r.kind = 2)
    (ht : r.taken ≠ r.hst) {p : PanNo} {x : Site} :
    Completes (.hcallReply n) s (fun t =>
      t.rings = Table.put s.rings n { r with taken := r.taken + 1 } ∧
        t.host = s.host.writeBytes (r.idxAddr + 4) (leBytes 4 (r.taken + 1).toNat) ∧
        ((s.answerEntry r).getD 40 0 = 2 → leNat ((s.answerEntry r).take 2) = p → s.site p = some x → x.callOut = none →
          SiteThat t p (fun y => y = { x with ctr := { x.ctr with hcDiscarded := x.ctr.hcDiscarded + 1 } })) ∧
        ((s.answerEntry r).getD 40 0 ≠ 2 → t.sites = s.sites)) := by
  refine ⟨_, hcallReply_takes hn hl hf hk ht, ?_⟩
  obtain ⟨rings, host, sites⟩ := State.answerTaken_fields n r s
  by_cases reply : (s.answerEntry r).getD 40 0 = 2
  · rw [if_pos reply]
    obtain ⟨k1, k2⟩ := State.modSite_keeps (leNat (slice (s.answerEntry r) 0 2))
      (fun x => if x.answers (s.answerTaken n r).now (s.answerEntry r) then x.takeReply (s.answerTaken n r).now (s.answerEntry r)
        else x.discardReply) (s.answerTaken n r)
    refine ⟨k1.trans rings, k2.trans host, fun _ hp hs hc => ?_, fun no => absurd reply no⟩
    have site : (s.answerTaken n r).site p = some x := (congrArg (Table.get · p) sites).trans hs
    rw [State.answerEntry_pan, hp, State.modSite_eq site, Site.answers_none hc]
    exact SiteThat.putSite rfl
  · rw [if_neg reply]
    exact ⟨rings, host, fun yes => absurd yes reply, fun _ => sites⟩

end taking

/-! ### Requests that waited -/

/-- The one request that waits, for the ring that serves it: with room it is written. -/
theorem hcallRequestWrite_writes {s : State} {n : RingNo} {w : WaitCall} (hw : s.waitCalls = [w])
    (hn : s.serving 2 (some w.pan) = some n) (hr : s.room n = true) :
    exec (.hcallRequestWrite n) s = .next ({ s with waitCalls := [] }.pushCall n w.entry) := by
  have e : exec (.hcallRequestWrite n) s = execHcallRequestWrite n s := rfl
  have found : s.waitCalls.find? (fun w => s.serving 2 (some w.pan) == some n) = some w := by
    simp [hw, hn]
  have left : s.waitCalls.erase w = [] := by simp [hw]
  simp only [e, execHcallRequestWrite, found, hr, left, if_true]

/-- Settles O33: a call posted or refused, the two ends of a synchronous wait, an answer taken and a request written late. -/
theorem hostCallsComplete : Obligations.HostCallsComplete := by
  unfold Obligations.HostCallsComplete
  intro s p x
  refine ⟨fun n b h hp hm hr => ?_, fun n b h hp => hostCall_refused b h hp, ?_, ?_, ?_, ?_⟩
  · have posted := hostCall_posted b h hp hm hr
    rw [State.callEntry, hcallEntry_fields _ (Pan.callBytes_length n _)] at posted
    exact posted
  · intro b k hs hw he ho hk hb
    obtain ⟨pan, out⟩ := Site.endSync_fields (.hcReply x.pan.hc.seq b) s.now false x
    exact ⟨_, hcallReplyApply_answers hs hw he ho hk hb, SiteThat.putSite ⟨pan.trans rfl, out.trans rfl⟩⟩
  · intro k hs hc hy hw hk hp
    obtain ⟨pan, out⟩ := Site.endSync_fields (.hcTimeout x.pan.hc.seq) k.deadline false x
    exact ⟨_, hcallTimeout_expires hs hc hy hw hk hp, rfl, SiteThat.putSite ⟨pan.trans rfl, out.trans rfl⟩⟩
  · intro n r hn hl hf hk ht
    have takes := hcallReply_completes hn hl hf hk ht (p := p) (x := x)
    rw [State.answerEntry_bytes hk] at takes
    exact takes
  · intro n w hw hn hr
    have written := State.pushCall_eventful n w.entry { s with waitCalls := [] }
    refine ⟨_, hcallRequestWrite_writes hw hn hr, ?_, written.sites, written.tb, written.only⟩
    exact (congrArg State.waitCalls written.only.eq).trans rfl

end Sys2Proof.Machine
end
section
/-!
The device after reset, and a pan's reset sequence (R26).
-/
namespace Sys2Proof.Machine

/-- The image a pan-cycle of the reset sequence later, with `n` of them left and the byte `t` held. -/
def Pan.resetOn (n : Nat) (t : Byte) (p : Pan) : Pan := { p with core := { p.core with resetLeft := n, tmp := t }, clk := p.clk + 1 }

theorem Pan.resetOn_only (n : Nat) (t : Byte) (p : Pan) : Pan.OnlyCpu p (p.resetOn n t) := rfl

/-- The image with its reset sequence behind it, from an image with `n` pan-cycles of it left. -/
def Pan.started (n : Nat) (p : Pan) : Pan :=
  { p with cpu := { p.cpu with pc := p.wordAt 0xFFFE }, core := { p.core with resetLeft := 0, tmp := 0 }, clk := p.clk + n }

/-- A pan-cycle of the sequence that does not read the vector only counts. -/
theorem Pan.resetCycle_counts {p : Pan} {n : Nat} (h : p.core.resetLeft = n + 3) :
    p.resetCycle.spend = p.resetOn (n + 2) p.core.tmp := by
  have left : p.core.resetLeft - 1 = n + 2 := by omega
  rw [Pan.resetCycle, if_neg (by omega), if_neg (by omega), Pan.resetOn, ← left]
  rfl

/-- The last pan-cycle but one reads the vector's low byte. -/
theorem Pan.resetCycle_low {p : Pan} (h : p.core.resetLeft = 2) : p.resetCycle.spend = p.resetOn 1 (p.peek 0xFFFE) := by
  rw [Pan.resetCycle, if_pos h]
  generalize p.peek 0xFFFE = t
  have left : p.resetOn 1 t = p.resetOn (p.core.resetLeft - 1) t := by rw [h]
  exact left.symm

/-- The last one reads its high byte, and the processor starts. -/
theorem Pan.resetCycle_high {p : Pan} (h : p.core.resetLeft = 1) : p.resetCycle.spend =
    { p with cpu := { p.cpu with pc := Word.ofBytes (p.peek 0xFFFF) p.core.tmp },
             core := { p.core with resetLeft := 0, tmp := 0 }, clk := p.clk + 1 } := by
  have left : 0 = p.core.resetLeft - 1 := by omega
  rw [Pan.resetCycle, if_neg (by omega), if_pos h, left]
  generalize Word.ofBytes _ _ = w
  rfl

theorem Pan.resetCycles_two {p : Pan} (h : p.core.resetLeft = 2) : p.resetCycles 2 = p.started 2 := by
  have high := (p.resetOn_only 1 (p.peek 0xFFFE)).peek (a := 0xFFFF) (Or.inr (by decide))
  rw [Pan.resetCycles, Pan.resetCycle_low h, Pan.resetCycles, Pan.resetCycle_high rfl, high, Pan.resetCycles, Pan.started, Pan.wordAt,
    show (0xFFFE : Word) + 1 = 0xFFFF from by decide]
  generalize p.peek 0xFFFE = t
  generalize p.peek 0xFFFF = u
  rfl

/-- The whole sequence, however many of its pan-cycles are left. -/
theorem Pan.resetCycles_started (n : Nat) {p : Pan} (h : p.core.resetLeft = n + 2) : p.resetCycles (n + 2) = p.started (n + 2) := by
  induction n generalizing p with
  | zero => exact Pan.resetCycles_two h
  | succ n ih =>
    have vector := (p.resetOn_only (n + 2) p.core.tmp).wordAt (a := 0xFFFE) (Or.inr (by decide)) (Or.inr (by decide))
    rw [Pan.resetCycles, Pan.resetCycle_counts h, ih rfl, Pan.started, Pan.started, vector]
    generalize p.wordAt 0xFFFE = w
    rw [show p.clk + (n + 1 + 2) = p.clk + 1 + (n + 2) by omega]
    rfl

theorem Pan.afterReset_reset (g : PanCfg) (tag : Word) (cram media : Memory) :
    (Pan.reset g tag cram media).afterReset = (Pan.reset g tag cram media).started 6 :=
  Pan.resetCycles_started 4 rfl

/-- Settles O60: the fields of the reset state as they stand, and the reset sequence as `Pan.resetCycles_started` runs it. -/
theorem resetState : Obligations.ResetState := by
  unfold Obligations.ResetState
  refine ⟨rfl, rfl, rfl, rfl, rfl, rfl, rfl, rfl, rfl, rfl, rfl, rfl, rfl, rfl, rfl, rfl, fun g tag cram media => ?_,
    fun n w v => ⟨rfl, rfl⟩⟩
  intro q started
  have run : started = q.started 6 := Pan.afterReset_reset g tag cram media
  rw [run]
  refine ⟨rfl, rfl, rfl, rfl, rfl, rfl, rfl, rfl, rfl, rfl, rfl, rfl, rfl, rfl, rfl, rfl, rfl, ?_⟩
  rw [Pan.started]

end Sys2Proof.Machine
end

section
/-!
Writes outside the I/O range (R63, R64, R66, R184): each region of the address space takes a byte or ignores it, and the statement.
-/
namespace Sys2Proof.Machine

/-! ### Grains -/

theorem noteOnce_ne_nil (g : Nat) (l : List Nat) : noteOnce g l ≠ [] := by
  unfold noteOnce
  split
  · rename_i h
    intro e
    simp [e] at h
  · exact List.cons_ne_nil g l

theorem mem_noteOnce {g k : Nat} {l : List Nat} (h : k ∈ l) : k ∈ noteOnce g l := by
  unfold noteOnce
  split
  · exact h
  · exact List.mem_cons_of_mem g h

/-! ### Where a write goes -/

/-- A write that no memory takes: to the fixed title bank, to a title bank, or to cartridge RAM beyond its size (R63, R64). -/
def Pan.ignores (a : Word) (p : Pan) : Prop :=
  0xF000 ≤ a.toNat ∨ (0x8000 ≤ a.toNat ∧ a.toNat < 0xC000 ∧ ¬ (p.sys.cramSel = true ∧ p.cramAddr a.toNat < p.cfg.cramSize))

theorem Pan.poke_ignored {a : Word} {p : Pan} (h : p.ignores a) (v : Byte) : p.poke a v = p := by
  unfold Pan.ignores at h
  unfold Pan.poke Pan.pokeAt Pan.bankWrite
  rcases h with h | ⟨h1, h2, h3⟩
  · simp only [if_neg (show ¬ a.toNat < 0x8000 by omega), if_neg (show ¬ a.toNat < 0xC000 by omega),
      if_neg (show ¬ a.toNat < 0xE000 by omega), if_neg (show ¬ a.toNat < 0xF000 by omega)]
  · simp only [if_neg (show ¬ a.toNat < 0x8000 by omega), if_pos h2, if_neg h3]

/-- The memory a write goes to where it is not ignored. -/
theorem Pan.poke_taken {a : Word} {p : Pan} (ha : plainAddr a) (h : ¬ p.ignores a) (v : Byte) :
    (a.toNat < 0x8000 ∧ p.poke a v = { p with wram := p.wram.write a.toNat v }.markGrain (16 + a.toNat / 256)) ∨
    ((0x8000 ≤ a.toNat ∧ a.toNat < 0xC000 ∧ p.sys.cramSel = true ∧ p.cramAddr a.toNat < p.cfg.cramSize) ∧
      p.poke a v = { p with cram := p.cram.write (p.cramAddr a.toNat) v }.markGrain (400 + p.cramAddr a.toNat / 256)) ∨
    ((0xC000 ≤ a.toNat ∧ a.toNat < 0xE000) ∧
      p.poke a v = { p with vram := p.vram.write (p.vramAddr a.toNat) v }.markGrain (144 + p.vramAddr a.toNat / 256)) := by
  unfold Pan.ignores at h
  unfold plainAddr at ha
  unfold Pan.poke Pan.pokeAt Pan.bankWrite
  by_cases h1 : a.toNat < 0x8000
  · exact .inl ⟨h1, by simp only [if_pos h1]⟩
  · by_cases h2 : a.toNat < 0xC000
    · have k : p.sys.cramSel = true ∧ p.cramAddr a.toNat < p.cfg.cramSize := by
        by_contra k
        exact h (.inr ⟨by omega, h2, k⟩)
      exact .inr (.inl ⟨⟨by omega, h2, k⟩, by simp only [if_neg h1, if_pos h2, if_pos k]⟩)
    · have h3 : a.toNat < 0xE000 := by omega
      exact .inr (.inr ⟨⟨by omega, h3⟩, by simp only [if_neg h1, if_neg h2, if_pos h3]⟩)

/-! ### What a read returns -/

/-- A read outside the I/O range, memory by memory (R63). -/
theorem Pan.peek_plain {b : Word} (h : plainAddr b) (p : Pan) : p.peek b =
    if b.toNat < 0x8000 then p.wram.read b.toNat
    else if b.toNat < 0xC000 then p.bankRead b.toNat
    else if b.toNat < 0xE000 then p.vram.read (p.vramAddr b.toNat)
    else p.romByte (b.toNat - 0xF000) := by
  unfold plainAddr at h
  unfold Pan.peek
  by_cases k : b.toNat < 0xE000
  · simp only [if_pos k]
  · simp only [if_neg k, if_neg (show ¬ b.toNat < 0xF000 by omega)]

/-- The marks of changed grains are not read. -/
theorem Pan.peek_markGrain {b : Word} (h : plainAddr b) (g : Nat) (p : Pan) : (p.markGrain g).peek b = p.peek b := by
  rw [Pan.peek_plain h, Pan.peek_plain h]
  rfl

/-- The bank of an address is not that of another: within a region, offsets tell addresses apart. -/
theorem Pan.vramAddr_ne {p : Pan} {a b : Nat} (ha : 0xC000 ≤ a) (hb : 0xC000 ≤ b) (h : b ≠ a) : p.vramAddr b ≠ p.vramAddr a := by
  unfold Pan.vramAddr
  omega

theorem Pan.cramAddr_ne {p : Pan} {a b : Nat} (ha : 0x8000 ≤ a) (hb : 0x8000 ≤ b) (h : b ≠ a) : p.cramAddr b ≠ p.cramAddr a := by
  unfold Pan.cramAddr
  omega

theorem Pan.storesWf_memories {p : Pan} (h : p.storesWf = true) : p.wram.wf = true ∧ p.vram.wf = true ∧ p.cram.wf = true := by
  simp only [Pan.storesWf, Pan.stores, List.all_cons, Bool.and_eq_true] at h
  exact ⟨h.1, h.2.1, h.2.2.1⟩

/-- A byte of work RAM written is read back, and no other byte changes. -/
theorem Pan.peek_wramWrite {a b : Word} {p : Pan} (hb : plainAddr b) (w : p.wram.wf = true) (ha : a.toNat < 0x8000) (v : Byte) :
    ({ p with wram := p.wram.write a.toNat v } : Pan).peek b = if b = a then v else p.peek b := by
  rw [Pan.peek_plain hb, Pan.peek_plain hb]
  by_cases e : b = a
  · rw [if_pos e, e, if_pos ha]
    exact Memory.read_write_same _ v w
  · have ne : b.toNat ≠ a.toNat := fun k => e (BitVec.eq_of_toNat_eq k)
    rw [if_neg e]
    dsimp only
    rw [Memory.read_write_other _ v _ w ne]
    rfl

/-- The same of cartridge RAM. -/
theorem Pan.peek_cramWrite {a b : Word} {p : Pan} (hb : plainAddr b) (w : p.cram.wf = true) (h1 : 0x8000 ≤ a.toNat)
    (h2 : a.toNat < 0xC000) (hs : p.sys.cramSel = true) (hc : p.cramAddr a.toNat < p.cfg.cramSize) (v : Byte) :
    ({ p with cram := p.cram.write (p.cramAddr a.toNat) v } : Pan).peek b = if b = a then v else p.peek b := by
  rw [Pan.peek_plain hb, Pan.peek_plain hb]
  have read : ∀ x, ({ p with cram := p.cram.write (p.cramAddr a.toNat) v } : Pan).bankRead x =
      if p.cramAddr x < p.cfg.cramSize then (p.cram.write (p.cramAddr a.toNat) v).read (p.cramAddr x) else 0xFF := by
    intro x
    exact if_pos hs
  by_cases e : b = a
  · rw [if_pos e, e, if_neg (by omega), if_pos h2, read, if_pos hc]
    exact Memory.read_write_same _ v w
  · have ne : b.toNat ≠ a.toNat := fun k => e (BitVec.eq_of_toNat_eq k)
    rw [if_neg e, read]
    by_cases k1 : b.toNat < 0x8000
    · rw [if_pos k1, if_pos k1]
    · have old : p.bankRead b.toNat = if p.cramAddr b.toNat < p.cfg.cramSize then p.cram.read (p.cramAddr b.toNat) else 0xFF := if_pos hs
      rw [if_neg k1, if_neg k1, old, Memory.read_write_other _ v _ w (Pan.cramAddr_ne h1 (by omega) ne)]
      rfl

/-- The same of the VRAM window. -/
theorem Pan.peek_vramWrite {a b : Word} {p : Pan} (hb : plainAddr b) (w : p.vram.wf = true) (h1 : 0xC000 ≤ a.toNat)
    (h2 : a.toNat < 0xE000) (v : Byte) :
    ({ p with vram := p.vram.write (p.vramAddr a.toNat) v } : Pan).peek b = if b = a then v else p.peek b := by
  rw [Pan.peek_plain hb, Pan.peek_plain hb]
  by_cases e : b = a
  · rw [if_pos e, e, if_neg (by omega), if_neg (by omega), if_pos h2]
    exact Memory.read_write_same _ v w
  · have ne : b.toNat ≠ a.toNat := fun k => e (BitVec.eq_of_toNat_eq k)
    rw [if_neg e]
    by_cases k1 : b.toNat < 0xC000
    · rw [if_pos k1, if_pos k1]
      rfl
    · have k0 : ¬ b.toNat < 0x8000 := by omega
      have read := Memory.read_write_other (p.vramAddr a.toNat) v _ w (Pan.vramAddr_ne (p := p) h1 (show 0xC000 ≤ b.toNat by omega) ne)
      rw [if_neg k0, if_neg k0, if_neg k1, if_neg k1]
      exact congrArg (fun r => if b.toNat < 0xE000 then r else p.romByte (b.toNat - 0xF000)) read

/-- A write that a memory takes is read back and changes no other byte; its grain is marked. -/
theorem Pan.poke_changes {a b : Word} {p : Pan} (w : p.storesWf = true) (ha : plainAddr a) (hb : plainAddr b) (h : ¬ p.ignores a)
    (v : Byte) : (p.poke a v).peek b = (if b = a then v else p.peek b) ∧ ∃ g, (p.poke a v).dirty = noteOnce g p.dirty := by
  obtain ⟨ww, wv, wc⟩ := Pan.storesWf_memories w
  rcases Pan.poke_taken ha h v with ⟨k, e⟩ | ⟨⟨k1, k2, ks, kc⟩, e⟩ | ⟨⟨k1, k2⟩, e⟩
  · rw [e, Pan.peek_markGrain hb, Pan.peek_wramWrite hb ww k]
    exact ⟨rfl, _, rfl⟩
  · rw [e, Pan.peek_markGrain hb, Pan.peek_cramWrite hb wc k1 k2 ks kc]
    exact ⟨rfl, _, rfl⟩
  · rw [e, Pan.peek_markGrain hb, Pan.peek_vramWrite hb wv k1 k2]
    exact ⟨rfl, _, rfl⟩

/-- Settles O8: a write is ignored, or goes to one memory, by the region of its address. -/
theorem writesOneByte : Obligations.WritesOneByte := by
  unfold Obligations.WritesOneByte
  intro x a b v w ha hb kept
  by_cases h : x.ignores a
  · have e := Pan.poke_ignored h v
    refine ⟨?_, fun _ => e, Pan.poke_plain ha v x, fun k => absurd h k⟩
    rw [e, if_neg (fun k => k.2 h)]
  · obtain ⟨read, g, marked⟩ := Pan.poke_changes w ha hb h v
    refine ⟨?_, fun k => absurd k h, Pan.poke_plain ha v x, fun _ => ?_⟩
    · rw [read]
      exact if_congr (iff_self_and.2 (fun _ => h)) rfl rfl
    · rw [marked]
      exact ⟨noteOnce_ne_nil g _, fun k hk => mem_noteOnce hk⟩

end Sys2Proof.Machine
end

section
/-!
Register reads with side effects (R69, R70, R85, R90, R91, R111, R122, R148): each register by its address, and the statement.
-/
namespace Sys2Proof.Machine

/-! ### The registers by address -/

theorem Pan.peek_sys {a : Word} {o : Nat} (h : a.toNat = 0xE2C0 + o) (k : o < 0x20) (p : Pan) : p.peek a = p.sysRead o := by
  rw [Pan.peek_io (o := 0x2C0 + o) (by omega) (by omega), Pan.ioRead]
  repeat rw [if_neg (by omega)]
  rw [if_pos (by omega), Nat.add_sub_cancel_left]

theorem Pan.touch_sys {a : Word} {o : Nat} (h : a.toNat = 0xE2C0 + o) (k : o < 0x20) (p : Pan) :
    p.touch a = p.modSys (SysRegs.touched o) := by
  rw [Pan.touch_io (o := 0x2C0 + o) (by omega) (by omega), Pan.ioTouch]
  repeat rw [if_neg (by omega)]
  rw [if_pos (by omega), Nat.add_sub_cancel_left]

theorem Pan.peek_beam (p : Pan) : p.peek 0xE008 = BitVec.ofNat 8 p.lineCyc := by
  rw [Pan.peek_io (o := 0x008) (by decide) (by decide)]
  rfl

theorem Pan.peek_sprStat (p : Pan) : p.peek 0xE061 = withFlags 0 [(7, p.ras.coll), (6, p.ras.ovf)] := by
  rw [Pan.peek_io (o := 0x061) (by decide) (by decide)]
  rfl

theorem Pan.peek_crcRes (p : Pan) : p.peek 0xE2A8 = BitVec.ofNat 8 (bits p.crc.res 7 0) := by
  rw [Pan.peek_io (o := 0x2A8) (by decide) (by decide)]
  rfl

theorem Pan.touch_beam (p : Pan) : p.touch 0xE008 = p.beamLatched := Pan.touch_io (o := 0x008) (by decide) (by decide) p

theorem Pan.touch_sprStat (p : Pan) : p.touch 0xE061 = p.sprStatCleared := Pan.touch_io (o := 0x061) (by decide) (by decide) p

theorem Pan.touch_crcRes (p : Pan) : p.touch 0xE2A8 = p.modCrc (fun c => { c with latch := (c.res >>> 8).setWidth 24 }) :=
  Pan.touch_io (o := 0x2A8) (by decide) (by decide) p

/-- Address of an offset of an input slot (R89). -/
theorem slotAddr_toNat (k : Fin 16) {o : Nat} (h : o < 8) :
    (BitVec.ofNat 16 (0xE300 + o + 8 * k.val)).toNat = 0xE300 + (8 * k.val + o) := by
  rw [BitVec.toNat_ofNat]
  omega

theorem slotOf_offset (k : Fin 16) {o : Nat} (h : o < 8) :
    slotOf (0x300 + (8 * k.val + o) - 0x300) = k ∧ (0x300 + (8 * k.val + o)) % 8 = o := by
  refine ⟨Fin.ext ?_, by omega⟩
  show (0x300 + (8 * k.val + o) - 0x300) / 8 % 16 = k.val
  omega

theorem Pan.peek_slot {a : Word} {k : Fin 16} {o : Nat} (h : a.toNat = 0xE300 + (8 * k.val + o)) (ho : o < 8) (p : Pan) :
    p.peek a = (p.slots[k]).read o := by
  rw [Pan.peek_io (o := 0x300 + (8 * k.val + o)) (by omega) (by omega), Pan.ioRead]
  repeat rw [if_neg (by omega)]
  rw [if_pos (by omega)]
  simp only [slotOf_offset k ho]

theorem Pan.touch_slot {a : Word} {k : Fin 16} {o : Nat} (h : a.toNat = 0xE300 + (8 * k.val + o)) (ho : o < 8) (p : Pan) :
    p.touch a = p.modSlot k (InSlot.touched o) := by
  rw [Pan.touch_io (o := 0x300 + (8 * k.val + o)) (by omega) (by omega), Pan.ioTouch]
  repeat rw [if_neg (by omega)]
  rw [if_pos (by omega)]
  simp only [slotOf_offset k ho]

/-- Address of an offset of a timer (R136). -/
theorem timerAddr_toNat (n : Fin 4) {o : Nat} (h : o < 16) : (regOf 0xE180 n.val o).toNat = 0xE000 + (0x180 + (16 * n.val + o)) := by
  rw [regOf, BitVec.toNat_ofNat]
  omega

theorem unitOf_timer (n : Fin 4) {o : Nat} (h : o < 16) :
    unitOf (0x180 + (16 * n.val + o) - 0x180) = n ∧ (0x180 + (16 * n.val + o)) % 16 = o := by
  refine ⟨Fin.ext ?_, by omega⟩
  show (0x180 + (16 * n.val + o) - 0x180) / 16 % 4 = n.val
  omega

theorem Pan.peek_timer (n : Fin 4) {o : Nat} (h : o < 16) (p : Pan) :
    p.peek (regOf 0xE180 n.val o) = (p.tm[n]).read (p.tmOwned n) o := by
  rw [Pan.peek_io (timerAddr_toNat n h) (by omega), Pan.ioRead]
  repeat rw [if_neg (by omega)]
  rw [if_pos (by omega)]
  simp only [unitOf_timer n h]

theorem Pan.touch_timer (n : Fin 4) {o : Nat} (h : o < 16) (p : Pan) :
    p.touch (regOf 0xE180 n.val o) = p.modTm n (Timer.touched o) := by
  rw [Pan.touch_io (timerAddr_toNat n h) (by omega), Pan.ioTouch]
  repeat rw [if_neg (by omega)]
  rw [if_pos (by omega)]
  simp only [unitOf_timer n h]

/-- The low byte of a register. -/
theorem bits_low {w : Nat} (x : BitVec w) : BitVec.ofNat 8 (bits x 7 0) = x.setWidth 8 := by
  apply BitVec.eq_of_toNat_eq
  simp [bits]

/-- A read of offset 0 latches the six bytes above it. -/
theorem InSlot.touched_low (d : InSlot) :
    d.touched 0 = { d with latch := Vector.ofFn (fun j : Fin 6 => d.data[j.val + 1]) } := by
  have latch : #v[d.data[1], d.data[2], d.data[3], d.data[4], d.data[5], d.data[6]] = Vector.ofFn (fun j : Fin 6 => d.data[j.val + 1]) := by
    apply Vector.ext
    intro i hi
    rw [Vector.getElem_ofFn]
    match i with
    | 0 | 1 | 2 | 3 | 4 | 5 => rfl
    | n + 6 => omega
  simp only [InSlot.touched, latch]

/-- Settles O21: each register by its address, the byte it returns and what the read changes. -/
theorem latchingReads : Obligations.LatchingReads := by
  unfold Obligations.LatchingReads
  intro p
  refine ⟨?_, ?_, ?_, ?_, ?_, ?_, ?_, ?_, ?_⟩
  · exact reads_of (fun _ => rfl) (fun q _ => Pan.touch_sys (o := 6) (by decide) (by decide) q)
      (fun q _ => (Pan.peek_sys (o := 6) (by decide) (by decide) q).trans (bits_low _))
  · exact reads_of (fun _ => rfl) (fun q _ => Pan.touch_sys (o := 10) (by decide) (by decide) q)
      (fun q _ => (Pan.peek_sys (o := 10) (by decide) (by decide) q).trans (bits_low _))
  · exact reads_of (fun _ => rfl) (fun q _ => Pan.touch_sys (o := 4) (by decide) (by decide) q)
      (fun q _ => Pan.peek_sys (o := 4) (by decide) (by decide) q)
  · exact reads_of (fun _ => rfl) (fun q _ => Pan.touch_crcRes q) (fun q _ => (Pan.peek_crcRes q).trans (bits_low _))
  · intro k
    refine reads_of (fun _ => rfl) (fun q _ => ?_) (fun q _ => Pan.peek_slot (slotAddr_toNat k (o := 0) (by decide)) (by decide) q)
    rw [Pan.touch_slot (slotAddr_toNat k (o := 0) (by decide)) (by decide), ← InSlot.touched_low]
    rfl
  · intro k
    exact reads_of (fun _ => rfl) (fun q _ => Pan.touch_slot (slotAddr_toNat k (o := 7) (by decide)) (by decide) q)
      (fun q _ => Pan.peek_slot (slotAddr_toNat k (o := 7) (by decide)) (by decide) q)
  · exact reads_of (fun _ => rfl) (fun q _ => Pan.touch_sprStat q) (fun q _ => Pan.peek_sprStat q)
  · exact reads_of (fun _ => rfl) (fun q _ => Pan.touch_beam q) (fun q _ => Pan.peek_beam q)
  · intro n
    exact reads_of (fun _ => rfl) (fun q _ => Pan.touch_timer n (o := 4) (by decide) q)
      (fun q _ => Pan.peek_timer n (o := 4) (by decide) q)

end Sys2Proof.Machine
end

section
/-!
The host mailbox (R93, R95 to R97, R344): its control register, and the statement.
-/
namespace Sys2Proof.Machine

theorem Pan.poke_mb {a : Word} {o : Nat} (h : a.toNat = 0xE2F0 + o) (k : o < 0x10) (v : Byte) (p : Pan) :
    p.poke a v = p.mbWrite o v := by
  have late : isLate (0x2F0 + o) = false := by simp [isLate]; omega
  rw [Pan.poke_io (o := 0x2F0 + o) (by omega) (by omega), Pan.ioWrite_above (by omega) late, if_neg (by omega), if_neg (by omega),
    if_pos (by omega), Nat.add_sub_cancel_left]

theorem Pan.poke_inack (p : Pan) : p.poke 0xE2FF 0x80 = p.mbInack := Pan.poke_mb (o := 15) (by decide) (by decide) 0x80 p

theorem Pan.poke_send (p : Pan) : p.poke 0xE2FF 0x40 = p.mbSend := Pan.poke_mb (o := 15) (by decide) (by decide) 0x40 p

/-- With no message waiting nothing is delivered. -/
theorem Pan.mbDeliver_none {p : Pan} (h : p.mb.queue = []) : p.mbDeliver = p := by
  unfold Pan.mbDeliver
  rw [h]

/-- The image once the oldest message, `m`, has been delivered and `r` wait on (R95, R96). -/
def Pan.delivered (m : Message) (r : List Message) (p : Pan) : Pan :=
  ({ p with mb := { p.mb with inb := m.bytes, inSeq := m.num, full := true, queue := r },
            core := { p.core with nmi := p.core.nmi || m.nmi } } : Pan).raising [(31, true)]

/-- The oldest message is delivered where INFULL = 0. -/
theorem Pan.mbDeliver_oldest {p : Pan} {m : Message} {r : List Message} (h : p.mb.queue = m :: r) (hf : p.mb.full = false) :
    p.mbDeliver = p.delivered m r := by
  have e : p = p.modMb (fun b => { b with queue := m :: r }) := by rw [Pan.modMb, ← h]
  conv_lhs => rw [e]
  rw [Pan.mbDeliver_queue, hf]
  rfl

/-- A SEND, with the event of code 0x0005 (R97, R344). -/
theorem Pan.mbSend_eq {p : Pan} (h : p.out = []) : p.mbSend = { p with
    mb := { p.mb with outSeq := p.mb.outSeq + 1 },
    out := [.event 0x0005 (leBytes 4 p.frame ++ leBytes 4 (p.clk - p.frameStart) ++ [p.mb.outSeq + 1] ++
      p.mb.outb.toList ++ [0] ++ leBytes 4 p.sys.frameCount.toNat)] } := by
  rw [Pan.mbSend, Pan.send]
  dsimp only [Pan.modMb]
  rw [h]
  rfl

/-- Settles O24: INACK, SEND and a delivery by what they make of the mailbox. -/
theorem mailboxMoves : Obligations.MailboxMoves := by
  unfold Obligations.MailboxMoves
  intro p delivered
  refine ⟨?_, ?_, ?_, ?_⟩
  · refine writes_of (fun _ => rfl) (fun q hq => (Pan.poke_inack q).trans ?_)
    exact Pan.mbDeliver_none (p := q.modMb _) (List.isEmpty_iff.1 hq)
  · intro m r
    refine writes_of (fun _ => rfl) (fun q hq => (Pan.poke_inack q).trans ?_)
    exact Pan.mbDeliver_oldest (p := q.modMb _) (eq_of_beq hq) rfl
  · intro m r
    refine eventNow_of (F := fun q => if !q.mb.full && !q.mb.queue.isEmpty then some q.mbDeliver else none) (fun _ => rfl)
      (fun q hq => ?_)
    obtain ⟨hf, hm⟩ := Bool.and_eq_true_iff.1 hq
    have queue : q.mb.queue = m :: r := eq_of_beq hm
    rw [if_pos (by rw [hf, queue]; rfl), Pan.mbDeliver_oldest queue (by simpa using hf)]
    rfl
  · intro s x g
    have e : exec (.mbSend p) s = s.access p (Pan.busWrite 0xE2FF 0x40) := rfl
    have sent := (Pan.poke_send x.pan).trans (Pan.mbSend_eq g.out)
    refine ⟨((x.pan.poke 0xE2FF 0x40).resolveLine).spend, ?_, ?_, ?_, ?_, ?_⟩
    · rw [e, access_write g (by rw [sent]; exact g.abort)]
    · rw [sent]; rfl
    · rw [sent]; rfl
    · rw [sent]; rfl
    · rw [sent]
      exact (Pan.resolveLine_only _).spend

end Sys2Proof.Machine
end

section
/-!
The CRC unit (R85 to R88): its registers, a block read byte by byte, and the statement.
-/
namespace Sys2Proof.Machine

theorem Pan.poke_crc {a : Word} {o : Nat} (h : a.toNat = 0xE2A0 + o) (k : o < 0x10) (v : Byte) (p : Pan) :
    p.poke a v = p.modCrc (Crc.written o v) := by
  have late : isLate (0x2A0 + o) = false := by simp [isLate]; omega
  rw [Pan.poke_io (o := 0x2A0 + o) (by omega) (by omega), Pan.ioWrite, if_neg (by omega), late, if_neg (by decide), if_neg (by omega),
    if_neg (by omega), if_neg (by omega), if_neg (by omega), if_pos (by omega), Nat.add_sub_cancel_left]

/-- A write to the CRC unit, by what the unit makes of it. -/
theorem writes_crc {i : Instr} {p : PanNo} {a : Word} {o : Nat} {v : Byte} {c : Pan → Bool} {f : Pan → Pan}
    (e : ∀ s, exec i s = s.access p (Pan.busWrite a v)) (h : a.toNat = 0xE2A0 + o) (k : o < 0x10)
    (w : ∀ q : Pan, c q = true → q.modCrc (Crc.written o v) = f q) : Writes i p c f :=
  writes_of e (fun q hq => (Pan.poke_crc h k v q).trans (w q hq)) (fun q hq => by rw [← w q hq]; exact ⟨rfl, rfl⟩)

/-- While a block is read the unit ignores everything but its status register and a START, which finds it busy (R88). -/
theorem Crc.written_busy {c : Crc} (h : c.busy = true) {o : Nat} (ho : o ≠ 7) (v : Byte) : c.written o v = c := by
  have init : c.init = c := if_pos h
  have start : c.start = c := if_pos h
  unfold Crc.written
  split
  · unfold Crc.command
    rw [init]
    cases v.getLsbD 6 <;> cases v.getLsbD 7 <;> simp [start]
  · exact absurd rfl ho
  · exact if_pos h

theorem writes_crcBusy {i : Instr} {p : PanNo} {a : Word} {o : Nat} {v : Byte}
    (e : ∀ s, exec i s = s.access p (Pan.busWrite a v)) (h : a.toNat = 0xE2A0 + o) (k : o < 0x10) (ho : o ≠ 7) :
    Writes i p (fun q => q.crc.busy) id :=
  writes_crc e h k (fun q hq => by rw [Pan.modCrc, Crc.written_busy hq ho]; rfl)

/-! ### A block (R88) -/

/-- CTX after the first `n` bytes at an address are folded in, in order. -/
def Pan.crcFolded (p : Pan) (n : Nat) : BitVec 32 :=
  (List.range n).foldl (fun k i => crcFold p.crc.poly k (p.peek (p.crc.next + BitVec.ofNat 16 i))) p.crc.ctx

/-- The image once `n` more bytes of a block have been read. -/
def Pan.crcAfter (n : Nat) (p : Pan) : Pan :=
  { p with clk := p.clk + n,
           crc := { p.crc with ctx := p.crcFolded n, next := p.crc.next + BitVec.ofNat 16 n, left := p.crc.left - n } }

/-- The first byte of a block, outside the I/O range, takes one pan-cycle. -/
theorem Pan.crcCycle_plain {p : Pan} (h : p.unsettled = false) (k : plainAddr p.crc.next) :
    ((p.settle).crcCycle).spend = p.crcAfter 1 := by
  rw [Pan.settle_of_calm h, Pan.crcCycle, Pan.touch_plain k]
  have first : p.crc.next + BitVec.ofNat 16 0 = p.crc.next := BitVec.add_zero _
  unfold Pan.crcAfter Pan.crcFolded
  simp only [List.range_one, List.foldl_cons, List.foldl_nil, first]
  rfl

/-- Bytes outside the I/O range do not change as a block is read. -/
theorem Pan.peek_crcAfter {b : Word} (h : plainAddr b) (n : Nat) (p : Pan) : (p.crcAfter n).peek b = p.peek b := by
  rw [Pan.peek_plain h, Pan.peek_plain h]
  rfl

/-- One byte and then `n` more are `n + 1` bytes. -/
theorem Pan.crcAfter_succ {n : Nat} {p : Pan} (h : ∀ i, i < n + 1 → plainAddr (p.crc.next + BitVec.ofNat 16 i)) :
    (p.crcAfter 1).crcAfter n = p.crcAfter (n + 1) := by
  have next : ∀ i, p.crc.next + BitVec.ofNat 16 1 + BitVec.ofNat 16 i = p.crc.next + BitVec.ofNat 16 (i + 1) := fun i => by
    rw [BitVec.add_assoc, ← BitVec.ofNat_add, Nat.add_comm]
  have fold : (p.crcAfter 1).crcFolded n = p.crcFolded (n + 1) := by
    unfold Pan.crcFolded
    rw [List.range_succ_eq_map, List.foldl_cons, List.foldl_map]
    refine List.foldl_ext _ _ _ (fun k i hi => ?_)
    have plain := h (i + 1) (by have := List.mem_range.1 hi; omega)
    show crcFold p.crc.poly k ((p.crcAfter 1).peek (p.crc.next + BitVec.ofNat 16 1 + BitVec.ofNat 16 i)) = _
    rw [next, Pan.peek_crcAfter plain]
  have clk : p.clk + 1 + n = p.clk + (n + 1) := by omega
  have left : p.crc.left - 1 - n = p.crc.left - (n + 1) := by omega
  rw [Pan.crcAfter, fold]
  unfold Pan.crcAfter
  dsimp only
  rw [next, clk, left]

/-- The rest of a block outside the I/O range, a pan-cycle a byte. -/
theorem Pan.crcRest_plain : ∀ (n : Nat) {p : Pan}, p.unsettled = false →
    (∀ i, i < n → plainAddr (p.crc.next + BitVec.ofNat 16 i)) → Pan.crcRest n p = p.crcAfter n
  | 0, p, _, _ => by
    unfold Pan.crcRest Pan.crcAfter Pan.crcFolded
    simp
  | n + 1, p, hu, h => by
    have first : plainAddr p.crc.next := by simpa using h 0 (Nat.succ_pos n)
    rw [Pan.crcRest, Pan.crcCycle_plain hu first, ← Pan.crcAfter_succ h]
    refine Pan.crcRest_plain n hu (fun i hi => ?_)
    have k := h (i + 1) (by omega)
    rwa [Nat.add_comm i 1, BitVec.ofNat_add, ← BitVec.add_assoc] at k

/-- The end of a block: BUSY clears, DONE sets, source 21 is raised under IE. -/
theorem Pan.crcFinish_done {p : Pan} (hb : p.crc.busy = true) (hl : p.crc.left = 0) : p.crcFinish =
    ({ p with crc := { p.crc with busy := false, done := true } } : Pan).raising [(21, p.crc.ie)] := by
  rw [Pan.crcFinish, hb, hl, Pan.raising_one (by decide)]
  rfl

/-- Settles O26: the registers by address, and a block by its bytes. -/
theorem crcBlocks : Obligations.CrcBlocks := by
  unfold Obligations.CrcBlocks
  intro p initial
  refine ⟨?_, ?_, ?_, ?_, ?_, ?_, ?_, ?_, ?_⟩
  · refine fun v => writes_crc (o := 0) (fun _ => rfl) (by decide) (by decide) (fun q hq => ?_)
    rw [Pan.modCrc, Crc.written, if_neg (by simpa using hq)]
    rfl
  · exact fun v => writes_crcBusy (o := 0) (fun _ => rfl) (by decide) (by decide) (by decide)
  · refine fun v => writes_crc (o := 1) (fun _ => rfl) (by decide) (by decide) (fun q hq => ?_)
    rw [Pan.modCrc, Crc.written, if_neg (by simpa using hq)]
  · exact fun v => writes_crcBusy (o := 1) (fun _ => rfl) (by decide) (by decide) (by decide)
  · refine writes_crc (o := 6) (fun _ => rfl) (by decide) (by decide) (fun q hq => ?_)
    have e : q.crc.written 6 0x40 = q.crc.init := rfl
    rw [Pan.modCrc, e, Crc.init, if_neg (by simpa using hq)]
    rfl
  · exact writes_crcBusy (o := 6) (fun _ => rfl) (by decide) (by decide) (by decide)
  · refine writes_crc (o := 6) (fun _ => rfl) (by decide) (by decide) (fun q hq => ?_)
    have e : q.crc.written 6 0x80 = q.crc.start := rfl
    rw [Pan.modCrc, e, Crc.start, if_neg (by simpa using hq)]
  · exact writes_crcBusy (o := 6) (fun _ => rfl) (by decide) (by decide) (by decide)
  · intro s x g hb ht hp
    have e : exec (.crcDone p) s = s.panStep p Pan.crcStep := rfl
    have run : (x.pan.crcRest x.pan.crc.left).crcFinish = _ :=
      (congrArg Pan.crcFinish (Pan.crcRest_plain x.pan.crc.left g.calm hp)).trans (Pan.crcFinish_done hb (Nat.sub_self _))
    rw [e, State.panStep_goes (q := (x.pan.crcRest x.pan.crc.left).crcFinish) g, run, State.stepsTo_quiet g]
    · unfold Pan.crcAfter
      rw [Nat.sub_self]
      rfl
    · exact ⟨g.out, Nat.le_refl _, g.served⟩
    · intro r hr
      simp only [Pan.crcStep, hr, Pan.when, hb, ht, Option.isNone_none, Bool.and_self, if_true]

end Sys2Proof.Machine
end

section
/-!
DMA channels (R77 to R81, R129): the control register, a unit byte by byte, HALF and FULL, and the statement.
-/
namespace Sys2Proof.Machine

theorem not_bool {b : Bool} (h : (!b) = true) : b = false := by simpa using h

/-! ### The registers by address -/

theorem channelAddr_toNat (n : Fin 4) {o : Nat} (h : o < 16) : (regOf 0xE200 n.val o).toNat = 0xE000 + (0x200 + (16 * n.val + o)) := by
  rw [regOf, BitVec.toNat_ofNat]
  omega

theorem unitOf_channel (n : Fin 4) {o : Nat} (h : o < 16) :
    unitOf (0x200 + (16 * n.val + o) - 0x200) = n ∧ (0x200 + (16 * n.val + o)) % 16 = o := by
  refine ⟨Fin.ext ?_, by omega⟩
  show (0x200 + (16 * n.val + o) - 0x200) / 16 % 4 = n.val
  omega

theorem Pan.poke_channel (n : Fin 4) {o : Nat} (h : o < 16) (v : Byte) (p : Pan) : p.poke (regOf 0xE200 n.val o) v =
    (p.modDma n (Dma.written (n == 3 && p.owned) o v)).dmaSettle := by
  have late : isLate (0x200 + (16 * n.val + o)) = false := by simp [isLate]; omega
  rw [Pan.poke_io (channelAddr_toNat n h) (by omega), Pan.ioWrite, if_neg (by omega), late, if_neg (by decide), if_neg (by omega),
    if_neg (by omega), if_pos (by omega)]
  simp only [unitOf_channel n h]

/-- The image with a channel changed; a unit of which nothing is left no longer moves. -/
def Pan.channel (n : Fin 4) (f : Dma → Dma) (p : Pan) : Pan :=
  { p with dma := p.dma.set n (f p.dma[n]),
           dmaCur := p.dmaCur.filter (fun k => ((p.dma.set n (f p.dma[n]))[k]).unitLeft != 0) }

theorem Pan.modDma_settle (n : Fin 4) (f : Dma → Dma) (p : Pan) : (p.modDma n f).dmaSettle = p.channel n f := by
  have cur : (p.modDma n f).dmaCur = p.dmaCur := rfl
  unfold Pan.dmaSettle Pan.channel
  rw [cur]
  cases h : p.dmaCur with
  | none => simp [Pan.modDma, vmod, h]
  | some k =>
    dsimp only
    by_cases e : (((p.modDma n f).dma)[k]).unitLeft = 0
    · have e' : ((p.dma.set n (f p.dma[n]))[k]).unitLeft = 0 := e
      rw [if_pos e, Option.filter_some, e']
      rfl
    · have e' : ¬ ((p.dma.set n (f p.dma[n]))[k]).unitLeft = 0 := e
      rw [if_neg e, Option.filter_some, if_pos (bne_iff_ne.2 e'), ← h]
      rfl

/-! ### `DMAn_CTL` (R78, R79) -/

/-- The enables of a channel. -/
def Dma.enabled (v : Byte) (d : Dma) : Dma := { d with ctl := v &&& 3 }

/-- A channel that has started, before any unit of it is pending. -/
def Dma.begun (d : Dma) : Dma :=
  { d with rem := d.length, half := false, full := false, halfDone := false, busy := true, unitLeft := 0, held := none }

theorem Dma.control_start {v : Byte} (h7 : v.getLsbD 7 = true) (h6 : v.getLsbD 6 = false) (d : Dma) :
    d.control v = (d.enabled v).start := by
  rw [Dma.control, h7, h6]
  rfl

theorem Dma.control_stop {v : Byte} (h6 : v.getLsbD 6 = true) (d : Dma) :
    d.control v = if d.busy then (d.enabled v).stop else d.enabled v := by
  rw [Dma.control, h6]
  rfl

theorem Dma.start_busy {d : Dma} (h : d.busy = true) : d.start = d := if_pos h

theorem Dma.start_bad {d : Dma} (h : d.busy = false) (k : d.badStart = true) : d.start = { d with err := true } := by
  rw [Dma.start, h, k]
  rfl

theorem Dma.start_waits {d : Dma} (h : d.busy = false) (k : d.badStart = false) (t : d.trigCode ≠ 0) : d.start = d.begun := by
  rw [Dma.start, h, k, if_neg (by decide), if_neg (by decide)]
  exact if_neg t

/-- An immediate transfer is one unit, pending at once (R79). -/
theorem Dma.start_immediate {d : Dma} (h : d.busy = false) (k : d.badStart = false) (t : d.trigCode = 0) :
    d.start = d.begun.arm d.length := by
  rw [Dma.start, h, k, if_neg (by decide), if_neg (by decide)]
  exact if_pos t

/-- A write of a channel's control register, by what the channel makes of it. -/
theorem writes_channel {i : Instr} {p : PanNo} {n : Fin 4} {v : Byte} {c : Pan → Bool} {f : Dma → Dma}
    (e : ∀ s, exec i s = s.access p (Pan.busWrite (regOf 0xE200 n.val 11) v)) (free : ∀ q, c q = true → (n == 3 && q.owned) = false)
    (h : ∀ q, c q = true → (q.dma[n]).control v = f q.dma[n]) : Writes i p c (Pan.channel n f) := by
  refine writes_of e (fun q hq => ?_)
  have written : (q.dma[n]).written (n == 3 && q.owned) 11 v = f q.dma[n] := by
    rw [free q hq, ← h q hq]
    rfl
  rw [Pan.poke_channel n (by decide), Pan.modDma_settle, Pan.channel, written]
  rfl

theorem exec_dmaStart {p : PanNo} {n : Fin 4} {v : Byte} (h : v.getLsbD 7 = true) (s : State) :
    exec (.dmaStart p n v) s = s.access p (Pan.busWrite (regOf 0xE200 n.val 11) v) := by
  have e : exec (.dmaStart p n v) s = s.accessIf (v.getLsbD 7) p (Pan.busWrite (regOf 0xE200 n.val 11) v) := rfl
  rw [e, State.accessIf, h]
  rfl

theorem exec_dmaStop {p : PanNo} {n : Fin 4} {v : Byte} (h : v.getLsbD 6 = true) (s : State) :
    exec (.dmaStop p n v) s = s.access p (Pan.busWrite (regOf 0xE200 n.val 11) v) := by
  have e : exec (.dmaStop p n v) s = s.accessIf (v.getLsbD 6) p (Pan.busWrite (regOf 0xE200 n.val 11) v) := rfl
  rw [e, State.accessIf, h]
  rfl

/-! ### A unit that moves between VRAM, media and title (R77, R80) -/

theorem refusedAddr_outside {space : Nat} (h : space ≠ 0) (a : BitVec 24) : refusedAddr space a = false := by
  simp [refusedAddr, h]

theorem Dma.refused_outside {d : Dma} (hs : d.sspace ≠ 0) (hd : d.dspace ≠ 0) : d.refused false = false := by
  rw [Dma.refused, refusedAddr_outside hs, refusedAddr_outside hd]
  rfl

/-- `q` is what `p` becomes as bytes move between VRAM, media and title for `t` pan-cycles. -/
structure Pan.Moves (t : Nat) (p q : Pan) : Prop where
  only : q = { p with clk := p.clk + t, dma := q.dma, dmaCur := q.dmaCur, vram := q.vram, media := q.media, dirty := q.dirty,
                      crust := q.crust }
  served : q.crust.served = p.crust.served

theorem Pan.Moves.trans {t u : Nat} {p q r : Pan} (h : Pan.Moves t p q) (k : Pan.Moves u q r) : Pan.Moves (t + u) p r :=
  ⟨by rw [k.only, h.only, Nat.add_assoc], k.served.trans h.served⟩

theorem Pan.Moves.unsettled {t : Nat} {p q : Pan} (h : Pan.Moves t p q) : q.unsettled = p.unsettled := by
  rw [h.only]
  rfl

theorem Pan.Moves.owned {t : Nat} {p q : Pan} (h : Pan.Moves t p q) : q.owned = p.owned := by
  rw [h.only]
  rfl

theorem Pan.Moves.cpu {t : Nat} {p q : Pan} (h : Pan.Moves t p q) : q.cpu = p.cpu := by rw [h.only]

theorem Pan.Moves.clk {t : Nat} {p q : Pan} (h : Pan.Moves t p q) : q.clk = p.clk + t := by rw [h.only]

theorem Pan.Moves.quiet {t : Nat} {p q : Pan} (h : Pan.Moves t p q) (o : p.out = []) (k : p.crust.served = 0) : Pan.Quiet p q :=
  ⟨by rw [h.only]; exact o, by rw [h.only], h.served.trans k⟩

theorem Pan.markGrain_served (g : Nat) (p : Pan) : (p.markGrain g).crust.served = p.crust.served := by
  unfold Pan.markGrain
  dsimp only
  split <;> rfl

/-- A byte stored outside the processor's space. -/
theorem Pan.dmaStore_moves {d : Dma} (h : d.dspace ≠ 0) (v : Byte) (p : Pan) : Pan.Moves 0 p (p.dmaStore d v) := by
  unfold Pan.dmaStore
  dsimp only
  split
  · contradiction
  · exact ⟨rfl, Pan.markGrain_served _ _⟩
  · split <;> exact ⟨rfl, rfl⟩
  · exact ⟨rfl, rfl⟩

theorem Pan.dmaStore_channels {d : Dma} (h : d.dspace ≠ 0) (v : Byte) (p : Pan) :
    (p.dmaStore d v).dma = p.dma ∧ (p.dmaStore d v).dmaCur = p.dmaCur := by
  unfold Pan.dmaStore
  dsimp only
  split
  · contradiction
  · exact ⟨rfl, rfl⟩
  · split <;> exact ⟨rfl, rfl⟩
  · exact ⟨rfl, rfl⟩

theorem Pan.modDma_same (n : Fin 4) (f : Dma → Dma) (p : Pan) : (p.modDma n f).dma[n] = f p.dma[n] := by
  rw [Pan.modDma, vmod_get, if_pos rfl]

/-- The image as the write pan-cycle of a channel's byte begins. -/
def Pan.dmaHolds (n : Fin 4) (p : Pan) : Pan := (p.dmaRead n).spend

/-- The image once a channel has moved one byte, its unit still in hand. -/
def Pan.dmaByte (n : Fin 4) (p : Pan) : Pan := ((p.dmaHolds n).dmaWrite n).spend

theorem Pan.dmaHolds_channel (n : Fin 4) (p : Pan) :
    ((p.dmaHolds n).dma)[n] = { p.dma[n] with held := some (p.dmaSource p.dma[n]) } :=
  Pan.modDma_same n _ p

/-- The image with the byte a channel holds stored. -/
def Pan.dmaPut (n : Fin 4) (p : Pan) : Pan := (p.dmaHolds n).dmaStore ((p.dmaHolds n).dma)[n] (p.dmaSource p.dma[n])

section moves
variable {n : Fin 4} {p : Pan} (ho : p.owned = false) (hs : (p.dma[n]).sspace ≠ 0) (hd : (p.dma[n]).dspace ≠ 0)
include hd

theorem Pan.dmaPut_channels : (p.dmaPut n).dma[n] = { p.dma[n] with held := some (p.dmaSource p.dma[n]) } ∧
    (p.dmaPut n).dmaCur = some n := by
  have space : (((p.dmaHolds n).dma)[n]).dspace ≠ 0 := by rw [Pan.dmaHolds_channel]; exact hd
  obtain ⟨dma, cur⟩ := Pan.dmaStore_channels space (p.dmaSource p.dma[n]) (p.dmaHolds n)
  rw [Pan.dmaPut, dma, cur, Pan.dmaHolds_channel]
  exact ⟨rfl, rfl⟩

theorem Pan.dmaPut_moves : Pan.Moves 1 p (p.dmaPut n) := by
  have space : (((p.dmaHolds n).dma)[n]).dspace ≠ 0 := by rw [Pan.dmaHolds_channel]; exact hd
  have reads : Pan.Moves 1 p (p.dmaHolds n) := ⟨rfl, rfl⟩
  exact reads.trans (Pan.dmaStore_moves space _ _)

include ho hs

/-- The write pan-cycle stores the byte held and moves the channel on. -/
theorem Pan.dmaByte_eq : p.dmaByte n = ((p.dmaPut n).channel n Dma.moved).spend := by
  have owned : (p.dmaHolds n).owned = false := ho
  have held : (((p.dmaHolds n).dma)[n]).held = some (p.dmaSource p.dma[n]) := by rw [Pan.dmaHolds_channel]
  have next : (((p.dmaPut n).modDma n Dma.moved).dma[n]).refused false = false := by
    rw [Pan.modDma_same, (Pan.dmaPut_channels hd).1]
    exact Dma.refused_outside hs hd
  have moved : (p.dmaPut n).dmaMoved n = (p.dmaPut n).modDma n Dma.moved := by
    rw [Pan.dmaMoved]
    exact if_neg (fun k => Bool.noConfusion (next.symm.trans k.2))
  rw [Pan.dmaByte, Pan.dmaWrite, held]
  dsimp only
  rw [owned, if_neg (fun k => Bool.noConfusion k.2), ← Pan.modDma_settle, ← moved]
  rfl

/-- One byte takes two pan-cycles and moves the channel on. -/
theorem Pan.dmaByte_moves : Pan.Moves 2 p (p.dmaByte n) ∧ (p.dmaByte n).dma[n] = (p.dma[n]).moved := by
  obtain ⟨dma, -⟩ := Pan.dmaPut_channels hd
  rw [Pan.dmaByte_eq ho hs hd]
  have ends : Pan.Moves 1 (p.dmaPut n) (((p.dmaPut n).channel n Dma.moved).spend) := ⟨rfl, rfl⟩
  refine ⟨(Pan.dmaPut_moves hd).trans ends, (Pan.modDma_same n _ (p.dmaPut n)).trans ?_⟩
  rw [dma]
  rfl

/-- Once the last byte of the unit has moved the channel rests. -/
theorem Pan.dmaByte_rests (h : (p.dma[n]).unitLeft = 1) : (p.dmaByte n).dmaCur = none := by
  obtain ⟨dma, cur⟩ := Pan.dmaPut_channels hd
  have done : (((p.dmaPut n).modDma n Dma.moved).dma[n]).unitLeft = 0 := by
    rw [Pan.modDma_same, dma]
    exact congrArg (· - 1) h
  rw [Pan.dmaByte_eq ho hs hd]
  show (p.dmaPut n).dmaCur.filter (fun k => ((((p.dmaPut n).modDma n Dma.moved).dma)[k]).unitLeft != 0) = none
  rw [cur]
  refine Option.filter_eq_none_iff.2 (fun k hk => ?_)
  obtain rfl := Option.some.inj hk
  exact fun left => absurd done (bne_iff_ne.1 left)

omit ho hs hd in
/-- A byte for VRAM goes to its address there. -/
theorem Pan.dmaPut_vram (h : (p.dma[n]).dspace = 1) :
    (p.dmaPut n).vram = p.vram.write ((p.dma[n]).dst.toNat % 65536) (p.dmaSource p.dma[n]) := by
  have space : (((p.dmaHolds n).dma)[n]).dspace = 1 := by rw [Pan.dmaHolds_channel]; exact h
  rw [Pan.dmaPut, Pan.dmaStore, space, Pan.dmaHolds_channel]
  rfl

end moves

/-- What a whole unit leaves: nothing of it, after two pan-cycles a byte. -/
theorem Pan.dmaUnit_moves {n : Fin 4} : ∀ (k : Nat) {p : Pan}, p.unsettled = false → p.owned = false → (p.dma[n]).sspace ≠ 0 →
    (p.dma[n]).dspace ≠ 0 → (p.dma[n]).unitLeft = k →
    Pan.Moves (2 * k) p (Pan.dmaUnit k n p) ∧ ((Pan.dmaUnit k n p).dma[n]).unitLeft = 0
  | 0, p, _, _, _, _, h => ⟨⟨rfl, rfl⟩, h⟩
  | k + 1, p, hu, ho, hs, hd, h => by
    obtain ⟨byte, moved⟩ := Pan.dmaByte_moves ho hs hd
    have rest := Pan.dmaUnit_moves k (p := p.dmaByte n) (byte.unsettled.trans hu) (byte.owned.trans ho) (by rw [moved]; exact hs)
      (by rw [moved]; exact hd) (by rw [moved]; exact congrArg (· - 1) h)
    have step : Pan.dmaUnit (k + 1) n p = Pan.dmaUnit k n (p.dmaByte n) := by
      rw [Pan.dmaUnit, Pan.settle_of_calm hu]
      exact if_neg (by omega)
    rw [step]
    exact ⟨by have := byte.trans rest.1; rwa [show 2 + 2 * k = 2 * (k + 1) by omega] at this, rest.2⟩

/-- `DMA_UNIT_TRANSFER` moves the whole unit of the channel whose turn it is (R80). -/
theorem exec_dmaUnit {p : PanNo} {n : Fin 4} {s : State} {x : Site} (g : State.Goes s p x) (ho : x.pan.owned = false)
    (ht : x.pan.dmaTurn = some n) (hs : (x.pan.dma[n]).sspace ≠ 0) (hd : (x.pan.dma[n]).dspace ≠ 0) :
    exec (.dmaUnitTransfer p n) s = .next (s.withPan p x (Pan.dmaUnit (x.pan.dma[n]).unitLeft n x.pan)) := by
  have e : exec (.dmaUnitTransfer p n) s = s.panStep p (Pan.dmaStep n) := rfl
  obtain ⟨moves, -⟩ := Pan.dmaUnit_moves (x.pan.dma[n]).unitLeft g.calm ho hs hd rfl
  have owned := moves.owned.trans ho
  rw [e, State.panStep_goes g, State.stepsTo_quiet g (moves.quiet g.out g.served)]
  intro r hr
  simp only [Pan.dmaStep, hr, Pan.when, ht, beq_self_eq_true, if_true, Pan.s0Refill, owned, Bool.false_and, Bool.false_eq_true, if_false]

/-! ### HALF and FULL (R81, R129) -/

theorem channelSource (n : Fin 4) : (1#32 <<< (12 + n.val)) &&& icSources = 1#32 <<< (12 + n.val) := by
  revert n
  decide

theorem Pan.raising_two (a b : Nat × Bool) (p : Pan) : p.raising [a, b] = (p.raising [a]).raising [b] := rfl

/-- A buffer marked ready was not ready before, or nothing new is marked. -/
theorem ready_new (r : BitVec 4) (k : Fin 4) : (setBit r k.val true &&& ~~~ r != 0) = !r.getLsbD k.val := by
  revert r k
  decide

/-- What FULL does to a channel and its source, before a movie buffer may become ready. -/
def Pan.filled (n : Fin 4) (p : Pan) : Pan :=
  ({ p with dma := p.dma.set n { p.dma[n] with full := true, busy := false } } : Pan).raising
    [(12 + n.val, (p.dma[n]).ctl.getLsbD 0)]

theorem Pan.dmaFull_due {n : Fin 4} {p : Pan} (h : (p.dma[n]).fullDue = true) (k : p.shielded n = false) :
    p.dmaFullStep n = some ((p.filled n).mvAuto n) := by
  have free : (!(n == 3 && p.owned)) = true := by rw [Bool.not_eq_true']; exact k
  rw [Pan.dmaFullStep, Pan.when, h, k, if_pos (by decide), Pan.dmaFull, h, free, if_pos (by decide), Pan.filled,
    Pan.raising_one (channelSource n)]
  rfl

theorem Pan.mvAuto_idle {n : Fin 4} {p : Pan} (h : (p.ras.auto.getLsbD 7 && bits p.ras.auto 5 4 == n.val) = false) :
    p.mvAuto n = p := by
  refine if_neg (fun k => ?_)
  rw [k.1, k.2] at h
  simp at h

theorem Pan.mvAuto_marks {n : Fin 4} {p : Pan} (h : (p.ras.auto.getLsbD 7 && bits p.ras.auto 5 4 == n.val) = true) :
    p.mvAuto n = ({ p with ras := { p.ras with ready := setBit p.ras.ready (bits p.ras.auto 1 0) true } } : Pan).raising
      [(22, !p.ras.ready.getLsbD (bits p.ras.auto 1 0))] := by
  obtain ⟨on, ch⟩ := Bool.and_eq_true_iff.1 h
  have buffer : bits p.ras.auto 1 0 < 4 := Nat.mod_lt _ (by decide)
  rw [Pan.mvAuto, if_pos ⟨on, eq_of_beq ch⟩, Pan.mvReady_eq, ready_new p.ras.ready ⟨_, buffer⟩]

theorem Pan.shielded_free {n : Fin 4} {p : Pan} (h : (!(n == 3 && p.owned)) = true) : p.shielded n = false := not_bool h

/-- Settles O25: the control register by its address, a unit as its bytes, HALF and FULL as they fall due. -/
theorem dmaChannels : Obligations.DmaChannels := by
  unfold Obligations.DmaChannels
  intro p n free len bad begun stopped channel enabled immediate refused
  have free_channel : ∀ {q : Pan}, free q = true → (n == 3 && q.owned) = false := fun h => not_bool h
  refine ⟨?_, ?_, ?_, ?_, ?_, ?_, ?_⟩
  · intro v h7 h6
    have ctl := Dma.control_start h7 h6
    refine ⟨?_, ?_, ?_, ?_, ?_⟩
    · refine writes_channel (f := enabled v) (exec_dmaStart h7) (fun q hq => ?_) (fun q hq => ?_)
      · exact free_channel (Bool.and_eq_true_iff.1 hq).1
      · rw [ctl]
        exact Dma.start_busy (Bool.and_eq_true_iff.1 hq).2
    · refine writes_channel (f := fun d => { enabled v d with err := true }) (exec_dmaStart h7) (fun q hq => ?_) (fun q hq => ?_)
      all_goals
        simp only [Bool.and_eq_true] at hq
        obtain ⟨⟨hf, idle⟩, hb⟩ := hq
      · exact free_channel hf
      · rw [ctl]
        exact Dma.start_bad (not_bool idle) hb
    · refine writes_channel (f := fun d => begun (enabled v d)) (exec_dmaStart h7) (fun q hq => ?_) (fun q hq => ?_)
      all_goals
        simp only [Bool.and_eq_true] at hq
        obtain ⟨⟨⟨hf, idle⟩, hb⟩, ht⟩ := hq
      · exact free_channel hf
      · rw [ctl]
        exact Dma.start_waits (not_bool idle) (not_bool hb) (bne_iff_ne.1 ht)
    · refine writes_channel (f := fun d => { begun (enabled v d) with unitLeft := len d }) (exec_dmaStart h7) (fun q hq => ?_)
        (fun q hq => ?_)
      all_goals
        simp only [Bool.and_eq_true] at hq
        obtain ⟨⟨⟨⟨hf, idle⟩, hb⟩, ht⟩, hr⟩ := hq
      · exact free_channel hf
      · rw [ctl, Dma.start_immediate (d := (q.dma[n]).enabled v) (not_bool idle) (not_bool hb) (eq_of_beq ht)]
        exact if_neg (fun k => Bool.noConfusion ((not_bool hr).symm.trans k))
    · refine writes_channel (f := fun d => { stopped (begun (enabled v d)) with err := true }) (exec_dmaStart h7) (fun q hq => ?_)
        (fun q hq => ?_)
      all_goals
        simp only [Bool.and_eq_true] at hq
        obtain ⟨⟨⟨⟨hf, idle⟩, hb⟩, ht⟩, hr⟩ := hq
      · exact free_channel hf
      · rw [ctl, Dma.start_immediate (d := (q.dma[n]).enabled v) (not_bool idle) (not_bool hb) (eq_of_beq ht)]
        exact if_pos hr
  · intro v h6
    have ctl := Dma.control_stop h6
    refine ⟨?_, ?_⟩
    · refine writes_channel (f := fun d => stopped (enabled v d)) (exec_dmaStop h6) (fun q hq => ?_) (fun q hq => ?_)
      · exact free_channel (Bool.and_eq_true_iff.1 hq).1
      · rw [ctl]
        exact if_pos (Bool.and_eq_true_iff.1 hq).2
    · refine writes_channel (f := enabled v) (exec_dmaStop h6) (fun q hq => ?_) (fun q hq => ?_)
      · exact free_channel (Bool.and_eq_true_iff.1 hq).1
      · rw [ctl]
        exact if_neg (fun k => Bool.noConfusion ((not_bool (Bool.and_eq_true_iff.1 hq).2).symm.trans k))
  · intro s x g ho ht h1 hd hs
    obtain ⟨moves, moved⟩ := Pan.dmaByte_moves ho hs hd
    have unit : Pan.dmaUnit (x.pan.dma[n]).unitLeft n x.pan = x.pan.dmaByte n := by
      rw [h1, Pan.dmaUnit, Pan.settle_of_calm g.calm]
      exact if_neg (by omega)
    refine ⟨x.pan.dmaByte n, unit ▸ exec_dmaUnit g ho ht hs hd, moves.cpu, moves.clk, Pan.dmaByte_rests ho hs hd h1, ?_, ?_, ?_, ?_, ?_,
      ?_, ?_, ?_, ?_⟩
    · rw [moved]
      exact congrArg (· - 1) h1
    · rw [moved]; rfl
    · rw [moved]; rfl
    · rw [moved]; rfl
    · intro h
      rw [Pan.dmaByte_eq ho hs hd]
      exact Pan.dmaPut_vram h
    · rw [moves.only]
    · rw [moves.only]
    · rw [moves.only]
    · rw [moves.only]
  · intro s x g ho ht hs hd
    obtain ⟨moves, done⟩ := Pan.dmaUnit_moves (x.pan.dma[n]).unitLeft g.calm ho hs hd rfl
    exact ⟨_, exec_dmaUnit g ho ht hs hd, done, moves.clk, moves.cpu⟩
  · refine eventNow_of (F := Pan.dmaHalfStep n) (fun _ => rfl) (fun q hq => ?_)
    obtain ⟨hf, due⟩ := Bool.and_eq_true_iff.1 hq
    have k : q.shielded n = false := Pan.shielded_free hf
    rw [Pan.dmaHalfStep, Pan.when, due, k, if_pos (by decide), Pan.dmaHalf, due, show (!(n == 3 && q.owned)) = true from hf,
      if_pos (by decide), Pan.raising_one (channelSource n)]
    rfl
  · refine eventNow_of (F := Pan.dmaFullStep n) (fun _ => rfl) (fun q hq => ?_)
    obtain ⟨hq, auto⟩ := Bool.and_eq_true_iff.1 hq
    obtain ⟨hf, due⟩ := Bool.and_eq_true_iff.1 hq
    rw [Pan.dmaFull_due due (Pan.shielded_free hf), Pan.mvAuto_idle (p := q.filled n) (not_bool auto)]
    rfl
  · refine eventNow_of (F := Pan.dmaFullStep n) (fun _ => rfl) (fun q hq => ?_)
    obtain ⟨hq, auto⟩ := Bool.and_eq_true_iff.1 hq
    obtain ⟨hf, due⟩ := Bool.and_eq_true_iff.1 hq
    rw [Pan.dmaFull_due due (Pan.shielded_free hf), Pan.mvAuto_marks (p := q.filled n) auto]
    rfl

end Sys2Proof.Machine
end

section
/-!
Timers (R80, R136 to R150): what the end of a pan-cycle can change, ticks, matches, overflows, writes, and the statement.
-/
namespace Sys2Proof.Machine

/-! ### What the actions of matches can change -/

/-- Nothing but timers and the interrupt controller differs. -/
def Pan.OnlyTimers (p q : Pan) : Prop := q = { p with tm := q.tm, ic := q.ic }

theorem Pan.OnlyTimers.refl (p : Pan) : Pan.OnlyTimers p p := rfl

theorem Pan.OnlyTimers.trans {p q r : Pan} (h : Pan.OnlyTimers p q) (k : Pan.OnlyTimers q r) : Pan.OnlyTimers p r := by
  unfold Pan.OnlyTimers at *
  rw [k, h]

theorem Pan.OnlyTimers.onlyIf {b : Bool} {f : Pan → Pan} {p : Pan} (h : Pan.OnlyTimers p (f p)) : Pan.OnlyTimers p (p.onlyIf b f) := by
  cases b
  · exact .refl p
  · exact h

theorem Pan.OnlyTimers.forFour {f : Fin 4 → Pan → Pan} (h : ∀ n p, Pan.OnlyTimers p (f n p)) (p : Pan) :
    Pan.OnlyTimers p (forFour f p) :=
  (((h 0 p).trans (h 1 _)).trans (h 2 _)).trans (h 3 _)

theorem Pan.capture_timers (n : Fin 4) (p : Pan) : Pan.OnlyTimers p (p.capture n) := by
  unfold Pan.capture
  dsimp only
  split
  · exact .refl p
  · split <;> rfl

theorem Pan.capNow_timers (p : Pan) : Pan.OnlyTimers p p.capNow := by
  unfold Pan.capNow
  split
  · split
    · exact Pan.capture_timers _ p
    · exact .refl p
  · exact .refl p

theorem Pan.matchLink_timers (n : Fin 4) (p : Pan) : Pan.OnlyTimers p (p.matchLink n) := by
  unfold Pan.matchLink
  dsimp only
  split <;> rfl

theorem Pan.matchSelf_timers (n : Fin 4) (p : Pan) : Pan.OnlyTimers p (p.matchSelf n) := rfl

theorem Pan.runActs_timers (p : Pan) : Pan.OnlyTimers p p.runActs :=
  ((Pan.capNow_timers p).trans (.forFour (fun n q => .onlyIf (Pan.matchSelf_timers n q)) _)).trans
    (.forFour (fun n q => .onlyIf (Pan.matchLink_timers n q)) _)

theorem Pan.actsNow_timers (p : Pan) : Pan.OnlyTimers p p.actsNow := by
  unfold Pan.actsNow
  split
  · exact Pan.runActs_timers p
  · exact .refl p

theorem Pan.OnlyTimers.owned {p q : Pan} (h : Pan.OnlyTimers p q) : q.owned = p.owned := by rw [h]; rfl
theorem Pan.OnlyTimers.clk {p q : Pan} (h : Pan.OnlyTimers p q) : q.clk = p.clk := by rw [h]

theorem Pan.OnlyTimers.hushes {f : Pan → Pan} {p : Pan} (h : Pan.OnlyTimers p (f p)) : Hushes f p := by
  unfold Hushes
  rw [h]
  exact ⟨rfl, rfl, rfl⟩

theorem timerSource (n : Fin 4) : (1#32 <<< (8 + n.val)) &&& icSources = 1#32 <<< (8 + n.val) := by
  revert n
  decide

/-! ### Ticks (R138, R145) -/

/-- A timer after a tick of the pan-cycle that takes the count to `e`, with the prescale count begun at `a`. -/
def Timer.counted (e a : Nat) (t : Timer) : Timer :=
  { t with cnt := t.nextCnt, hit := t.hit || t.tickMatches, wrap := t.wrap || t.tickWraps, preAt := a, tickDue := false,
           chain := t.chain.filter (fun c => decide (e < c.1)) }

/-- A tick of timer n, with the chain tick it gives the next timer and the actions that waited for it. -/
def Pan.tickFrom (n : Fin 4) (a : Nat) (p : Pan) : Pan :=
  ((p.modTm n (Timer.counted p.clk a)).chainTick n (p.tm[n]).tickMatches (p.tm[n]).tickWraps).actsNow

theorem Pan.timerTick_due {n : Fin 4} {p : Pan} (hf : p.frozen n = false) (hd : (p.tm[n]).due p.clk = true) :
    (p.timerTick n).actsNow =
      p.tickFrom n (if (p.tm[n]).tickDue || (p.tm[n]).chained p.clk then (p.tm[n]).preAt else (p.tm[n]).preAt + (p.tm[n]).divisor) := by
  have ticks : ¬ (p.frozen n || !(p.tm[n]).due p.clk) = true := by
    rw [hf, hd]
    decide
  rw [Pan.timerTick, if_neg ticks]
  rfl

theorem Pan.chainTick_timers (n : Fin 4) (m w : Bool) (p : Pan) : Pan.OnlyTimers p (p.chainTick n m w) := by
  unfold Pan.chainTick
  split
  · rfl
  · split <;> rfl

theorem Pan.tickFrom_timers (n : Fin 4) (a : Nat) (p : Pan) : Pan.OnlyTimers p (p.tickFrom n a) := by
  have counts : Pan.OnlyTimers p (p.modTm n (Timer.counted p.clk a)) := rfl
  exact (counts.trans (Pan.chainTick_timers n _ _ _)).trans (Pan.actsNow_timers _)

/-- Where an instant has come, or nothing waits for the end of the pan-cycle, an event meets the image as it stands. -/
theorem Pan.at_congr {t : Nat} {f g : Pan → Pan} {p : Pan} (calm : t ≤ p.clk ∨ p.unsettled = false)
    (h : ∀ e, t ≤ e → f { p with clk := e } = g { p with clk := e }) : p.at t f = p.at t g := by
  have here : p.reach t = { p with clk := (p.reach t).clk } := by
    unfold Pan.reach
    dsimp only
    split
    · rename_i k
      simp only [Bool.and_eq_true, decide_eq_true_eq] at k
      rcases calm with c | c
      · omega
      · rw [Pan.settle_of_calm c]
    · rfl
  unfold Pan.at
  dsimp only
  rw [here]
  split
  · rename_i k
    rw [h _ k]
  · rfl

/-- A tick chosen in the pan-cycle just run is made at once. -/
theorem Pan.tickStep_chosen {n : Fin 4} {p : Pan} (hd : (p.tm[n]).tickDue = true) (hr : (p.tm[n]).run = true)
    (hf : p.frozen n = false) : p.tickStep n = some (p.tickFrom n (p.tm[n]).preAt) := by
  have due : (p.tm[n]).due p.clk = true := by rw [Timer.due, hr, hd]; rfl
  have now : (p.tm[n]).dueAt p.clk = some p.clk := by rw [Timer.dueAt, hd]; rfl
  have here : p.reach p.clk = p := by
    unfold Pan.reach
    dsimp only
    rw [if_neg (by simp)]
  rw [Pan.tickStep, now]
  dsimp only
  rw [Pan.at, here, if_pos (le_refl _), Pan.timerTick_due hf due, hd]
  rfl

/-- A tick of the prescale count. -/
theorem Pan.tickStep_prescaled {n : Fin 4} {p : Pan} (hd : (p.tm[n]).tickDue = false) (hr : (p.tm[n]).run = true)
    (hc : (p.tm[n]).clkSel = 0) (hf : p.frozen n = false)
    (calm : (p.tm[n]).preAt + (p.tm[n]).divisor ≤ p.clk ∨ p.unsettled = false) :
    p.tickStep n = p.at ((p.tm[n]).preAt + (p.tm[n]).divisor) (fun q => q.tickFrom n ((q.tm[n]).preAt + (q.tm[n]).divisor)) := by
  have at_ : (p.tm[n]).dueAt p.clk = some ((p.tm[n]).preAt + (p.tm[n]).divisor) := by
    rw [Timer.dueAt, hd, if_neg (by decide), if_pos ⟨hr, hc⟩]
  have chain : ∀ e, (p.tm[n]).chained e = false := by
    intro e
    rw [Timer.chained, hc]
    simp
  rw [Pan.tickStep, at_]
  refine Pan.at_congr calm (fun e he => ?_)
  have due : (p.tm[n]).due e = true := by
    rw [Timer.due, hr, hd, chain, hc]
    simpa using he
  refine (Pan.timerTick_due (p := { p with clk := e }) hf due).trans ?_
  dsimp only
  rw [hd, chain]
  rfl

/-- A chain tick of TM3, chosen by CLK of now. -/
theorem Pan.tickStep_chained {n : Fin 4} {p : Pan} {c : Nat × Bool × Bool} (hd : (p.tm[n]).tickDue = false)
    (hr : (p.tm[n]).run = true) (hh : (p.tm[n]).chain.head? = some c)
    (hc : ((c.2.1 && (p.tm[n]).clkSel == 3) || (c.2.2 && (p.tm[n]).clkSel == 2)) = true) (hf : p.frozen n = false)
    (calm : c.1 ≤ p.clk ∨ p.unsettled = false) : p.tickStep n = p.at c.1 (fun q => q.tickFrom n (q.tm[n]).preAt) := by
  have two : 2 ≤ (p.tm[n]).clkSel := by
    simp only [Bool.or_eq_true, Bool.and_eq_true, beq_iff_eq] at hc
    omega
  have at_ : (p.tm[n]).dueAt p.clk = some c.1 := by
    rw [Timer.dueAt, hd, if_neg (by decide), if_neg (by omega), if_pos ⟨hr, two⟩, hh]
    rfl
  have chain : ∀ e, c.1 ≤ e → (p.tm[n]).chained e = true := by
    intro e he
    refine List.any_eq_true.2 ⟨c, List.mem_of_mem_head? hh, ?_⟩
    rw [hc, decide_eq_true he]
    rfl
  rw [Pan.tickStep, at_]
  refine Pan.at_congr calm (fun e he => ?_)
  have due : (p.tm[n]).due e = true := by
    rw [Timer.due, hr, chain e he]
    simp
  refine (Pan.timerTick_due (p := { p with clk := e }) hf due).trans ?_
  dsimp only
  rw [chain e he, Bool.or_true]
  rfl

/-! ### Actions of one match (R141, R144, R146) -/

theorem fin4_cases : ∀ n : Fin 4, n = 0 ∨ n = 1 ∨ n = 2 ∨ n = 3 := by decide

/-- What is done for the timers with actions due is done for the only one. -/
theorem forFour_only {f : Fin 4 → Pan → Pan} {n : Fin 4} {p : Pan} (h : ∀ k : Fin 4, (p.tm[k]).acts = (k == n))
    (kept : ∀ k : Fin 4, k ≠ n → (((f n p).tm)[k]).acts = false) :
    forFour (fun k q => q.onlyIf (q.tm[k]).acts (f k)) p = f n p := by
  have skips : ∀ (q : Pan) (k : Fin 4), (q.tm[k]).acts = false → q.onlyIf (q.tm[k]).acts (f k) = q := fun q k e => by rw [e]; rfl
  have takes : p.onlyIf (p.tm[n]).acts (f n) = f n p := by rw [h n, beq_self_eq_true]; rfl
  dsimp only [forFour]
  obtain rfl | rfl | rfl | rfl := fin4_cases n
  · rw [takes, skips _ 1 (kept 1 (by decide)), skips _ 2 (kept 2 (by decide)), skips _ 3 (kept 3 (by decide))]
  · rw [skips p 0 (h 0), takes, skips _ 2 (kept 2 (by decide)), skips _ 3 (kept 3 (by decide))]
  · rw [skips p 0 (h 0), skips p 1 (h 1), takes, skips _ 3 (kept 3 (by decide))]
  · rw [skips p 0 (h 0), skips p 1 (h 1), skips p 2 (h 2), takes]

/-- Where one match acts alone, SELF comes first and LINK after it. -/
theorem Pan.runActs_alone {n : Fin 4} {p : Pan} (h : ∀ k : Fin 4, (p.tm[k]).acts = (k == n)) (hl : p.late = none) :
    p.runActs = (p.matchSelf n).matchLink n := by
  have still : p.capNow = p := by rw [Pan.capNow, hl]
  have self := (Pan.matchSelf_acts n p).acts
  have acts : ∀ k : Fin 4, ((p.matchSelf n).tm[k]).acts = (k == n) := fun k => (self k).trans (h k)
  rw [Pan.runActs, still, forFour_only h (fun k e => (acts k).trans (beq_eq_false_iff_ne.2 e)), forFour_only acts]
  intro k e
  rw [Pan.matchLink_acts, if_neg (Ne.symm e), acts k]
  exact beq_eq_false_iff_ne.2 e

/-- A timer whose match has acted on itself and is dealt with (R141). -/
def Timer.acted (t : Timer) : Timer := { t with ctl := if bits t.act 7 6 = 2 then t.ctl &&& 0x7F else t.ctl, acts := false }

theorem Pan.modTm_modTm (n : Fin 4) (f g : Timer → Timer) (p : Pan) :
    (p.modTm n f).modTm n g = p.modTm n (fun t => g (f t)) := by
  have twice : vmod (vmod p.tm n f) n g = vmod p.tm n (fun t => g (f t)) := by
    unfold vmod
    simp
  exact congrArg (fun v => { p with tm := v }) twice

/-- SELF and then LINK of a match (R144). -/
theorem Pan.matchActs_eq (n : Fin 4) (p : Pan) : (p.matchSelf n).matchLink n =
    if (p.modTm n Timer.acted).shielded (n + 1) then p.modTm n Timer.acted
    else (p.modTm n Timer.acted).modTm (n + 1) (Timer.linked (bits ((p.modTm n Timer.acted).tm[n]).act 5 4) p.clk) := by
  have link : ((p.matchSelf n).tm[n]).link = bits ((p.modTm n Timer.acted).tm[n]).act 5 4 := by
    have self : (p.matchSelf n).tm[n] = if (p.tm[n]).self = 2 then { p.tm[n] with ctl := (p.tm[n]).ctl &&& 0x7F } else p.tm[n] :=
      (Pan.modTm_get n n _ p).trans (if_pos rfl)
    have acted : (p.modTm n Timer.acted).tm[n] = (p.tm[n]).acted := (Pan.modTm_get n n _ p).trans (if_pos rfl)
    rw [self, acted]
    split <;> rfl
  have dealt : (p.matchSelf n).modTm n (fun t => { t with acts := false }) = p.modTm n Timer.acted := by
    rw [Pan.matchSelf, Pan.modTm_modTm]
    refine congrArg (fun f => p.modTm n f) (funext (fun t => ?_))
    unfold Timer.acted Timer.self
    split <;> rfl
  unfold Pan.matchLink
  dsimp only
  rw [dealt, link]
  rfl

theorem Timer.linked_none {c : Nat} (h1 : c ≠ 1) (h2 : c ≠ 2) (h3 : c ≠ 3) (clk : Nat) (t : Timer) : t.linked c clk = t := by
  unfold Timer.linked
  split
  · contradiction
  · contradiction
  · contradiction
  · rfl

theorem Pan.modTm_id (n : Fin 4) (p : Pan) : p.modTm n (fun t => t) = p := by
  have same : vmod p.tm n (fun t => t) = p.tm := by
    unfold vmod
    simp
  exact congrArg (fun v => { p with tm := v }) same

/-! ### Matches (R80, R140, R147) -/

/-- What is done only where a condition holds of the image. -/
theorem Hushes.where_ {c : Pan → Prop} [DecidablePred c] {f : Pan → Pan} {p : Pan} (h : Hushes f p) :
    Hushes (fun q => if c q then f q else q) p := by
  unfold Hushes
  dsimp only
  split
  · exact h
  · exact ⟨rfl, rfl, rfl⟩

/-- A match sets MATCH and raises its source. -/
def Pan.matchRaise (n : Fin 4) (p : Pan) : Pan :=
  (p.modTm n (fun t => { t with hitStat := true, hit := false, acts := true })).raising [(8 + n.val, true)]

/-- A match triggers the channel that selects it. -/
def Pan.matchTrigger (n : Fin 4) (p : Pan) : Pan :=
  if bits (p.dma[n]).trig 2 0 == 3 && !p.shielded n then p.modDma n Dma.trigger else p

/-- A match makes the capture that selects it. -/
def Pan.matchCapture (n : Fin 4) (p : Pan) : Pan := if (p.tm[n + 1]).capSrc = 6 then p.capture (n + 1) else p

/-- A match of the timer S0 owns paces a pop. -/
def Pan.matchPaces (n : Fin 4) (p : Pan) : Pan := if p.tmOwned n then p.modS0 (fun s => { s with popDue := true }) else p

theorem Pan.matchSet_eq (n : Fin 4) (p : Pan) :
    p.matchSet n = (((p.matchRaise n).matchTrigger n).matchCapture n).matchPaces n := by
  have six : ∀ (q : Pan), (if (q.tm[nextTimer n]).capSrc.toNat = 6 then q.capture (nextTimer n) else q) = q.matchCapture n := by
    intro q
    exact if_congr ⟨fun h => BitVec.eq_of_toNat_eq h, fun h => congrArg BitVec.toNat h⟩ rfl rfl
  rw [Pan.matchRaise, Pan.raising_source (timerSource n), ← six]
  rfl

theorem Pan.matchSet_hushes (n : Fin 4) (p : Pan) : Hushes (Pan.matchSet n) p := by
  have raise : Hushes (Pan.matchRaise n) p := ⟨rfl, rfl, rfl⟩
  have trigger := raise.comp (Hushes.where_ (c := fun q => (bits (q.dma[n]).trig 2 0 == 3 && !q.shielded n) = true)
    (show Hushes (fun q => q.modDma n Dma.trigger) _ from ⟨rfl, rfl, rfl⟩))
  have capture := trigger.comp (Hushes.where_ (c := fun q => (q.tm[n + 1]).capSrc = 6) (Pan.capture_hushes (n + 1) _))
  have paces := capture.comp (Hushes.where_ (c := fun q => q.tmOwned n = true)
    (show Hushes (fun q => q.modS0 (fun s => { s with popDue := true })) _ from ⟨rfl, rfl, rfl⟩))
  unfold Hushes at paces ⊢
  rw [Pan.matchSet_eq]
  exact paces

theorem Pan.matchActs_hushes (n : Fin 4) (p : Pan) : Hushes (fun q => (q.matchSet n).actsNow) p :=
  (Pan.matchSet_hushes n p).comp (Pan.actsNow_timers (p.matchSet n)).hushes

/-! ### Writes (R137, R138, R147, R150) -/

theorem Pan.poke_timer (n : Fin 4) {o : Nat} (h : o < 16) (ho : o ≠ 9) (v : Byte) (p : Pan) :
    p.poke (regOf 0xE180 n.val o) v = { p with late := some (0x180 + (16 * n.val + o), v, p.snd.s0.fifo.length) } := by
  refine Pan.poke_late (timerAddr_toNat n h) (by omega) (by simp [isLate]; omega) ?_ (by omega) v p
  simp only [isTickStat, (unitOf_timer n h).2, Bool.or_eq_false_iff, Bool.and_eq_false_iff, beq_eq_false_iff_ne]
  omega

/-- A write that waited reaches its timer. -/
theorem Pan.lateWrite_timer (n : Fin 4) {o : Nat} (h : o < 16) (e : Nat) (v : Byte) (p : Pan) :
    p.lateWrite e (0x180 + (16 * n.val + o)) v = p.tmWrite e n o v := by
  rw [Pan.lateWrite, if_neg (by omega), if_pos (by omega)]
  simp only [unitOf_timer n h]

/-- The image in which a write that waited lands: the pan-cycle that wrote it has run. -/
def Pan.landing (o : Nat) (v : Byte) (p : Pan) : Pan := { (p.holding o v).runActs with late := none }

theorem Pan.landing_timers (o : Nat) (v : Byte) (p : Pan) : (p.landing o v).owned = p.owned ∧ (p.landing o v).clk = p.clk + 1 := by
  have only := Pan.runActs_timers (p.holding o v)
  unfold Pan.landing
  generalize (p.holding o v).runActs = r at only
  exact ⟨only.owned, only.clk⟩

/-- A row that writes a timer register without W1C bits, by what the write does as it lands. -/
theorem writesLate_timer {i : Instr} {p : PanNo} {n : Fin 4} {v : Byte} {c : Pan → Bool} {f : Pan → Pan} (o : Nat) (h : o < 16)
    (ho : o ≠ 9) (e : ∀ s, exec i s = s.access p (Pan.busWrite (regOf 0xE180 n.val o) v))
    (w : ∀ q : Pan, c q = true → q.unsettled = false →
      (q.landing (0x180 + (16 * n.val + o)) v).tmWrite (q.clk + 1) n o v = f (q.landing (0x180 + (16 * n.val + o)) v)) :
    WritesLate i p c f :=
  writesLate_of (0x180 + (16 * n.val + o)) e (Pan.poke_timer n h ho v)
    (fun q hq hu => (Pan.lateWrite_timer n h _ v _).trans (w q hq hu))

/-- TM3 taken by S0 ignores the write (R150). -/
theorem Pan.tmWrite_owned {n : Fin 4} {p : Pan} (h : p.tmOwned n = true) {o : Nat} (h9 : o ≠ 9) (h11 : o ≠ 11) (e : Nat) (v : Byte) :
    p.tmWrite e n o v = p := by
  refine if_neg ?_
  simp [tmWritable, h, h9, h11]

theorem Pan.tmWrite_free {n : Fin 4} {p : Pan} (h : p.tmOwned n = false) {o : Nat} (h8 : o ≠ 8) (e : Nat) (v : Byte) :
    p.tmWrite e n o v = p.modTm n (Timer.written e o v) := by
  have on : tmWritable (p.tmOwned n) o = true := by rw [h]; rfl
  rw [Pan.tmWrite, if_pos on, if_neg (fun k => h8 k.1)]

theorem Pan.tmOwned_landing (n : Fin 4) (o : Nat) (v : Byte) (p : Pan) : (p.landing o v).tmOwned n = p.tmOwned n := by
  rw [Pan.tmOwned, (Pan.landing_timers o v p).1]
  rfl

theorem writesLate_free {i : Instr} {p : PanNo} {n : Fin 4} {v : Byte} {f : Pan → Pan} (o : Nat) (h : o < 16) (h8 : o ≠ 8)
    (h9 : o ≠ 9) (e : ∀ s, exec i s = s.access p (Pan.busWrite (regOf 0xE180 n.val o) v))
    (w : ∀ q : Pan, q.modTm n (Timer.written q.clk o v) = f q) : WritesLate i p (fun q => !q.tmOwned n) f :=
  writesLate_timer o h h9 e (fun q hq _ => by
    rw [Pan.tmWrite_free ((Pan.tmOwned_landing n _ v q).trans (not_bool hq)) h8, ← w, (Pan.landing_timers _ v q).2])

theorem writesLate_owned {i : Instr} {p : PanNo} {n : Fin 4} {v : Byte} (o : Nat) (h : o < 16) (h9 : o ≠ 9) (h11 : o ≠ 11)
    (e : ∀ s, exec i s = s.access p (Pan.busWrite (regOf 0xE180 n.val o) v)) : WritesLate i p (fun q => q.tmOwned n) id :=
  writesLate_timer o h h9 e (fun q hq _ => Pan.tmWrite_owned ((Pan.tmOwned_landing n _ v q).trans hq) h9 h11 _ v)

/-! ### CAPNOW (R147) -/

theorem exec_timerCapnow {p : PanNo} {n : Fin 4} {v : Byte} (h : v.getLsbD 7 = true) (s : State) :
    exec (.timerCapnow p n v) s = s.access p (Pan.busWrite (regOf 0xE180 n.val 8) v) := by
  have e : exec (.timerCapnow p n v) s = s.accessIf (v.getLsbD 7) p (Pan.busWrite (regOf 0xE180 n.val 8) v) := rfl
  rw [e, State.accessIf, h]
  rfl

/-- The image right after a write of CAPNOW. -/
def Pan.capturing (n : Fin 4) (v : Byte) (p : Pan) : Pan := p.holding (0x180 + (16 * n.val + 8)) v

section capnow
variable {n : Fin 4} {v : Byte} {p : Pan} (hv : v.getLsbD 7 = true) (ho : p.tmOwned n = false) (hu : p.unsettled = false)
include hv ho hu

/-- With no match in its pan-cycle CAPNOW captures and nothing else acts. -/
theorem Pan.runActs_capturing : (p.capturing n v).runActs = (p.capturing n v).capture n := by
  have late : (p.capturing n v).late = some (0x180 + (16 * n.val + 8), v, p.snd.s0.fifo.length) := rfl
  have unit : unitOf (0x180 + (16 * n.val + 8) - 0x180) = n ∧ (0x180 + (16 * n.val + 8)) % 16 = 8 := unitOf_timer n (by decide)
  have captures : (p.capturing n v).capNow = (p.capturing n v).capture n := by
    have owned : (p.capturing n v).tmOwned n = false := ho
    have now : 0x180 ≤ 0x180 + (16 * n.val + 8) ∧ 0x180 + (16 * n.val + 8) < 0x1C0 ∧ (0x180 + (16 * n.val + 8)) % 16 = 8 ∧
        v.getLsbD 7 = true ∧ tmWritable ((p.capturing n v).tmOwned n) 8 = true :=
      ⟨by omega, by omega, unit.2, hv, by rw [owned]; rfl⟩
    rw [Pan.capNow, late]
    simp only [unit.1]
    exact if_pos now
  have none_ : ∀ k : Fin 4, (((p.capturing n v).capture n).tm[k]).acts = false := by
    intro k
    rw [(Pan.capture_acts n (p.capturing n v)).acts k]
    simp only [Pan.unsettled, Bool.or_eq_false_iff, Pan.actsDue, List.any_eq_false] at hu
    exact eq_false_of_ne_true (hu.2 k (List.mem_finRange k))
  rw [Pan.runActs, captures]
  simp only [forFour, Pan.onlyIf, none_, Bool.false_eq_true, if_false]

theorem Pan.landing_capturing : p.landing (0x180 + (16 * n.val + 8)) v = { (p.capturing n v).capture n with late := none } := by
  rw [← Pan.runActs_capturing hv ho hu]
  rfl

omit hv ho hu in
theorem Pan.capture_made {n : Fin 4} {p : Pan} (h : (p.frozen n || (p.tm[n]).capAt == p.clk) = true) : p.capture n = p := if_pos h

omit hv ho hu in
/-- A timer captures once in a pan-cycle. -/
theorem Pan.capture_once (n : Fin 4) (p : Pan) : ((p.capture n).frozen n || ((p.capture n).tm[n]).capAt == (p.capture n).clk) = true := by
  by_cases h : (p.frozen n || (p.tm[n]).capAt == p.clk) = true
  · rw [Pan.capture_made h]
    exact h
  · have e : ((p.capture n).tm[n]).capAt = p.clk := by
      unfold Pan.capture
      dsimp only
      rw [if_neg h]
      split <;> exact congrArg Timer.capAt ((Pan.modTm_get n n _ p).trans (if_pos rfl))
    rw [e, (Pan.capture_timers n p).clk, beq_self_eq_true, Bool.or_true]

/-- The capture of CAPNOW has been made as its write lands. -/
theorem Pan.tmWrite_capnow : (p.landing (0x180 + (16 * n.val + 8)) v).tmWrite (p.clk + 1) n 8 v =
    (p.landing (0x180 + (16 * n.val + 8)) v).modTm n (fun t => { t with capSrc := v.setWidth 3 }) := by
  have again : (p.landing (0x180 + (16 * n.val + 8)) v).capture n = p.landing (0x180 + (16 * n.val + 8)) v := by
    have once := Pan.capture_once n (p.capturing n v)
    rw [Pan.landing_capturing hv ho hu]
    generalize (p.capturing n v).capture n = r at once
    exact Pan.capture_made (p := { r with late := none }) once
  have on : tmWritable ((p.landing (0x180 + (16 * n.val + 8)) v).tmOwned n) 8 = true := by
    rw [Pan.tmOwned_landing, ho]
    rfl
  rw [Pan.tmWrite, if_pos on, if_pos ⟨rfl, hv⟩, again]
  rfl

/-- What the end of the pan-cycle of a CAPNOW leaves: the capture, the write, and the low mark. -/
theorem Pan.settle_capturing : ∃ k m, (p.capturing n v).settle = Pan.lowCheck k m
    (({ (p.capturing n v).capture n with late := none } : Pan).modTm n (fun t => { t with capSrc := v.setWidth 3 })) := by
  have late : (p.capturing n v).late = some (0x180 + (16 * n.val + 8), v, p.snd.s0.fifo.length) := rfl
  have clk : (p.capturing n v).clk = p.clk + 1 := rfl
  have lands := (Pan.lateWrite_timer n (o := 8) (by decide) (p.clk + 1) v (p.landing (0x180 + (16 * n.val + 8)) v)).trans
    (Pan.tmWrite_capnow hv ho hu)
  rw [Pan.landing_capturing hv ho hu] at lands
  rw [Pan.settle_late late, Pan.runActs_capturing hv ho hu, clk, lands]
  exact ⟨_, _, rfl⟩

omit hv hu in
/-- The capture of a CAPNOW, once in its pan-cycle and not of a frozen timer. -/
theorem Pan.capture_capturing (hf : p.frozen n = false) (hc : (p.tm[n]).capAt ≠ p.clk + 1) :
    (p.capturing n v).capture n = if (p.tm[n]).irq.getLsbD 0 = true
      then ((p.capturing n v).modTm n (Timer.capture (p.clk + 1) ((p.capturing n v).countAfter n))).pendSrc (8 + n.val)
      else (p.capturing n v).modTm n (Timer.capture (p.clk + 1) ((p.capturing n v).countAfter n)) := by
  have captures : ¬ ((p.capturing n v).frozen n || ((p.capturing n v).tm[n]).capAt == (p.capturing n v).clk) = true := by
    have frozen : (p.capturing n v).frozen n = false := hf
    have fresh : (((p.capturing n v).tm[n]).capAt == (p.capturing n v).clk) = false := beq_eq_false_iff_ne.2 hc
    rw [frozen, fresh]
    decide
  have free : (!(n == 3 && (p.capturing n v).owned)) = true := by rw [Bool.not_eq_true']; exact ho
  rw [Pan.capture, if_neg captures, free, Bool.and_true]
  rfl

end capnow

theorem Pan.lowCheck_tm (k m : Nat) (p : Pan) : (p.lowCheck k m).tm = p.tm := by
  unfold Pan.lowCheck
  split <;> rfl

/-- What is pending stays pending as a source is raised. -/
theorem Pan.pendSrc_pending {j : Nat} {p : Pan} (h : p.ic.pend.getLsbD j = true) (n : Nat) : (p.pendSrc n).ic.pend.getLsbD j = true := by
  show (p.ic.pend ||| _).getLsbD j = true
  rw [BitVec.getLsbD_or, h, Bool.true_or]

theorem Pan.lowCheck_pending {j : Nat} {p : Pan} (h : p.ic.pend.getLsbD j = true) (k m : Nat) :
    (p.lowCheck k m).ic.pend.getLsbD j = true := by
  unfold Pan.lowCheck
  split
  · exact Pan.pendSrc_pending h 16
  · exact h

theorem Pan.pendSrc_timer (n : Fin 4) (p : Pan) : (p.pendSrc (8 + n.val)).ic.pend.getLsbD (8 + n.val) = true := by
  have bit : (1#32 <<< (8 + n.val)).getLsbD (8 + n.val) = true := by
    revert n
    decide
  show (p.ic.pend ||| ((1#32 <<< (8 + n.val)) &&& icSources)).getLsbD (8 + n.val) = true
  rw [timerSource, BitVec.getLsbD_or, bit, Bool.or_true]

/-- What CAPNOW captures, and whom it tells. -/
theorem Pan.captured_now {n : Fin 4} {v : Byte} {p : Pan} (hv : v.getLsbD 7 = true) (ho : p.tmOwned n = false)
    (hu : p.unsettled = false) (hf : p.frozen n = false) (hc : (p.tm[n]).capAt ≠ p.clk + 1) :
    ((p.capturing n v).settle.tm[n]) =
      { (p.tm[n]).capture (p.clk + 1) ((p.capturing n v).countAfter n) with capSrc := v.setWidth 3 } ∧
    ((p.tm[n]).irq.getLsbD 0 = true → (p.capturing n v).settle.ic.pend.getLsbD (8 + n.val) = true) := by
  obtain ⟨k, m, ends⟩ := Pan.settle_capturing hv ho hu
  have captured := Pan.capture_capturing (v := v) ho hf hc
  rw [ends]
  refine ⟨?_, fun h => Pan.lowCheck_pending ?_ k m⟩
  · have taken : ((p.capturing n v).capture n).tm[n] = (p.tm[n]).capture (p.clk + 1) ((p.capturing n v).countAfter n) := by
      rw [captured]
      split <;> exact (Pan.modTm_get n n _ (p.capturing n v)).trans (if_pos rfl)
    rw [Pan.lowCheck_tm, Pan.modTm_get, if_pos rfl, taken]
  · show ((p.capturing n v).capture n).ic.pend.getLsbD (8 + n.val) = true
    rw [captured, if_pos h]
    exact Pan.pendSrc_timer n _

/-- The control register keeps the bits it has, and the prescale count begins anew as CLK, PRE or RUN say (R138). -/
theorem Timer.control_eq (e : Nat) (v : Byte) (t : Timer) : t.control e v = { t with
    ctl := v &&& 0xB7,
    preAt := if (v.getLsbD 7 && !t.ctl.getLsbD 7) || v &&& 0x37 != t.ctl &&& 0x37 then e else t.preAt,
    chain := t.chain.filter (fun c => decide (e < c.1)) } := by
  have mask : v &&& 0xB7 &&& 0x37 = v &&& 0x37 := by rw [BitVec.and_assoc]; rfl
  rw [Timer.control, mask]
  rfl

/-- Settles O30: a tick for each reason it is due, a match and its actions, a wrap, and the writes as they land. -/
theorem timersCount : Obligations.TimersCount := by
  unfold Obligations.TimersCount
  intro p n owns tm nextCnt meets wraps counted chained ticks chosen calm prescaled chainedAt matched acted
  have settled : ∀ {t : Nat} {q : Pan}, calm t q = true → t ≤ q.clk ∨ q.unsettled = false := by
    intro t q h
    rcases Bool.or_eq_true_iff.1 h with k | k
    · exact .inl (of_decide_eq_true k)
    · exact .inr (not_bool k)
  refine ⟨?_, ?_, ?_, ?_, ?_, ?_, ?_, ?_, ?_, ?_, ?_, ?_⟩
  · refine eventNow_of (F := Pan.tickStep n) (f := fun q => q.tickFrom n (q.tm[n]).preAt) (fun _ => rfl) (fun q hq => ?_)
      (fun q _ => (Pan.tickFrom_timers n _ q).hushes (f := fun q => q.tickFrom n (q.tm[n]).preAt))
    simp only [Bool.and_eq_true] at hq
    obtain ⟨⟨hd, hr⟩, hf⟩ := hq
    exact Pan.tickStep_chosen hd hr (not_bool hf)
  · refine event_of (F := Pan.tickStep n) (f := fun q => q.tickFrom n ((q.tm[n]).preAt + (q.tm[n]).divisor)) (fun _ => rfl)
      (fun q hq => ?_)
      (fun q _ => (Pan.tickFrom_timers n _ _).hushes (f := fun q => q.tickFrom n ((q.tm[n]).preAt + (q.tm[n]).divisor)))
    simp only [Bool.and_eq_true] at hq
    obtain ⟨⟨⟨⟨hd, hr⟩, hc⟩, hf⟩, hs⟩ := hq
    exact Pan.tickStep_prescaled (not_bool hd) hr (eq_of_beq hc) (not_bool hf) (settled hs)
  · refine event_of (F := Pan.tickStep n) (f := fun q => q.tickFrom n (q.tm[n]).preAt) (fun _ => rfl) (fun q hq => ?_)
      (fun q _ => (Pan.tickFrom_timers n _ _).hushes (f := fun q => q.tickFrom n (q.tm[n]).preAt))
    simp only [Bool.and_eq_true] at hq
    obtain ⟨⟨⟨⟨hd, hr⟩, hc⟩, hf⟩, hs⟩ := hq
    obtain ⟨c, hh, chose⟩ := (Option.any_eq_true _ _).1 hc
    have at_ : chainedAt q = c.1 := by
      show ((q.tm[n]).chain.head?.map (fun c => c.1)).getD 0 = c.1
      rw [hh]
      rfl
    rw [at_] at hs ⊢
    exact Pan.tickStep_chained (not_bool hd) hr hh chose (not_bool hf) (settled hs)
  · intro q hq hl
    rw [Pan.runActs_alone hq hl, Pan.matchActs_eq]
    have linked : ∀ {c d : Nat}, c = d → (q.modTm n Timer.acted).modTm (n + 1) (Timer.linked c q.clk) =
        (q.modTm n Timer.acted).modTm (n + 1) (Timer.linked d q.clk) := fun e => by rw [e]
    refine if_congr Iff.rfl rfl ?_
    split
    next code => exact linked code
    next code => exact linked code
    next code => exact linked code
    next h1 h2 h3 =>
      exact (congrArg (fun f => (q.modTm n Timer.acted).modTm (n + 1) f) (funext (Timer.linked_none h1 h2 h3 q.clk))).trans
        (Pan.modTm_id _ _)
  · have words : matched = fun q => (q.matchSet n).actsNow := funext (fun q => congrArg Pan.actsNow (Pan.matchSet_eq n q).symm)
    rw [words]
    exact eventNow_of (F := Pan.matchStep n) (fun _ => rfl)
      (fun q hq => by rw [Pan.matchStep, Pan.when, if_pos hq, Pan.timerMatch, if_pos hq]) (fun q _ => Pan.matchActs_hushes n q)
  · refine eventNow_of (F := Pan.overflowStep n) (fun _ => rfl) (fun q hq => ?_)
    rw [Pan.overflowStep, Pan.when, if_pos hq, Pan.timerOverflow, if_pos hq, Pan.raising_one (timerSource n)]
    rfl
  · exact fun v => writesLate_free 1 (by decide) (by decide) (by decide) (fun _ => rfl) (fun _ => rfl)
  · exact fun v => writesLate_free 3 (by decide) (by decide) (by decide) (fun _ => rfl) (fun _ => rfl)
  · refine fun v => writesLate_free 6 (by decide) (by decide) (by decide) (fun _ => rfl) (fun q => ?_)
    exact congrArg (fun f => q.modTm n f) (funext (Timer.control_eq q.clk v))
  · exact fun v hv => writesLate_timer 8 (by decide) (by decide) (exec_timerCapnow hv)
      (fun q hq hu => Pan.tmWrite_capnow hv (not_bool hq) hu)
  · intro v s x g hv ho hf hc
    have e := exec_timerCapnow (p := p) (n := n) hv s
    have waits := Pan.poke_timer n (o := 8) (by decide) (by decide) v x.pan
    obtain ⟨timer, told⟩ := Pan.captured_now hv ho g.calm hf hc
    refine ⟨x.pan.capturing n v, ?_, ?_, ?_, ?_, told⟩
    · rw [e, access_write g (by rw [waits]; exact g.abort), waits]
      exact congrArg _ (State.stepsTo_quiet g ⟨g.out, Nat.le_refl _, g.served⟩)
    all_goals
      rw [timer]
      rfl
  · exact fun v => ⟨writesLate_owned 1 (by decide) (by decide) (by decide) (fun _ => rfl),
      writesLate_owned 3 (by decide) (by decide) (by decide) (fun _ => rfl),
      writesLate_owned 6 (by decide) (by decide) (by decide) (fun _ => rfl)⟩

end Sys2Proof.Machine
end

section
/-!
The sample voice's pop (R172): `Pan.popStep` hands the image with the pop to `Pan.lowAfter` as the image before, and the image before as
the one after, so that the row keeps the FIFO and the pop that was due. The statement asks for the pop, and fails.
-/
namespace Sys2Proof.Machine

/-- What follows a pop of a row of its own is its second image, with the sources raised alone. -/
theorem Pan.lowAfter_ic (old p : Pan) : Pan.lowAfter old p = { p with ic := (Pan.lowAfter old p).ic } := by
  unfold Pan.lowAfter Pan.lowCheck
  split
  · rfl
  · split <;> rfl

/-- A pop that is due leaves every unit but the interrupt controller as it was: the pop stays due. -/
theorem Pan.popStep_unmoved {p : Pan} (h : p.snd.s0.popDue = true) : ∃ c, p.popStep = some { p with ic := c } := by
  refine ⟨(Pan.lowAfter (p.modS0 (fun t => { t with popDue := false })).s0PopByte p).ic, ?_⟩
  rw [← Pan.lowAfter_ic, Pan.popStep]
  exact if_pos h

/-! ### A pan with a pop due -/

/-- A pan of profile P1 out of reset, its sample voice enabled with timer pacing, one byte in the FIFO and a pop due. -/
def poppingPan : Pan :=
  (Pan.reset { profile := 1, fp := 266666667, lb := 262, elastic := false, titleId := 0, minKpa := 2, rewindFlag := true, romLen := 4096,
               rom := [], cramSize := 8192, mediaLen := 256 } 0 [] []).modS0
    (fun d => { d with ctl := 0xC0, fifo := [0x40], popDue := true })

/-- Its record, running in FREE. -/
def poppingSite : Site := { Site.create poppingPan 0 0 0 with mode := .free, slot := some 0, boiler := some 0 }

/-- The device out of reset with that pan on its first boiler. -/
def poppingState : State :=
  { State.reset with pwr := { State.reset.pwr with sysRst := false }, tb := { State.reset.tb with counting := true },
                     sites := [(0, poppingSite)] }

theorem poppingState_advances : State.Advances poppingState 0 poppingSite where
  out := rfl
  abort := rfl
  served := rfl
  live := by
    have there : poppingState.site 0 = some poppingSite := rfl
    have runs : poppingState.runs poppingSite = true := by decide
    rw [State.liveSite, there, Option.filter_some, if_pos runs]

theorem State.site_withPan (p : Nat) (x : Site) (q : Pan) (s : State) :
    (s.withPan p x q).site p = some ({ x with pan := q, dirty := true } : Site).settleCredits :=
  State.site_putSite_same p _ s

/-- Refutes O32: with a pop due in `poppingState`, `S0_POP` leaves it due, where the statement has the byte taken. -/
theorem not_sampleVoice : ¬ Obligations.SampleVoice := by
  unfold Obligations.SampleVoice
  intro h
  obtain ⟨-, -, -, -, -, -, -, -, -, pops, -⟩ := h 0 0
  have popped := pops poppingState poppingSite poppingState_advances rfl
  obtain ⟨c, unmoved⟩ := Pan.popStep_unmoved (p := poppingPan) rfl
  have stays : exec (.s0Pop 0) poppingState = .next (poppingState.withPan 0 poppingSite { poppingPan with ic := c }) :=
    State.panStep_quiet poppingState_advances.live unmoved ⟨rfl, Nat.le_refl _, rfl⟩
  have same := congrArg (fun s : State => (s.site 0).map (fun x => x.pan.snd.s0.popDue)) (Host.Outcome.next.inj (stays.symm.trans popped))
  dsimp only at same
  rw [State.site_withPan, State.site_withPan] at same
  exact absurd (show some true = some false from same) (by decide)

end Sys2Proof.Machine
end

section
/-!
SUPPORT. A command that is taken, passes the checks of R359 and waits for no boundary: what each check leaves known of it, and the state
its row leads to (R358, R360).
-/
namespace Sys2Proof.Machine

/-- What the checks that fail for no command leave known of the form, the range and the state it meets. -/
structure CmdSpec.Met (k : CmdSpec) (d : Packet) (u : State) : Prop where
  tidy : k.tidy d = true
  range : k.range u d = true
  allows : k.allows u d = true

/-- Checks 1 to 3 on a command that is not staged. -/
theorem CmdSpec.early_none {k : CmdSpec} {u : State} {d : Packet} (hs : isStaged d = false) (h : k.early u d = none) :
    k.tidy d = true ∧ k.range u d = true := by
  simp only [CmdSpec.early, hs, Bool.false_eq_true, if_false] at h
  split at h
  · cases h
  · split at h
    · cases h
    · next hf =>
      split at h
      · cases h
      · split at h
        · cases h
        · next hr =>
          simp only [Bool.not_eq_true', Bool.not_eq_false, CmdSpec.formed, Bool.and_eq_true] at hf hr
          exact ⟨hf.1.2, hr⟩

/-- Checks 4 and 5 on a command that acts at once. -/
theorem CmdSpec.judged_none {k : CmdSpec} {u : State} {d : Packet} (hb : k.boundary u d = none) (h : k.judged u d = none) :
    k.allows u d = true := by
  simp only [CmdSpec.judged, hb, Option.isNone_none, Bool.true_and] at h
  split at h
  · cases h
  · next ha => simpa using ha

theorem CmdSpec.judged_allowed {k : CmdSpec} {u : State} {d : Packet} (ha : k.allows u d = true) :
    k.judged u d = k.late u.projected d := by
  simp only [CmdSpec.judged, ha, Bool.not_true, Bool.and_false, Bool.false_eq_true, if_false]

theorem CmdSpec.late_fits {k : CmdSpec} {u : State} {d : Packet} (ha : k.allows u d = true) (hl : k.loads d = false)
    (hf : k.fits u d = true) : k.late u d = none := by
  simp only [CmdSpec.late, ha, hf, hl, Bool.not_true, Bool.false_and, Bool.or_self, Bool.false_eq_true, if_false]

section
variable {k : CmdSpec} {s : State} {c : Packet} {r : Ring}

theorem State.passes_of (ht : s.takes c = some r) (hs : isStaged c = false)
    (he : (k.early (s.consume c.ring r) (packetRead c)).isNone = true) (hj : k.judged (s.consume c.ring r) (packetRead c) = none) :
    s.passes k c r = true := by
  simp only [State.passes, ht, hs, he, hj, decide_true, Bool.not_false, Option.isNone_none, Bool.and_self]

/-- The row of a command that passes its checks is what its acceptance does. -/
theorem State.command_passes (h : s.passes k c r = true) :
    s.command k c = .next (k.accept (packetRead c) r.owner (s.consume c.ring r)) := by
  simp only [State.passes, Bool.and_eq_true, decide_eq_true_eq, Option.isNone_iff_eq_none] at h
  obtain ⟨⟨⟨ht, hs⟩, he⟩, hj⟩ := h
  have staged : isStaged (packetRead c) = false := not_bool hs
  rw [State.command, State.takeWith, ht]
  simp only [CmdSpec.run, he, staged, hj, Bool.false_eq_true, if_false]

theorem State.passes_met (h : s.passes k c r = true) (hb : k.boundary (s.consume c.ring r) (packetRead c) = none) :
    k.Met (packetRead c) (s.consume c.ring r) := by
  simp only [State.passes, Bool.and_eq_true, decide_eq_true_eq, Option.isNone_iff_eq_none] at h
  obtain ⟨⟨⟨_, hs⟩, he⟩, hj⟩ := h
  have staged : isStaged (packetRead c) = false := not_bool hs
  obtain ⟨ht, hr⟩ := CmdSpec.early_none staged he
  exact ⟨ht, hr, CmdSpec.judged_none hb hj⟩

/-- Without a boundary it begins, lands and completes. -/
theorem State.command_acts (h : s.passes k c r = true) (hb : k.boundary (s.consume c.ring r) (packetRead c) = none) :
    s.command k c = .next (k.acts (packetRead c) r.owner (k.begins (packetRead c) (s.consume c.ring r))) := by
  rw [State.command_passes h, CmdSpec.accept, hb]

end

end Sys2Proof.Machine
end

section
/-!
The commands on the device that act at once (R362): `MEM_ALLOC` is held against the memory that the commands accepted before it leave,
and lands in the memory as it stands. The statement asks for its success in every state, and fails where a `MEM_FREE` waits. No row of
the model makes a `MEM_FREE` wait: the statement needs a premise on the commands that wait, or `MEM_ALLOC` a check on the state it meets.
-/
namespace Sys2Proof.Machine

/-- Where one allocation holds all of DRAM no address is left, whichever the device would choose. -/
theorem State.allocFor_full {s : State} {n : Nat} (h : (0, Config.dramBytes) ∈ s.allocs) (hn : 0 < n) : s.allocFor n = none := by
  rw [State.allocFor, List.find?_eq_none]
  intro a _ ho
  simp only [State.dramOpen, State.openDram, Bool.and_eq_true, List.all_eq_true] at ho
  obtain ⟨inside, free⟩ := ho
  have inside := of_decide_eq_true inside
  have free := free _ h
  simp only [overlaps, Bool.not_eq_true', Bool.and_eq_false_iff, decide_eq_false_iff_not] at free
  omega

/-- Address 0 serves where it is open, whichever address the device would choose. -/
theorem State.allocFor_open {s : State} {n : Nat} (h : s.dramOpen 0 n = true) : (s.allocFor n).isSome = true := by
  rw [State.allocFor, List.find?_isSome]
  exact ⟨0, by simp, h⟩

theorem memAllocSpec_fits {u : State} {d : Packet} {n : Nat} (e : argOf d 12 8 = n) (hn : n ≤ u.dramFree)
    (h : u.dramOpen 0 n = true) : memAllocSpec.fits u d = true := by
  simp only [memAllocSpec, e, hn, State.allocFor_open h, decide_true, Bool.and_self]

/-- A `MEM_ALLOC` that finds no address changes nothing and answers `ST_NO_CAPACITY`. -/
theorem memAllocSpec_full {d : Packet} {cpl : Nat} {u : State} (h : u.allocFor (argOf d 12 8) = none) :
    memAllocSpec.acts d cpl u = u.complete d cpl 0x0203 stNoCapacity [] := by
  have land : memAllocSpec.land d cpl u = { state := u, status := stNoCapacity, result := [] } := by
    dsimp only [memAllocSpec, CmdSpec.plain]
    rw [h]
  rw [CmdSpec.acts, land]
  rfl

/-! ### A device whose memory is about to be freed -/

/-- A `MEM_ALLOC` of 4 KiB on ring 0. -/
def allocPacket : Packet :=
  { ring := 0, tag := 0, flags := 0, plen := 7, target := 0xFFFFFFFF, txid := 0, params := leBytes 8 4096 }

/-- Its ring, which answers on ring 1. -/
def allocRing : Ring :=
  { base := 4096, idxAddr := 65536, dataBase := 0, kind := 0, log2 := 4, dataLog2 := 0, int := 0, count := 1, time := 0, owner := 1,
    dev := 0, hst := 1, taken := 0, dataHead := 0, dataUse := [], unsig := 0, oldest := 0, open_ := 0 }

/-- The device with all of its DRAM in one allocation, and a `MEM_FREE` of that among the commands that wait. -/
def fullState : State :=
  { State.reset with
    pwr := { State.reset.pwr with sysRst := false }, dev := { State.reset.dev with ready := 0xFFFFFFFF },
    rings := [(0, allocRing), (1, { allocRing with kind := 1, owner := 0, hst := 0 })], allocs := [(0, Config.dramBytes)],
    waiting := [{ opcode := 0x0204, c := { allocPacket with params := [] }, accepted := 0, cpl := 1, at_ := .epoch,
                  epochDone := false, epochTime := 0, txn := none, fromFrame := 0, place := none }] }

/-- The `MEM_ALLOC` passes every check: once the memory is freed, address 0 serves. -/
theorem fullState_passes : fullState.passes memAllocSpec allocPacket allocRing = true := by
  have fits : memAllocSpec.fits (fullState.consume 0 allocRing).projected (packetRead allocPacket) = true :=
    memAllocSpec_fits (n := 4096) (by decide +kernel) (by decide +kernel) (by decide +kernel)
  have judged : memAllocSpec.judged (fullState.consume 0 allocRing) (packetRead allocPacket) = none :=
    (CmdSpec.judged_allowed rfl).trans (CmdSpec.late_fits rfl rfl fits)
  exact State.passes_of (by decide +kernel) rfl (by decide +kernel) judged

/-- Refutes O54: with all DRAM allocated and a `MEM_FREE` of it among the commands that wait, a `MEM_ALLOC` passes the checks, which
count the memory as freed, and lands with `ST_NO_CAPACITY` where the statement asks for `ST_OK` and a value drawn. -/
theorem not_deviceCommandsAct : ¬ Obligations.DeviceCommandsAct := by
  intro h
  obtain ⟨_, _, _, _, _, _, _, alloc, _⟩ := h
  obtain ⟨t, ht, ⟨only, _⟩⟩ := alloc fullState allocPacket allocRing fullState_passes rfl
  have size : argOf (packetRead allocPacket) 12 8 = 4096 := by decide +kernel
  have full : (fullState.consume 0 allocRing).allocFor (argOf (packetRead allocPacket) 12 8) = none :=
    State.allocFor_full (List.mem_singleton.mpr rfl) (by rw [size]; decide)
  have row : exec (.memAlloc allocPacket) fullState = .next ((fullState.consume 0 allocRing).complete (packetRead allocPacket) 1 0x0203
      stNoCapacity []) :=
    (State.command_acts fullState_passes rfl).trans (congrArg Host.Outcome.next (memAllocSpec_full full))
  obtain rfl := Host.Outcome.next.inj (ht.symm.trans row)
  have kept := congrArg State.free (State.complete_eventful (packetRead allocPacket) 1 0x0203 stNoCapacity []
    (fullState.consume 0 allocRing)).only.eq
  exact absurd (kept.symm.trans (congrArg State.free only)) (by decide +kernel)

end Sys2Proof.Machine
end

section
/-!
SUPPORT. Parameters and images are byte strings: what a part of a byte string holds (R61, R244, R355).
-/
namespace Sys2Proof.Machine

@[simp] theorem slice_length (bs : List Byte) (o n : Nat) : (slice bs o n).length = n := by
  simp only [slice, List.length_append, List.length_take, List.length_replicate]
  omega

/-- A byte of a part is the byte of the whole, 0 beyond its end. -/
theorem slice_getD {bs : List Byte} {o n i : Nat} (h : i < n) : (slice bs o n).getD i 0 = bs.getD (o + i) 0 := by
  simp only [slice, List.getD_eq_getElem?_getD, List.getElem?_append, List.length_take, List.length_drop]
  split
  · rw [List.getElem?_take_of_lt h, List.getElem?_drop]
  · have beyond : bs[o + i]? = none := List.getElem?_eq_none (by omega)
    rw [beyond, List.getElem?_replicate]
    split <;> rfl

/-- Two byte strings of a length are the same where their bytes are. -/
theorem bytes_ext {a b : List Byte} {n : Nat} (ha : a.length = n) (hb : b.length = n) (h : ∀ i < n, a.getD i 0 = b.getD i 0) : a = b := by
  refine List.ext_getElem (ha.trans hb.symm) (fun i hi hj => ?_)
  have same := h i (ha ▸ hi)
  rwa [List.getD_eq_getElem _ _ hi, List.getD_eq_getElem _ _ hj] at same

theorem slice_drop (bs : List Byte) (k o n : Nat) : slice (bs.drop k) o n = slice bs (k + o) n := by
  simp only [slice, List.drop_drop]

/-- A part of a part. -/
theorem slice_slice {bs : List Byte} {o n i m : Nat} (h : i + m ≤ n) : slice (slice bs o n) i m = slice bs (o + i) m := by
  refine bytes_ext (slice_length ..) (slice_length ..) (fun j hj => ?_)
  rw [slice_getD hj, slice_getD (by omega), slice_getD hj, Nat.add_assoc]

theorem slice_one (bs : List Byte) (o : Nat) : slice bs o 1 = [bs.getD o 0] :=
  bytes_ext (slice_length ..) rfl (fun i hi => by
    obtain rfl : i = 0 := by omega
    exact slice_getD (by omega))

theorem slice_two (bs : List Byte) (o : Nat) : slice bs o 2 = [bs.getD o 0, bs.getD (o + 1) 0] := by
  refine bytes_ext (slice_length ..) rfl (fun i hi => ?_)
  rw [slice_getD hi]
  match i, hi with
  | 0, _ => rfl
  | 1, _ => rfl

/-- The high byte of a parameter of two bytes is the second of them. -/
theorem argOf_two_hi (c : Packet) (o : Nat) (h : 12 ≤ o) :
    Word.hi (BitVec.ofNat 16 (argOf c o 2)) = BitVec.ofNat 8 (argOf c (o + 1) 1) := by
  have next : o + 1 - 12 = o - 12 + 1 := by omega
  rw [argOf, argOf, slice_two, next, slice_one]
  apply BitVec.eq_of_toNat_eq
  simp only [Word.hi, leNat, BitVec.toNat_setWidth, BitVec.toNat_ushiftRight, BitVec.toNat_ofNat, Nat.shiftRight_eq_div_pow]
  omega

end Sys2Proof.Machine
end

section
/-!
SUPPORT. Commands on a pan that act at once (R364, R365): the row answers as its landing says, and what the landings of the commands
are on a pan that is there.
-/
namespace Sys2Proof.Machine

/-! ### The row -/

/-- A completion answers its command on the state before its object was counted as changed, too. -/
theorem Answered.of_touchObject {c : Packet} {cpl op st : Nat} {res : List Byte} {v t : State} (o : Option Nat)
    (h : Answered c cpl op st res (v.touchObject o) t) : Answered c cpl op st res v t := by
  cases o <;> exact h

/-- A command that lands with `ST_OK` and completes is answered. -/
theorem CmdSpec.acts_answered {k : CmdSpec} {c : Packet} {cpl : Nat} {u v : State} {res : List Byte} (own : k.own = false)
    (land : k.land (packetRead c) cpl u = okWith v res) : Answered c cpl k.opcode 0 res v (k.acts (packetRead c) cpl u) := by
  rw [CmdSpec.acts, land, own]
  exact Answered.of_touchObject (k.object (packetRead c)) (answered_complete (packetRead c) cpl k.opcode 0 res _)

/-- A row of a command that acts at once answers as its landing says. -/
theorem actsAtOnce_of {i : Packet → Instr} {k : CmdSpec} {op : Nat} {res : Packet → State → List Byte} {f : Packet → State → State}
    (row : ∀ c s, exec (i c) s = s.command k c) (code : k.opcode = op) (own : k.own = false)
    (land : ∀ d cpl u, k.Met d u → k.boundary u d = none → k.land d cpl (k.begins d u) = okWith (f d u) (res d u)) :
    ActsAtOnce i k op res f := by
  intro s c r h hb
  refine ⟨_, (row c s).trans (State.command_acts h hb), ?_⟩
  rw [← code]
  exact CmdSpec.acts_answered own (land _ _ _ (State.passes_met h hb) hb)

/-! ### The pan a command names -/

theorem State.panIs_site {s : State} {d : Packet} {f : Site → Bool} (h : s.panIs d f = true) :
    ∃ x, s.site (targetOf d) = some x ∧ f x = true := by
  simpa only [State.panIs, Option.any_eq_true] using h

theorem State.hasPan_site {s : State} {d : Packet} (h : s.hasPan d = true) : ∃ x, s.site (targetOf d) = some x :=
  Option.isSome_iff_exists.mp h

/-! ### Creation, destruction and configuration (R67, R98, R99) -/

theorem panCreateSpec_land {d : Packet} {cpl : Nat} {u : State} {t : Title} (h : u.titleOf d = some t) :
    panCreateSpec.land d cpl u = okOnly (u.putSite (targetOf d) (u.createSite t d)) := by
  dsimp only [panCreateSpec, CmdSpec.onPan, CmdSpec.plain]
  rw [h]

theorem panCreateSpec_title {d : Packet} {u : State} (m : panCreateSpec.Met d u) : ∃ t, u.titleOf d = some t := by
  have allowed : (!u.hasPan d && (u.titleOf d).isSome) = true := m.allows
  exact Option.isSome_iff_exists.mp (Bool.and_eq_true_iff.mp allowed).2

theorem I2s.without_eq (p : Nat) (i : I2s) :
    i.without p = { i with pan := i.pan.filter (fun n => n != p), leaving := i.leaving.filter (fun e => e.1 != p) } := by
  have served : (if i.pan = some p then none else i.pan) = i.pan.filter (fun n => n != p) := by
    cases i.pan with
    | none => simp
    | some n => by_cases h : n = p <;> simp [Option.filter, h]
  rw [I2s.without, served]

/-- The settings of a `PAN_CONFIG`; the bay it has counted already is no matter (R187). -/
theorem Site.configure_stageBay (t : Title) (d : Packet) (x : Site) : Site.configure t d (Site.stageBay d x) = Site.configure t d x := by
  unfold Site.stageBay
  split <;> rfl

theorem Site.configure_eq (t : Title) (d : Packet) (x : Site) : Site.configure t d x = { x with
    pan := { x.pan.withCfg (configCfg t d x.pan.cfg) with sys := if maskBit d 0
      then { x.pan.sys with tag := BitVec.ofNat 16 (argOf d 24 2), tagLatch := BitVec.ofNat 8 (argOf d 25 1) } else x.pan.sys }
    bay := if maskBit d 5 then ⟨argOf d 14 1 % 8, by omega⟩ else x.bay, nextBay := none } := by
  rw [← argOf_two_hi d 24 (by decide)]
  rfl

theorem panConfigSpec_land {d : Packet} {cpl : Nat} {u : State} {x : Site} (h : u.site (targetOf d) = some x) :
    panConfigSpec.land d cpl (panConfigSpec.begins d u) =
      okOnly (u.putSite (targetOf d) (x.configure (u.siteTitle x) d)) := by
  change okOnly ((u.modSite (targetOf d) (Site.stageBay d)).modSite (targetOf d) (fun y =>
    y.configure ((u.modSite (targetOf d) (Site.stageBay d)).siteTitle y) d)) = _
  have staged : (u.putSite (targetOf d) (Site.stageBay d x)).siteTitle (Site.stageBay d x) = u.siteTitle x := by
    unfold Site.stageBay
    split <;> rfl
  rw [State.modSite_eq h, State.modSite_eq (State.site_putSite_same ..), State.putSite_putSite, staged,
    Site.configure_stageBay]

/-- What a `PAN_CONFIG` leaves of a pan's image (R99). -/
theorem Pan.withCfg_eq (g : PanCfg) (q : Pan) : q.withCfg g = { q with
    cfg := g, crust := if g.profile = q.cfg.profile then q.crust else Crust.empty, ras := (q.withCfg g).ras, beam := (q.withCfg g).beam,
    rake := (q.withCfg g).rake, snd := (q.withCfg g).snd } := by
  unfold Pan.withCfg
  split_ifs <;> rfl

/-- A pan that has run no pan-cycle stands as one created under the settings (R205). -/
theorem Pan.withCfg_fresh {q : Pan} (h : q.clk = 0) (g : PanCfg) :
    let new := Pan.reset g q.sys.tag q.cram q.media
    (q.withCfg g).ras = new.ras ∧ (q.withCfg g).beam = new.beam ∧ (q.withCfg g).rake = new.rake ∧ (q.withCfg g).snd = new.snd := by
  unfold Pan.withCfg
  rw [if_pos h]
  exact ⟨rfl, rfl, rfl, rfl⟩

/-- In one that has run the registers stand. -/
theorem Pan.withCfg_run {q : Pan} (h : 0 < q.clk) (g : PanCfg) :
    (q.withCfg g).ras = q.ras ∧ (q.withCfg g).rake = q.rake ∧ (q.withCfg g).snd = q.snd := by
  unfold Pan.withCfg
  rw [if_neg (by omega)]
  split_ifs <;> exact ⟨rfl, rfl, rfl⟩

theorem Pan.withCfg_beam {q : Pan} {g : PanCfg} (h : 0 < q.clk) (hp : g.profile = q.cfg.profile) (he : g.elastic = q.cfg.elastic) :
    (q.withCfg g).beam = q.beam := by
  unfold Pan.withCfg
  rw [if_neg (by omega), if_pos ⟨hp, he⟩]

/-! ### Halts (R197) -/

/-- The placement of a halt that arrives now stands last in the queue. -/
theorem Site.placeHalt_eq (now : Nat) (c : Packet) (cpl : Nat) (x : Site) : ∃ q : Placement, q.arrival = now ∧
    q.kind = .halt (if argBit c 12 0 then some (x.carried (argOf c 16 4, argOf c 20 4)) else none) c cpl ∧
    x.placeHalt now c cpl = { x with plQ := x.plQ ++ [q], order := x.order + 1 } := by
  unfold Site.placeHalt
  dsimp only
  generalize (if argBit c 12 0 = true then some (x.carried (argOf c 16 4, argOf c 20 4)) else none) = named
  split
  · split <;> exact ⟨_, rfl, rfl, rfl⟩
  · exact ⟨_, rfl, rfl, rfl⟩

/-- `PAN_HALT` answers for its own completion: its row places it. -/
theorem exec_panHalt {s : State} {c : Packet} {r : Ring} (h : s.passes panHaltSpec c r = true) :
    exec (.panHalt c) s = .next (((s.consume c.ring r).modSite (targetOf (packetRead c)) (fun x =>
      x.placeHalt (s.consume c.ring r).now (packetRead c) r.owner)).touchObject (objPan (packetRead c))) :=
  State.command_acts h rfl

/-! ### Debug steps (R198) -/

theorem panDebugSpec_land {d : Packet} {cpl : Nat} {u : State} :
    panDebugSpec.land d cpl u =
      okWith ((State.debugUnits (targetOf d) (argOf d 12 1) (argOf d 16 2) u).modSite (targetOf d)
          (Site.modPan (fun q => { q with stepping := false })))
        (((State.debugUnits (targetOf d) (argOf d 12 1) (argOf d 16 2) u).site (targetOf d)).elim []
          (fun x => x.pan.procImage.take 16)) := by
  generalize ht : State.debugUnits (targetOf d) (argOf d 12 1) (argOf d 16 2) u = t
  change okWith ((State.debugUnits (targetOf d) (argOf d 12 1) (argOf d 16 2) u).modSite (targetOf d) _)
    ((((State.debugUnits (targetOf d) (argOf d 12 1) (argOf d 16 2) u).modSite (targetOf d) _).site (targetOf d)).elim [] _) = _
  rw [ht]
  cases hx : t.site (targetOf d) with
  | none => simp only [State.modSite, hx]
  | some x =>
    rw [State.modSite_eq hx, State.site_putSite_same]
    rfl

/-! ### Placements (R92, R95, R96) -/

theorem slotArg_val {d : Packet} (h : argOf d 12 1 < 16) : (slotArg d).val = argOf d 12 1 := Nat.mod_eq_of_lt h

theorem State.clearAlive_eq (e : Nat) (s : State) :
    s.clearAlive e = { s with flows := (Table.get s.flows e).elim s.flows (fun f => Table.put s.flows e { f with last := none }) } := by
  unfold State.clearAlive
  cases Table.get s.flows e <;> rfl

theorem panAttachSpec_slot {d : Packet} {u : State} (m : panAttachSpec.Met d u) : argOf d 12 1 < 16 :=
  of_decide_eq_true (Bool.and_eq_true_iff.mp m.range).2

theorem panDetachSpec_slot {d : Packet} {u : State} (m : panDetachSpec.Met d u) : argOf d 12 1 < 16 :=
  of_decide_eq_true (Bool.and_eq_true_iff.mp m.range).2

theorem Site.acceptLate_mbNext (pos : Nat × Nat) {pl : Placement} (x : Site) : (x.acceptLate pos pl).mbNext = x.mbNext := by
  unfold Site.acceptLate Site.enqueue
  split
  · rfl
  · split <;> rfl

theorem Site.enqueue_mbNext (pl : Placement) (x : Site) : (x.enqueue pl).mbNext = x.mbNext := by
  unfold Site.enqueue
  split <;> rfl

theorem Site.accept_mbNext (arrival place : Nat) (k : PlaceKind) (x : Site) : (x.accept arrival place k).mbNext = x.mbNext := by
  unfold Site.accept Site.acceptLive
  dsimp only
  split
  · split
    · exact Site.enqueue_mbNext _ x
    · exact Site.acceptLate_mbNext _ x
  · split <;> exact Site.enqueue_mbNext _ x

/-- A message is numbered once, however it is placed (R95). -/
theorem Site.takeMessage_mbNext (now : Nat) (bytes : List Byte) (nmi : Bool) (x : Site) :
    (x.takeMessage now bytes nmi).mbNext = x.mbNext + 1 := Site.accept_mbNext _ _ _ _

theorem panMailboxSpec_message {d : Packet} {cpl : Nat} {u : State} {x : Site} (h : u.site (targetOf d) = some x)
    (hb : argBit d 18 1 = true) : panMailboxSpec.land d cpl u =
      okWith (u.putSite (targetOf d) (x.takeMessage u.now (argBytes d 12 6) (argBit d 18 0))) [x.mbNext + 1] := by
  dsimp only [panMailboxSpec, CmdSpec.onPan, CmdSpec.plain]
  rw [if_pos hb, State.modSite_eq h, State.site_putSite_same, Option.elim_some, Site.takeMessage_mbNext]

theorem panMailboxSpec_nmi {d : Packet} {cpl : Nat} {u : State} (hb : argBit d 18 1 = false) : panMailboxSpec.land d cpl u =
      okWith (u.modSite (targetOf d) (fun x => x.acceptAt u.now .nmi)) [0] := by
  dsimp only [panMailboxSpec, CmdSpec.onPan, CmdSpec.plain]
  rw [if_neg (by rw [hb]; decide)]

/-! ### Queries -/

/-- The result of a `PAN_QUERY` in its order (R364). -/
theorem Site.queryBytes_eq (x : Site) : x.queryBytes = [BitVec.ofNat 8 x.mode.code, x.pan.core.fault] ++
    leBytes 2 (x.heldPhase.elim 0xFFFF (fun n => 8 * n + x.bay.val)) ++ [x.pan.frame, x.ctr.late, x.ctr.rewinds, x.ctr.obsSkips,
      x.ctr.hcDiscarded, x.ctr.reruns, x.ctr.rejects, x.pan.sys.frameCount.toNat, 0].flatMap (leBytes 4) := by
  simp only [Site.queryBytes, List.flatMap_cons, List.flatMap_nil, List.append_nil, leBytes, List.cons_append,
    List.nil_append]

/-! ### Save images (R62, R244 to R246) -/

theorem heapSaveSpec_land {d : Packet} {cpl : Nat} {u : State} {q : Snapshot}
    (h : (u.site (targetOf d)).bind (u.savedImage d) = some q) :
    heapSaveSpec.land d cpl u = okWith (u.saveTo q d) (q.pan.saveResult q.kpa q.conf) := by
  dsimp only [heapSaveSpec, CmdSpec.onPan, CmdSpec.plain]
  rw [h]

/-- The state of an image that the device has produced. -/
theorem State.internalState_made {s : State} {l : List Byte} {m : Made} (h : s.made.find? (fun k => k.image == l) = some m) (q : Pan) :
    s.internalState l q = m.pan := by
  rw [State.internalState, h, Option.some_or]

/-- An image within an instruction that the device has not produced is no image (R62). -/
theorem Pan.acceptsImage_foreign {made : List Made} {l : List Byte} (hm : midImage l = true) (hf : made.any (fun m => m.image == l) = false)
    (k : Byte) (q : Pan) : q.acceptsImage k made l = false := by
  simp only [Pan.acceptsImage, hm, hf, Bool.not_true, Bool.or_self, Bool.and_false]

end Sys2Proof.Machine
end

section
/-!
SUPPORT. What a stop and a reset do to a pan (R58, R196, R407): completions look at no pan's record, the call ends, the queues go, and
the image stands or is reset.
-/
namespace Sys2Proof.Machine

/-! ### Completions look at no pan's record -/

section
variable (p : Nat) (x : Site) (s : State)

theorem State.moderate_putSite (n : Nat) : (s.putSite p x).moderate n = (s.moderate n).putSite p x := by
  have r : (s.putSite p x).ring n = s.ring n := rfl
  unfold State.moderate
  rw [r]
  cases s.ring n with
  | none => rfl
  | some q =>
    dsimp only
    split <;> rfl

theorem State.pushEntry_putSite (n : Nat) (entry : List Byte) : (s.putSite p x).pushEntry n entry = (s.pushEntry n entry).putSite p x := by
  have r : (s.putSite p x).ring n = s.ring n := rfl
  unfold State.pushEntry
  rw [r]
  cases s.ring n with
  | none => rfl
  | some q =>
    dsimp only
    rw [← State.moderate_putSite]
    rfl

theorem State.writeCpl_putSite (h : HeldCpl) : (s.putSite p x).writeCpl h = (s.writeCpl h).putSite p x :=
  calc (s.putSite p x).writeCpl h
    _ = if s.held.any (fun e => e.cpl == h.cpl) || !s.room h.cpl then
          if (s.ring h.cpl).isSome then ({ s with held := s.held ++ [h] }).putSite p x else s.putSite p x
        else (s.putSite p x).pushEntry h.cpl (completionRecord h.tag h.opcode h.status h.ring h.result s.now) := rfl
    _ = _ := by
      unfold State.writeCpl
      rw [State.pushEntry_putSite, ← apply_ite (State.putSite p x), ← apply_ite (State.putSite p x)]

theorem State.closeOn_putSite (n : Nat) : (s.putSite p x).closeOn n = (s.closeOn n).putSite p x := by
  have r : (s.putSite p x).ring n = s.ring n := rfl
  unfold State.closeOn
  rw [r]
  cases s.ring n <;> rfl

theorem State.complete_putSite (c : Packet) (cpl op st : Nat) (res : List Byte) :
    (s.putSite p x).complete c cpl op st res = (s.complete c cpl op st res).putSite p x := by
  simp only [State.complete_eq, State.closeOn_putSite, State.writeCpl_putSite, apply_ite (State.putSite p x)]

theorem State.partDone_putSite (t status : Nat) : (s.putSite p x).partDone t status = (s.partDone t status).putSite p x := by
  have r : (s.putSite p x).commits = s.commits := rfl
  unfold State.partDone
  rw [r]
  cases Table.get s.commits t with
  | none => rfl
  | some m =>
    dsimp only
    rw [apply_ite (State.putSite p x), ← State.complete_putSite]
    rfl

theorem State.finish_putSite (w : Waiting) (status : Nat) (res : List Byte) :
    (s.putSite p x).finish w status res = (s.finish w status res).putSite p x := by
  unfold State.finish
  cases w.txn with
  | none => exact State.complete_putSite p x s _ _ _ _ _
  | some t => exact State.partDone_putSite p x s t status

theorem State.finishHalt_putSite (q : Pan) (status : Nat) (met : Bool) (pl : Placement) :
    (s.putSite p x).finishHalt q status met pl = (s.finishHalt q status met pl).putSite p x := by
  unfold State.finishHalt
  cases pl.kind
  case halt => exact State.complete_putSite p x s _ _ _ _ _
  all_goals rfl

theorem State.foldl_putSite {α : Type} {f : State → α → State} (h : ∀ s a, f (s.putSite p x) a = (f s a).putSite p x) (l : List α) :
    l.foldl f (s.putSite p x) = (l.foldl f s).putSite p x := by
  induction l generalizing s with
  | nil => rfl
  | cons a l ih => rw [List.foldl_cons, h, ih, List.foldl_cons]

theorem State.dropWaiting_putSite (f : Waiting → Bool) (status : Nat) :
    (s.putSite p x).dropWaiting f status = (s.dropWaiting f status).putSite p x :=
  State.foldl_putSite p x { s with waiting := s.waiting.filter (fun w => !f w) } (f := fun t w => t.finish w status [])
    (fun t w => State.finish_putSite p x t w status []) _

end

/-- A record put as it stands makes no difference to what aborts the commands of its pan. -/
theorem State.abortWaiting_putSite {s : State} {p : Nat} {x : Site} (h : s.site p = some x) :
    (s.putSite p x).abortWaiting p = s.abortWaiting p := by
  have there : (s.dropWaiting (Waiting.onPan p) stAborted).site p = some x := by
    rw [State.site, State.dropWaiting_sites]
    exact h
  simp only [State.abortWaiting, State.dropWaiting_putSite, State.abortHalts, State.site_putSite_same, there]
  rw [State.foldl_putSite p x _ (fun t pl => State.finishHalt_putSite p x t x.pan stAborted false pl), State.putSite_putSite]

theorem State.idlePan_putSite {s : State} {p : Nat} {x : Site} (h : s.site p = some x) : (s.putSite p x).idlePan p = s.idlePan p := by
  have now : (s.putSite p x).now = s.now := rfl
  rw [State.idlePan, State.abortWaiting_putSite h, now, State.idlePan]

/-- Nor to the stop of the pan. -/
theorem State.stopped_putSite {s : State} {p : Nat} {x : Site} (h : s.site p = some x) :
    ((s.putSite p x).settleFrame p).idlePan p = (s.settleFrame p).idlePan p := by
  have now : (s.putSite p x).now = s.now := rfl
  simp only [State.settleFrame, State.site_putSite_same, h]
  split
  · rw [now, State.putSite_putSite, State.putSite_putSite]
  · exact State.idlePan_putSite h

/-- Where a stop waits for no frame end, nothing has begun before it lands (R409). -/
theorem panStopSpec_land {d : Packet} {cpl : Nat} {u : State} {x : Site} (h : u.site (targetOf d) = some x)
    (hb : panStopSpec.boundary u d = none) :
    panStopSpec.land d cpl (panStopSpec.begins d u) = okOnly ((u.settleFrame (targetOf d)).idlePan (targetOf d)) := by
  have lands : (if u.panIs d (Site.stopWaits u.now) then some (Boundary.frameEnd (targetOf d)) else none) = none := hb
  have goes : x.stopWaits u.now = false := by simpa [State.panIs, h] using lands
  have begun : panStopSpec.begins d u = u.putSite (targetOf d) x := by
    change u.modSite (targetOf d) _ = _
    rw [State.modSite_eq h, if_neg (by rw [goes]; decide)]
  rw [begun]
  exact congrArg okOnly (State.stopped_putSite h)

/-! ### Ending commands leaves DRAM alone -/

theorem State.complete_dram (c : Packet) (cpl op st : Nat) (res : List Byte) (s : State) : (s.complete c cpl op st res).dram = s.dram :=
  (congrArg State.dram (State.complete_eventful c cpl op st res s).only.eq).trans rfl

theorem State.foldl_dram {α : Type} {f : State → α → State} (h : ∀ s a, (f s a).dram = s.dram) (l : List α) (s : State) :
    (l.foldl f s).dram = s.dram :=
  List.foldlRecOn (motive := fun t : State => t.dram = s.dram) l f rfl (fun t e a _ => (h t a).trans e)

theorem State.partDone_dram (t status : Nat) (s : State) : (s.partDone t status).dram = s.dram := by
  unfold State.partDone
  cases Table.get s.commits t with
  | none => rfl
  | some m =>
    refine (apply_ite State.dram _ _ _).trans ?_
    rw [State.complete_dram]
    exact ite_self _

theorem State.finish_dram (w : Waiting) (status : Nat) (res : List Byte) (s : State) : (s.finish w status res).dram = s.dram := by
  unfold State.finish
  split
  · exact State.partDone_dram _ _ _
  · exact State.complete_dram _ _ _ _ _ _

theorem State.finishHalt_dram (q : Pan) (status : Nat) (met : Bool) (pl : Placement) (s : State) :
    (s.finishHalt q status met pl).dram = s.dram := by
  unfold State.finishHalt
  split
  · exact State.complete_dram _ _ _ _ _ _
  · rfl

theorem State.abortWaiting_dram (p : Nat) (s : State) : (s.abortWaiting p).dram = s.dram := by
  have dropped : (s.dropWaiting (Waiting.onPan p) stAborted).dram = s.dram :=
    State.foldl_dram (fun t w => State.finish_dram w stAborted [] t) _ _
  unfold State.abortWaiting State.abortHalts
  split
  · exact dropped
  · exact (State.foldl_dram (fun t pl => State.finishHalt_dram _ _ _ pl t) _ _).trans dropped

theorem State.modSite_dram (p : Nat) (f : Site → Site) (s : State) : (s.modSite p f).dram = s.dram := by
  unfold State.modSite
  split <;> rfl

theorem State.idlePan_dram (p : Nat) (s : State) : (s.idlePan p).dram = s.dram :=
  (State.modSite_dram p _ _).trans (State.abortWaiting_dram p s)

/-! ### The record of a pan that goes to `IDLE` (R58, R95, R196) -/

/-- The image once its call has ended: a call that it waits for sets C (R58). -/
def Pan.uncalled (q : Pan) : Pan :=
  if q.hc.pend then if q.core.hcWait then q.syncTimeout else q.modHc HostCall.timedOut else q

theorem Pan.uncalled_cpu (q : Pan) : q.uncalled.cpu =
    if q.core.hcWait = true ∧ q.hc.pend = true then { q.cpu with f := withFlags q.cpu.f [(0, true)] } else q.cpu := by
  unfold Pan.uncalled
  by_cases hp : q.hc.pend = true <;> by_cases hw : q.core.hcWait = true <;> simp only [hp, hw, if_true, if_false, and_self, and_true,
    and_false, Bool.false_eq_true] <;> rfl

theorem Pan.uncalled_keeps (q : Pan) :
    q.uncalled.cfg = q.cfg ∧ q.uncalled.sys = q.sys ∧ q.uncalled.cram = q.cram ∧ q.uncalled.wram = q.wram := by
  unfold Pan.uncalled
  split_ifs <;> exact ⟨rfl, rfl, rfl, rfl⟩

theorem Site.log_eq (l : List LogRec) (x : Site) : ∃ logs n, Site.log l x = { x with heap := { x.heap with logs := logs, lseq := n } } := by
  unfold Site.log
  split
  · exact ⟨_, _, rfl⟩
  · exact ⟨x.heap.logs, x.heap.lseq, rfl⟩

theorem Site.endCall_eq (now : Nat) (x : Site) : ∃ logs n, Site.endCall now x =
    { x with callOut := none, pan := x.pan.uncalled, heap := { x.heap with logs := logs, lseq := n } } := by
  unfold Site.endCall Pan.uncalled
  split
  · exact Site.log_eq _ _
  · exact ⟨x.heap.logs, x.heap.lseq, rfl⟩

/-- What a pan in `IDLE` is: in no engine, nothing queued, no call, its settings as they were. -/
structure Site.Idled (x y : Site) : Prop where
  mode : y.mode = .idle
  queues : y.inQ = [] ∧ y.plQ = [] ∧ y.mbHolding = []
  engines : y.boiler = none ∧ y.slot = none ∧ y.phase = none
  call : y.callOut = none
  image : y.pan = x.pan.uncalled.modMb (fun b => { b with queue := [] })
  settings : y.title = x.title ∧ y.bay = x.bay ∧ y.heap.depth = x.heap.depth ∧ y.inputDelay = x.inputDelay ∧ y.staging = x.staging

theorem Site.toIdle_idled (now : Nat) (x : Site) (l : List Placement) : Site.Idled x (Site.toIdle now { x with plQ := l }) := by
  obtain ⟨logs, n, e⟩ := Site.endCall_eq now { x with plQ := l }
  unfold Site.toIdle
  rw [e]
  exact ⟨rfl, ⟨rfl, rfl, rfl⟩, ⟨rfl, rfl, rfl⟩, rfl, rfl, rfl, rfl, rfl, rfl, rfl⟩

theorem State.idlePan_site {s : State} {p : Nat} {x : Site} (h : s.site p = some x) : ∃ y, (s.idlePan p).site p = some y ∧ x.Idled y := by
  have dropped : ((s.abortWaiting p).dropCalls p).site p = some { x with plQ := x.plQ.filter (fun q => !q.kind.isHalt) } :=
    State.abortWaiting_site h
  rw [State.idlePan, State.modSite_eq dropped]
  exact ⟨_, State.site_putSite_same .., Site.toIdle_idled s.now x _⟩

/-! ### Reset (R67, R84, R242) -/

theorem Site.openLog_eq (k v : Byte) (now : Nat) (x : Site) : ∃ b n logs, x.openLog k v now =
    { x with heap := { x.heap with logOpen := b, lseq := n, logs := logs } } := by
  unfold Site.openLog
  split
  · exact ⟨_, _, _, rfl⟩
  · exact ⟨x.heap.logOpen, x.heap.lseq, x.heap.logs, rfl⟩

/-- The record of a pan reset in `IDLE`. -/
theorem State.resetPan_site {s : State} {p : Nat} {x : Site} (h : s.site p = some x) : SiteThat (s.resetPan p) p (fun y =>
    y.mode = .idle ∧ y.attached = 0 ∧ y.heap.snaps = [] ∧ y.pan.crust = Crust.empty ∧ y.title = x.title ∧ y.bay = x.bay ∧
      y.heap.depth = x.heap.depth ∧ y.inputDelay = x.inputDelay ∧
      y.pan = Pan.reset x.pan.cfg x.pan.sys.tag x.pan.cram (memoryOf (s.dram.readBytes x.staging x.pan.cfg.mediaLen))) := by
  obtain ⟨y, hy, i⟩ := State.idlePan_site h
  obtain ⟨ht, hb, hd, hi, hs⟩ := i.settings
  obtain ⟨hcfg, hsys, hcram, _⟩ := x.pan.uncalled_keeps
  have cfg : y.pan.cfg = x.pan.cfg := by rw [i.image]; exact hcfg
  have sys : y.pan.sys = x.pan.sys := by rw [i.image]; exact hsys
  have cram : y.pan.cram = x.pan.cram := by rw [i.image]; exact hcram
  rw [State.resetPan, State.modSite_eq hy]
  obtain ⟨b, n, logs, e⟩ := Site.openLog_eq (s.idlePan p).kpa (s.idlePan p).conf (s.idlePan p).now _
  refine SiteThat.putSite ?_
  rw [State.resetSite, e]
  refine ⟨i.mode, rfl, rfl, rfl, ht, hb, hd, hi, ?_⟩
  rw [cfg, sys, cram, hs, State.idlePan_dram]

/-- A restore leaves the pan in `IDLE` with its audio chain as it was (R291). -/
theorem State.idleForImage_site {s : State} {p : Nat} {x : Site} (h : s.site p = some x) :
    SiteThat (s.idleForImage p) p (fun y => y.mode = .idle ∧ y.audio = x.audio) := by
  obtain ⟨y, hy, i⟩ := State.idlePan_site h
  rw [State.idleForImage, State.modSite_eq hy, h]
  exact SiteThat.putSite ⟨i.mode, rfl⟩

/-! ### Loading an image (R61, R62, R246) -/

/-- A word of a save image's processor image. -/
def imageWord (l : List Byte) (o : Nat) : Word := BitVec.ofNat 16 (leNat (slice l o 2))

section load
variable (q : Pan) (n : Nat) (l : List Byte) (p : Pan)

theorem procByte {l : List Byte} {i : Nat} (h : i < 24) : (slice (l.drop 64) 0 24).getD i 0 = l.getD (64 + i) 0 := by
  rw [slice_drop, slice_getD h, Nat.add_zero]

theorem procWord {l : List Byte} {i : Nat} (h : i + 2 ≤ 24) :
    BitVec.ofNat 16 (leNat (slice (slice (l.drop 64) 0 24) i 2)) = imageWord l (64 + i) := by
  rw [slice_drop, slice_slice h, Nat.add_zero, imageWord]

/-- The registers a save image gives. -/
theorem Pan.load_cpu : let w := Pan.load q n (l.drop 64) p
    w.cpu = { w.cpu with a := l.getD 64 0, b := l.getD 65 0, x := l.getD 66 0, y := l.getD 67 0, k := l.getD 68 0,
                         p := imageWord l 70, q := imageWord l 72, s := imageWord l 74 } := by
  have hb : ∀ i, i < 24 → (slice (l.drop 64) 0 24).getD i 0 = l.getD (64 + i) 0 := fun i h => procByte h
  rw [← hb 0 (by decide), ← hb 1 (by decide), ← hb 2 (by decide), ← hb 3 (by decide), ← hb 4 (by decide),
    ← procWord (i := 6) (by decide), ← procWord (i := 8) (by decide), ← procWord (i := 10) (by decide)]
  rfl

/-- At CYC = 0 the image's PC is the processor's, but for a sequence that began there (R61, R62). -/
theorem Pan.loadProc_pc {b : List Byte} (h : b.getD 17 0 = 0) (w : Pan) : (w.loadProc b).cpu.pc =
    if w.core.rep = true ∧ w.core.start = BitVec.ofNat 16 (leNat (slice b 12 2)) then w.cpu.pc
    else BitVec.ofNat 16 (leNat (slice b 12 2)) := by
  unfold Pan.loadProc
  dsimp only
  simp only [h]
  generalize BitVec.ofNat 16 (leNat (slice b 12 2)) = pc
  by_cases hr : w.core.rep = true ∧ w.core.start = pc
  · simp [imageCpuPc, hr]
  · have out : (w.core.rep && (w.core.start == pc)) = false := by simpa using hr
    simp [imageCpuPc, out, hr]

theorem Pan.load_pc {l : List Byte} (h : l.getD 81 0 = 0) : (Pan.load q n (l.drop 64) p).cpu.pc =
    if q.core.rep = true ∧ q.core.start = imageWord l 76 then q.cpu.pc else imageWord l 76 := by
  have cyc : (slice (l.drop 64) 0 24).getD 17 0 = 0 := (procByte (by decide)).trans h
  rw [← procWord (i := 12) (by decide)]
  exact Pan.loadProc_pc cyc _

theorem Pan.load_memories : let w := Pan.load q n (l.drop 64) p
    w.frame = n ∧ w.wram = memoryOf (slice l 4160 32768) ∧ w.vram = memoryOf (slice l 36928 65536) := by
  refine ⟨rfl, ?_, ?_⟩
  · rw [← slice_drop l 64 4096]; rfl
  · rw [← slice_drop l 64 36864]; rfl

end load

/-- The record of a pan that an image is loaded into: its log starts afresh, the image is the pan's. -/
theorem Site.loadImage_eq (q : Pan) (k v : Byte) (now : Nat) (l : List Byte) (x : Site) :
    (x.loadImage q k v now l).pan = Pan.load q (leNat (slice l 16 4)) (l.drop 64) x.pan ∧ (x.loadImage q k v now l).heap.snaps = [] ∧
      (x.loadImage q k v now l).heap.confDiff = decide (l.getD 7 0 ≠ v) ∧ (x.loadImage q k v now l).mode = x.mode := by
  unfold Site.loadImage
  dsimp only
  generalize Pan.load q (leNat (slice l 16 4)) (l.drop 64) x.pan = w
  obtain ⟨b, n, logs, e⟩ := Site.openLog_eq k v now { x with
    pan := w, prevLen := none,
    heap := { x.heap with snaps := [], applied := [], calls := [], oldCalls := [], written := none, rerunClk := 0, replay := [],
                          replayOn := false, replayErr := 0, replayPos := (0, 0), replayAt := none, logOpen := false,
                          confDiff := l.getD 7 0 != v } }
  rw [e]
  refine ⟨rfl, rfl, ?_, rfl⟩
  rw [Bool.eq_iff_iff, bne_iff_ne, decide_eq_true_eq]

end Sys2Proof.Machine
end

section
/-!
The commands on pans that act at once (R364, R365): the statement, assembled from what the landings of the commands are.
-/
namespace Sys2Proof.Machine

/-- A halt is placed, and nothing is answered yet (R197). -/
theorem panHalt_places {s : State} {c : Packet} {r : Ring} (h : s.passes panHaltSpec c r = true) :
    let u := s.consume c.ring r
    let d := packetRead c
    Completes (.panHalt c) s (fun t => t.host = u.host ∧ t.rings = u.rings ∧
      OnlyEvents { u with sites := t.sites, versions := t.versions } t ∧ SiteThat t d.target.toNat (fun y => u.panIs d (fun x =>
        let from_ := { y with plQ := x.plQ, order := x.order, inQ := x.inQ, lateRecords := x.lateRecords }
        decide (from_ = x) && y.plQ.dropLast == x.plQ && y.plQ.getLast?.any (fun q => q.arrival == u.tb.time && decide (q.kind =
          .halt (if argBit d 12 0 then some (x.carried (argOf d 16 4, argOf d 20 4)) else none) d r.owner))))) := by
  intro u d
  obtain ⟨x, hx, _⟩ := State.panIs_site (State.passes_met h rfl).allows
  obtain ⟨q, arrives, kind, placed⟩ := Site.placeHalt_eq u.now d r.owner x
  have row := exec_panHalt h
  rw [State.modSite_eq hx, placed] at row
  refine ⟨_, row, rfl, rfl, rfl, _, State.site_putSite_same (targetOf d) _ u, ?_⟩
  have there : u.site (targetOf d) = some x := hx
  simp only [State.panIs, there, Option.any_some, List.dropLast_concat, List.getLast?_concat, arrives, kind, State.now, beq_self_eq_true,
    decide_true, Bool.and_self]

/-- A save that waits for no frame end copies its image at once (R245). -/
theorem heapSave_saves {s : State} {c : Packet} {r : Ring} {q : Snapshot} (h : s.passes heapSaveSpec c r = true)
    (hb : heapSaveSpec.boundary (s.consume c.ring r) (packetRead c) = none)
    (hq : ((s.consume c.ring r).site (packetRead c).target.toNat).bind ((s.consume c.ring r).savedImage (packetRead c)) = some q) :
    Completes (.heapSave c) s (fun t => Answered c r.owner 0x0405 0 (q.pan.saveResult q.kpa q.conf)
      ((s.consume c.ring r).saveTo q (packetRead c)) t) :=
  ⟨_, State.command_acts h hb, CmdSpec.acts_answered rfl (heapSaveSpec_land hq)⟩

/-- Settles O55: each row that acts at once is its landing, answered; a stop, a reset and a loaded image are what they leave of the pan's
record. -/
theorem panCommandsAct : Obligations.PanCommandsAct := by
  unfold Obligations.PanCommandsAct
  intro none_ site bit slot image
  refine ⟨actsAtOnce_of (fun _ _ => rfl) rfl rfl (fun d _ u m _ => ?create), fun _ _ _ _ =>
      ⟨rfl, rfl, rfl, rfl, rfl, rfl, rfl, rfl, rfl, rfl, rfl, rfl, rfl, rfl, rfl⟩,
    actsAtOnce_of (fun _ _ => rfl) rfl rfl (fun d _ u m _ => ?destroy),
    actsAtOnce_of (fun _ _ => rfl) rfl rfl (fun d _ u m _ => ?config), fun g q => ?withCfg, fun s c r h => ?halt,
    actsAtOnce_of (fun _ _ => rfl) rfl rfl (fun d _ u m hb => ?stop),
    actsAtOnce_of (fun _ _ => rfl) rfl rfl (fun _ _ _ _ _ => rfl), fun s p x h => ?idle, fun s p x h => State.resetPan_site h,
    actsAtOnce_of (fun _ _ => rfl) rfl rfl (fun _ _ _ _ _ => panDebugSpec_land),
    actsAtOnce_of (fun _ _ => rfl) rfl rfl (fun d _ u m _ => ?attach),
    actsAtOnce_of (fun _ _ => rfl) rfl rfl (fun d _ u m _ => ?detach),
    actsAtOnce_of (fun _ _ => rfl) rfl rfl (fun d _ u m _ => ?mailbox),
    actsAtOnce_of (fun _ _ => rfl) rfl rfl (fun _ _ _ _ _ => rfl),
    actsAtOnce_of (fun _ _ => rfl) rfl rfl (fun d _ u m _ => ?query), fun s c r q h hb hq => ?save,
    actsAtOnce_of (fun _ _ => rfl) rfl rfl (fun _ _ _ _ _ => rfl), fun s l q m h => State.internalState_made h q,
    fun s l q k hm hf => ?foreign, fun s p x h => State.idleForImage_site h, fun q k v n l x _ => ?load⟩
  case create =>
    obtain ⟨t, ht⟩ := panCreateSpec_title m
    have named : Table.get u.titles (argOf d 12 2) = some t := ht
    rw [named]
    exact panCreateSpec_land ht
  case destroy =>
    change okOnly { (u.dropWaiting (Waiting.onPan (targetOf d)) stBadState).dropCalls (targetOf d) with
      sites := _, i2s := I2s.without _ _ } = _
    rw [I2s.without_eq]
    rfl
  case config =>
    obtain ⟨x, hx, _⟩ := State.panIs_site m.allows
    rw [panConfigSpec_land hx, Site.configure_eq]
    change _ = okOnly (u.modSite (targetOf d) _)
    rw [State.modSite_eq hx]
    rfl
  case withCfg =>
    have crust : (q.withCfg g).crust = if g.profile = q.cfg.profile then q.crust else Crust.empty := congrArg Pan.crust (q.withCfg_eq g)
    refine ⟨?_, fun h => by rw [crust, if_pos h], fun h => by rw [crust, if_neg h], fun h => Pan.withCfg_fresh h g,
      fun h => Pan.withCfg_run h g, Pan.withCfg_beam⟩
    rw [crust]
    exact q.withCfg_eq g
  case halt => exact panHalt_places h
  case stop =>
    obtain ⟨x, hx⟩ := State.hasPan_site m.allows
    exact panStopSpec_land hx hb
  case idle =>
    obtain ⟨y, hy, i⟩ := State.idlePan_site h
    obtain ⟨hin, hpl, hmb⟩ := i.queues
    obtain ⟨hbo, hsl, hph⟩ := i.engines
    refine ⟨y, hy, i.mode, hin, hpl, hbo, hsl, hph, i.call, hmb, ?_, ?_⟩
    · rw [i.image]
      exact x.pan.uncalled_cpu
    · obtain ⟨_, _, _, wram⟩ := x.pan.uncalled_keeps
      rw [i.image]
      exact wram
  case attach =>
    change okOnly ((u.clearAlive (16 * targetOf d + (slotArg d).val)).modSite (targetOf d) (fun x =>
      { x.acceptAt u.now (.attach (slotArg d)) with attached := setBit x.attached (slotArg d).val true })) = _
    rw [slotArg_val (panAttachSpec_slot m), State.clearAlive_eq]
    rfl
  case detach =>
    change okOnly (u.modSite (targetOf d) (fun x =>
      { x.acceptAt u.now (.detach (slotArg d)) with attached := setBit x.attached (slotArg d).val false })) = _
    rw [slotArg_val (panDetachSpec_slot m)]
    rfl
  case mailbox =>
    obtain ⟨x, hx, _⟩ := State.panIs_site m.allows
    change panMailboxSpec.land d _ u = okWith (u.modSite (targetOf d) (fun x => if argBit d 18 1 then _ else _))
      ((u.site (targetOf d)).elim [] (fun x => [if argBit d 18 1 then x.mbNext + 1 else 0]))
    rw [hx, State.modSite_eq hx]
    cases hb : argBit d 18 1 with
    | true => exact panMailboxSpec_message hx hb
    | false =>
      rw [panMailboxSpec_nmi hb, State.modSite_eq hx]
      rfl
  case query =>
    obtain ⟨x, hx⟩ := State.hasPan_site m.allows
    change okOnly (u.hostWrite (argOf d 12 8) ((u.site (targetOf d)).elim [] Site.queryBytes)) =
      okOnly ((u.site (targetOf d)).elim u _)
    rw [hx, Option.elim_some, Option.elim_some, Site.queryBytes_eq]
    rfl
  case save =>
    rw [← State.saveTo_eq]
    exact heapSave_saves h hb hq
  case foreign =>
    have mid : midImage l = true := by simpa [midImage] using hm
    exact Pan.acceptsImage_foreign mid (by simpa using hf) k q
  case load =>
    obtain ⟨loaded, snaps, diff, mode⟩ := Site.loadImage_eq q k v n l x
    obtain ⟨frame, wram, vram⟩ := Pan.load_memories q (leNat (slice l 16 4)) l x.pan
    refine ⟨?_, ?_, ?_, snaps, diff, mode, fun h => ?_, ?_⟩
    · rw [loaded]; exact frame
    · rw [loaded]; exact wram
    · rw [loaded]; exact vram
    · rw [loaded]; exact Pan.load_pc q _ x.pan h
    · rw [loaded]; exact Pan.load_cpu q _ l x.pan

end Sys2Proof.Machine
end

section
/-!
The raster's events (R106, R251, R360): `FRAME_LATCH` lands what waits for the latch of the pan, as R106 and R360 have it. The statement
asks that nothing of the device changes but the pan, in every state, and fails where a command waits for the latch: its two clauses on
the latch need a premise on the commands that wait.
-/
namespace Sys2Proof.Machine

/-- A pan of profile P1, kind LOCKED, without a copy armed, as the latch pan-cycle of its first frame begins. -/
def latchingPan : Pan :=
  { Pan.reset { profile := 1, fp := 266666667, lb := 262, elastic := false, titleId := 0, minKpa := 2, rewindFlag := true, romLen := 4096,
                rom := [], cramSize := 8192, mediaLen := 256 } 0 [] [] with clk := 48000 }

/-- Its record, running in FREE. -/
def latchingSite : Site := { Site.create latchingPan 0 0 0 with mode := .free, slot := some 0, boiler := some 0 }

/-- A `PAN_OBS` of that pan that has met its epoch and waits for the latch. -/
def obsAtLatch : Waiting :=
  { opcode := 0x0311, c := { ring := 0, tag := 0, flags := 0, plen := 0, target := 0, txid := 0, params := [] }, accepted := 0, cpl := 1,
    at_ := .latch 0, epochDone := true, epochTime := 0, txn := none, fromFrame := 0, place := none }

/-- The device out of reset with that pan on its first boiler and that command waiting. -/
def latchingState : State :=
  { State.reset with pwr := { State.reset.pwr with sysRst := false }, tb := { State.reset.tb with counting := true },
                     sites := [(0, latchingSite)], waiting := [obsAtLatch] }

theorem latchingState_advances : State.Advances latchingState 0 latchingSite where
  out := rfl
  abort := rfl
  served := rfl
  live := by
    have there : latchingState.site 0 = some latchingSite := rfl
    have runs : latchingState.runs latchingSite = true := by decide
    rw [State.liveSite, there, Option.filter_some, if_pos runs]

/-- The command lands with the latch: none waits after it. -/
theorem latchingState_lands : (match exec (.frameLatch 0) latchingState with
    | .next t => t.waiting.isEmpty
    | _ => false) = true := by decide +kernel

theorem State.withPan_waiting (p : Nat) (x : Site) (q : Pan) (s : State) : (s.withPan p x q).waiting = s.waiting := rfl

/-- Refutes O28: in `latchingState` a `PAN_OBS` waits for the latch, and `FRAME_LATCH` lands it, where the statement has every command
that waits wait on. -/
theorem not_rasterEvents : ¬ Obligations.RasterEvents := by
  unfold Obligations.RasterEvents
  intro h
  obtain ⟨-, -, -, -, closes, -⟩ := h 0
  have closed := closes latchingState latchingSite latchingState_advances (by decide) (by decide)
  have landed := latchingState_lands
  rw [closed] at landed
  dsimp only at landed
  rw [State.withPan_waiting] at landed
  exact absurd landed (by decide)

end Sys2Proof.Machine
end

section
/-!
SUPPORT. What the end of a pan-cycle leaves of the raster (R146, R163): it moves channels, timers, sound, wave tables and raised sources,
and nothing else.
-/
namespace Sys2Proof.Machine

/-- Nothing but channels, wave tables, timers, the interrupt controller, sound and the write that waits differs. -/
def Pan.OnlyPaced (p q : Pan) : Prop :=
  q = { p with dma := q.dma, wave := q.wave, tm := q.tm, ic := q.ic, snd := q.snd, late := q.late }

namespace Pan.OnlyPaced

theorem refl (p : Pan) : Pan.OnlyPaced p p := rfl

theorem trans {p q r : Pan} (h : Pan.OnlyPaced p q) (k : Pan.OnlyPaced q r) : Pan.OnlyPaced p r := by
  unfold Pan.OnlyPaced at *
  rw [k, h]

theorem ite {c : Prop} {_ : Decidable c} {p a b : Pan} (h : Pan.OnlyPaced p a) (k : Pan.OnlyPaced p b) :
    Pan.OnlyPaced p (if c then a else b) := by
  split
  · exact h
  · exact k

theorem ofTimers {p q : Pan} (h : Pan.OnlyTimers p q) : Pan.OnlyPaced p q := by
  unfold Pan.OnlyPaced
  rw [h]

end Pan.OnlyPaced

theorem Pan.s0Refill_paced (p : Pan) : Pan.OnlyPaced p p.s0Refill :=
  .ite (.ite rfl rfl) (.refl p)

theorem Pan.s0Own_paced (e : Nat) (p : Pan) : Pan.OnlyPaced p (p.s0Own e) := by
  have started : Pan.OnlyPaced p (((p.modDma 3 Dma.stop).modTm 3 (Timer.forS0 e p.snd.s0)).s0PassStart) := rfl
  exact started.trans (Pan.s0Refill_paced _)

theorem Pan.s0Enable_paced (e : Nat) (p : Pan) : Pan.OnlyPaced p (p.s0Enable e) := by
  have cleared : ∀ f, Pan.OnlyPaced p (p.modS0 f) := fun _ => rfl
  exact .ite ((cleared _).trans (Pan.s0Own_paced e _)) (cleared _)

theorem Pan.s0Disable_paced (b : Bool) (p : Pan) : Pan.OnlyPaced p (p.s0Disable b) := .ite rfl rfl

theorem Pan.s0Control_paced (e : Nat) (v : Byte) (p : Pan) : Pan.OnlyPaced p (p.s0Control e v) := by
  have set : ∀ c, Pan.OnlyPaced p (p.modS0 (fun s => { s with ctl := c })) := fun _ => rfl
  exact .ite (.ite rfl (set _))
    (.ite ((set _).trans (Pan.s0Enable_paced e _)) (.ite ((set _).trans (Pan.s0Disable_paced _ _)) (set _)))

theorem Pan.s0Write_paced (e o : Nat) (v : Byte) (p : Pan) : Pan.OnlyPaced p (p.s0Write e o v) := by
  unfold Pan.s0Write
  split
  case h_1 => exact Pan.s0Control_paced e v p
  case h_3 => exact .ite rfl rfl
  case h_9 => exact .ite (.refl p) rfl
  all_goals rfl

theorem Pan.tmWrite_paced (e : Nat) (n : Fin 4) (o : Nat) (v : Byte) (p : Pan) : Pan.OnlyPaced p (p.tmWrite e n o v) := by
  have captured : Pan.OnlyPaced p (if o = 8 ∧ v.getLsbD 7 then p.capture n else p) :=
    .ite (.ofTimers (Pan.capture_timers n p)) (.refl p)
  have written : ∀ q : Pan, Pan.OnlyPaced q (q.modTm n (Timer.written e o v)) := fun _ => rfl
  exact .ite (captured.trans (written _)) (.refl p)

theorem Pan.lateWrite_paced (e o : Nat) (v : Byte) (p : Pan) : Pan.OnlyPaced p (p.lateWrite e o v) := by
  have sound : Pan.OnlyPaced p (p.sndWrite e (o - 0x100) v) := by
    unfold Pan.sndWrite
    split
    · rfl
    · exact Pan.s0Write_paced _ _ _ _
  exact .ite sound (.ite (Pan.tmWrite_paced _ _ _ _ _) rfl)

theorem Pan.lateApply_paced (p : Pan) : Pan.OnlyPaced p p.lateApply := by
  have taken : Pan.OnlyPaced p { p with late := none } := rfl
  unfold Pan.lateApply
  split
  · exact taken.trans (Pan.lateWrite_paced _ _ _ _)
  · exact .refl p

/-- The end of a pan-cycle. -/
theorem Pan.settle_paced (p : Pan) : Pan.OnlyPaced p p.settle := by
  have low : ∀ (k m : Nat) (q : Pan), Pan.OnlyPaced q (q.lowCheck k m) := fun k m q => .ite rfl (.refl q)
  exact .ite (((Pan.OnlyPaced.ofTimers (Pan.runActs_timers p)).trans (Pan.lateApply_paced _)).trans (low _ _ _)) (.refl p)

@[simp] theorem Pan.settle_beam (p : Pan) : p.settle.beam = p.beam := by rw [Pan.settle_paced p]
@[simp] theorem Pan.settle_cfg (p : Pan) : p.settle.cfg = p.cfg := by rw [Pan.settle_paced p]

/-- Where an event comes and the end of the pan-cycle before it with it, nothing else has moved. -/
theorem Pan.upTo_settle_paced (t : Nat) (p : Pan) : Pan.OnlyPaced { p with clk := (p.upTo t).clk } (p.upTo t).settle := by
  have here : Pan.OnlyPaced { p with clk := (p.upTo t).clk } (p.upTo t) := by
    unfold Pan.upTo
    split
    · exact .refl p
    · have paced := Pan.settle_paced p
      unfold Pan.OnlyPaced at paced ⊢
      rw [paced]
  exact here.trans (Pan.settle_paced _)

end Sys2Proof.Machine
end

section
/-!
The end of a blank line of an ELASTIC pan (R101, R105), and the entries of a raster table (R132): what each row makes of the image.
-/
namespace Sys2Proof.Machine

/-! ### A blank line that R105 lets go on -/

/-- The rule of R105 looks at the raster, and not at what the end of a pan-cycle moves. -/
theorem Pan.blankRule_settle (l : Nat) (p : Pan) : p.settle.blankRule l = p.blankRule l := by
  rw [Pan.settle_paced p]
  rfl

/-- The blank goes on, and the movie does not wait. -/
theorem Pan.blankExtend_false (p : Pan) : p.blankExtend false = { p with beam := { p.beam with blankLine := p.beam.blankLine + 1 } } := by
  simp [Pan.blankExtend, Pan.modRas]

theorem Pan.frameEndStep_continues {p : Pan} (he : p.cfg.elastic = true) (ht : p.frameEndAt ≤ p.clk)
    (hr : p.blankRule p.beam.blankLine = .continues) :
    p.frameEndStep = some { p.settle with beam := { p.beam with blankLine := p.beam.blankLine + 1 } } := by
  have goesOn : p.settle.frameEnds = false := by
    rw [Pan.frameEnds, Pan.blankRule_settle, Pan.settle_cfg, Pan.settle_beam, he, hr]
    rfl
  have rule : p.settle.blankRule p.settle.beam.blankLine = .continues := by rw [Pan.blankRule_settle, Pan.settle_beam, hr]
  have come : p.comes p.frameEndAt = true := by simp [Pan.comes, ht]
  rw [Pan.frameEndStep, Pan.begins, Pan.at_comes come, Pan.upTo, if_pos ht, goesOn, rule, ← Pan.settle_beam p]
  exact congrArg some (Pan.blankExtend_false _)

theorem frameEnd_continues (p : PanNo) : EventNow (.frameEnd p) p
    (fun q => q.cfg.elastic && decide (q.frameStart + (q.beam.blankLine + 1) * q.cpl ≤ q.clk) &&
      q.blankRule q.beam.blankLine == .continues)
    (fun q => { q.settle with beam := { q.beam with blankLine := q.beam.blankLine + 1 } }) := by
  refine eventNow_of (fun _ => rfl) (fun q hc => ?_) (fun q _ => ⟨Pan.settle_out q, Pan.settle_frameNo q, Pan.settle_served q⟩)
  simp only [Bool.and_eq_true, decide_eq_true_eq, beq_iff_eq] at hc
  obtain ⟨⟨elastic, due⟩, rule⟩ := hc
  exact Pan.frameEndStep_continues elastic (by rwa [Pan.frameEndAt, if_pos elastic]) rule

/-! ### Raster table entries -/

/-- A write of a raster register moves raster registers and raised sources; the registers in force and the line of each channel's next
entry stand. -/
structure Pan.RasterWritten (p q : Pan) : Prop where
  only : q = { p with ras := q.ras, ic := q.ic }
  force : q.ras.force = p.ras.force
  next : q.ras.rtNext = p.ras.rtNext

theorem Pan.lineWrite_raster (c dot rank a : Nat) (w : Word) (p : Pan) : Pan.RasterWritten p (p.lineWrite c dot rank a w) := by
  refine ⟨rfl, ?_, ?_⟩ <;> simp only [Pan.lineWrite, Pan.modRas] <;> split <;> rfl

theorem Pan.mvReady_raster (r : BitVec 4) (p : Pan) : Pan.RasterWritten p (p.mvReady r) := by
  rw [Pan.mvReady_eq]
  exact ⟨rfl, rfl, rfl⟩

theorem Pan.movePair_raster (e dot rank o : Nat) (w : Word) (p : Pan) : Pan.RasterWritten p (p.movePair e dot rank o w) := by
  unfold Pan.movePair
  split
  · exact ⟨rfl, rfl, rfl⟩
  split
  · exact ⟨rfl, rfl, rfl⟩
  split
  · exact Pan.lineWrite_raster _ _ _ _ _ p
  · exact ⟨rfl, rfl, rfl⟩

theorem Pan.rasWrite_raster (e dot rank o : Nat) (v : Byte) (p : Pan) : Pan.RasterWritten p (p.rasWrite e dot rank o v) := by
  unfold Pan.rasWrite
  split
  · exact ⟨rfl, rfl, rfl⟩
  split
  · exact Pan.movePair_raster _ _ _ _ _ p
  split
  · exact Pan.lineWrite_raster _ _ _ _ _ p
  split
  case h_1 => split <;> exact ⟨rfl, rfl, rfl⟩
  case h_2 => exact Pan.mvReady_raster _ p
  case h_5 => split <;> exact ⟨rfl, rfl, rfl⟩
  all_goals exact ⟨rfl, rfl, rfl⟩

/-- The pan-cycle of a channel's next entry stands. -/
theorem Pan.RasterWritten.rtAt {p q : Pan} (h : Pan.RasterWritten p q) (n : Fin 4) : q.rtAt n = p.rtAt n := by
  obtain ⟨only, force, next⟩ := h
  have line : q.rtLine n = p.rtLine n := by rw [Pan.rtLine, Pan.rtLine, force, next]
  have start : q.lineStart (p.rtLine n) = p.lineStart (p.rtLine n) := by rw [only]; rfl
  rw [Pan.rtAt, Pan.rtAt, line, force, start]

/-- One byte of channel n's next entry written to the register at offset `o`. -/
def Pan.rtPut (n : Fin 4) (o : Nat) (b : Byte) (p : Pan) : Pan := p.rasWrite (p.rtAt n + 1) (2 * p.rtAt n + 4) n.val o b

/-- The byte or bytes of channel n's next entry written to its target. -/
def Pan.rtWrote (n : Fin 4) (p : Pan) : Pan :=
  let r := p.ras.force.rt[n]
  let q := p.rtPut n r.tgt.toNat (p.rtRead n).1
  if r.ctl.getLsbD 6 then q.rtPut n (r.tgt.toNat + 1) (p.rtRead n).2 else q

/-- Channel n's next entry is its last. -/
def Pan.rtLast (n : Fin 4) (p : Pan) : Bool :=
  p.rtLine n + 1 == (p.ras.force.rt[n]).line.toNat + (p.ras.force.rt[n]).count.toNat

/-- An entry: what it writes, the channel's line moved on, and with the last one DONE and source 7 under IE. -/
theorem Pan.rtWrite_eq (n : Fin 4) (p : Pan) : p.rtWrite n (p.rtRead n) =
    ({ p.rtWrote n with ras := { (p.rtWrote n).ras with
        rtNext := (p.rtWrote n).ras.rtNext.set n (p.rtLine n + 1),
        rtDone := if p.rtLast n then (p.rtWrote n).ras.rtDone.set n true else (p.rtWrote n).ras.rtDone } }).raising
      [(7, p.rtLast n && (p.ras.force.rt[n]).ctl.getLsbD 5)] := by
  have second : (p.rtPut n (p.ras.force.rt[n]).tgt.toNat (p.rtRead n).1).rtAt n = p.rtAt n := (Pan.rasWrite_raster _ _ _ _ _ p).rtAt n
  have wrote : p.rtWrote n = (
      let q := p.rasWrite (p.rtAt n + 1) (2 * p.rtAt n + 4) n.val (p.ras.force.rt[n]).tgt.toNat (p.rtRead n).1
      if (p.ras.force.rt[n]).ctl.getLsbD 6 then
        q.rasWrite (p.rtAt n + 1) (2 * p.rtAt n + 4) n.val ((p.ras.force.rt[n]).tgt.toNat + 1) (p.rtRead n).2
      else q) := by
    rw [Pan.rtWrote]
    dsimp only
    rw [Pan.rtPut, second]
    rfl
  unfold Pan.rtWrite
  dsimp only at wrote ⊢
  rw [← wrote]
  by_cases last : p.rtLine n + 1 = (p.ras.force.rt[n]).line.toNat + (p.ras.force.rt[n]).count.toNat
  · have k : p.rtLast n = true := beq_iff_eq.2 last
    rw [if_pos last, k, if_pos rfl, Bool.true_and]
    cases (p.ras.force.rt[n]).ctl.getLsbD 5 with
    | true =>
      rw [if_pos rfl, Pan.raising_source (by decide)]
      rfl
    | false => rfl
  · have k : p.rtLast n = false := beq_eq_false_iff_ne.2 last
    rw [if_neg last, k, Bool.false_and, if_neg (by decide)]
    rfl

theorem Pan.rtWrote_hushes (n : Fin 4) (p : Pan) : Hushes (Pan.rtWrote n) p := by
  have put : ∀ (o : Nat) (b : Byte) (q : Pan), Hushes (Pan.rtPut n o b) q := by
    intro o b q
    have only := (Pan.rasWrite_raster (q.rtAt n + 1) (2 * q.rtAt n + 4) n.val o b q).only
    unfold Hushes Pan.rtPut
    rw [only]
    exact ⟨rfl, rfl, rfl⟩
  unfold Hushes Pan.rtWrote
  dsimp only
  split
  · exact (put _ _ p).comp (put _ _ _)
  · exact put _ _ p

end Sys2Proof.Machine
end

section
/-!
The end of a LOCKED pan's frame (R14, R101, R409): what the frame's end makes of the image, and what the device's part of it leaves of it.
-/
namespace Sys2Proof.Machine

/-! ### The image (R101, R175) -/

/-- Emissions move sound alone. -/
theorem Pan.emitWhile_snd (bound : Int) (n : Nat) (p : Pan) :
    Pan.emitWhile bound n p = { p with snd := (Pan.emitWhile bound n p).snd } := by
  induction n generalizing p with
  | zero => rfl
  | succ n ih =>
    rw [Pan.emitWhile]
    split
    · exact ih p.emitOne
    · rfl

theorem Pan.soundFrameEnd_snd (n : Nat) (p : Pan) : p.soundFrameEnd n = { p with snd := (p.soundFrameEnd n).snd } := by
  have emitted : p.emitDue 1 p.frameEndAt = { p with snd := (p.emitDue 1 p.frameEndAt).snd } :=
    Pan.emitWhile_snd 1 (p.remSettle p.frameEndAt).emitFuel (p.remSettle p.frameEndAt)
  unfold Pan.soundFrameEnd
  dsimp only
  split
  · exact emitted
  · rw [emitted]
    rfl

/-- The image as the next frame begins. -/
structure Pan.FrameBegun (p q : Pan) : Prop where
  frame : q.frame = p.frame + 1
  start : q.frameStart = p.frameEndAt
  lines : q.ras.frameVt = p.ras.force.vtotal.toNat
  vblank : q.beam.vbDone = false
  latch : q.beam.latchDone = false
  stores : q.stores = p.stores
  sys : q.sys = p.sys
  cpu : q.cpu = p.cpu
  core : q.core = p.core
  out : q.out = p.out
  served : q.crust.served = p.crust.served

theorem Pan.endFrame_begun (p : Pan) : Pan.FrameBegun p p.endFrame := by
  rw [Pan.endFrame, Pan.soundFrameEnd_snd]
  exact ⟨rfl, rfl, rfl, rfl, rfl, rfl, rfl, rfl, rfl, rfl, rfl⟩

theorem Pan.frameEndStep_ends {p : Pan} (he : p.cfg.elastic = false) (hc : p.comes p.frameEndAt = true) :
    p.frameEndStep = some (p.upTo p.frameEndAt).settle.endFrame := by
  have ends : (p.upTo p.frameEndAt).settle.frameEnds = true := by
    have kept : (p.upTo p.frameEndAt).settle.cfg = p.cfg := by rw [Pan.upTo_settle_paced]
    rw [Pan.frameEnds, kept, he]
    rfl
  rw [Pan.frameEndStep, Pan.begins, Pan.at_comes hc, if_pos ends]

/-! ### The device's part -/

/-- What the device's part of a frame end may move of an image: the host-call, the messages, the samples, and the marks of changed
grains. -/
def Pan.FrameKept (p q : Pan) : Prop := q = { p with hc := q.hc, mb := q.mb, snd := q.snd, dirty := q.dirty }

theorem Pan.FrameKept.refl (p : Pan) : Pan.FrameKept p p := rfl

theorem Pan.FrameKept.trans {p q r : Pan} (h : Pan.FrameKept p q) (k : Pan.FrameKept q r) : Pan.FrameKept p r := by
  unfold Pan.FrameKept at *
  rw [k, h]

/-- The image is still the one the next frame begins with. -/
theorem Pan.FrameBegun.kept {p q r : Pan} (b : Pan.FrameBegun p q) (k : Pan.FrameKept q r) : Pan.FrameBegun p r := by
  rw [k]
  exact ⟨b.frame, b.start, b.lines, b.vblank, b.latch, b.stores, b.sys, b.cpu, b.core, b.out, b.served⟩

/-- A call that ends, where the pan waits for none. -/
theorem Pan.uncalled_kept {q : Pan} (h : q.core.hcWait = false) : Pan.FrameKept q q.uncalled := by
  unfold Pan.uncalled
  rw [h]
  split
  · rfl
  · exact .refl q

/-- The record of pan `p` bears the image `q`, but for what the device's part of a frame end may move. -/
def State.Bears (p : Nat) (q : Pan) (s : State) : Prop := SiteThat s p (fun y => Pan.FrameKept q y.pan)

namespace State.Bears

variable {p : Nat} {q : Pan} {s : State}

theorem sites {t : State} (h : State.Bears p q s) (e : t.sites = s.sites) : State.Bears p q t := by
  obtain ⟨y, hy, k⟩ := h
  exact ⟨y, by rwa [State.site, e], k⟩

theorem modSite {f : Site → Site} (h : State.Bears p q s) (k : ∀ y : Site, Pan.FrameKept q y.pan → Pan.FrameKept q (f y).pan) :
    State.Bears p q (s.modSite p f) := by
  obtain ⟨y, hy, ky⟩ := h
  rw [State.modSite_eq hy]
  exact SiteThat.putSite (k y ky)

theorem modSite_pan {f : Site → Site} (h : State.Bears p q s) (k : ∀ y : Site, (f y).pan = y.pan) : State.Bears p q (s.modSite p f) :=
  h.modSite (fun y ky => (k y).symm ▸ ky)

theorem put {x : Site} (k : Pan.FrameKept q x.pan) : State.Bears p q (s.putSite p x) := SiteThat.putSite k

theorem ite {c : Prop} {_ : Decidable c} {t u : State} (h : State.Bears p q t) (k : State.Bears p q u) :
    State.Bears p q (if c then t else u) := by
  split
  · exact h
  · exact k

theorem post (h : State.Bears p q s) (code : Nat) (pan : Option Nat) (flags : Byte) (data : List Byte) :
    State.Bears p q (s.post code pan flags data) := h.sites (State.post_eventful ..).sites

end State.Bears

/-! ### What the record takes at a frame's end -/

theorem Site.ite_pan {c : Prop} {_ : Decidable c} {x y : Site} {q : Pan} (h : x.pan = q) (k : y.pan = q) :
    (if c then x else y).pan = q := by
  split
  · exact h
  · exact k

theorem Site.ite_kept {c : Prop} {_ : Decidable c} {x y : Site} {q : Pan} (h : Pan.FrameKept q x.pan) (k : Pan.FrameKept q y.pan) :
    Pan.FrameKept q (if c then x else y).pan := by
  split
  · exact h
  · exact k

theorem Site.snapshot_pan (kpa conf : Byte) (x : Site) : (x.snapshot kpa conf).pan = x.pan := Site.ite_pan rfl rfl

theorem Site.queueRecords_pan (k : Nat) (pic : Picture) (ss : List (Nat × Int × Int)) (h : Option (BitVec 64)) (redo : Bool) (x : Site) :
    (x.queueRecords k pic ss h redo).pan = x.pan := Site.ite_pan rfl (Site.ite_pan rfl rfl)

theorem Site.nextTimes_pan (x : Site) : x.nextTimes.pan = x.pan := Site.ite_pan rfl rfl

theorem Site.openLog_pan (kpa conf : Byte) (now : Nat) (x : Site) : (x.openLog kpa conf now).pan = x.pan := Site.ite_pan rfl rfl

/-- The samples of the frame leave the image; what else the record takes leaves it. -/
theorem Site.endFrame_pan (kpa conf : Byte) (old : Pan) (redo : Bool) (x : Site) :
    (x.endFrame kpa conf old redo).pan = x.takeSamples.pan := by
  have delivered : ∀ (b : Bool) ss, (if b then x.takeSamples.deliverSamples old ss else x.takeSamples).pan = x.takeSamples.pan :=
    fun _ _ => Site.ite_pan rfl rfl
  have queued : ∀ (b : Bool) us k pic ss h,
      ((((if b then x.takeSamples.deliverSamples old us else x.takeSamples).snapshot kpa conf).prune).queueRecords k pic ss h redo).pan =
        x.takeSamples.pan :=
    fun b us k pic ss h => (Site.queueRecords_pan k pic ss h redo _).trans ((Site.snapshot_pan kpa conf _).trans (delivered b us))
  exact Site.ite_pan (queued _ _ _ _ _ _) (Site.ite_pan ((Site.nextTimes_pan _).trans (queued _ _ _ _ _ _))
    (Site.ite_pan (queued _ _ _ _ _ _) (queued _ _ _ _ _ _)))

/-! ### Each part of the frame's end leaves the image -/

section parts
variable {p : Nat} {q : Pan} {s : State}

theorem State.Bears.skipRecords (h : State.Bears p q s) : State.Bears p q (s.skipRecords p) :=
  h.modSite_pan (fun _ => Site.ite_pan rfl rfl)

theorem State.Bears.settleFrame (h : State.Bears p q s) : State.Bears p q (s.settleFrame p) := by
  obtain ⟨x, hx, k⟩ := id h
  rw [State.settleFrame, hx]
  dsimp only
  split
  · refine .ite (.skipRecords (.post (.put ?_) ..)) (.skipRecords (.put ?_))
    · exact k
    · exact k
  · exact h

theorem State.Bears.idlePan (h : State.Bears p q s) (hw : q.core.hcWait = false) : State.Bears p q (s.idlePan p) := by
  obtain ⟨x, hx, k⟩ := h
  obtain ⟨y, hy, idled⟩ := State.idlePan_site hx
  have waits : x.pan.core.hcWait = false := by rw [k]; exact hw
  have queue : Pan.FrameKept x.pan.uncalled (x.pan.uncalled.modMb (fun b => { b with queue := [] })) := rfl
  have kept := (k.trans (Pan.uncalled_kept waits)).trans queue
  exact ⟨y, hy, by rwa [← idled.image] at kept⟩

theorem State.Bears.stopsHere (h : State.Bears p q s) (hw : q.core.hcWait = false) (frame : Nat) :
    State.Bears p q (s.stopsHere p frame) := by
  have saved : State.Bears p q (s.finishSaves p) := h.sites (State.finishSaves_sites p s)
  obtain ⟨x, hx, -⟩ := id h
  rw [State.stopsHere, hx]
  dsimp only
  split
  · exact saved
  · have answered : ∀ (t : State) (ws : List Waiting), State.Bears p q t →
        State.Bears p q (ws.foldl (fun v w => v.finish w stOk []) t) := fun t ws ht =>
      ht.sites (State.foldl_sites (f := fun v w => v.finish w stOk []) (fun v w => State.finish_sites w stOk [] v) ws t)
    exact .ite (answered _ _ (State.Bears.idlePan (saved.settleFrame.sites rfl) hw)) saved

theorem State.Bears.waitsForRecords (h : State.Bears p q s) : State.Bears p q (s.waitsForRecords p) :=
  h.modSite_pan (fun _ => Site.ite_pan rfl rfl)

theorem State.abortHalts_site {x : Site} (h : s.site p = some x) :
    (s.abortHalts p).site p = some { x with plQ := x.plQ.filter (fun q => !q.kind.isHalt) } := by
  rw [State.abortHalts, h]
  exact State.site_putSite_same ..

theorem State.Bears.park (h : State.Bears p q s) (frame reason : Nat) (redo : Bool) : State.Bears p q (s.park p frame reason redo) := by
  obtain ⟨x, hx, k⟩ := h
  have aborted : State.Bears p q (s.abortHalts p) := ⟨_, State.abortHalts_site hx, k⟩
  rw [State.park, hx]
  refine State.Bears.post (aborted.modSite_pan ?_) ..
  exact fun _ => rfl

theorem State.Bears.parkOnError (h : State.Bears p q s) (frame : Nat) : State.Bears p q (s.parkOnError p frame) := by
  obtain ⟨x, hx, k⟩ := id h
  rw [State.parkOnError, hx]
  refine .ite (State.Bears.park (State.Bears.put ?_) ..) h
  exact k

theorem State.Bears.compareHash (h : State.Bears p q s) (frame : Nat) (v : BitVec 64) (redo : Bool) :
    State.Bears p q (s.compareHash p frame v redo) := by
  obtain ⟨x, hx, -⟩ := id h
  have spent : ∀ (t : State) (b : Bool) (f : Site → Site) flags data, (∀ y, (f y).pan = y.pan) → State.Bears p q t →
      State.Bears p q (if b then (t.modSite p f).post 0x0007 (some p) flags data else t) :=
    fun _ _ _ _ _ hf ht => .ite ((ht.modSite_pan hf).post ..) ht
  rw [State.compareHash, hx]
  refine spent _ _ _ _ _ (fun _ => rfl) ?_
  split
  · exact .ite h (.ite (State.Bears.park (h.post ..) ..) (h.post ..))
  · exact h

/-- A mode that takes over may end the call; the mode itself leaves the image. -/
theorem Site.newMode_pan {x : Site} {m : PanMode} {n : Nat} (h : x.modeReq = some (m, n)) (now w : Nat) :
    (x.newMode now w).pan = (if m = x.mode then x else x.endCall now).pan := by
  rw [Site.newMode, h]
  exact Site.ite_pan (Site.ite_pan rfl (Site.ite_pan rfl rfl)) (Site.ite_pan rfl rfl)

theorem Site.newMode_kept (now w : Nat) {x : Site} (h : x.pan.core.hcWait = false) : Pan.FrameKept x.pan (x.newMode now w).pan := by
  cases hr : x.modeReq with
  | none =>
    rw [Site.newMode, hr]
    exact .refl _
  | some r =>
    rw [Site.newMode_pan hr]
    split
    · exact .refl _
    · obtain ⟨logs, k, e⟩ := Site.endCall_eq now x
      rw [e]
      exact Pan.uncalled_kept h

theorem State.Bears.tidyPhase (h : State.Bears p q s) : State.Bears p q (s.tidyPhase p) :=
  h.modSite_pan (fun _ => Site.ite_pan rfl rfl)

theorem State.Bears.takeMode (h : State.Bears p q s) (hw : q.core.hcWait = false) : State.Bears p q (s.takeMode p) := by
  unfold State.takeMode
  refine State.Bears.tidyPhase (State.Bears.modSite (.ite h.settleFrame h) (fun y k => ?_))
  have waits : y.pan.core.hcWait = false := by rw [k]; exact hw
  have taken : ∀ now w kpa conf, Pan.FrameKept q ((y.newMode now w).openLog kpa conf now).pan :=
    fun now w kpa conf => (Site.openLog_pan kpa conf now _).symm ▸ k.trans (Site.newMode_kept now w waits)
  have swapped : ∀ z : Site, Pan.FrameKept z.pan z.swapOut.pan := fun _ => rfl
  exact Site.ite_kept ((taken _ _ _ _).trans (swapped _)) (taken _ _ _ _)

theorem Site.sweepLate_pan (old : Pan) (x : Site) : (x.sweepLate old).pan = x.pan := by
  have queued : ∀ (pl : Placement) (y : Site), (y.enqueue pl).pan = y.pan := by
    intro pl y
    unfold Site.enqueue
    split <;> rfl
  have late : ∀ pos pl (y : Site), (y.acceptLate pos pl).pan = y.pan := fun pos pl y => Site.ite_pan rfl (queued _ y)
  unfold Site.sweepLate
  exact List.foldlRecOn (motive := fun y : Site => y.pan = x.pan) _ _ rfl (fun y e pl _ => (late _ pl (y.unqueue pl)).trans e)

theorem State.Bears.sweepLate (h : State.Bears p q s) (old : Pan) : State.Bears p q (s.sweepLate p old) := by
  obtain ⟨x, hx, k⟩ := h
  rw [State.sweepLate, hx]
  exact .put ((Site.sweepLate_pan old x).symm ▸ k)

/-- The device's part of a frame's end leaves the image but for what `Pan.FrameKept` names. -/
theorem State.frameDone_bears {x : Site} (hx : s.site p = some x) (hw : x.pan.core.hcWait = false) (old : Pan) :
    State.Bears p x.pan (s.frameDone p old false) := by
  have ended : Pan.FrameKept x.pan (x.endFrame s.kpa s.conf old false).pan := by
    rw [Site.endFrame_pan]
    rfl
  have taken : State.Bears p x.pan (((s.putSite p (x.endFrame s.kpa s.conf old false)).sweepLate p old).takeMode p) :=
    ((State.Bears.put ended).sweepLate old).takeMode hw
  have hashed : ∀ t, State.Bears p x.pan t → ∀ (c : Prop) [Decidable c] v,
      State.Bears p x.pan (if c then t else t.compareHash p old.frame v false) := fun t ht c _ v => .ite ht (ht.compareHash ..)
  rw [State.frameDone, hx]
  dsimp only
  rw [if_neg (by decide), if_neg (by decide)]
  refine State.Bears.stopsHere (.parkOnError (.waitsForRecords ?_) _) hw _
  split
  · exact hashed _ taken _ _
  · exact taken

/-- A step of the image that ends a frame and hands nothing on. -/
theorem State.panStep_frameDone {x : Site} {f : Pan → Option Pan} {r : Pan} (h : s.liveSite p = some x) (e : f x.pan = some r)
    (ho : r.out = []) (hs : r.crust.served = 0) (hf : x.pan.frame < r.frame) (hw : r.core.hcWait = false) :
    ∃ t, s.panStep p f = .next t ∧ State.Bears p r t := by
  let u := s.putSite p { x with pan := r, dirty := true }
  have there : u.site p = some { x with pan := r, dirty := true } := State.site_putSite_same ..
  have same : ({ r with out := [] } : Pan) = r := by rw [← ho]
  have flushed : ((u.crystallize p).flush p false).site p = some ({ x with pan := r, dirty := true } : Site).settleCredits := by
    rw [State.crystallize_none there hs, State.flush, there]
    dsimp only
    rw [ho]
    refine (State.site_putSite_same ..).trans (congrArg some ?_)
    exact congrArg (fun q => { ({ x with pan := r, dirty := true } : Site).settleCredits with pan := q }) same
  have ends : (((u.crystallize p).flush p false).site p).any (fun y => decide (x.pan.frame < y.pan.frame)) = true := by
    rw [flushed]
    exact decide_eq_true hf
  refine ⟨u.afterPan p x.pan false, by simp only [State.panStep, h, e, u], ?_⟩
  rw [State.afterPan, if_pos ends]
  exact State.frameDone_bears flushed hw x.pan

end parts

/-- The frame of a LOCKED pan ends, and its record bears the image the next frame begins with. -/
theorem State.Advances.frameEnd {s : State} {p : PanNo} {x : Site} (a : State.Advances s p x) (he : x.pan.cfg.elastic = false)
    (hc : x.pan.comes x.pan.frameEndAt = true) : ∃ t y, exec (.frameEnd p) s = .next t ∧ t.site p = some y ∧
      Pan.FrameBegun (x.pan.upTo x.pan.frameEndAt).settle y.pan := by
  have b := Pan.endFrame_begun (x.pan.upTo x.pan.frameEndAt).settle
  have core : (x.pan.upTo x.pan.frameEndAt).settle.core = x.pan.core := by rw [Pan.upTo_settle_paced]
  obtain ⟨t, ht, y, hy, k⟩ := State.panStep_frameDone a.live (Pan.frameEndStep_ends he hc) (by simp [b.out, a.out])
    (by simp [b.served, a.served]) (by simp [b.frame]) (by rw [b.core, core]; exact a.hcWait)
  exact ⟨t, y, ht, hy, b.kept k⟩

/-- Settles O29: an entry of a raster table is `Pan.rtWrite`; the end of a LOCKED frame is `Pan.endFrame`, of which the device's part
leaves all but what `Pan.FrameKept` names; and a blank line that R105 lets go on adds one. -/
theorem framesEnd : Obligations.FramesEnd := by
  unfold Obligations.FramesEnd
  intro p
  refine ⟨?_, fun s x a he hc => ?_, ?_⟩
  · intro n line start wide addr byte put tgt last wrote
    have writes : wrote = Pan.rtWrote n := rfl
    have ends : last = Pan.rtLast n := rfl
    refine event_of (F := Pan.rtStep n) (fun _ => rfl) (fun q hc => ?_) (fun q _ => ?_)
    · have active : q.rtActive n = true := hc
      rw [Pan.rtStep, if_pos active, writes, ends]
      exact congrArg (fun f => q.at (q.rtAt n + 1) f) (funext (fun r => Pan.rtWrite_eq n r))
    · rw [writes, ends]
      exact Pan.rtWrote_hushes n _
  · have at_ : x.pan.frameEndAt = x.pan.frameStart + x.pan.ras.frameVt * x.pan.cpl := by rw [Pan.frameEndAt, he]; rfl
    rw [← at_] at hc ⊢
    obtain ⟨t, y, ht, hy, b⟩ := a.frameEnd he hc
    have paced := Pan.upTo_settle_paced x.pan.frameEndAt x.pan
    have start : (x.pan.upTo x.pan.frameEndAt).settle.frameEndAt = x.pan.frameEndAt := by rw [paced]; rfl
    have frame : (x.pan.upTo x.pan.frameEndAt).settle.frame = x.pan.frame := by rw [paced]
    have force : (x.pan.upTo x.pan.frameEndAt).settle.ras.force = x.pan.ras.force := by rw [paced]
    have sys : (x.pan.upTo x.pan.frameEndAt).settle.sys = x.pan.sys := by rw [paced]
    have cpu : (x.pan.upTo x.pan.frameEndAt).settle.cpu = x.pan.cpu := by rw [paced]
    exact ⟨t, y, ht, hy, by rw [b.frame, frame], by rw [b.start, start], by rw [b.lines, force], b.vblank, b.latch, b.stores,
      by rw [b.sys, sys], by rw [b.cpu, cpu], by rw [b.cpu, cpu], by rw [b.cpu, cpu]⟩
  · exact frameEnd_continues p

end Sys2Proof.Machine
end

section
/-!
The sound tick (R162): `Pan.soundStep` hands the ticked image to `Pan.lowAfter` as the image before, and the image before as the one after,
so that `SOUND_TICK` moves no voice, no mix value and not even the tick's own count. The statement asks for the tick, and fails.
-/
namespace Sys2Proof.Machine

/-- A record written determines the image in it. -/
theorem State.withPan_inj {p : Nat} {x : Site} {q r : Pan} {s : State} (h : s.withPan p x q = s.withPan p x r) : q = r := by
  have sites := congrArg (fun t : State => (t.site p).map Site.pan) h
  rw [State.site_withPan, State.site_withPan] at sites
  exact Option.some.inj sites

/-- A sound tick that comes leaves every unit but the interrupt controller as it is then. -/
theorem Pan.soundStep_unmoved {p : Pan} (h : p.comes p.snd.tickAt = true) :
    ∃ c, p.soundStep = some { p.upTo p.snd.tickAt with ic := c } := by
  refine ⟨(Pan.lowAfter (p.upTo p.snd.tickAt).soundTick (p.upTo p.snd.tickAt)).ic, ?_⟩
  rw [← Pan.lowAfter_ic]
  exact Pan.at_comes h

theorem exec_soundTick_unmoved {s : State} {p : PanNo} {x : Site} (a : State.Advances s p x)
    (h : x.pan.comes x.pan.snd.tickAt = true) :
    ∃ c, exec (.soundTick p) s = .next (s.withPan p x { x.pan.upTo x.pan.snd.tickAt with ic := c }) := by
  obtain ⟨c, unmoved⟩ := Pan.soundStep_unmoved h
  refine ⟨c, State.panStep_quiet a.live unmoved ⟨?_, ?_, ?_⟩⟩
  · exact (Pan.upTo_out _ _).trans a.out
  · exact (Pan.upTo_frame _ _).le
  · exact (Pan.upTo_served _ _).trans a.served

/-! ### A pan with a sound tick due -/

/-- A pan of profile P1 whose first 16 pan-cycles have run, so that its first sound tick is due. -/
def tickingPan : Pan :=
  { Pan.reset { profile := 1, fp := 266666667, lb := 262, elastic := false, titleId := 0, minKpa := 2, rewindFlag := true, romLen := 4096,
                rom := [], cramSize := 8192, mediaLen := 256 } 0 [] [] with clk := 16 }

/-- Its record, running in FREE. -/
def tickingSite : Site := { Site.create tickingPan 0 0 0 with mode := .free, slot := some 0, boiler := some 0 }

/-- The device out of reset with that pan on its first boiler. -/
def tickingState : State :=
  { State.reset with pwr := { State.reset.pwr with sysRst := false }, tb := { State.reset.tb with counting := true },
                     sites := [(0, tickingSite)] }

theorem tickingState_advances : State.Advances tickingState 0 tickingSite where
  out := rfl
  abort := rfl
  served := rfl
  live := by
    have there : tickingState.site 0 = some tickingSite := rfl
    have runs : tickingState.runs tickingSite = true := by decide
    rw [State.liveSite, there, Option.filter_some, if_pos runs]

/-- Refutes O31: with the first sound tick due in `tickingState`, `SOUND_TICK` leaves the next one at pan-cycle count 16, where the
statement has it at 32. -/
theorem not_voicesSound : ¬ Obligations.VoicesSound := by
  unfold Obligations.VoicesSound
  intro h
  obtain ⟨ticks, -⟩ := h 0
  have due : tickingPan.comes tickingPan.snd.tickAt = true := by decide
  obtain ⟨q, ticked, moved, -⟩ := ticks tickingState tickingSite tickingState_advances due
  obtain ⟨c, stays⟩ := exec_soundTick_unmoved tickingState_advances due
  have same := State.withPan_inj (Host.Outcome.next.inj (ticked.symm.trans stays))
  rw [same] at moved
  exact absurd (show 16 = 32 from moved) (by decide)

end Sys2Proof.Machine
end

section
/-!
SUPPORT. Slots (R183 to R186, R194): what a pan read into a slot and one that leaves it are, when each row does so, and why the pan that
gives way is there.
-/
namespace Sys2Proof.Machine

/-! ### The record -/

/-- A pan read into a slot: its image is the one in DRAM, nothing of it dirty (R184). -/
theorem Site.swapIn_reads (k now : Nat) (x : Site) : let y := x.swapIn k now
    y.slot = some k ∧ y.swappedAt = now ∧ y.resFrames = 0 ∧ y.dirtyGrains = [] ∧ y.heap.written = some x.pan.stored ∧
      y.pan = { x.pan with dirty := [] } ∧ y.mode = x.mode ∧ y.boiler = x.boiler :=
  ⟨rfl, rfl, rfl, rfl, rfl, rfl, rfl, rfl⟩

/-- A pan that leaves its slot: its dirty grains lie over the image in DRAM (R184). -/
theorem Site.swapOut_writesBack (x : Site) : let y := x.swapOut
    y.slot = none ∧ y.resFrames = 0 ∧ y.dirtyGrains = [] ∧
      y.heap.written = some (x.pan.overlay x.dirtyGrains (x.heap.written.getD x.pan)) ∧ y.pan = { x.pan with dirty := [] } ∧
      y.mode = x.mode :=
  ⟨rfl, rfl, rfl, rfl, rfl, rfl⟩

/-! ### The pan that gives way (R185) -/

theorem Table.get_isSome_of_mem {α : Type} {k : Nat} {v : α} : ∀ {t : Table α}, (k, v) ∈ t → (Table.get t k).isSome = true
  | c :: t, h => by
    simp only [Table.get]
    split
    · rfl
    · next other =>
      rcases List.mem_cons.mp h with rfl | rest
      · exact absurd rfl other
      · exact Table.get_isSome_of_mem rest

/-- The pan that gives way is one of the device's. -/
theorem State.victim_site {s : State} {bay : Fin 8} {v : Nat} (h : s.victim bay = some v) : ∃ y, s.site v = some y := by
  have there : ∀ n, s.victim bay = some n → (s.site n).isSome = true := by
    unfold State.victim
    refine List.foldlRecOn (motive := fun o : Option Nat => ∀ n, o = some n → (s.site n).isSome = true) _ _
      (fun n h => by cases h) (fun o ih e he n hn => ?_)
    have own : (s.site e.1).isSome = true := by
      have pans := (List.mem_filter.mp he).1
      exact Table.get_isSome_of_mem (List.mem_filter.mp pans).1
    cases o with
    | none => cases hn; exact own
    | some m =>
      dsimp only at hn
      split at hn
      · exact ih n hn
      · cases hn; exact own
  exact Option.isSome_iff_exists.mp (there v h)

/-! ### The rows -/

theorem Site.running_of_realTime {x : Site} (h : x.realTime = true) : x.running = true := by rw [Site.running, h, Bool.true_or]

theorem Site.parked_of_canRun {x : Site} (h : x.canRun = true) : x.parked = false := by
  simp only [Site.canRun, Bool.and_eq_true, Bool.not_eq_true'] at h
  obtain ⟨⟨⟨⟨⟨-, parked⟩, -⟩, -⟩, -⟩, -⟩ := h
  exact parked

/-- The device as a real-time pan's image may be read at the earliest: E − W has come, and the runs over by then have ended. -/
def State.atBurst (s : State) (x : Site) : State := (s.reach (s.burstFrom x)).endRuns

section
variable {s : State} {p : PanNo} {k : Fin 32} {x : Site} (hx : s.site p = some x) (he : s.engines = true) (hs : x.slot = none)
include hx he hs

/-- A real-time pan is read into a slot that is free. -/
theorem exec_swapIn_free (rt : x.realTime = true) (hp : x.parked = false) (hw : x.wantsBurst = true) (hr : s.rtSlots x.bay < 24)
    (hk : s.slotOf x.bay k.val = none) :
    exec (.swapIn p k) s = .next ((s.atBurst x).putSite p (x.swapIn k.val (s.atBurst x).now)) := by
  change execSwapIn p k s = _
  simp only [execSwapIn, hx, he, hs, Site.running_of_realTime rt, hp, rt, hw, decide_eq_false (Nat.not_le.mpr hr), hk]
  rfl

/-- Or into the slot of the free-run pan that gives way, where every slot is taken. -/
theorem exec_swapIn_evicts {v : Nat} {z : Site} (rt : x.realTime = true) (hp : x.parked = false) (hw : x.wantsBurst = true)
    (hr : s.rtSlots x.bay < 24) (hk : s.slotOf x.bay k.val = some (v, z)) (hf : s.slotsFull x.bay = true)
    (hv : (s.atBurst x).victim x.bay = some v) :
    exec (.swapIn p k) s =
      .next (((s.atBurst x).modSite v Site.swapOut).putSite p (x.swapIn k.val (s.atBurst x).now)) := by
  have gives : ((s.reach (s.burstFrom x)).endRuns.victim x.bay == some v) = true := beq_iff_eq.mpr hv
  change execSwapIn p k s = _
  simp only [execSwapIn, hx, he, hs, Site.running_of_realTime rt, hp, rt, hw, decide_eq_false (Nat.not_le.mpr hr), hk, hf, gives]
  rfl

/-- A free-run pan is read in its turn and at once. -/
theorem exec_swapIn_turn (hc : x.canRun = true) (rt : x.realTime = false) (run : x.running = true)
    (hn : s.swapNext x.bay = some p) (hk : s.slotOf x.bay k.val = none) :
    exec (.swapIn p k) s = .next (s.putSite p (x.swapIn k.val s.now)) := by
  have turn : (s.swapNext x.bay == some p) = true := beq_iff_eq.mpr hn
  change execSwapIn p k s = _
  simp only [execSwapIn, hx, he, hs, run, Site.parked_of_canRun hc, rt, turn, hk]
  rfl

end

/-- A pan leaves its slot at the time it may. -/
theorem exec_swapOut_leaves {s : State} {p : PanNo} {x : Site} {t : Nat} (hx : s.site p = some x) (he : s.engines = true)
    (ht : s.leavesAt x = some t) : exec (.swapOut p) s = .next ((s.reach t).putSite p x.swapOut) := by
  change execSwapOut p s = _
  simp only [execSwapOut, hx, ht, he, if_true]

section
variable {s : State} {x : Site} (hs : x.slot.isSome = true) (hb : x.boiler = none)
include hs hb

/-- A pan in a slot and on no boiler may leave as its class says. -/
theorem State.leavesAt_eq : s.leavesAt x =
    if x.realTime then (if x.burst || x.resFrames == 0 then none else some s.now)
    else if decide (s.dev.batch ≤ x.resFrames) || x.waitObs then some s.now
    else if x.pan.core.hcWait then x.callOut.map (fun c => c.posted + 1600000) else none := by
  have free : (x.boiler.isSome || x.slot.isNone) = false := by rw [hb]; simpa using hs
  rw [State.leavesAt, free]
  rfl

theorem State.leavesAt_burst (rt : x.realTime = true) (hu : x.burst = false) (hr : 0 < x.resFrames) : s.leavesAt x = some s.now := by
  have held : (x.burst || x.resFrames == 0) = false := by simp [hu]; omega
  rw [State.leavesAt_eq hs hb, rt, held]
  rfl

theorem State.leavesAt_batch (rt : x.realTime = false) (h : s.dev.batch ≤ x.resFrames ∨ x.waitObs = true) :
    s.leavesAt x = some s.now := by
  have done : (decide (s.dev.batch ≤ x.resFrames) || x.waitObs) = true := by simpa using h
  rw [State.leavesAt_eq hs hb, rt, done]
  rfl

theorem State.leavesAt_call {c : CallOut} (rt : x.realTime = false) (hr : x.resFrames < s.dev.batch) (hw : x.waitObs = false)
    (hc : x.pan.core.hcWait = true) (ho : x.callOut = some c) : s.leavesAt x = some (c.posted + 1600000) := by
  have on : (decide (s.dev.batch ≤ x.resFrames) || x.waitObs) = false := by simp [hw, hr]
  rw [State.leavesAt_eq hs hb, rt, on, hc, ho]
  rfl

end

end Sys2Proof.Machine
end

section
/-!
Slots (R183 to R186, R194): the statement, from what each row leaves.
-/
namespace Sys2Proof.Machine

/-- Settles O34: a pan read in or out is its record put, with device time moved up to the instant it may be; the pan that gives way is
one of the device's, and leaves as any other. -/
theorem slotsSwap : Obligations.SlotsSwap := by
  unfold Obligations.SlotsSwap
  intro s p x w taken left then_
  refine ⟨?_, ?_, ?_, ?_, ?_, ?_⟩
  -- into a slot
  · intro k hx he hs rt hp hw hr hk
    exact ⟨_, exec_swapIn_free hx he hs rt hp hw hr hk, rfl, .putSite (Site.swapIn_reads ..)⟩
  · intro k v z hx he hs rt hp hw hr hk hf hv other
    obtain ⟨y, hy⟩ := State.victim_site hv
    refine ⟨_, exec_swapIn_evicts hx he hs rt hp hw hr hk hf hv, .putSite (Site.swapIn_reads ..), y.swapOut, ?_, rfl, rfl⟩
    have there : (s.atBurst x).site v = some y := hy
    rw [State.site_putSite_other other, State.modSite_eq there, State.site_putSite_same]
  · intro k hx he hs hc rt run hn hk
    exact ⟨_, exec_swapIn_turn hx he hs hc rt run hn hk, rfl, .putSite (Site.swapIn_reads ..)⟩
  -- out of it
  · intro hx he hs hb rt hu hr
    exact ⟨_, exec_swapOut_leaves hx he (State.leavesAt_burst hs hb rt hu hr), Timebase.moveTo_past le_rfl,
      .putSite (Site.swapOut_writesBack x)⟩
  · intro hx he hs hb rt h
    exact ⟨_, exec_swapOut_leaves hx he (State.leavesAt_batch hs hb rt h), Timebase.moveTo_past le_rfl,
      .putSite (Site.swapOut_writesBack x)⟩
  · intro c hx he hs hb rt hr hw hc ho
    exact ⟨_, exec_swapOut_leaves hx he (State.leavesAt_call hs hb rt hr hw hc ho), rfl, .putSite (Site.swapOut_writesBack x)⟩

end Sys2Proof.Machine
end

section
/-!
SUPPORT. The event controller under events (R332 to R334): a source that is masked and pending stays so, whatever is raised or delivered,
and a raise makes it pending.
-/
namespace Sys2Proof.Machine

/-! ### Masked sources stay pending -/

theorem setBit_other {w : Nat} (x : BitVec w) {i n : Nat} (b : Bool) (h : n ≠ i) : (setBit x i b).getLsbD n = x.getLsbD n := by
  have unset : (1#w <<< i).getLsbD n = false := by
    rw [BitVec.getLsbD_shiftLeft]
    by_cases below : n < i
    · simp [below]
    · have beyond : n - i ≠ 0 := by omega
      simp [beyond]
  by_cases hn : n < w
  · cases b <;> simp only [setBit, Bool.false_eq_true, if_true, if_false, BitVec.getLsbD_and, BitVec.getLsbD_or, BitVec.getLsbD_not, unset,
      hn, decide_true, Bool.not_false, Bool.and_true, Bool.or_false]
  · rw [BitVec.getLsbD_of_ge _ _ (by omega), BitVec.getLsbD_of_ge _ _ (by omega)]

theorem setBit_same {w : Nat} (x : BitVec w) {i : Nat} (h : i < w) : (setBit x i true).getLsbD i = true := by
  simp [setBit, h]

/-- The same sources are enabled, and those that are masked and pending still are. -/
structure Evc.Holds (e f : Evc) : Prop where
  en : f.en = e.en
  pend : ∀ n, e.en.getLsbD n = false → e.pend.getLsbD n = true → f.pend.getLsbD n = true

namespace Evc.Holds

variable {e f g : Evc}

theorem refl (e : Evc) : Evc.Holds e e := ⟨rfl, fun _ _ h => h⟩

theorem trans (h : Evc.Holds e f) (k : Evc.Holds f g) : Evc.Holds e g :=
  ⟨k.en.trans h.en, fun n hn hp => k.pend n (by rwa [h.en]) (h.pend n hn hp)⟩

end Evc.Holds

theorem Evc.message_holds (v : BitVec 11) (e : Evc) : Evc.Holds e (e.message v) := by
  unfold Evc.message
  split <;> exact ⟨rfl, fun _ _ h => h⟩

/-- Only an enabled source is delivered. -/
theorem Evc.deliverOne_holds (src : Nat) (e : Evc) : Evc.Holds e (e.deliverOne src) := by
  unfold Evc.deliverOne
  split
  · next due =>
    have cleared : Evc.Holds e { e with pend := setBit e.pend src false } := by
      refine ⟨rfl, fun n masked pending => ?_⟩
      have other : n ≠ src := by
        rintro rfl
        simp [masked] at due
      exact (setBit_other e.pend false other).trans pending
    exact cleared.trans (Evc.message_holds _ _)
  · exact .refl e

theorem Evc.deliver_holds (now : Nat) (g : Fin 16) (e : Evc) : Evc.Holds e (e.deliver now g) := by
  unfold Evc.deliver
  split
  · have delivered := List.foldlRecOn (motive := Evc.Holds e) (List.range 16) (fun c k => c.deliverOne (16 * g.val + k)) (.refl e)
      (fun c h k _ => h.trans (Evc.deliverOne_holds _ c))
    exact delivered.trans ⟨rfl, fun _ _ h => h⟩
  · exact .refl e

theorem Evc.raise_holds (now src : Nat) (e : Evc) : Evc.Holds e (e.raise now src) := by
  unfold Evc.raise
  split
  · have set : Evc.Holds e { e with pend := setBit e.pend src true } := by
      refine ⟨rfl, fun n _ pending => ?_⟩
      by_cases h : n = src
      · subst h
        refine setBit_same e.pend (Nat.lt_of_not_le fun out => ?_)
        rw [BitVec.getLsbD_of_ge _ _ out] at pending
        cases pending
      · exact (setBit_other e.pend true h).trans pending
    exact set.trans (Evc.deliver_holds _ _ _)
  · exact .refl e

/-! ### On the device -/

/-- Events of the device leave the masked sources that are pending so. -/
def State.Holds (s t : State) : Prop := Evc.Holds s.evc t.evc

namespace State.Holds

variable {s t u : State}

theorem refl (s : State) : State.Holds s s := Evc.Holds.refl _
theorem trans (h : State.Holds s t) (k : State.Holds t u) : State.Holds s u := Evc.Holds.trans h k
theorem of_evc (h : t.evc = s.evc) : State.Holds s t := by rw [State.Holds, h]; exact .refl _

theorem raised {n : Nat} (h : State.Holds s t) (k : Raised n s) : Raised n t := fun masked => by
  rw [h.en] at masked
  exact h.pend n masked (k masked)

end State.Holds

theorem State.raise_holds (n : Nat) (s : State) : State.Holds s (s.raise n) := Evc.raise_holds s.now n s.evc

/-- A source just raised is pending where it is masked. -/
theorem State.raise_raised {n : Nat} (h : evcRaisable n = true) (s : State) : Raised n (s.raise n) := by
  have inRange : n < 256 := by
    simp only [evcRaisable, Bool.and_eq_true, decide_eq_true_eq] at h
    exact h.1
  intro masked
  have kept := Evc.deliver_holds s.now (evcGroup n) { s.evc with pend := setBit s.evc.pend n true }
  have e : (s.raise n).evc = ({ s.evc with pend := setBit s.evc.pend n true } : Evc).deliver s.now (evcGroup n) := by
    rw [State.raise_evc, Evc.raise, if_pos h]
  rw [e] at masked ⊢
  rw [kept.en] at masked
  exact kept.pend n masked (setBit_same _ inRange)

theorem State.moderate_holds (n : Nat) (s : State) : State.Holds s (s.moderate n) := by
  unfold State.moderate
  split
  · split
    · exact State.raise_holds _ (s.putRing n _)
    · exact .refl s
  · exact .refl s

theorem State.pushEntry_holds (n : Nat) (entry : List Byte) (s : State) : State.Holds s (s.pushEntry n entry) := by
  unfold State.pushEntry
  split
  · exact .refl s
  · refine State.Holds.trans (.of_evc ?_) (State.moderate_holds n _)
    rfl

theorem State.closeOn_holds (n : Nat) (s : State) : State.Holds s (s.closeOn n) := by
  unfold State.closeOn
  split <;> exact .of_evc rfl

theorem State.writeCpl_holds (h : HeldCpl) (s : State) : State.Holds s (s.writeCpl h) := by
  unfold State.writeCpl
  split
  · split <;> exact .of_evc rfl
  · exact State.pushEntry_holds _ _ s

theorem State.complete_holds (c : Packet) (cpl op st : Nat) (res : List Byte) (s : State) :
    State.Holds s (s.complete c cpl op st res) := by
  rw [State.complete_eq]
  split
  · exact State.closeOn_holds _ s
  · exact (State.closeOn_holds _ s).trans (State.writeCpl_holds _ _)

theorem State.bitternWrite_holds (entry : List Byte) (s : State) : State.Holds s (s.bitternWrite entry) := by
  unfold State.bitternWrite
  split
  · split
    · exact (State.pushEntry_holds _ entry s).trans (.of_evc rfl)
    · exact .of_evc rfl
  · exact .of_evc rfl

/-- An event lost under a key. -/
def State.countLost (key : Nat) (s : State) : State := { s with evtLost := Table.put s.evtLost key ((Table.get s.evtLost key).getD 0 + 1) }

theorem State.loseEvent_eq (key : Nat) (ev : List Byte) (fault : Bool) (s : State) : s.loseEvent key ev fault =
    if fault then ((s.countLost key).raise 10).bitternWrite
      (bitternRecord 0x10 0xFF 0xFFFF 0 s.now (slice ev 0 8 ++ slice ev 16 40)) else (s.countLost key).raise 10 := rfl

theorem State.loseEvent_holds (key : Nat) (ev : List Byte) (fault : Bool) (s : State) : State.Holds s (s.loseEvent key ev fault) := by
  have lost : State.Holds s ((s.countLost key).raise 10) := State.raise_holds 10 (s.countLost key)
  rw [State.loseEvent_eq]
  split
  · exact lost.trans (State.bitternWrite_holds _ _)
  · exact lost

/-- A lost event raises source 10 (R341). -/
theorem State.loseEvent_raised (key : Nat) (ev : List Byte) (fault : Bool) (s : State) : Raised 10 (s.loseEvent key ev fault) := by
  have raised : Raised 10 ((s.countLost key).raise 10) := State.raise_raised rfl _
  rw [State.loseEvent_eq]
  split
  · exact (State.bitternWrite_holds _ _).raised raised
  · exact raised

theorem State.writeLost_holds (n : Nat) (s : State) : State.Holds s (s.writeLost n) := by
  unfold State.writeLost
  split
  · exact State.pushEntry_holds n _ { s with evtLost := Table.drop (Table.drop s.evtLost n) noRing }
  · exact .refl s

theorem State.post_holds (code : Nat) (pan : Option Nat) (flags : Byte) (data : List Byte) (s : State) :
    State.Holds s (s.post code pan flags data) := by
  unfold State.post
  split
  · exact State.loseEvent_holds _ _ _ s
  · next n _ =>
    refine (State.writeLost_holds n s).trans ?_
    dsimp only
    split
    · exact State.pushEntry_holds _ _ _
    · exact State.loseEvent_holds _ _ _ _

end Sys2Proof.Machine
end

section
/-!
SUPPORT. Halts, parks, store errors and the microcode switch (R195, R197, R202, R203): what each leaves of the pan's record, and that
commands that end leave device time alone.
-/
namespace Sys2Proof.Machine

/-! ### Commands that end leave device time alone -/

theorem State.foldl_tb {α : Type} {f : State → α → State} (h : ∀ s a, (f s a).tb = s.tb) (l : List α) (s : State) :
    (l.foldl f s).tb = s.tb :=
  List.foldlRecOn (motive := fun t : State => t.tb = s.tb) l f rfl (fun t e a _ => (h t a).trans e)

theorem State.modSite_tb (p : Nat) (f : Site → Site) (s : State) : (s.modSite p f).tb = s.tb := by
  unfold State.modSite
  split <;> rfl

theorem State.partDone_tb (t status : Nat) (s : State) : (s.partDone t status).tb = s.tb := by
  unfold State.partDone
  cases Table.get s.commits t with
  | none => rfl
  | some m =>
    refine (apply_ite State.tb _ _ _).trans ?_
    rw [(State.complete_eventful _ _ _ _ _ _).tb]
    exact ite_self _

theorem State.finish_tb (w : Waiting) (status : Nat) (res : List Byte) (s : State) : (s.finish w status res).tb = s.tb := by
  unfold State.finish
  split
  · exact State.partDone_tb _ _ _
  · exact (State.complete_eventful _ _ _ _ _ _).tb

theorem State.finishHalt_tb (q : Pan) (status : Nat) (met : Bool) (pl : Placement) (s : State) :
    (s.finishHalt q status met pl).tb = s.tb := by
  unfold State.finishHalt
  split
  · exact (State.complete_eventful _ _ _ _ _ _).tb
  · rfl

theorem State.saveTo_tb (q : Snapshot) (c : Packet) (s : State) : (s.saveTo q c).tb = s.tb := by
  rw [State.saveTo_eq]

theorem State.finishSaves_tb (p : Nat) (s : State) : (s.finishSaves p).tb = s.tb := by
  unfold State.finishSaves
  split
  · rfl
  · exact State.foldl_tb (fun t w => (State.finish_tb w _ _ _).trans (State.saveTo_tb _ _ t)) _ _

theorem State.skipRecords_tb (p : Nat) (s : State) : (s.skipRecords p).tb = s.tb := State.modSite_tb p _ s

theorem State.settleFrame_tb (p : Nat) (s : State) : (s.settleFrame p).tb = s.tb := by
  unfold State.settleFrame
  split
  · rfl
  · dsimp only
    split
    · split
      · exact (State.skipRecords_tb _ _).trans (State.post_eventful ..).tb
      · exact State.skipRecords_tb _ _
    · rfl

/-! ### A frame settled (R191) -/

/-- A record that differs in nothing but what the judgement of its frame moves: counters, frames, and what is owed of them. -/
def Site.FrameJudged (x y : Site) : Prop :=
  y = { x with ctr := y.ctr, newFrame := y.newFrame, endedE := y.endedE, lastFrame := y.lastFrame, prevFrame := y.prevFrame,
               lastEnd := y.lastEnd, audio := y.audio, stream := y.stream, obsQ := y.obsQ, gap := y.gap }

theorem Site.FrameJudged.refl (x : Site) : x.FrameJudged x := rfl

theorem Site.FrameJudged.trans {x y z : Site} (h : x.FrameJudged y) (k : y.FrameJudged z) : x.FrameJudged z :=
  Eq.trans k (by rw [h])

theorem State.skipRecords_site {s : State} {p : Nat} {x : Site} (hx : s.site p = some x) :
    SiteThat (s.skipRecords p) p x.FrameJudged := by
  rw [State.skipRecords, State.modSite_eq hx]
  refine SiteThat.putSite ?_
  split <;> rfl

theorem State.settleFrame_site {s : State} {p : Nat} {x : Site} (hx : s.site p = some x) :
    SiteThat (s.settleFrame p) p x.FrameJudged := by
  have skipped : ∀ {t : State} {y : Site}, t.site p = some y → x.FrameJudged y → SiteThat (t.skipRecords p) p x.FrameJudged :=
    fun ht h => by
      obtain ⟨z, hz, k⟩ := State.skipRecords_site ht
      exact ⟨z, hz, h.trans k⟩
  rw [State.settleFrame, hx]
  dsimp only
  split
  · split
    · refine skipped ((State.site_post ..).trans (State.site_putSite_same ..)) ?_
      rfl
    · refine skipped (State.site_putSite_same ..) ?_
      rfl
  · exact ⟨x, hx, .refl x⟩

/-! ### A halt reached (R197) -/

/-- An idling pan carried up to a halt is the same but for its image, whose registers stand (R38). -/
theorem Site.haltReach_eq (x : Site) : ∃ q, x.haltReach = { x with pan := q } ∧ q.cpu = x.pan.cpu := by
  unfold Site.haltReach
  refine List.foldlRecOn (motive := fun y : Site => ∃ q, y = { x with pan := q } ∧ q.cpu = x.pan.cpu) _ _ ⟨x.pan, rfl, rfl⟩ ?_
  rintro y ⟨q, rfl, hq⟩ e -
  split
  · refine ⟨_, rfl, ?_⟩
    unfold Pan.reach
    dsimp only
    split
    · exact (Pan.settle_cpu q).trans hq
    · exact hq
  · exact ⟨q, rfl, hq⟩

theorem State.endHalt_keeps (x : Site) (s : State) (pl : Placement) :
    (State.endHalt x s pl).sites = s.sites ∧ (State.endHalt x s pl).tb = s.tb := by
  have ended : ∀ st met, (s.finishHalt x.pan st met pl).sites = s.sites ∧ (s.finishHalt x.pan st met pl).tb = s.tb :=
    fun _ _ => ⟨State.finishHalt_sites .., State.finishHalt_tb ..⟩
  unfold State.endHalt
  split
  · split <;> exact ended _ _
  · exact ended _ _

theorem exec_haltReached {s : State} {p : PanNo} {x z : Site} (hx : s.site p = some x) (hz : z = if s.runs x then x.haltReach else x)
    (hr : z.running = true) (hh : z.haltsHere = true) : exec (.haltReached p) s =
      .next (z.halts.foldl (State.endHalt z) ((((s.putSite p z).settleFrame p).finishSaves p).modSite p Site.haltNow)) := by
  change execHaltReached p s = _
  simp only [execHaltReached, hx, ← hz, hr, hh, Bool.and_self, if_true]

/-- No halt waits in a queue they have been taken out of. -/
theorem Site.halts_filtered {x y : Site} (h : y.plQ = x.plQ.filter (fun q => !q.kind.isHalt)) : y.halts = [] := by
  simp [Site.halts, h, List.filter_filter]

/-- The device once the frame of the pan put is settled, its saves have ended and it is halted. -/
theorem State.haltNow_site {s : State} {p : Nat} (z : Site) :
    SiteThat ((((s.putSite p z).settleFrame p).finishSaves p).modSite p Site.haltNow) p
      (fun y => ∃ u, z.FrameJudged u ∧ y = u.haltNow) := by
  obtain ⟨u, hu, judged⟩ := State.settleFrame_site (State.site_putSite_same p z s)
  have there : (((s.putSite p z).settleFrame p).finishSaves p).site p = some u := by
    rw [State.site, State.finishSaves_sites]
    exact hu
  rw [State.modSite_eq there]
  exact SiteThat.putSite ⟨u, judged, rfl⟩

theorem Site.haltNow_halts (x : Site) : x.haltNow.halts = [] := Site.halts_filtered (x := x) rfl

theorem haltReached_halts {s : State} {p : PanNo} {x z : Site} (hx : s.site p = some x) (hz : z = if s.runs x then x.haltReach else x)
    (hr : z.running = true) (hh : z.haltsHere = true) :
    Completes (.haltReached p) s (fun t => t.tb = s.tb ∧ SiteThat t p (fun y => y.mode = .halted ∧ y.leftMode = x.mode ∧
      y.pan = z.pan ∧ z.pan.cpu = x.pan.cpu ∧ y.boiler = none ∧ y.slot = none ∧ y.phase = x.phase ∧ y.inQ = x.inQ ∧
      y.callOut = x.callOut ∧ y.halts = [])) := by
  obtain ⟨q, carried, cpu⟩ : ∃ q, z = { x with pan := q } ∧ q.cpu = x.pan.cpu := by
    rw [hz]
    split
    · exact x.haltReach_eq
    · exact ⟨x.pan, rfl, rfl⟩
  refine ⟨_, exec_haltReached hx hz hr hh, ?_, ?_⟩
  · rw [State.foldl_tb (fun t pl => (State.endHalt_keeps z t pl).2), State.modSite_tb, State.finishSaves_tb, State.settleFrame_tb]
    rfl
  · obtain ⟨y, hy, u, judged, rfl⟩ := State.haltNow_site (s := s) (p := p) z
    refine ⟨u.haltNow, ?_, ?_⟩
    · rw [State.site, State.foldl_sites (fun t pl => (State.endHalt_keeps z t pl).1)]
      exact hy
    · refine ⟨rfl, ?_, ?_, ?_, rfl, rfl, ?_, ?_, ?_, u.haltNow_halts⟩
      · change u.mode = _; rw [judged, carried]
      · change u.pan = _; rw [judged]
      · rw [carried]; exact cpu
      · change u.phase = _; rw [judged, carried]
      · change u.inQ = _; rw [judged, carried]
      · change u.callOut = _; rw [judged, carried]

/-! ### A park (R195) -/

/-- A pan parks: it is on no boiler and in no slot, its image and mode stand, and no halt waits. -/
theorem State.park_site {s : State} {p : Nat} {x : Site} (hx : s.site p = some x) (frame reason : Nat) (redo : Bool) :
    SiteThat (s.park p frame reason redo) p (fun y => y.parked = true ∧ y.mode = x.mode ∧ y.boiler = none ∧ y.slot = none ∧
      y.pan = x.pan ∧ y.halts = []) := by
  rw [State.park, hx]
  dsimp only
  rw [State.modSite_eq (State.abortHalts_site hx)]
  exact ⟨_, (State.site_post ..).trans (State.site_putSite_same ..), rfl, rfl, rfl, rfl, rfl, Site.halts_filtered (x := x) rfl⟩

theorem exec_stepCountDone {s : State} {p : PanNo} {x : Site} (hx : s.site p = some x) (hm : x.mode = .step) (hs : x.stepLeft = 0)
    (hp : x.parked = false) (hw : x.waitObs = false) :
    exec (.stepCountDone p) s = .next (s.park p (x.pan.frame - 1) 0 false) := by
  change execStepCountDone p s = _
  simp only [execStepCountDone, hx, hm, hs, hp, hw]
  rfl

/-! ### Store errors (R202) -/

theorem Eventful.boilers {s t : State} (h : Eventful s t) : t.boilers = s.boilers := (congrArg State.boilers h.only.eq).trans rfl

/-- The record of a store error's event. -/
def storeErrorData (b : Fin 8) (k : Fin 4) (r : Fin 5) (corrected : Bool) : List Byte :=
  [BitVec.ofNat 8 b.val, BitVec.ofNat 8 k.val, BitVec.ofNat 8 r.val, if corrected then 1 else 0]

/-- The device with one more store error corrected. -/
def State.countCorrected (s : State) : State := s.modDev (fun d => { d with correctable := d.correctable + 1 })

/-- The device with a boiler that reloads, the pan it ran out of its run. -/
def State.reloadBoiler (b : Fin 8) (k : Fin 4) (s : State) : State :=
  let u := (s.runOn b k).elim s (fun p => s.modSite p Site.abandon)
  { u with boilers := vmod u.boilers (boilerIx b k) (fun e => { e with reloading := true }) }

section
variable {s : State} (b : Fin 8) (k : Fin 4) (r : Fin 5) (he : s.engines = true)
include he

theorem exec_storeError (corrected : Bool) : exec (.storeError b k r corrected) s =
    .next (((if corrected then s.countCorrected else s.reloadBoiler b k).raise 8).post 0x0009 (s.runOn b k) 0
      (storeErrorData b k r corrected)) := by
  change execStoreError b k r corrected s = _
  simp only [execStoreError, he]
  cases corrected <;> rfl

/-- Whatever else it does, a store error raises source 8, and its event leaves the device as it was before it. -/
theorem storeError_raises (corrected : Bool) : Completes (.storeError b k r corrected) s (fun t =>
    Raised 8 t ∧ Eventful (if corrected then s.countCorrected else s.reloadBoiler b k) t) :=
  ⟨_, exec_storeError b k r he corrected, (State.post_holds ..).raised (State.raise_raised rfl _),
    (State.raise_eventful 8 _).trans (State.post_eventful ..)⟩

end

theorem State.reloadBoiler_idle {s : State} {b : Fin 8} {k : Fin 4} (h : s.runOn b k = none) : s.reloadBoiler b k =
    { s with boilers := s.boilers.set (4 * b.val + k.val) { s.boilers[4 * b.val + k.val] with reloading := true } } := by
  rw [State.reloadBoiler, h]
  rfl

theorem State.reloadBoiler_runs {s : State} {b : Fin 8} {k : Fin 4} {p : Nat} {x : Site} (h : s.runOn b k = some p)
    (hx : s.site p = some x) : s.reloadBoiler b k = { s.putSite p x.abandon with
      boilers := s.boilers.set (4 * b.val + k.val) { s.boilers[4 * b.val + k.val] with reloading := true } } := by
  rw [State.reloadBoiler, h, Option.elim_some, State.modSite_eq hx]
  rfl

/-- An abandoned run leaves the image last written back (R202). -/
theorem Site.abandon_written {x : Site} {v : Pan} (h : x.heap.written = some v) :
    x.abandon.pan = v ∧ x.abandon.boiler = none ∧ x.abandon.slot = none ∧ x.abandon.mode = x.mode ∧
      x.abandon.ctr = { x.ctr with reruns := x.ctr.reruns + 1 } := by
  have mode : x.reopen.mode = x.mode := by
    unfold Site.reopen
    split
    · rfl
    · dsimp only
      split <;> rfl
  unfold Site.abandon
  rw [h]
  exact ⟨rfl, rfl, rfl, mode, rfl⟩

/-! ### The switch (R203) -/

/-- One command that waits, alone and picked, lands. -/
theorem State.landAll_alone {f : Waiting → Bool} {s : State} {w : Waiting} (hs : s.waiting = [w]) (hf : f w = true) :
    s.landAll f = State.landSome f 0 (State.landWaiting w { s with waiting := [] }) := by
  simp [State.landAll, hs, State.landSome, hf]

/-- The device with a patch in force. -/
def State.patched (v : List Byte) (s : State) : State :=
  { s.modDev (fun d => { d with ucode := Config.patchVersion v }) with boilerPatch := v }

theorem ucodePatchSpec_land {d : Packet} {cpl : Nat} {s : State} {v : List Byte} (hp : s.patch = some v) :
    ucodePatchSpec.land d cpl s = okWith (s.patched v) (leBytes 4 (Config.patchVersion v).toNat) := by
  dsimp only [ucodePatchSpec, CmdSpec.plain]
  rw [hp]
  rfl

/-- A patch that lands is in force, and its command completes. -/
theorem ucodePatch_lands {s : State} {w : Waiting} {v : List Byte} (ho : w.opcode = 0x0C02) (hw : w.txn = none)
    (hp : s.patch = some v) (hi : ∀ e ∈ s.sites, e.2.mode = .idle) : State.landWaiting w s =
      (s.patched v).complete w.c w.cpl w.opcode stOk (leBytes 4 (Config.patchVersion v).toNat) := by
  have idle : s.sites.all (fun e => e.2.mode == .idle) = true := by
    rw [List.all_eq_true]
    exact fun e he => beq_iff_eq.mpr (hi e he)
  have allowed : ucodePatchSpec.allows s w.c = true := by
    change (_ || s.sites.all (fun e => e.2.mode == .idle)) = true
    rw [idle, Bool.or_true]
  rw [State.landWaiting_allowed (k := ucodePatchSpec) (by rw [ho]; rfl) hw allowed, ucodePatchSpec_land hp]
  rfl

/-- The device at a switch, its command taken from those that wait: every boiler has ended its run. -/
def State.switching (e : Nat) (s : State) : State := { (s.reach e).quiesce with waiting := [] }

theorem exec_patchSwitch {s : State} {w : Waiting} (ht : s.tb.counting = true) (hs : s.waiting = [w]) (ha : w.at_ = .switch) :
    exec .patchSwitch s = .next (State.landWaiting w (s.switching ((w.accepted / 4000000 + 1) * 4000000))) := by
  have switch : s.switchAt = some ((w.accepted / 4000000 + 1) * 4000000) := by
    simp [State.switchAt, hs, ha, Config.epochUnits]
  have before : w.accepted < (w.accepted / 4000000 + 1) * 4000000 := by omega
  change execPatchSwitch s = _
  simp only [execPatchSwitch, switch, State.atTime, ht, if_true]
  exact congrArg Host.Outcome.next (State.landAll_alone (s := (s.reach _).quiesce) hs (by simp [ha, before]))

theorem State.switching_idle {s : State} (hi : ∀ e ∈ s.sites, e.2.mode = .idle) (n : Nat) :
    ∀ e ∈ (s.switching n).sites, e.2.mode = .idle := by
  intro e he
  obtain ⟨d, hd, rfl⟩ := List.mem_map.mp he
  exact hi d hd

theorem State.switching_boilers (s : State) (n : Nat) : ∀ e ∈ (s.switching n).sites, e.2.boiler = none := by
  intro e he
  obtain ⟨d, -, rfl⟩ := List.mem_map.mp he
  rfl

end Sys2Proof.Machine
end

section
/-!
Halts, parks, store errors and reloads (R195, R197, R202, R203): the statement, from what each leaves.
-/
namespace Sys2Proof.Machine

/-- Settles O36: a halt settles the frame and leaves the record halted; a park, an abandoned run and a reload are the record and the
boiler they leave, whatever the events posted; the switch lands the patch on the device whose boilers have ended their runs. -/
theorem haltsAndStores : Obligations.HaltsAndStores := by
  unfold Obligations.HaltsAndStores
  intro s p x
  refine ⟨?_, ?_, ?_, ?_, ?_, ?_, ?_⟩
  · intro z hx hz hr hh
    exact haltReached_halts hx hz hr hh
  · intro hx hm hs hp hw
    obtain ⟨y, hy, parked, mode, boiler, slot, pan, halts⟩ := State.park_site hx (x.pan.frame - 1) 0 false
    exact ⟨_, exec_stepCountDone hx hm hs hp hw, y, hy, parked, mode.trans hm, boiler, slot, pan, halts⟩
  -- store errors
  · intro b k r he
    obtain ⟨t, run, raised, events⟩ := storeError_raises b k r he true
    exact ⟨t, run, events.sites, events.boilers, events.dev, raised⟩
  · intro b k r he hb
    obtain ⟨t, run, raised, events⟩ := storeError_raises b k r he false
    rw [if_neg Bool.false_ne_true, State.reloadBoiler_idle hb] at events
    exact ⟨t, run, raised, events.dev, events.sites, events.boilers⟩
  · intro b k r v he hb hx hv
    obtain ⟨t, run, raised, events⟩ := storeError_raises b k r he false
    rw [if_neg Bool.false_ne_true, State.reloadBoiler_runs hb hx] at events
    obtain ⟨pan, boiler, slot, mode, ctr⟩ := Site.abandon_written hv
    refine ⟨t, run, raised, events.dev, events.boilers, x.abandon, ?_, pan, boiler, slot, mode, ctr⟩
    rw [State.site, events.sites]
    exact State.site_putSite_same ..
  · intro b k
    exact ⟨_, rfl, rfl⟩
  -- the switch
  · intro w v ht hs ha ho hw hp hi
    have landed := exec_patchSwitch ht hs ha
    rw [ucodePatch_lands (s := s.switching _) (v := v) ho hw hp (State.switching_idle hi _)] at landed
    have events := State.complete_eventful w.c w.cpl w.opcode stOk (leBytes 4 (Config.patchVersion v).toNat)
      (State.patched v (s.switching ((w.accepted / 4000000 + 1) * 4000000)))
    refine ⟨_, landed, events.waiting, events.tb, congrArg State.boilerPatch events.only.eq, events.dev, ?_⟩
    rw [events.sites]
    exact State.switching_boilers s _

end Sys2Proof.Machine
end

section
/-!
SUPPORT. A command that waits (R358, R360): what its row leaves, from the boundary its spec gives it and what begins at once; and what each
command begins that begins something.
-/
namespace Sys2Proof.Machine

/-! ### The row -/

/-- The row of a command that waits for a boundary, from what its spec begins: the queue and device time stand. -/
theorem waits_of {i : Packet → Instr} {k : CmdSpec} {op : Nat} {due : Packet → State → Option Boundary} {f : Packet → State → State}
    (row : ∀ c s, exec (i c) s = s.command k c) (code : k.opcode = op)
    (starts : ∀ d u e, due d u = some e →
      k.boundary u d = some e ∧ k.begins d u = f d u ∧ (k.begins d u).waiting = u.waiting ∧ (k.begins d u).tb = u.tb) : Waits i k op due f := by
  intro s c r e h hd
  obtain ⟨boundary, begins, queue, time⟩ := starts _ _ e hd
  have run := (row c s).trans (State.command_passes h)
  rw [CmdSpec.accept, boundary] at run
  dsimp only at run
  rw [begins] at run queue time
  generalize f (packetRead c) (s.consume c.ring r) = v at run queue time ⊢
  refine ⟨_, run, ?_, ?_, ?_⟩
  · cases k.object (packetRead c) <;> rfl
  · have stood : (v.touchObject (k.object (packetRead c))).waiting = s.waiting := (State.touchObject_waiting _ v).trans queue
    simp only [CmdSpec.waits, stood, List.dropLast_concat]
  · have now : (v.touchObject (k.object (packetRead c))).now = s.tb.time := by
      have stood : (v.touchObject (k.object (packetRead c))).tb = v.tb := by cases k.object (packetRead c) <;> rfl
      rw [State.now, stood, time]
      rfl
    simp only [CmdSpec.waits, List.getLast?_concat, Option.any_some, now, code, beq_self_eq_true, decide_true, Bool.not_false,
      Option.isNone_none, Bool.and_self]

/-- One that begins nothing at once. -/
theorem waits_plainly {i : Packet → Instr} {k : CmdSpec} {op : Nat} {due : Packet → State → Option Boundary}
    (row : ∀ c s, exec (i c) s = s.command k c) (code : k.opcode = op) (boundary : ∀ d u, k.boundary u d = due d u)
    (begins : ∀ d u, k.begins d u = u) : Waits i k op due (fun _ s => s) :=
  waits_of row code (fun d u _ h =>
    ⟨(boundary d u).trans h, begins d u, congrArg State.waiting (begins d u), congrArg State.tb (begins d u)⟩)

/-! ### What begins at once -/

/-- A phase index reserved where the target is a real-time mode (R187). -/
theorem beginRt_eq (d : Packet) (u : State) : beginRt d u =
    if argOf d 12 1 ≤ 2 then u.modSite (targetOf d) (fun x => { x with phase := x.phase.or (u.freePhase x.homeBay) }) else u := by
  have reserved : (fun x : Site => if x.phase.isSome then x else { x with phase := u.freePhase x.homeBay }) =
      fun x => { x with phase := x.phase.or (u.freePhase x.homeBay) } := by
    funext x
    cases h : x.phase with
    | none => rfl
    | some k =>
      change x = { x with phase := some k }
      rw [← h]
  rw [beginRt, State.givePhase, reserved]

theorem beginRt_tb (d : Packet) (u : State) : (beginRt d u).tb = u.tb := by
  unfold beginRt
  split
  · exact State.modSite_tb _ _ u
  · rfl

/-- A stop that waits is due with the frame that runs (R409). -/
theorem panStopSpec_begins {d : Packet} {u : State} (h : u.panIs d (Site.stopWaits u.now) = true) : panStopSpec.begins d u =
    u.modSite (targetOf d) (fun x => { x with
      stopAt := some (x.pan.frame, if x.mode == .locked || x.mode == .elastic then some u.tb.time else none) }) := by
  obtain ⟨x, hx, waits⟩ := State.panIs_site h
  change u.modSite (targetOf d) (fun x => if x.stopWaits u.now then { x with stopAt := some (x.stopFrom u.now) } else x) = _
  rw [State.modSite_eq hx, State.modSite_eq hx, if_pos waits]
  rfl

end Sys2Proof.Machine
end

section
/-!
The commands that wait (R187, R203, R348, R352, R358, R360, R409): the statement, from the boundary of each.
-/
namespace Sys2Proof.Machine

/-- Settles O53: each command stands last in the queue for its boundary; five begin something at once: two reserve a phase index, one a
stop, one stages a patch, one starts a chain. -/
theorem commandsWait : Obligations.CommandsWait := by
  unfold Obligations.CommandsWait
  intro epoch on blank same phase
  have plainly : ∀ {i : Packet → Instr} {k : CmdSpec} {op : Nat} {due : Packet → State → Option Boundary},
      (∀ c s, exec (i c) s = s.command k c) → k.opcode = op → (∀ d u, k.boundary u d = due d u) → (∀ d u, k.begins d u = u) →
        Waits i k op due same := waits_plainly
  refine ⟨?_, ?_, ?_, ?_, ?_, ?_, ?_, ?_, ?_, ?_, ?_, ?_, ?_, ?_, ?_, ?_, ?_, ?_, ?_, ?_, ?_, ?_, ?_, ?_, ?_, ?_, ?_, ?_, ?_,
    ?panStart, ?panMode, ?panStop, ?_, ?patch, ?chain⟩
  case panStart =>
    exact waits_of (fun _ _ => rfl) rfl (fun d u e h => ⟨h, beginRt_eq d u, beginRt_waiting d u, beginRt_tb d u⟩)
  case panMode =>
    exact waits_of (fun _ _ => rfl) rfl (fun d u e h => ⟨h, beginRt_eq d u, beginRt_waiting d u, beginRt_tb d u⟩)
  case panStop =>
    refine waits_of (fun _ _ => rfl) rfl (fun d u e h => ⟨h, ?_, State.modSite_waiting _ _ u, State.modSite_tb _ _ u⟩)
    refine panStopSpec_begins ?_
    by_contra stands
    rw [if_neg stands] at h
    cases h
  case patch => exact waits_of (fun _ _ => rfl) rfl (fun _ _ _ h => ⟨h, rfl, rfl, rfl⟩)
  case chain => exact waits_of (fun _ _ => rfl) rfl (fun _ _ _ h => ⟨h, rfl, rfl, rfl⟩)
  all_goals exact plainly (fun _ _ => rfl) rfl (fun _ _ => rfl) (fun _ _ => rfl)

end Sys2Proof.Machine
end

section
/-!
SUPPORT. Commands that land (R360, R407): the answer of one whose state check holds, and of one whose check fails.
-/
namespace Sys2Proof.Machine

/-- A landing answers with what its command does, where the state check holds. -/
theorem lands_of {op : Nat} {k : CmdSpec} {ok : Packet → State → Bool} {res : Packet → State → List Byte} {f : Packet → State → State}
    (spec : specOf op = some k) (allow : ∀ d u, ok d u = true → k.allows u d = true)
    (land : ∀ d cpl u, ok d u = true → k.land d cpl u = okWith (f d u) (res d u)) : Lands op ok res f := by
  rintro s w rfl hw holds
  rw [State.landWaiting_allowed spec hw (allow _ _ holds), land _ _ _ holds]
  exact answered_complete ..

theorem specOf_opcode {op : Nat} {k : CmdSpec} (h : specOf op = some k) : k.opcode = op :=
  beq_iff_eq.mp (List.find?_some (p := fun k : CmdSpec => k.opcode == op) h)

/-- A command whose state check fails answers `ST_BAD_STATE` on the device with what was reserved for it free (R187, R407). -/
theorem landWaiting_refuses {w : Waiting} {k : CmdSpec} {s v : State} (hk : specOf w.opcode = some k) (hw : w.txn = none)
    (ha : k.allows s w.c = false) (hv : s.fails w stBadState = v.finish w stBadState []) :
    Answered w.c w.cpl k.opcode 0x31 [] v (State.landWaiting w s) := by
  rw [State.landWaiting_refused hk ha, hv, State.finish_alone hw, specOf_opcode hk]
  exact answered_complete ..

section
variable {w : Waiting} (st : Nat) (s : State)

theorem State.fails_plainly (h3 : w.opcode ≠ 0x0303) (h4 : w.opcode ≠ 0x0304) (h5 : w.opcode ≠ 0x0305) :
    s.fails w st = s.finish w st [] := by
  rw [State.fails, if_neg (by omega), if_neg h3]

theorem State.fails_config (h : w.opcode = 0x0303) :
    s.fails w st = (s.modSite (targetOf w.c) (fun x => { x with nextBay := none })).finish w st [] := by
  rw [State.fails, if_neg (by omega), if_pos h]

theorem State.fails_phase (h : w.opcode = 0x0304 ∨ w.opcode = 0x0305) :
    s.fails w st = (s.tidyPhase (targetOf w.c)).finish w st [] := by
  rw [State.fails, if_pos h]

end

/-! ### The pan a landing finds -/

theorem State.hasPan_of_any {u : State} {d : Packet} {f : Site → Bool} (h : (u.site (targetOf d)).any f = true) :
    u.hasPan d = true := by
  obtain ⟨x, hx, -⟩ := Option.any_eq_true _ _ |>.mp h
  rw [State.hasPan, hx]
  rfl

theorem State.modSite_congr {p : Nat} {f g : Site → Site} (h : ∀ x, f x = g x) (s : State) : s.modSite p f = s.modSite p g := by
  rw [funext h]

theorem State.modSite_modSite (p : Nat) (f g : Site → Site) (s : State) :
    (s.modSite p f).modSite p g = s.modSite p (fun x => g (f x)) := by
  cases h : s.site p with
  | none => simp only [State.modSite, h]
  | some x => rw [State.modSite_eq h, State.modSite_eq (State.site_putSite_same ..), State.modSite_eq h, State.putSite_putSite]

theorem State.modSite_rings (p : Nat) (f : Site → Site) (s : State) : (s.modSite p f).rings = s.rings := by
  unfold State.modSite
  split <;> rfl

end Sys2Proof.Machine
end

section
/-!
SUPPORT. A pan's start, change of mode and resume as they land (R188, R196, R242, R410).
-/
namespace Sys2Proof.Machine

/-! ### Records that a free-run pan waits for (R15) -/

/-- The pan as it stands at a frame's start: a free-run pan goes on once its records are accepted. -/
def State.heldForRecords (s : State) (x : Site) : Site :=
  { x with waitObs := x.waitObs ||
      ((x.mode == .free || x.mode == .step || x.mode == .replay) && decide (x.pan.frameCyc = 0) && !s.accepts x) }

theorem State.waitsForRecords_eq (p : Nat) (s : State) : s.waitsForRecords p = s.modSite p s.heldForRecords := by
  refine State.modSite_congr (fun x => ?_) s
  have same : (x.freeRun && x.pan.frameCyc == 0 && !s.accepts x) =
      ((x.mode == .free || x.mode == .step || x.mode == .replay) && decide (x.pan.frameCyc = 0) && !s.accepts x) := rfl
  rw [same, State.heldForRecords]
  split
  · next h => rw [h, Bool.or_true]
  · next h => rw [Bool.not_eq_true _ |>.mp h, Bool.or_false]

theorem State.heldForRecords_rings {s t : State} (h : t.rings = s.rings) : t.heldForRecords = s.heldForRecords := by
  have ring : t.ring = s.ring := by
    funext n
    rw [State.ring, h, State.ring]
  funext x
  simp only [State.heldForRecords, State.accepts, State.obsRing, ring]

theorem State.waitsForRecords_modSite (p : Nat) (f : Site → Site) (s : State) :
    (s.modSite p f).waitsForRecords p = s.modSite p (fun x => s.heldForRecords (f x)) := by
  rw [State.waitsForRecords_eq, State.heldForRecords_rings (State.modSite_rings p f s), State.modSite_modSite]

/-! ### The phase index (R187) -/

/-- The pan with a phase index reserved where the target is a real-time mode. -/
def State.reserved (s : State) (d : Packet) (x : Site) : Site :=
  if argOf d 12 1 ≤ 2 then { x with phase := x.phase.or (s.freePhase x.homeBay) } else x

theorem beginRt_modSite (d : Packet) (f : Site → Site) (s : State) :
    (beginRt d s).modSite (targetOf d) f = s.modSite (targetOf d) (fun x => f (s.reserved d x)) := by
  rw [beginRt_eq]
  unfold State.reserved
  split
  · exact State.modSite_modSite ..
  · rfl

theorem State.reserved_parked (s : State) (d : Packet) (x : Site) : (s.reserved d x).parked = x.parked := by
  unfold State.reserved
  split <;> rfl

theorem State.reserved_frameCyc (s : State) (d : Packet) (x : Site) : (s.reserved d x).pan.frameCyc = x.pan.frameCyc := by
  unfold State.reserved
  split <;> rfl

/-- A phase index stands where the mode keeps it, or a start or change to real time is to come. -/
theorem State.tidyPhase_site {s : State} {p : Nat} {x : Site} (h : s.site p = some x) : (s.tidyPhase p).site p =
    some { x with phase := if x.keepsPhase || (s.waiting.any (fun k => (k.opcode == 0x0304 || k.opcode == 0x0305) && k.onPan p &&
      decide (argOf k.c 12 1 ≤ 2)) || x.modeReq.any (fun m => m.1 == .locked || m.1 == .elastic)) then x.phase else none } := by
  have coming : s.reservesPhase p = (s.waiting.any (fun k => (k.opcode == 0x0304 || k.opcode == 0x0305) && k.onPan p &&
      decide (argOf k.c 12 1 ≤ 2)) || x.modeReq.any (fun m => m.1 == .locked || m.1 == .elastic)) := by
    rw [State.reservesPhase, h]
    rfl
  rw [State.tidyPhase, State.modSite_eq h, State.site_putSite_same, coming]
  split <;> rfl

/-! ### A start (R188, R199, R242) -/

theorem State.panIs_of_site {s : State} {d : Packet} {x : Site} {f : Site → Bool} (h : s.site (targetOf d) = some x)
    (hf : f x = true) : s.panIs d f = true := by
  rw [State.panIs, h]
  exact hf

theorem kindMatches_of_fits {x : Site} {n : Nat} (h : (n != if x.pan.cfg.elastic then 1 else 2) = true) : kindMatches x n = true := by
  cases hx : x.pan.cfg.elastic <;> simp_all [kindMatches]

theorem kindMatches_of_startFits {x : Site} {n : Nat} {b : Bool} (h : (b && n != if x.pan.cfg.elastic then 1 else 2) = true) :
    (b && kindMatches x n) = true := by
  obtain ⟨mode, fits⟩ := Bool.and_eq_true _ _ |>.mp h
  exact Bool.and_eq_true _ _ |>.mpr ⟨mode, kindMatches_of_fits fits⟩

/-- A log that is enabled opens with the pan as a change leaves it. -/
theorem State.openLogAt_modSite (p : Nat) (f : Site → Site) (s : State) : (s.modSite p f).openLogAt p =
    s.modSite p (fun x => if (f x).pan.frameCyc = 0 then (f x).openLog s.kpa s.conf s.tb.time else f x) := by
  cases h : s.site p with
  | none => simp only [State.openLogAt, State.modSite, h]
  | some x =>
    rw [State.modSite_eq h, State.modSite_eq h, State.openLogAt, State.modSite_eq (State.site_putSite_same ..), State.putSite_putSite]
    rfl

theorem Site.enterRt_pan (epoch w : Nat) (x : Site) : (x.enterRt epoch w).pan = x.pan := Site.ite_pan rfl rfl

/-- The pan in a mode of its own, with no fault, held back by nothing (R196). -/
def Site.inMode (m : PanMode) (n : Nat) (x : Site) : Site :=
  { x with mode := m, parked := false, waitObs := false, stepLeft := if m = .step then n else 0,
           pan := { x.pan with core := { x.pan.core with fault := 0 } } }

theorem Site.start_realTime {m : PanMode} (h : m = .locked ∨ m = .elastic) (n e w : Nat) (x : Site) :
    Site.start m n e w x = (x.inMode m n).enterRt e w := if_pos h

theorem Site.start_freeRun (m : PanMode) (n e w : Nat) (x : Site) :
    Site.start m n e w x = if m = .locked ∨ m = .elastic then Site.start m n e w x else x.inMode m n := by
  split
  · rfl
  · next h => exact if_neg h

theorem Site.start_pan (m : PanMode) (n e w : Nat) (x : Site) :
    (Site.start m n e w x).pan = { x.pan with core := { x.pan.core with fault := 0 } } :=
  Site.ite_pan (Site.enterRt_pan _ _ _) rfl

theorem Site.start_frameCyc (m : PanMode) (n e w : Nat) (x : Site) : (Site.start m n e w x).pan.frameCyc = x.pan.frameCyc := by
  rw [Site.start_pan]
  rfl

/-- `PAN_START` as it lands: the pan started, its log open where it begins with a frame, and held for its records. -/
theorem panStartSpec_land (d : Packet) (cpl : Nat) (u : State) : panStartSpec.land d cpl u =
    okOnly (u.modSite (targetOf d) (fun z => u.heldForRecords
      (if z.pan.frameCyc = 0
        then (Site.start (modeOf (argOf d 12 1)) (argOf d 16 4) u.tb.epochAt u.dev.w (u.reserved d z)).openLog u.kpa u.conf u.tb.time
        else Site.start (modeOf (argOf d 12 1)) (argOf d 16 4) u.tb.epochAt u.dev.w (u.reserved d z)))) := by
  change okOnly ((((beginRt d u).modSite (targetOf d) (Site.start (modeOf (argOf d 12 1)) (argOf d 16 4) u.tb.epochAt
    u.dev.w)).openLogAt (targetOf d)).waitsForRecords (targetOf d)) = _
  simp only [beginRt_modSite, State.openLogAt_modSite, State.waitsForRecords_modSite, Site.start_frameCyc, State.reserved_frameCyc]

/-- The first frame end from a time on is the first instant of the pan's phase (R188). -/
theorem firstEnd_spec {t phi fp : Nat} (h : 0 < fp) :
    t ≤ firstEnd t phi fp ∧ firstEnd t phi fp < t + fp ∧ firstEnd t phi fp % fp = phi % fp := by
  have below := Nat.mod_lt t h
  have step := Nat.mod_lt (phi + fp - t % fp) h
  refine ⟨Nat.le_add_right _ _, Nat.add_lt_add_left step t, ?_⟩
  have whole : t % fp + (phi + fp - t % fp) = phi + fp := by omega
  calc firstEnd t phi fp % fp = (t % fp + (phi + fp - t % fp)) % fp := by rw [firstEnd, Nat.add_mod_mod, Nat.mod_add_mod]
    _ = phi % fp := by rw [whole, Nat.add_mod_right]

theorem Site.enterRt_stands (epoch w : Nat) (x : Site) :
    (x.enterRt epoch w).mode = x.mode ∧ (x.enterRt epoch w).boiler = none := by
  unfold Site.enterRt
  dsimp only
  split <;> exact ⟨rfl, rfl⟩

theorem Site.enterRt_locked {x : Site} (h : x.pan.cfg.elastic = false) (epoch w : Nat) :
    let fp := x.pan.cfg.fp
    let e := firstEnd (epoch + fp + w * 16000) (phaseOffset (x.phase.getD 0) x.bay.val fp) fp
    (x.enterRt epoch w).frameE = e ∧ (x.enterRt epoch w).frameS = e - fp := by
  unfold Site.enterRt
  dsimp only
  rw [if_neg (by rw [h]; decide)]
  exact ⟨rfl, rfl⟩

/-- A pan of kind LOCKED that enters real time has its first frame end from a period and W after the epoch on, at its phase (R188). -/
theorem Site.enterRt_frame {x : Site} (h : x.pan.cfg.elastic = false) (hf : 0 < x.pan.cfg.fp) (epoch w : Nat) :
    let fp := x.pan.cfg.fp
    let y := x.enterRt epoch w
    let least := epoch + fp + w * 16000
    least ≤ y.frameE ∧ y.frameE < least + fp ∧ y.frameS + fp = y.frameE ∧
      y.frameE % fp = phaseOffset (x.phase.getD 0) x.bay.val fp % fp := by
  intro fp y least
  have frameE : y.frameE = firstEnd least (phaseOffset (x.phase.getD 0) x.bay.val fp) fp := (Site.enterRt_locked h epoch w).1
  have frameS : y.frameS = y.frameE - fp := by
    rw [frameE]
    exact (Site.enterRt_locked h epoch w).2
  obtain ⟨from_, before, phase⟩ := firstEnd_spec (t := least) (phi := phaseOffset (x.phase.getD 0) x.bay.val fp) hf
  rw [← frameE] at from_ before phase
  have whole : fp ≤ y.frameE := ((Nat.le_add_left fp epoch).trans (Nat.le_add_right _ _)).trans from_
  exact ⟨from_, before, by rw [frameS, Nat.sub_add_cancel whole], phase⟩

/-! ### A change of mode and a resume (R196, R410) -/

/-- The device with a mode asked for, a phase index reserved where it is real time. -/
def State.asksMode (d : Packet) (s : State) : State :=
  s.modSite (targetOf d) (fun z => { s.reserved d z with modeReq := some (modeOf (argOf d 12 1), argOf d 16 4) })

theorem State.asksMode_parked (d : Packet) (u : State) :
    ((u.asksMode d).site (targetOf d)).any (fun x => x.parked) = (u.site (targetOf d)).any (fun x => x.parked) := by
  cases h : u.site (targetOf d) with
  | none => simp only [State.asksMode, State.modSite, h]
  | some x =>
    rw [State.asksMode, State.modSite_eq h, State.site_putSite_same]
    exact u.reserved_parked d x

/-- The mode a `PAN_MODE` asks for is taken at the latch, or at once by a parked pan. -/
theorem State.changeMode_eq (d : Packet) (u : State) : u.changeMode d =
    if (u.site (targetOf d)).any (fun x => x.parked) then
      ((((u.asksMode d).modSite (targetOf d) (Site.newMode u.tb.time u.dev.w)).tidyPhase (targetOf d)).modSite (targetOf d)
        u.heldForRecords)
    else u.asksMode d := by
  have ask : (beginRt d u).modSite (targetOf d) (fun x => { x with modeReq := some (modeOf (argOf d 12 1), argOf d 16 4) }) =
      u.asksMode d := beginRt_modSite ..
  have rings : (((u.asksMode d).modSite (targetOf d) (Site.newMode u.tb.time u.dev.w)).tidyPhase (targetOf d)).rings = u.rings := by
    rw [State.tidyPhase, State.modSite_rings, State.modSite_rings, State.asksMode, State.modSite_rings]
  rw [State.changeMode, ask, State.asksMode_parked, State.waitsForRecords_eq, ← State.heldForRecords_rings rings]
  rfl

/-- Back to the mode it left: in real time, mapped anew from the resume epoch. -/
theorem Site.resume_eq (e w : Nat) (x : Site) : Site.resume e w x =
    if x.leftMode = .locked ∨ x.leftMode = .elastic then (({ x with mode := x.leftMode } : Site).remap).enterRt e w
    else { x with mode := x.leftMode } := by
  have rt : ({ x with mode := x.leftMode } : Site).realTime = decide (x.leftMode = .locked ∨ x.leftMode = .elastic) := by
    rw [Bool.decide_or]
    rfl
  rw [Site.resume, rt]
  simp only [decide_eq_true_eq]

theorem panResumeSpec_land (d : Packet) (cpl : Nat) (u : State) : panResumeSpec.land d cpl u =
    okOnly (u.modSite (targetOf d) (fun x => u.heldForRecords (Site.resume u.tb.epochAt u.dev.w x))) :=
  congrArg okOnly (State.waitsForRecords_modSite ..)

/-- Placements that waited through a halt are free of what their frames made of them, but for those a re-run repeats (R410). -/
theorem Site.remap_free {x : Site} {q : Placement} (h : q ∈ x.remap.inQ ++ x.remap.plQ) :
    q.logged = true ∨ (q.atFrame = none ∧ q.late = false) := by
  have freed : ∀ l : List Placement, q ∈ l.map (fun q => if q.logged then q else { q with atFrame := none, atCyc := 0, late := false }) →
      q.logged = true ∨ (q.atFrame = none ∧ q.late = false) := by
    intro l hq
    obtain ⟨r, -, rfl⟩ := List.mem_map.mp hq
    split
    · next kept => exact .inl kept
    · exact .inr ⟨rfl, rfl⟩
  rcases List.mem_append.mp h with h | h
  · exact freed _ h
  · exact freed _ h

end Sys2Proof.Machine
end

section
/-!
SUPPORT. Settings of the device, of a pan, of its heap and its stream as they land (R220, R230, R240 to R242, R266, R267), and a replay
(R243).
-/
namespace Sys2Proof.Machine

/-! ### Settings of the device and of a pan -/

/-- Where no setting has the number a `DEV_SET` names, none changes. -/
theorem DevRegs.set_eq (id v : Nat) (d : DevRegs) : DevRegs.set id v d =
    if id = 1 then { d with w := v } else if id = 2 then { d with batch := v } else if id = 3 then { d with i2sDelay := v }
    else if id = 4 then { d with srtpRequired := decide (v = 1) } else d := by
  unfold DevRegs.set
  split
  · rfl
  · rfl
  · rfl
  · rfl
  · next h1 h2 h3 h4 => rw [if_neg h1, if_neg h2, if_neg h3, if_neg h4]

theorem panObsSpec_allows {d : Packet} {u : State} (h : ((u.site (targetOf d)).isSome && (decide (argOf d 12 2 = 0xFFFF) ||
    ((u.ring (argOf d 12 2)).any (fun r => r.kind == 3 && r.owner == targetOf d) && (u.site (targetOf d)).any (fun x =>
      !(x.audio.routes.pcm && x.audio.routes.pcmRing == argOf d 12 2))))) = true) : panObsSpec.allows u d = true := by
  simp only [Bool.and_eq_true, Bool.or_eq_true, decide_eq_true_eq] at h
  obtain ⟨there, ring⟩ := h
  obtain ⟨x, hx⟩ := Option.isSome_iff_exists.mp there
  change (u.site (targetOf d)).any _ = true
  rw [hx, Option.any_some]
  by_cases off : argOf d 12 2 = 0xFFFF
  · have none_ : (obsArg d).ring = none := if_pos off
    rw [none_]
  · have named : (obsArg d).ring = some (argOf d 12 2) := if_neg off
    obtain ⟨serves, free⟩ := ring.resolve_left off
    rw [hx, Option.any_some] at free
    rw [named]
    exact Bool.and_eq_true _ _ |>.mpr ⟨serves, free⟩

/-- Records that wait are dropped where no ring is named (R251). -/
theorem Site.observeAs_obsArg (d : Packet) (x : Site) : Site.observeAs (obsArg d) x =
    { x with obs := obsArg d, ringLost := false, obsQ := if argOf d 12 2 = 0xFFFF then [] else x.obsQ } := by
  have off : (obsArg d).ring.isNone = decide (argOf d 12 2 = 0xFFFF) := by
    change (if argOf d 12 2 = 0xFFFF then none else some (argOf d 12 2)).isNone = _
    split
    · next h => rw [decide_eq_true h]; rfl
    · next h => rw [decide_eq_false h]; rfl
  rw [Site.observeAs, off]
  simp only [decide_eq_true_eq]

/-! ### The heap -/

/-- A new depth frees the snapshots (R230). -/
theorem Site.setDepth_eq (n : Nat) (x : Site) :
    (if x.heap.depth = n then x else { x with heap := { x.heap with depth := n, snaps := [] } }) =
      { x with heap := { x.heap with depth := n, snaps := if x.heap.depth = n then x.heap.snaps else [] } } := by
  split
  · next h => rw [← h]
  · rfl

/-- The entries of a hash reference, 16 bytes each (R241). -/
theorem refEntries_eq (n : Nat) : ∀ bs : List Byte, refEntries bs n =
    (List.range n).map (fun i => (leNat (slice bs (16 * i) 4), BitVec.ofNat 64 (leNat (slice bs (16 * i + 8) 8)))) := by
  induction n with
  | zero => exact fun _ => rfl
  | succ n ih =>
    intro bs
    rw [refEntries, ih, List.range_succ_eq_map, List.map_cons, List.map_map]
    refine congrArg (List.cons _) (List.map_congr_left fun i _ => ?_)
    have next : 16 + 16 * i = 16 * (i + 1) := by omega
    simp only [slice_drop, Function.comp, Nat.succ_eq_add_one, ← Nat.add_assoc, next]

/-! ### Streams -/

/-- The pan with the stream a `STREAM_CREATE` describes, its sound made ready for it (R266, R299). -/
def Site.openStream (d : Packet) (now : Nat) (x : Site) : Site := { x with
  audio := x.audio.newStream
  stream := some { StreamSt.new now (streamOf d x.pan) with seen := x.lastFrame.map (fun f => f.frame) } }

theorem streamCreateSpec_land {d : Packet} {cpl : Nat} {u : State} {x : Site} (h : u.site (targetOf d) = some x) :
    streamCreateSpec.land d cpl u =
      okWith (u.modSite (targetOf d) (Site.openStream d u.now)) (leBytes 1 (x.pan.level (argOf d 16 4))) := by
  rw [State.modSite_eq h]
  dsimp only [streamCreateSpec, CmdSpec.onPan, CmdSpec.plain]
  rw [h]
  rfl

/-! ### Replay (R243) -/

/-- The pan a replay begins with, or goes on with, and its log. -/
theorem State.landReplay_fits {s : State} {d : Packet} {x : Site} (h : s.site (targetOf d) = some x) (hf : s.replayFits d x = true) :
    ∃ flags data, s.landReplay d = okOnly (((s.putSite (targetOf d)
      ((s.replayStart d x).replayWith d s.kpa s.conf (s.replayLog d))).post 0x0008 (some (targetOf d)) flags data).waitsForRecords
        (targetOf d)) := by
  rw [State.landReplay, h]
  dsimp only
  rw [hf]
  exact ⟨_, _, rfl⟩

theorem State.landReplay_refused {s : State} {d : Packet} {x : Site} (h : s.site (targetOf d) = some x)
    (hf : s.replayFits d x = false) : s.landReplay d = { state := s, status := stBadParam, result := [] } := by
  rw [State.landReplay, h]
  dsimp only
  rw [hf]
  rfl

/-- A pan in `REPLAY` with the records of a log, standing where it stood, with no fault. -/
structure Site.Replays (q : Pan) (l : List LogRec) (y : Site) : Prop where
  mode : y.mode = .replay
  parked : y.parked = false
  on : y.heap.replayOn = true
  log : y.heap.replay = l.tail
  err : y.heap.replayErr = 0
  pos : y.heap.replayPos = (y.pan.frame, y.pan.frameCyc)
  image : y.pan = { q with core := { q.core with fault := 0 } }

theorem Site.replayWith_replays (d : Packet) (kpa conf : Byte) (l : List LogRec) (x : Site) :
    Site.Replays x.pan l (x.replayWith d kpa conf l) := ⟨rfl, rfl, rfl, rfl, rfl, rfl, rfl⟩

theorem Site.Replays.held {q : Pan} {l : List LogRec} {y : Site} (h : Site.Replays q l y) (s : State) :
    Site.Replays q l (s.heldForRecords y) := ⟨h.mode, h.parked, h.on, h.log, h.err, h.pos, h.image⟩

theorem State.replayStart_cont {s : State} {d : Packet} {x : Site} (h : argBit d 33 0 = true) : s.replayStart d x = x := if_pos h

theorem State.replayStart_reset {s : State} {d : Packet} {x : Site} (h : argBit d 33 0 = false) (hz : argOf d 12 8 = 0) :
    (s.replayStart d x).pan =
      Pan.reset x.pan.cfg x.pan.sys.tag x.pan.cram (memoryOf (s.dram.readBytes x.staging x.pan.cfg.mediaLen)) := by
  have fresh : ¬ replayCont d = true := by rw [replayCont, h]; decide
  rw [State.replayStart, if_neg fresh, if_pos hz]
  exact Site.openLog_pan _ _ _ _

section
variable {s : State} {w : Waiting} {x : Site} (ho : w.opcode = 0x0407) (hw : w.txn = none) (hx : s.site (targetOf w.c) = some x)
  (hm : (if argBit w.c 33 0 then x.mode == .replay && x.parked else x.mode == .idle) = true)
include ho hw hx hm

theorem landWaiting_replay : State.landWaiting w s =
    (s.landReplay w.c).state.complete w.c w.cpl 0x0407 (s.landReplay w.c).status (s.landReplay w.c).result := by
  have allowed : heapReplaySpec.allows s w.c = true := by
    change (s.site (targetOf w.c)).any _ = true
    rw [hx]
    exact hm
  rw [State.landWaiting_allowed (k := heapReplaySpec) (by rw [ho]; rfl) hw allowed, ho]
  rfl

/-- A log that does not fit the pan is refused. -/
theorem heapReplay_refused (hf : s.replayFits w.c x = false) : Answered w.c w.cpl 0x0407 0x30 [] s (State.landWaiting w s) := by
  rw [landWaiting_replay ho hw hx hm, State.landReplay_refused hx hf]
  exact answered_complete ..

/-- A replay is the pan's record, an event, and the completion. -/
theorem heapReplay_replays (hf : s.replayFits w.c x = true) : let t := State.landWaiting w s
    OnlyEvents { s with sites := t.sites } t ∧ (s.serving 6 (some (targetOf w.c)) = none → Raised 10 t) ∧
      SiteThat t (targetOf w.c) (Site.Replays (s.replayStart w.c x).pan (s.replayLog w.c)) := by
  intro t
  obtain ⟨flags, data, landed⟩ := State.landReplay_fits hx hf
  have run : t = _ := landWaiting_replay ho hw hx hm
  rw [landed] at run
  generalize hy : (s.replayStart w.c x).replayWith w.c s.kpa s.conf (s.replayLog w.c) = y at run
  generalize hu : (s.putSite (targetOf w.c) y).post 0x0008 (some (targetOf w.c)) flags data = u at run
  have posted : Eventful (s.putSite (targetOf w.c) y) u := hu ▸ State.post_eventful ..
  have there : u.site (targetOf w.c) = some y := by
    rw [State.site, posted.sites]
    exact State.site_putSite_same ..
  rw [State.waitsForRecords_eq, State.modSite_eq there] at run
  have completed : Eventful (u.putSite (targetOf w.c) (u.heldForRecords y)) t := run ▸ State.complete_eventful ..
  refine ⟨?_, fun none_ => ?_, u.heldForRecords y, ?_, ?_⟩
  · rw [completed.sites]
    have events : OnlyEvents { s with sites := (u.putSite (targetOf w.c) (u.heldForRecords y)).sites }
        (u.putSite (targetOf w.c) (u.heldForRecords y)) := by
      exact congrArg (fun v : State => { v with sites := (u.putSite (targetOf w.c) (u.heldForRecords y)).sites }) posted.only
    exact events.trans completed.only
  · have lost : Raised 10 u := by
      rw [← hu, State.post]
      have unserved : (s.putSite (targetOf w.c) y).serving 6 (some (targetOf w.c)) = none := none_
      rw [unserved]
      exact State.loseEvent_raised _ _ _ _
    have kept : State.Holds (u.putSite (targetOf w.c) (u.heldForRecords y)) t := run ▸ State.complete_holds ..
    exact kept.raised lost
  · rw [State.site, completed.sites]
    exact State.site_putSite_same ..
  · rw [← hy]
    exact (Site.replayWith_replays ..).held u

end

end Sys2Proof.Machine
end

section
/-!
SUPPORT. A link that goes down (R305, R332): its event is the same whatever the ports hold.
-/
namespace Sys2Proof.Machine

/-- The device with its ports replaced. -/
def State.withPorts (v : Vector Port 2) (s : State) : State := { s with ports := v }

section
variable (v : Vector Port 2) (s : State)

theorem State.ring_withPorts (n : Nat) : (s.withPorts v).ring n = s.ring n := rfl

theorem State.room_withPorts (n : Nat) : (s.withPorts v).room n = s.room n := rfl

theorem State.moderate_withPorts (n : Nat) : (s.withPorts v).moderate n = (s.moderate n).withPorts v := by
  unfold State.moderate
  rw [State.ring_withPorts]
  split
  · rw [apply_ite (State.withPorts v)]
    rfl
  · rfl

theorem State.pushEntry_withPorts (n : Nat) (entry : List Byte) :
    (s.withPorts v).pushEntry n entry = (s.pushEntry n entry).withPorts v := by
  unfold State.pushEntry
  rw [State.ring_withPorts]
  split
  · rfl
  · next r _ =>
    let q : Ring := { r with dev := r.dev + 1 }
    exact State.moderate_withPorts v (((s.hostWrite (r.entryAddr r.dev) entry).hostWrite r.idxAddr (leBytes 4 q.dev.toNat)).putRing n
      (q.visible s.now)) n

theorem State.bitternWrite_withPorts (entry : List Byte) :
    (s.withPorts v).bitternWrite entry = (s.bitternWrite entry).withPorts v := by
  have bittern : (s.withPorts v).bittern = s.bittern := rfl
  unfold State.bitternWrite
  rw [bittern]
  split
  · rw [State.room_withPorts, State.pushEntry_withPorts, apply_ite (State.withPorts v)]
    rfl
  · rfl

theorem State.loseEvent_withPorts (key : Nat) (ev : List Byte) (fault : Bool) :
    (s.withPorts v).loseEvent key ev fault = (s.loseEvent key ev fault).withPorts v := by
  cases fault with
  | true => exact State.bitternWrite_withPorts v ((s.countLost key).raise 10) _
  | false => rfl

theorem State.writeLost_withPorts (n : Nat) : (s.withPorts v).writeLost n = (s.writeLost n).withPorts v := by
  rw [State.writeLost, State.writeLost, apply_ite (State.withPorts v), ← State.pushEntry_withPorts]
  rfl

theorem State.post_withPorts (code : Nat) (pan : Option Nat) (flags : Byte) (data : List Byte) :
    (s.withPorts v).post code pan flags data = (s.post code pan flags data).withPorts v := by
  have serving : (s.withPorts v).serving 6 pan = s.serving 6 pan := rfl
  unfold State.post
  rw [serving]
  split
  · exact State.loseEvent_withPorts v s _ _ _
  · dsimp only
    rw [State.writeLost_withPorts, State.room_withPorts, State.pushEntry_withPorts, State.loseEvent_withPorts,
      apply_ite (State.withPorts v)]
    rfl

end

/-- The link's fall is counted and its event posted, and the ports hold what the command leaves. -/
theorem State.dropLink_modPort {e : Fin 2} {s : State} (up : s.ports[e].up = true) (f : Port → Port) :
    (s.dropLink e).modPort e f = { (s.raise (4 + e.val)).postDev 0x000C [BitVec.ofNat 8 e.val, 0] with
      ports := s.ports.set e (f { s.ports[e] with
        up := false, ctr := { s.ports[e].ctr with downs := (s.ports[e].ctr.downs + 1) % 2 ^ 32 } }) } := by
  let g : Port → Port := fun p => { p with up := false, ctr := { p.ctr with downs := (p.ctr.downs + 1) % 2 ^ 32 } }
  have down : s.dropLink e = ((s.raise (4 + e.val)).postDev 0x000C [BitVec.ofNat 8 e.val, 0]).withPorts (vmod s.ports e g) := by
    rw [State.dropLink, if_pos up]
    exact State.post_withPorts (vmod s.ports e g) (s.raise (4 + e.val)) _ _ _ _
  have ports : vmod (vmod s.ports e g) e f = s.ports.set e (f (g s.ports[e])) := by simp [vmod]
  rw [down, ← ports]
  rfl

/-- A link that was up and changes its mode or FEC goes down; one that was down stays as it is (R305, R367). -/
theorem portSetSpec_land (d : Packet) (cpl : Nat) (u : State) :
    let e := d.target.toNat % 2
    let q := u.ports[e]
    let same := decide (q.mode = argOf d 12 1 ∧ q.fec = argOf d 13 1)
    let t := if q.up && !same then (u.raise (4 + e)).postDev 0x000C [BitVec.ofNat 8 e, 0] else u
    portSetSpec.land d cpl u = okOnly { t with ports := u.ports.set e { q with
      mode := argOf d 12 1, fec := argOf d 13 1, mac := slice d.params 4 6, up := q.up && same,
      ctr := { q.ctr with downs := if q.up && !same then (q.ctr.downs + 1) % 2 ^ 32 else q.ctr.downs } } } := by
  intro e q same t
  let set : Port → Port := fun p => { p with mode := argOf d 12 1, fec := argOf d 13 1, mac := slice d.params 4 6 }
  have land : portSetSpec.land d cpl u =
    okOnly ((if q.mode = argOf d 12 1 ∧ q.fec = argOf d 13 1 then u else u.dropLink (portArg d)).modPort (portArg d) set) := rfl
  rw [land]
  refine congrArg okOnly ?_
  by_cases kept : q.mode = argOf d 12 1 ∧ q.fec = argOf d 13 1
  · have stays : same = true := decide_eq_true kept
    have quiet : t = u := by simp only [t, stays, Bool.not_true, Bool.and_false, Bool.false_eq_true, if_false]
    rw [if_pos kept, quiet, stays, Bool.and_true, Bool.not_true, Bool.and_false]
    rfl
  · have changes : same = false := decide_eq_false kept
    rw [if_neg kept]
    cases up : q.up with
    | true =>
      have falls : t = (u.raise (4 + e)).postDev 0x000C [BitVec.ofNat 8 e, 0] := by
        simp only [t, up, changes, Bool.not_false, Bool.and_true, if_true]
      rw [State.dropLink_modPort (e := portArg d) up, falls, changes]
      rfl
    | false =>
      have quiet : t = u := by simp only [t, up, Bool.false_and, Bool.false_eq_true, if_false]
      have stays : u.dropLink (portArg d) = u := if_neg (by rw [Bool.not_eq_true]; exact up)
      rw [stays, quiet]
      simp only [Bool.false_and, Bool.false_eq_true, if_false]
      rw [← up]
      rfl

end Sys2Proof.Machine
end

section
/-!
SUPPORT. Flow entries, stream and sound settings and routes as they land (R266, R294, R295, R299, R302, R310, R315).
-/
namespace Sys2Proof.Machine

/-! ### Flow entries (R310, R315) -/

theorem Flow.valid_eq (f : Flow) : f.valid = (f.bytes.getD 0 0).getLsbD 7 := by
  rw [Flow.valid, Flow.bit, Flow.num, slice_one, BitVec.getLsbD]
  rfl

/-- An entry whose peer stays keeps its alive state; counters of another SSRC start again (R310). -/
theorem Flow.swap_eq (b : List Byte) (f : Flow) :
    let same : List Byte → Nat → Nat → Bool := fun l o n => slice l o n == slice f.bytes o n
    let ssrc : Nat → Bool := fun o => leNat (slice b o 4) == leNat (slice f.bytes o 4)
    let renew := !(same b 8 6 && same b 16 18 && (b.getD 0 0).getLsbD 7 == (f.bytes.getD 0 0).getLsbD 7)
    Flow.swap { f with bytes := b } f = { f with
      bytes := b, last := if renew then none else f.last
      rocV := if !renew && ssrc 36 then f.rocV else 0, rocA := if !renew && ssrc 40 then f.rocA else 0
      sentV := if ssrc 36 then f.sentV else 0, sentA := if ssrc 40 then f.sentA else 0 } := by
  intro same ssrc renew
  have peer : ((slice f.bytes 8 6, slice f.bytes 16 18, f.valid) = (slice b 8 6, slice b 16 18, ({ f with bytes := b } : Flow).valid)) ↔
      renew = false := by
    simp only [renew, same, Flow.valid_eq, Prod.mk.injEq, Bool.not_eq_false', Bool.and_eq_true, beq_iff_eq, and_assoc,
      eq_comm (a := slice f.bytes _ _), eq_comm (a := BitVec.getLsbD (f.bytes.getD 0 0) 7)]
  have number (o : Nat) : (f.num o 4 = ({ f with bytes := b } : Flow).num o 4) ↔ ssrc o = true := by
    simp only [ssrc, beq_iff_eq, Flow.num]
    exact eq_comm
  unfold Flow.swap
  simp only [number, peer]
  clear_value renew ssrc
  cases renew with
  | true => simp [Flow.renewed]
  | false => simp

theorem Flow.renewed_unless (same : Prop) [Decidable same] (f : Flow) : (if same then f else f.renewed) = { f with
    last := if decide ¬ same then none else f.last, rocV := if decide ¬ same then 0 else f.rocV,
    rocA := if decide ¬ same then 0 else f.rocA } := by
  split
  · next h => simp [h]
  · next h => simp [h, Flow.renewed]

/-- A key that changes begins the entry's alive state anew (R310, R318). -/
theorem Flow.setKey_eq (c : Packet) (f : Flow) :
    let key := slice c.params 4 32
    let salt := slice c.params 36 12
    let renew := if argOf c 12 1 = 0 then !(key == f.masterKey && salt == f.masterSalt) else !(key == f.inKey && salt == f.inSalt)
    f.setKey c = { f with
      masterKey := if argOf c 12 1 = 0 then key else f.masterKey, masterSalt := if argOf c 12 1 = 0 then salt else f.masterSalt
      inKey := if argOf c 12 1 = 0 then f.inKey else key, inSalt := if argOf c 12 1 = 0 then f.inSalt else salt
      last := if renew then none else f.last, rocV := if renew then 0 else f.rocV, rocA := if renew then 0 else f.rocA } := by
  intro key salt renew
  have kept (k l m n : List Byte) : (!(k == m && l == n)) = decide ¬ (k = m ∧ l = n) := by
    rw [Bool.eq_iff_iff]
    simp
  unfold Flow.setKey
  simp only [renew, kept]
  by_cases first : argOf c 12 1 = 0
  · simp only [first, if_true, Prod.mk.injEq, and_true]
    exact Flow.renewed_unless ..
  · simp only [first, if_false, Prod.mk.injEq, true_and]
    exact Flow.renewed_unless ..

/-! ### Sound (R294, R295, R302) -/

theorem Channel.newGain_eq (g : Int) (n : Nat) (k : Channel) :
    k.newGain g n = { k with step := some (g, (k.step.map (fun e => e.2)).getD n) } := by
  unfold Channel.newGain
  split
  · next h => rw [h]; rfl
  · next h => rw [h]; rfl

theorem Audio.setAll_eq (c : Packet) (a : Audio) :
    let g := (pairsOf c).foldl AudioCfg.setPair a.cfg
    let chan : Channel → Channel := fun k =>
      let m := if (pairsOf c).any (fun e => e.1 == 3)
        then { k with step := some (g.gain, (k.step.map (fun e => e.2)).getD (48 * a.block)) } else k
      if a.cfg.rumble = 0 ∧ g.rumble ≠ 0 then { m with rx1 := 0, rx2 := 0, ry1 := 0, ry2 := 0 } else m
    a.setAll c = { a with cfg := g, left := chan a.left, right := chan a.right } := by
  unfold Audio.setAll
  simp only [Channel.newGain_eq]
  rfl

/-- Moving the I2S port: the pan that was leaving is cut off where it leaves no longer (R302). -/
theorem State.moveI2s_eq (p : Nat) (on : Bool) (s : State) : s.moveI2s p on =
    if on = false then { s with i2s := { s.i2s with pan := s.i2s.pan.filter (fun q => q != p),
                                                    leaving := s.i2s.leaving.filter (fun e => e.1 != p) } }
    else if s.i2s.pan = some p then s
    else
      let t := { s with i2s := { s.i2s with pan := some p, leaving := s.i2s.pan.map (fun q => (q, none)) } }
      match s.i2s.leaving with
      | none => t
      | some (q, _) => if s.i2s.pan = some q then t else t.modSite q (fun x => { x with audio := { x.audio with
          routes := { x.audio.routes with i2s := false }, nextRoutes := x.audio.nextRoutes.map (fun k => { k with i2s := false }) } }) := by
  cases on with
  | false => rw [State.moveI2s, I2s.without_eq]; rfl
  | true =>
    rw [State.moveI2s]
    simp only [Bool.not_true, Bool.false_eq_true, Bool.true_eq_false, if_false]
    refine if_congr Iff.rfl rfl ?_
    cases s.i2s.leaving with
    | none => rfl
    | some e =>
      refine if_congr ?_ rfl rfl
      cases s.i2s.pan <;> simp

end Sys2Proof.Machine
end

section
/-!
SUPPORT. Heads as their settings land (R260, R261): the link trains to the lower of settings and sink.
-/
namespace Sys2Proof.Machine

theorem laneCount_eq (n : Nat) : laneCount n = if 4 ≤ n then 4 else if 2 ≤ n then 2 else n := by
  unfold laneCount
  split_ifs <;> omega

/-- A link carries a clock by its lanes and the kHz of its rate (R260). -/
theorem linkFits_eq (kHz lanes rate : Nat) : linkFits kHz lanes rate = decide (kHz * 24 * 1000 ≤ lanes *
    (if rate = 0 then 1620000 else if rate = 1 then 2700000 else if rate = 2 then 5400000 else 8100000) * 792) := by
  have kilo : linkRate rate * 10 =
      if rate = 0 then 1620000 else if rate = 1 then 2700000 else if rate = 2 then 5400000 else 8100000 := by
    unfold linkRate
    split <;> simp_all
  rw [← kilo, linkFits, decide_eq_decide]
  have scaled : lanes * linkRate rate * 10000 * 792 = lanes * (linkRate rate * 10) * 792 * 1000 := by ring
  rw [scaled]
  exact Nat.mul_le_mul_right_iff (by decide)

section
variable (d : Packet) (s : State)

/-- The lanes a head's link trains to under a `HEAD_TIMING`. -/
def State.lanesTo : Nat :=
  let most := min (argOf d 33 1) s.heads[headArg d].sinkLanes
  if 4 ≤ most then 4 else if 2 ≤ most then 2 else most

/-- A sink is there, the head is enabled, and a lane can train. -/
def State.trainsTo : Bool := s.heads[headArg d].hpd && argBit d 35 0 && decide (0 < s.lanesTo d)

theorem State.trainTiming : ({ s.heads[headArg d] with cfg := s.heads[headArg d].cfg.setTiming d } : Head).train =
    { s.heads[headArg d] with
      cfg := s.heads[headArg d].cfg.setTiming d, trained := s.trainsTo d, lanes := if s.trainsTo d then s.lanesTo d else 0
      rate := if s.trainsTo d then min (argOf d 34 1) s.heads[headArg d].sinkRate else 0 } := by
  have lanes : laneCount (min (argOf d 33 1) s.heads[headArg d].sinkLanes) = s.lanesTo d := laneCount_eq _
  have on : (s.heads[headArg d].hpd = true ∧ argBit d 35 0 = true ∧ 0 < s.lanesTo d) ↔ s.trainsTo d = true := by
    simp only [State.trainsTo, Bool.and_eq_true, decide_eq_true_eq, and_assoc]
  unfold Head.train HeadCfg.setTiming
  simp only [lanes, on]
  cases s.trainsTo d <;> rfl

theorem State.landTiming_eq : s.landTiming d =
    if s.trainsTo d && !linkFits (argOf d 12 4) (s.lanesTo d) (min (argOf d 34 1) s.heads[headArg d].sinkRate)
    then { state := s, status := stBadParam, result := [] }
    else okWith (s.modHead (headArg d) (fun k => { k with
        cfg := k.cfg.setTiming d, trained := s.trainsTo d, lanes := if s.trainsTo d then s.lanesTo d else 0
        rate := if s.trainsTo d then min (argOf d 34 1) s.heads[headArg d].sinkRate else 0 }))
      (if s.trainsTo d then leBytes 1 (s.lanesTo d) ++ leBytes 1 (min (argOf d 34 1) s.heads[headArg d].sinkRate) else [0, 0]) := by
  unfold State.landTiming
  simp only [State.trainTiming]
  cases s.trainsTo d with
  | true => rfl
  | false =>
    simp only [Bool.false_and, Bool.false_eq_true, if_false]
    rfl

end

section
variable {s : State} {w : Waiting} (ho : w.opcode = 0x0801) (hw : w.txn = none)
include ho hw

theorem landWaiting_timing : State.landWaiting w s =
    (s.landTiming w.c).state.complete w.c w.cpl 0x0801 (s.landTiming w.c).status (s.landTiming w.c).result := by
  rw [State.landWaiting_allowed (k := headTimingSpec) (by rw [ho]; rfl) hw rfl, ho]
  rfl

/-- A link that is down, or carries the clock, takes the settings. -/
theorem headTiming_lands (h : s.trainsTo w.c = false ∨
      linkFits (argOf w.c 12 4) (s.lanesTo w.c) (min (argOf w.c 34 1) s.heads[headArg w.c].sinkRate) = true) :
    Answered w.c w.cpl 0x0801 0 (if s.trainsTo w.c
        then leBytes 1 (s.lanesTo w.c) ++ leBytes 1 (min (argOf w.c 34 1) s.heads[headArg w.c].sinkRate) else [0, 0])
      (s.modHead (headArg w.c) (fun k => { k with
        cfg := k.cfg.setTiming w.c, trained := s.trainsTo w.c, lanes := if s.trainsTo w.c then s.lanesTo w.c else 0
        rate := if s.trainsTo w.c then min (argOf w.c 34 1) s.heads[headArg w.c].sinkRate else 0 })) (State.landWaiting w s) := by
  have taken : ¬ (s.trainsTo w.c &&
      !linkFits (argOf w.c 12 4) (s.lanesTo w.c) (min (argOf w.c 34 1) s.heads[headArg w.c].sinkRate)) = true := by
    rcases h with off | carries
    · rw [off, Bool.false_and]
      exact Bool.false_ne_true
    · rw [carries, Bool.not_true, Bool.and_false]
      exact Bool.false_ne_true
  rw [landWaiting_timing ho hw, State.landTiming_eq, if_neg taken]
  exact answered_complete ..

/-- A clock the trained link cannot carry is refused. -/
theorem headTiming_refused (on : s.trainsTo w.c = true)
    (fast : linkFits (argOf w.c 12 4) (s.lanesTo w.c) (min (argOf w.c 34 1) s.heads[headArg w.c].sinkRate) = false) :
    Answered w.c w.cpl 0x0801 0x30 [] s (State.landWaiting w s) := by
  rw [landWaiting_timing ho hw, State.landTiming_eq, if_pos (by rw [on, fast]; rfl)]
  exact answered_complete ..

end

/-- `HEAD_TILE` puts a pan on a tile, or takes the tile away (R261). -/
theorem Head.setTile_eq (d : Packet) (k : Head) :
    (if argOf d 14 2 = 0xFFFF then { k with cfg := { k.cfg with tiles := Table.drop k.cfg.tiles (argOf d 12 1) } }
      else { k with cfg := { k.cfg with tiles := Table.put k.cfg.tiles (argOf d 12 1) (argOf d 14 2, BitVec.ofNat 8 (argOf d 16 1)) } }) =
    { k with cfg := { k.cfg with
      tiles := if argOf d 14 2 = 0xFFFF then Table.drop k.cfg.tiles (argOf d 12 1)
        else Table.put k.cfg.tiles (argOf d 12 1) (argOf d 14 2, BitVec.ofNat 8 (argOf d 16 1)) } } := by
  split <;> rfl

/-- A colour is three bytes, highest first (R261). -/
theorem border_eq (d : Packet) : beNat (argBytes d 20 3) = argOf d 20 1 * 65536 + argOf d 21 1 * 256 + argOf d 22 1 := by
  have bytes : argBytes d 20 3 = [d.params.getD (20 - 12) 0, d.params.getD (21 - 12) 0, d.params.getD (22 - 12) 0] :=
    bytes_ext (slice_length ..) rfl (fun i hi => by
      rw [argBytes, slice_getD hi]
      match i, hi with
      | 0, _ => rfl
      | 1, _ => rfl
      | 2, _ => rfl)
  simp only [bytes, argOf, slice_one, beNat, List.reverse_cons, List.reverse_nil, List.nil_append, List.cons_append, leNat]
  omega

end Sys2Proof.Machine
end

section
/-!
The commands that land (R196, R211, R212, R216, R230, R240 to R243, R260, R266, R310, R407): the statement, from the landing of each row.
-/
namespace Sys2Proof.Machine

/-- Settles O56: each command's landing is its row's effect on the state the boundary finds, or its refusal. -/
theorem commandsLand : Obligations.CommandsLand := by
  unfold Obligations.CommandsLand
  intro none_ always site pan heap streamed stream bit pairs head kindFits records
  refine ⟨?devSet, ?tbRate, ?tbSlew, ?tbStep, ?tbPps, ?panStart, ?startTimes, ?panMode, ?panResume, ?remap, ?panStop, ?panInput,
    ?panHcall, ?panObs, ?heapDepth, ?heapHash, ?heapRef, ?heapLog, ?heapReplay, ?streamCreate, ?streamSet, ?streamDelete, ?streamKey,
    ?streamLoss, ?portSet, ?portAddr, ?portRings, ?flowSet, ?flowKey, ?audioSet, ?audioRoute, ?headTiming, ?headLayout, ?headTile,
    ?ucodePatch, ?refused, ?configRefused, ?phaseRefused, ?phaseKept⟩
  case devSet =>
    refine lands_of (k := devSetSpec) rfl (fun _ _ _ => rfl) (fun d _ u _ => congrArg okOnly ?_)
    rw [State.modDev, DevRegs.set_eq]
  case tbRate | tbSlew | tbPps => exact lands_of rfl (fun _ _ _ => rfl) (fun _ _ _ _ => rfl)
  case panStop | panInput | panHcall | heapHash | heapLog =>
    exact lands_of rfl (fun _ _ h => State.hasPan_of_any h) (fun _ _ _ _ => rfl)
  case tbStep | streamSet | streamDelete | streamKey | streamLoss | portAddr | portRings =>
    exact lands_of rfl (fun _ _ h => h) (fun _ _ _ _ => rfl)
  case panStart =>
    refine lands_of (k := panStartSpec) rfl (fun d u h => ?_) (fun d cpl u _ => ?_)
    · obtain ⟨x, hx, fits⟩ := State.panIs_site h
      exact State.panIs_of_site hx (kindMatches_of_startFits fits)
    · refine (panStartSpec_land d cpl u).trans (congrArg okOnly (State.modSite_congr (fun z => ?_) u))
      rw [← u.reserved_frameCyc d z, Site.start_freeRun]
      rfl
  case startTimes =>
    intro s x e w m hm fp k y least
    have started : y = (x.inMode m 0).enterRt e w := Site.start_realTime hm 0 e w x
    have image : y.pan = { x.pan with core := { x.pan.core with fault := 0 } } := Site.start_pan m 0 e w x
    refine ⟨?_, ?_, ?_, ?_, fun locked period => ?_⟩
    · rw [started]
      exact (Site.enterRt_stands ..).1
    · rw [started]
      exact (Site.enterRt_stands ..).2
    · rw [image]
    · rw [image]
    · rw [started]
      exact Site.enterRt_frame (x := x.inMode m 0) locked period e w
  case panMode =>
    refine lands_of (k := panModeSpec) rfl (fun d u h => ?_) (fun d cpl u _ => congrArg okOnly ?_)
    · obtain ⟨x, hx, fits⟩ := State.panIs_site h
      exact State.panIs_of_site hx (kindMatches_of_startFits fits)
    · exact State.changeMode_eq d u
  case panResume =>
    refine lands_of (k := panResumeSpec) rfl (fun _ _ h => h) (fun d cpl u _ => ?_)
    refine (panResumeSpec_land d cpl u).trans (congrArg okOnly (State.modSite_congr (fun z => ?_) u))
    rw [Site.resume_eq]
    rfl
  case remap => exact fun _ _ => Site.remap_free
  case panObs =>
    refine lands_of (k := panObsSpec) rfl (fun _ _ h => panObsSpec_allows h) (fun d _ u _ => congrArg okOnly ?_)
    exact State.modSite_congr (Site.observeAs_obsArg d) u
  case heapDepth =>
    refine lands_of (k := heapDepthSpec) rfl (fun _ _ h => State.hasPan_of_any h) (fun d _ u _ => congrArg okOnly ?_)
    exact State.modSite_congr (Site.setDepth_eq (argOf d 12 1)) u
  case heapRef =>
    refine lands_of (k := heapHashrefSpec) rfl (fun _ _ h => State.hasPan_of_any h) (fun d _ u _ => congrArg okOnly ?_)
    dsimp only
    rw [← refEntries_eq]
    rfl
  case heapReplay =>
    rintro s w x p ho hw rfl hx hm l t
    refine ⟨heapReplay_refused ho hw hx hm, fun fits => ?_⟩
    obtain ⟨events, lost, y, there, replays⟩ := heapReplay_replays ho hw hx hm fits
    refine ⟨events, lost, y, there, replays.mode, replays.parked, replays.on, replays.log, replays.err, replays.pos, ?_, ?_, ?_⟩
    · rw [replays.image]
    · intro cont
      rw [replays.image, State.replayStart_cont cont]
    · intro fresh zero
      rw [replays.image, State.replayStart_reset fresh zero]
      rfl
  case streamCreate =>
    refine lands_of (k := streamCreateSpec) rfl (fun _ _ h => h) (fun d cpl u h => ?_)
    obtain ⟨x, hx, -⟩ := State.panIs_site h
    refine (streamCreateSpec_land hx).trans (congrArg (okWith _) ?_)
    change _ = (u.site (targetOf d)).elim [] _
    rw [hx]
    rfl
  case portSet => exact lands_of (k := portSetSpec) rfl (fun _ _ _ => rfl) (fun d cpl u _ => portSetSpec_land d cpl u)
  case flowSet =>
    refine lands_of (k := flowSetSpec) rfl (fun _ _ _ => rfl) (fun d _ u _ => congrArg okOnly ?_)
    exact congrArg (fun f => u.putFlow (targetOf d) f) (Flow.swap_eq (slice d.params 0 48) (u.flow (targetOf d)))
  case flowKey =>
    refine lands_of (k := flowKeySpec) rfl (fun _ _ _ => rfl) (fun d _ u _ => congrArg okOnly ?_)
    exact congrArg (fun f => u.putFlow (targetOf d) f) (Flow.setKey_eq d (u.flow (targetOf d)))
  case audioSet =>
    refine lands_of (k := audioSetSpec) rfl (fun _ _ h => State.hasPan_of_any h) (fun d _ u _ => congrArg okOnly ?_)
    exact State.modSite_congr (fun x => congrArg (fun a => { x with audio := a }) (Audio.setAll_eq d x.audio)) u
  case audioRoute =>
    refine lands_of (k := audioRouteSpec) rfl (fun d u h => h) (fun d _ u _ => congrArg okOnly ?_)
    rw [State.moveI2s_eq]
    rfl
  case headTiming =>
    intro s w ho hw c k g most lanes rate on carries
    have same : carries = linkFits (argOf c 12 4) lanes rate := (linkFits_eq ..).symm
    refine ⟨fun fits => ?_, fun trains tooFast => ?_⟩
    · exact headTiming_lands ho hw (fits.imp_right (same ▸ ·))
    · exact headTiming_refused ho hw trains (same ▸ tooFast)
  case headLayout =>
    refine lands_of (k := headLayoutSpec) rfl (fun _ _ _ => rfl) (fun d _ u _ => congrArg okOnly ?_)
    dsimp only
    rw [border_eq]
    rfl
  case headTile =>
    refine lands_of (k := headTileSpec) rfl (fun _ _ h => h) (fun d _ u _ => congrArg okOnly ?_)
    exact congrArg (fun f => u.modHead (headArg d) f) (funext (Head.setTile_eq d))
  case ucodePatch =>
    refine lands_of (k := ucodePatchSpec) rfl (fun _ _ h => ?_) (fun d cpl u h => ?_)
    · exact (Bool.and_eq_true _ _ |>.mp h).2
    · obtain ⟨b, hb⟩ := Option.isSome_iff_exists.mp (Bool.and_eq_true _ _ |>.mp h).1
      have staged {α : Type} (a : α) (f : List Byte → α) : u.patch.elim a f = f b := by rw [hb, Option.elim_some]
      rw [ucodePatchSpec_land hb]
      dsimp only
      rw [staged, staged]
      rfl
  case refused =>
    intro s w k hk hw ha h3 h4 h5
    exact landWaiting_refuses hk hw ha (s.fails_plainly _ h3 h4 h5)
  case configRefused =>
    intro s w ho hw ha
    exact landWaiting_refuses (k := panConfigSpec) (by rw [ho]; rfl) hw ha (s.fails_config _ ho)
  case phaseRefused =>
    intro s w k hk hw ha h
    exact landWaiting_refuses hk hw ha (s.fails_phase _ h)
  case phaseKept => exact fun _ _ _ h => State.tidyPhase_site h

end Sys2Proof.Machine
end

section
/-!
SUPPORT. The timebase (R208 to R211, R216, R217, R377, R389): an event due at an instant, the next edge of PPS out, and a ready bit set.
-/
namespace Sys2Proof.Machine

/-- While the timebase counts, an event happens at its instant. -/
theorem State.atTime_counting {s : State} (h : s.tb.counting = true) (t : Nat) (f : State → State) :
    s.atTime t f = .next (f (s.reach t)) := if_pos h

/-- A register of BAR 0 is read or written where the device is awake on the bus. -/
theorem State.onBar_awake {s : State} (h : s.awake = true) (k : s.pwr.perst = false) (f : State → State) : s.onBar f = .next (f s) := by
  simp [State.onBar, h, k]

/-- Absorbing a slew changes nothing of the timebase but the slew. -/
theorem Timebase.absorb_slew (n : Nat) (b : Timebase) :
    { b.absorb n with slew := 0, slewing := false, slewAcc := 0 } = { b with slew := 0, slewing := false, slewAcc := 0 } := by
  unfold Timebase.absorb
  split <;> rfl

/-- A ready bit not set yet is set, and source 0 raised (R331). -/
theorem State.setReady_unset {s : State} {n : Nat} (h : s.dev.ready.getLsbD n = false) :
    s.setReady [n] = (s.modDev (fun d => { d with ready := setBit d.ready n true })).raise 0 := by
  simp [State.setReady, h]

/-- What a raise leaves: the source is pending where it is masked, and nothing but events has changed. -/
theorem State.raise_does {n : Nat} (h : evcRaisable n = true) (s : State) : Raised n (s.raise n) ∧ OnlyEvents s (s.raise n) :=
  ⟨State.raise_raised h s, (State.raise_eventful n s).only⟩

/-- The slew still to absorb, as the words a read of `TB_SLEW` returns (R209). -/
theorem words_slewRem (b : Timebase) :
    words b.slewRem = ((BitVec.ofInt 64 b.slew).setWidth 32, ((BitVec.ofInt 64 b.slew) >>> 32).setWidth 32) := by
  refine Prod.ext (BitVec.eq_of_toNat_eq ?_) (BitVec.eq_of_toNat_eq ?_)
  · simp [words, Timebase.slewRem]
  · simp [words, Timebase.slewRem, Nat.shiftRight_eq_div_pow]

/-- Where a slew is being absorbed, its end leaves the time at which it is absorbed, and no slew (R211). -/
theorem slewAbsorbed_completes {s : State} (counting : s.tb.counting = true) (slewing : s.tb.slewing = true) :
    exec .slewAbsorbed s = .next { s with tb := { s.tb with time := s.tb.slewEnd, slew := 0, slewing := false, slewAcc := 0 } } := by
  show execSlewAbsorbed s = _
  have later : max s.tb.time s.tb.slewEnd = s.tb.slewEnd := Nat.max_eq_right (Nat.le_add_right _ _)
  have rest := congrArg (fun b : Timebase => { b with time := s.tb.slewEnd })
    (Timebase.absorb_slew ((s.tb.slewEnd - s.tb.time) * unitParts * 1600000 / s.tb.speed) s.tb)
  simp only [execSlewAbsorbed, slewing, if_true, State.atTime_counting counting, State.modTb, State.reach, Timebase.moveTo, later]
  exact congrArg (fun b => Host.Outcome.next { s with tb := b }) rest

/-- Settles O37: each row acts at its instant, and the edge of PPS out is the first one of its phase. -/
theorem timebaseWorks : Obligations.TimebaseWorks := by
  intro s
  refine ⟨?_, ?_, ?_, ?_, ?_, ?_, ?_, ?_, ?_, ?_, ?_⟩
  · exact fun awake bus => ⟨_, show execTbTimeRead s = _ from State.onBar_awake awake bus _, rfl⟩
  · exact fun awake bus => ⟨_, show execTbPpsinRead s = _ from State.onBar_awake awake bus _, rfl⟩
  · intro awake bus
    refine ⟨_, ?_, rfl⟩
    show execTbSlewRead s = _
    simp only [execTbSlewRead, State.onBar_awake awake bus, State.modTb, words_slewRem]
  · exact fun counting slewing => ⟨_, slewAbsorbed_completes counting slewing, rfl⟩
  · intro counting enabled low offset
    obtain ⟨notBefore, within, phase⟩ := firstEnd_spec (t := s.tb.ppsRise.elim s.now (fun r => max s.now (r + 1))) (phi := s.tb.ppsOffset)
      (show 0 < ppsPeriod by decide)
    refine ⟨_, ?_, _, rfl, phase.trans (Nat.mod_eq_of_lt offset), notBefore, within⟩
    show execPpsOutEdge s = _
    simp only [execPpsOutEdge, enabled, low, Bool.not_false, Bool.and_self, if_true]
    exact State.atTime_counting counting _ _
  · intro r counting high rise
    refine ⟨_, ?_, rfl⟩
    show execPpsOutFall s = _
    simp only [execPpsOutFall, high, rise, Option.getD_some, if_true]
    exact State.atTime_counting counting _ _
  · exact fun counting => ⟨_, if_pos counting, State.raise_does rfl _⟩
  · exact fun counting => ⟨_, if_pos counting, rfl⟩
  · exact ⟨_, rfl, rfl⟩
  · intro r awake ctrl unset still
    refine ⟨_, ?_, State.raise_does (n := 0) rfl _⟩
    show execTimebaseCounting r s = _
    simp only [execTimebaseCounting, rdyTb, awake, ctrl, unset, still, Bool.not_false, Bool.true_or, Bool.and_self, if_true,
      Bool.false_eq_true, if_false]
    rw [State.setReady_unset (by exact unset)]
    rfl
  · intro r awake ctrl ready unset counting
    refine ⟨(s.modDev (fun d => { d with ready := setBit d.ready 2 true })).raise 0, ?_, State.raise_raised rfl _, rfl, rfl⟩
    show execTimebaseCounting r s = _
    simp only [execTimebaseCounting, rdyTb, awake, ctrl, unset, counting, ready, Bool.not_false, Bool.or_true, Bool.and_self, if_true]
    rw [State.setReady_unset unset]

end Sys2Proof.Machine
end

section
/-!
SUPPORT. Writes of device registers (R209, R327 to R329, R333, R334, R337, R352): which register an offset names, what a word written into
a register file leaves, and what the event controller sends and delivers.
-/
namespace Sys2Proof.Machine

/-! ### Which register an offset names -/

section offsets
variable {o : Nat} {v : BitVec 32} {s : State}

theorem State.writeBar_evc (h : o % 4 = 0) (lo : 0x1000 ≤ o) (hi : o < 0x1800) : s.writeBar o v = s.writeEvc (o - 0x1000) v := by
  rw [State.writeBar, if_neg (by omega), if_neg (by omega), if_pos ⟨lo, hi⟩]

theorem State.writeBar_boot (h : o % 4 = 0) (lo : 0x3000 ≤ o) (hi : o < 0x3100) : s.writeBar o v = s.writeBoot (o - 0x3000) v := by
  rw [State.writeBar, if_neg (by omega), if_neg (by omega), if_neg (by omega), if_neg (by omega), if_pos ⟨lo, hi⟩]

theorem State.writeBar_msix (h : o % 4 = 0) (lo : 0x100000 ≤ o) (hi : o < 0x110000) : s.writeBar o v = s.writeMsix (o - 0x100000) v := by
  rw [State.writeBar, if_neg (by omega), if_neg (by omega), if_neg (by omega), if_neg (by omega), if_neg (by omega), if_pos ⟨lo, hi⟩]
  rfl

theorem State.writeBar_sluice (n : Fin 64) : s.writeBar (0x2000 + 16 * n) v = s.modSluice n (Sluice.clear v) := by
  have number : (⟨(0x2000 + 16 * n.val - 0x2000) / 16 % 64, by omega⟩ : Fin 64) = n := Fin.ext (by simp only; omega)
  rw [State.writeBar, if_neg (by omega), if_neg (by omega), if_neg (by omega), if_pos (by omega), number]

theorem State.writeBar_misaligned (h : o % 4 ≠ 0) : s.writeBar o v = s := if_pos h

/-- An offset in none of the blocks that hold a register to write. -/
theorem State.writeBar_other (h : o < 0x100000) (pps : o ≠ 0x108) (evc : ¬ (0x1000 ≤ o ∧ o < 0x1800))
    (sluice : ¬ (0x2000 ≤ o ∧ o < 0x2400 ∧ o % 16 = 0)) (boot : ¬ (0x3000 ≤ o ∧ o < 0x3100)) : s.writeBar o v = s := by
  by_cases aligned : o % 4 = 0
  · rw [State.writeBar, if_neg (by omega), if_neg pps, if_neg evc, if_neg sluice, if_neg boot, if_neg (by rw [msixBase]; omega),
      if_neg (by rw [configBase]; omega)]
  · exact State.writeBar_misaligned aligned

end offsets

/-! ### A word of a register file -/

/-- Word `i` of a register file replaced: the bits of the word are those written, the others stay. -/
theorem getLsbD_wordPut {w : Nat} {ones x : BitVec w} (v : BitVec 32) (i : Nat) {k : Nat} (hk : k < w)
    (h : ∀ j, ones.getLsbD j = (decide (j < 32) && decide (j < w))) :
    ((x &&& ~~~(ones <<< (32 * i))) ||| (v.setWidth w <<< (32 * i))).getLsbD k =
      if k / 32 = i then v.getLsbD (k % 32) else x.getLsbD k := by
  simp only [BitVec.getLsbD_or, BitVec.getLsbD_and, BitVec.getLsbD_not, BitVec.getLsbD_shiftLeft, BitVec.getLsbD_setWidth, h, hk,
    decide_true, Bool.true_and]
  rcases Nat.lt_trichotomy (k / 32) i with below | rfl | above
  · have outside : k < 32 * i := by omega
    simp [outside, Nat.ne_of_lt below]
  · have offset : k - 32 * (k / 32) = k % 32 := by omega
    have within : k % 32 < 32 := Nat.mod_lt _ (by decide)
    have start : ¬ k < 32 * (k / 32) := by omega
    have bound : k % 32 < w := by omega
    simp [offset, within, start, bound]
  · have start : ¬ k < 32 * i := by omega
    have beyond : ¬ k - 32 * i < 32 := by omega
    have unset : v.getLsbD (k - 32 * i) = false := BitVec.getLsbD_of_ge _ _ (by omega)
    simp [start, beyond, unset, Nat.ne_of_gt above]

theorem ones32_getLsbD {w : Nat} (j : Nat) :
    ((BitVec.allOnes 32).setWidth w).getLsbD j = (decide (j < 32) && decide (j < w)) := by
  simp only [BitVec.getLsbD_setWidth, BitVec.getLsbD_allOnes]
  exact Bool.and_comm _ _

/-! ### Messages (R334) -/

/-- Nothing but the pending messages and those sent differs. -/
def Evc.OnlyMessages (e f : Evc) : Prop := f = { e with pba := f.pba, sent := f.sent }

/-- One step of `Evc.unmask`. -/
def Evc.unmaskOne (e : Evc) (k : Nat) : Evc :=
  if e.pba.getLsbD k then ({ e with pba := setBit e.pba k false }).message (BitVec.ofNat 11 k) else e

theorem setBit_clear_set {w : Nat} {x : BitVec w} {k : Nat} (h : x.getLsbD k = true) : setBit (setBit x k false) k true = x := by
  refine BitVec.eq_of_getLsbD_eq fun j hj => ?_
  by_cases same : j = k
  · rw [same, setBit_same _ (same ▸ hj), h]
  · rw [setBit_other _ _ same, setBit_other _ _ same]

theorem setBit_clear_same {w : Nat} (x : BitVec w) (k : Nat) : (setBit x k false).getLsbD k = false := by
  by_cases h : k < w
  · simp [setBit, h]
  · exact BitVec.getLsbD_of_ge _ _ (by omega)

/-- A pending message goes out where its vector is masked no longer. -/
theorem Evc.unmaskOne_eq (e : Evc) (k : Nat) (h : k < 2048) : e.unmaskOne k =
    if e.pba.getLsbD k && !e.masks (BitVec.ofNat 11 k) then { e with pba := setBit e.pba k false, sent := BitVec.ofNat 11 k :: e.sent }
    else e := by
  have number : (BitVec.ofNat 11 k).toNat = k := by simp [Nat.mod_eq_of_lt h]
  have alike : ∀ p, ({ e with pba := p } : Evc).masks (BitVec.ofNat 11 k) = e.masks (BitVec.ofNat 11 k) := fun _ => rfl
  cases pending : e.pba.getLsbD k
  · simp [Evc.unmaskOne, pending]
  · cases masked : e.masks (BitVec.ofNat 11 k)
    · simp [Evc.unmaskOne, pending, Evc.message, alike, masked]
    · simp only [Evc.unmaskOne, pending, Evc.message, alike, masked, number, setBit_clear_set pending, if_true, Bool.not_true,
        Bool.and_false, Bool.false_eq_true, if_false]

/-- The pending messages of a list of vectors that are masked no longer, as numbers. -/
def Evc.due (e : Evc) (l : List Nat) : List Nat := l.filter (fun k => e.pba.getLsbD k && !e.masks (BitVec.ofNat 11 k))

/-- Pending messages of a list of vectors go out in its order where they are masked no longer; the others stay pending. -/
theorem Evc.foldl_unmaskOne (l : List Nat) (distinct : l.Nodup) (range : ∀ k ∈ l, k < 2048) (e : Evc) :
    Evc.OnlyMessages e (l.foldl Evc.unmaskOne e) ∧
    (∀ k, (l.foldl Evc.unmaskOne e).pba.getLsbD k = (e.pba.getLsbD k && !(decide (k ∈ l) && !e.masks (BitVec.ofNat 11 k)))) ∧
    (l.foldl Evc.unmaskOne e).sent = ((e.due l).map (BitVec.ofNat 11)).reverse ++ e.sent := by
  induction l generalizing e with
  | nil => exact ⟨rfl, fun k => by simp, rfl⟩
  | cons v l ih =>
    obtain ⟨fresh, rest⟩ := List.nodup_cons.mp distinct
    have step := Evc.unmaskOne_eq e v (range v List.mem_cons_self)
    rw [List.foldl_cons]
    cases out : e.pba.getLsbD v && !e.masks (BitVec.ofNat 11 v) with
    | false =>
      rw [out, if_neg Bool.false_ne_true] at step
      obtain ⟨only, pba, sent⟩ := ih rest (fun k hk => range k (List.mem_cons_of_mem _ hk)) e
      rw [step]
      refine ⟨only, fun k => (pba k).trans ?_, sent.trans ?_⟩
      · by_cases same : k = v
        · subst same
          cases h : e.pba.getLsbD k <;> simp_all
        · simp [same]
      · simp [Evc.due, out]
    | true =>
      rw [out, if_pos rfl] at step
      obtain ⟨only, pba, sent⟩ := ih rest (fun k hk => range k (List.mem_cons_of_mem _ hk)) (e.unmaskOne v)
      have masks : ∀ u, (e.unmaskOne v).masks u = e.masks u := fun u => by rw [step]; rfl
      have bits : (e.unmaskOne v).pba = setBit e.pba v false := by rw [step]
      refine ⟨?_, fun k => (pba k).trans ?_, sent.trans ?_⟩
      · refine Eq.trans only ?_
        rw [step]
      · rw [masks, bits]
        by_cases same : k = v
        · subst same
          have masked : e.masks (BitVec.ofNat 11 k) = false := by simpa using (Bool.and_eq_true_iff.mp out).2
          rw [setBit_clear_same, Bool.false_and, masked]
          simp
        · simp [same, setBit_other _ _ same]
      · have later : (e.unmaskOne v).due l = e.due l := by
          refine List.filter_congr fun k hk => ?_
          rw [masks, bits, setBit_other _ _ (by rintro rfl; exact fresh hk)]
        rw [later, step]
        simp [Evc.due, out]

/-- What unmasking leaves: messages still masked stay pending, and the others are sent, lowest vector first. -/
theorem Evc.unmask_spec (e : Evc) :
    Evc.OnlyMessages e e.unmask ∧ (∀ k : Fin 2048, e.unmask.pba.getLsbD k = (e.pba.getLsbD k && e.masks (BitVec.ofNat 11 k))) ∧
    e.unmask.sent = ((e.due (List.range 2048)).map (BitVec.ofNat 11)).reverse ++ e.sent := by
  by_cases none : e.pba = 0
  · have idle : e.unmask = e := if_pos none
    have nothing : e.due (List.range 2048) = [] := by simp [Evc.due, none]
    rw [idle, nothing]
    exact ⟨rfl, fun k => by simp [none], rfl⟩
  · have runs : e.unmask = (List.range 2048).foldl Evc.unmaskOne e := if_neg none
    obtain ⟨only, pba, sent⟩ := Evc.foldl_unmaskOne (List.range 2048) List.nodup_range (fun _ => List.mem_range.mp) e
    rw [runs]
    refine ⟨only, fun k => (pba k).trans ?_, sent⟩
    simp only [List.mem_range, k.isLt, decide_true, Bool.true_and, Bool.not_not]

/-- A table that lists only what differs from a default `d` at number `n`, with `w` put there. -/
theorem Table.get_unlessDefault {α : Type} [DecidableEq α] (t : Table α) (n m : Nat) (w d : α) :
    Table.get (if w = d then Table.drop t n else Table.put t n w) m = if m = n then (if w = d then none else some w) else Table.get t m := by
  by_cases same : m = n
  · subst same
    split <;> simp
  · rw [if_neg same]
    split
    · exact Table.get_drop_other same t
    · exact Table.get_put_other w same t

/-- The entry of a vector whose double word is written: the table lists what differs from a masked entry (R328). -/
theorem Evc.entry_written (e : Evc) (n : Nat) (w : BitVec 128) (m : Nat) :
    ({ e with table := if w = 1#128 <<< 96 then Table.drop e.table n else Table.put e.table n w } : Evc).entry m =
      if m = n then w else e.entry m := by
  rw [Evc.entry, Evc.entry, Table.get_unlessDefault]
  by_cases same : m = n
  · rw [if_pos same, if_pos same]
    split
    · next reset => exact reset.symm
    · rfl
  · rw [if_neg same, if_neg same]

/-- The vector of a source once written: the list holds what differs from the source's number (R333). -/
theorem Evc.vector_written (e : Evc) (n : Nat) (w : BitVec 11) (k : Nat) :
    ({ e with vec := if w = BitVec.ofNat 11 n then Table.drop e.vec n else Table.put e.vec n w } : Evc).vector k =
      if k = n then w else e.vector k := by
  rw [Evc.vector, Evc.vector, Table.get_unlessDefault]
  by_cases same : k = n
  · rw [if_pos same, if_pos same, same]
    split
    · next reset => exact reset.symm
    · rfl
  · rw [if_neg same, if_neg same]

/-! ### Delivery (R334) -/

/-- Sources may have been delivered: what is enabled stands, and no source has become pending. -/
structure Evc.Drained (e f : Evc) : Prop where
  en : f.en = e.en
  pend : ∀ n, f.pend.getLsbD n = true → e.pend.getLsbD n = true

namespace Evc.Drained

variable {e f g : Evc}

theorem refl (e : Evc) : Evc.Drained e e := ⟨rfl, fun _ h => h⟩

theorem trans (h : Evc.Drained e f) (k : Evc.Drained f g) : Evc.Drained e g := ⟨k.en.trans h.en, fun n hn => h.pend n (k.pend n hn)⟩

/-- A source that is not due does not become so. -/
theorem undue (h : Evc.Drained e f) {n : Nat} (k : (e.pend.getLsbD n && e.en.getLsbD n) = false) :
    (f.pend.getLsbD n && f.en.getLsbD n) = false := by
  rw [h.en]
  cases pending : f.pend.getLsbD n
  · rfl
  · rwa [h.pend n pending] at k

end Evc.Drained

theorem Evc.message_pend (v : BitVec 11) (e : Evc) : (e.message v).pend = e.pend ∧ (e.message v).en = e.en ∧
    (e.message v).holdUntil = e.holdUntil := by
  unfold Evc.message
  split <;> exact ⟨rfl, rfl, rfl⟩

theorem Evc.deliverOne_drained (src : Nat) (e : Evc) : Evc.Drained e (e.deliverOne src) := by
  unfold Evc.deliverOne
  split
  · obtain ⟨pend, en, -⟩ := Evc.message_pend (e.vector src) { e with pend := setBit e.pend src false }
    refine ⟨en, fun n h => ?_⟩
    rw [pend] at h
    by_cases same : n = src
    · rw [same, setBit_clear_same] at h
      cases h
    · rwa [setBit_other _ _ same] at h
  · exact .refl e

/-- A source delivered is due no longer. -/
theorem Evc.deliverOne_undue (src : Nat) (e : Evc) :
    ((e.deliverOne src).pend.getLsbD src && (e.deliverOne src).en.getLsbD src) = false := by
  unfold Evc.deliverOne
  split
  · rw [(Evc.message_pend _ _).1, setBit_clear_same, Bool.false_and]
  · next idle => exact Bool.not_eq_true _ ▸ idle

theorem Evc.deliverOne_holdUntil (src : Nat) (e : Evc) : (e.deliverOne src).holdUntil = e.holdUntil := by
  unfold Evc.deliverOne
  split
  · exact (Evc.message_pend _ _).2.2
  · rfl

/-- Sources of a list delivered one after the other: none becomes due, each of them is due no longer, and no hold-off moves. -/
theorem Evc.foldl_deliverOne (src : Nat → Nat) (l : List Nat) (e : Evc) :
    Evc.Drained e (l.foldl (fun c k => c.deliverOne (src k)) e) ∧
    (∀ k ∈ l, ((l.foldl (fun c k => c.deliverOne (src k)) e).pend.getLsbD (src k) &&
      (l.foldl (fun c k => c.deliverOne (src k)) e).en.getLsbD (src k)) = false) ∧
    (l.foldl (fun c k => c.deliverOne (src k)) e).holdUntil = e.holdUntil := by
  induction l generalizing e with
  | nil => exact ⟨.refl e, fun _ h => absurd h List.not_mem_nil, rfl⟩
  | cons a l ih =>
    obtain ⟨drained, undue, until_⟩ := ih (e.deliverOne (src a))
    refine ⟨(Evc.deliverOne_drained _ e).trans drained, fun k hk => ?_, until_.trans (Evc.deliverOne_holdUntil _ e)⟩
    rcases List.mem_cons.mp hk with rfl | later
    · exact drained.undue (Evc.deliverOne_undue _ e)
    · exact undue k later

/-- A group is ready where one of its sources is due. -/
theorem Evc.ready_eq_false {e : Evc} {g : Fin 16} :
    e.ready g = false ↔ ∀ k < 16, (e.pend.getLsbD (16 * g + k) && e.en.getLsbD (16 * g + k)) = false := by
  have group : ∀ n < 256, (0xFFFF#256 <<< (16 * g.val)).getLsbD n = (decide (16 * g.val ≤ n) && decide (n < 16 * g.val + 16)) := by
    intro n hn
    have ones : 0xFFFF#256 = (BitVec.allOnes 16).setWidth 256 := rfl
    rw [ones, BitVec.getLsbD_shiftLeft, BitVec.getLsbD_setWidth, BitVec.getLsbD_allOnes, Bool.eq_iff_iff]
    simp only [Bool.and_eq_true, decide_eq_true_eq, Bool.not_eq_true', decide_eq_false_iff_not]
    omega
  have zero : e.ready g = false ↔ e.pend &&& e.en &&& (0xFFFF#256 <<< (16 * g.val)) = 0#256 := by
    simp [Evc.ready, anyBit]
  rw [zero]
  constructor
  · intro none k hk
    have bit := congrArg (fun x : BitVec 256 => x.getLsbD (16 * g + k)) none
    have inside : decide (16 * g.val ≤ 16 * g.val + k) = true ∧ decide (16 * g.val + k < 16 * g.val + 16) = true :=
      ⟨decide_eq_true (by omega), decide_eq_true (by omega)⟩
    simpa only [BitVec.getLsbD_and, group _ (show 16 * g.val + k < 256 by omega), inside, Bool.and_true, Bool.and_self,
      BitVec.getLsbD_zero] using bit
  · intro none
    refine BitVec.eq_of_getLsbD_eq fun n hn => ?_
    rw [BitVec.getLsbD_and, BitVec.getLsbD_and, group n hn, BitVec.getLsbD_zero]
    by_cases inside : 16 * g.val ≤ n ∧ n < 16 * g.val + 16
    · have due := none (n - 16 * g.val) (by omega)
      rw [Nat.add_sub_cancel' inside.1] at due
      rw [due, Bool.false_and]
    · rcases not_and_or.mp inside with h | h <;> simp [h]

theorem Evc.Drained.ready {e f : Evc} (h : Evc.Drained e f) {g : Fin 16} (k : e.ready g = false) : f.ready g = false :=
  Evc.ready_eq_false.mpr fun n hn => h.undue (Evc.ready_eq_false.mp k n hn)

/-- A group delivers: none becomes due, it is ready no longer where its hold-off has ended, and no other group's hold-off moves. -/
theorem Evc.deliver_spec (now : Nat) (g : Fin 16) (e : Evc) :
    Evc.Drained e (e.deliver now g) ∧ (e.holdUntil[g] ≤ now → (e.deliver now g).ready g = false) ∧
    (∀ j, j ≠ g → (e.deliver now g).holdUntil[j] = e.holdUntil[j]) := by
  unfold Evc.deliver
  cases due : e.ready g with
  | false => simpa [due] using Evc.Drained.refl e
  | true =>
    by_cases free : e.holdUntil[g] ≤ now
    · obtain ⟨drained, undue, until_⟩ := Evc.foldl_deliverOne (fun k => 16 * g.val + k) (List.range 16) e
      simp only [free, decide_true, Bool.and_self, if_true]
      refine ⟨⟨drained.en, drained.pend⟩, fun _ => Evc.ready_eq_false.mpr fun k hk => undue k (List.mem_range.mpr hk), fun j other => ?_⟩
      have apart : g.val ≠ j.val := fun same => other (Fin.ext same.symm)
      simpa [Vector.getElem_set_ne, apart] using congrArg (fun u : Vector Nat 16 => u[j]) until_
    · simp only [free, decide_false, Bool.and_false, Bool.false_eq_true, if_false]
      exact ⟨.refl e, False.elim, fun _ _ => trivial⟩

/-- Groups deliver in turn: each whose hold-off had ended is ready no longer. -/
theorem Evc.foldl_deliver (now : Nat) (l : List (Fin 16)) (distinct : l.Nodup) (e : Evc) :
    Evc.Drained e (l.foldl (fun c g => c.deliver now g) e) ∧
    ∀ g ∈ l, e.holdUntil[g] ≤ now → (l.foldl (fun c g => c.deliver now g) e).ready g = false := by
  induction l generalizing e with
  | nil => exact ⟨.refl e, fun _ h => absurd h List.not_mem_nil⟩
  | cons a l ih =>
    obtain ⟨fresh, rest⟩ := List.nodup_cons.mp distinct
    obtain ⟨drained, undue, others⟩ := Evc.deliver_spec now a e
    obtain ⟨later, ready⟩ := ih rest (e.deliver now a)
    refine ⟨drained.trans later, fun g hg free => ?_⟩
    rcases List.mem_cons.mp hg with rfl | among
    · exact later.ready (undue free)
    · have apart : g ≠ a := by rintro rfl; exact fresh among
      exact ready g among ((others g apart).trans_le free)

/-! ### The statement -/

section registers
variable {s : State} {v : BitVec 32}

/-- A write that reaches a register of the device. -/
theorem deviceRegisterWrite_completes (awake : s.awake = true) (bus : s.pwr.perst = false) {o : Nat} {t : State} {q : State → Prop}
    (h : s.writeBar o v = t) (k : q t) : Completes (.deviceRegisterWrite o v) s q :=
  ⟨t, by rw [← h]; exact State.onBar_awake awake bus _, k⟩

/-- A double word of an entry, with what becomes of the messages that were pending (R328, R334). -/
theorem State.writeMsix_entry (n : Fin 2048) (i : Fin 4) : ∃ e : Evc,
    s.writeBar (0x100000 + 16 * n + 4 * i) v = { s with evc := e.unmask } ∧ (∃ t, e = { s.evc with table := t }) ∧
    (∀ m, m ≠ n.val → e.entry m = s.evc.entry m) ∧
    ∀ k : Fin 128, (e.entry n).getLsbD k = if k.val / 32 = i then v.getLsbD (k.val % 32) else (s.evc.entry n).getLsbD k := by
  have number : (0x100000 + 16 * n.val + 4 * i.val - 0x100000) / 16 = n.val := by omega
  have word : (0x100000 + 16 * n.val + 4 * i.val - 0x100000) % 16 / 4 = i.val := by omega
  rw [State.writeBar_msix (by omega) (by omega) (by omega), State.writeMsix, if_pos (by omega)]
  simp only [number, word]
  refine ⟨_, rfl, ⟨_, rfl⟩, fun m other => ?_, fun k => ?_⟩
  · rw [Evc.entry_written, if_neg other]
  · rw [Evc.entry_written, if_pos rfl]
    exact getLsbD_wordPut v i.val k.isLt ones32_getLsbD

/-- A word of `EVC_EN`: it is in force, and every group whose hold-off has ended delivers (R333, R334). -/
theorem State.writeEvc_en (i : Fin 8) : ∃ e : Evc, s.writeBar (0x1020 + 4 * i) v = { s with evc := e } ∧
    (∀ k : Fin 256, e.en.getLsbD k = if k.val / 32 = i then v.getLsbD (k.val % 32) else s.evc.en.getLsbD k) ∧
    ∀ g : Fin 16, s.evc.holdUntil[g] ≤ s.tb.time → e.ready g = false := by
  have word : (0x1020 + 4 * i.val - 0x1000 - 0x20) / 4 = i.val := by omega
  rw [State.writeBar_evc (by omega) (by omega) (by omega), State.writeEvc, if_neg (by omega), if_pos (by omega), word]
  obtain ⟨drained, undue⟩ := Evc.foldl_deliver s.now (List.finRange 16) (List.nodup_finRange 16)
    { s.evc with en := putWord s.evc.en i v }
  refine ⟨_, rfl, fun k => ?_, fun g free => undue g (List.mem_finRange g) free⟩
  exact (congrArg (fun x : BitVec 256 => x.getLsbD k) drained.en).trans (getLsbD_wordPut v i.val k.isLt ones32_getLsbD)

/-- A group's HOLD (R333). -/
theorem State.writeEvc_hold (g : Fin 16) :
    s.writeBar (0x1040 + 4 * g) v = { s with evc := { s.evc with hold := s.evc.hold.set g (v.setWidth 10) } } := by
  have group : (0x1040 + 4 * g.val - 0x1000 - 0x40) / 4 % 16 = g.val := by omega
  rw [State.writeBar_evc (by omega) (by omega) (by omega), State.writeEvc, if_neg (by omega), if_neg (by omega), if_pos (by omega)]
  simp only [group]

/-- A source's VECTOR (R333). -/
theorem State.writeEvc_vector (n : Fin 256) : ∃ l, s.writeBar (0x1400 + 4 * n) v = { s with evc := { s.evc with vec := l } } ∧
    ∀ k, ({ s.evc with vec := l } : Evc).vector k = if k = n.val then v.setWidth 11 else s.evc.vector k := by
  have number : (0x1400 + 4 * n.val - 0x1000 - 0x400) / 4 = n.val := by omega
  rw [State.writeBar_evc (by omega) (by omega) (by omega), State.writeEvc, if_neg (by omega), if_neg (by omega), if_neg (by omega),
    if_neg (by omega), if_pos (by omega), number]
  exact ⟨_, rfl, Evc.vector_written s.evc n _⟩

/-- W1C of a word of `EVC_PEND` (R333). -/
theorem State.writeEvc_pend (i : Fin 8) : s.writeBar (0x1000 + 4 * i) v =
    { s with evc := { s.evc with pend := s.evc.pend &&& ~~~(v.setWidth 256 <<< (32 * i.val)) } } := by
  have word : (0x1000 + 4 * i.val - 0x1000) / 4 = i.val := by omega
  rw [State.writeBar_evc (by omega) (by omega) (by omega), State.writeEvc, if_pos (by omega), word]

theorem setIfInBounds_fin {α : Type} {n : Nat} (u : Vector α n) (i : Fin n) (a : α) : u.setIfInBounds i a = u.set i a := by
  refine Vector.ext fun j hj => ?_
  rw [Vector.getElem_setIfInBounds, Vector.getElem_set]

/-- The boot registers (R337). -/
theorem State.writeBoot_cmd (i : Fin 12) : s.writeBar (0x3000 + 4 * i) v =
    { s with boot := { s.boot with cmd := s.boot.cmd.set i v } } := by
  have word : (0x3000 + 4 * i.val - 0x3000) / 4 = i.val := by omega
  rw [State.writeBar_boot (by omega) (by omega) (by omega), State.writeBoot, if_pos (by omega), word, setIfInBounds_fin]

/-- See `writeBoot_cmd`. -/
theorem State.writeBoot_cpl (i : Fin 12) : s.writeBar (0x3040 + 4 * i) v =
    { s with boot := { s.boot with cpl := s.boot.cpl.set i v } } := by
  have word : (0x3040 + 4 * i.val - 0x3000 - 0x40) / 4 = i.val := by omega
  rw [State.writeBar_boot (by omega) (by omega) (by omega), State.writeBoot, if_neg (by omega), if_pos (by omega), word,
    setIfInBounds_fin]

/-- `FUNCTION_MASK` and enable of MSI-X; what they unmask is sent (R327, R334). -/
theorem State.writeConfig_msix :
    s.writeBar 0x200000 v = { s with evc := ({ s.evc with msixOn := v.getLsbD 31, msixHeld := v.getLsbD 30 } : Evc).unmask } := rfl

theorem payload_sizes (n d : Nat) :
    (if n ≤ 2 then 128 * 2 ^ n else d) = match n with | 0 => 128 | 1 => 256 | 2 => 512 | _ => d := by
  match n with
  | 0 | 1 | 2 => rfl
  | n + 3 => exact if_neg (by omega)

theorem read_sizes (n d : Nat) : (if n ≤ 5 then 128 * 2 ^ n else d) =
    match n with | 0 => 128 | 1 => 256 | 2 => 512 | 3 => 1024 | 4 => 2048 | 5 => 4096 | _ => d := by
  match n with
  | 0 | 1 | 2 | 3 | 4 | 5 => rfl
  | n + 6 => exact if_neg (by omega)

/-- A request size is 128 bytes times a power of two. -/
theorem State.writeConfig_sizes : s.writeBar 0x200004 v = { s with pcie := { s.pcie with
    maxPayload := match bits v 7 5 with | 0 => 128 | 1 => 256 | 2 => 512 | _ => s.pcie.maxPayload
    maxRead := match bits v 14 12 with | 0 => 128 | 1 => 256 | 2 => 512 | 3 => 1024 | 4 => 2048 | 5 => 4096 | _ => s.pcie.maxRead } } := by
  have written : s.writeBar 0x200004 v = { s with pcie := { s.pcie with
    maxPayload := if bits v 7 5 ≤ 2 then 128 * 2 ^ bits v 7 5 else s.pcie.maxPayload
    maxRead := if bits v 14 12 ≤ 5 then 128 * 2 ^ bits v 14 12 else s.pcie.maxRead } } := rfl
  rw [written, payload_sizes, read_sizes]

end registers

/-- What `unmask` leaves of each part of the event controller, its own masks deciding which messages go (R334). -/
theorem Evc.unmask_parts (e : Evc) :
    e.unmask.table = e.table ∧ e.unmask.msixOn = e.msixOn ∧ e.unmask.msixHeld = e.msixHeld ∧ e.unmask.pend = e.pend ∧
    e.unmask.en = e.en ∧ e.unmask.hold = e.hold ∧ e.unmask.holdUntil = e.holdUntil ∧ e.unmask.vec = e.vec ∧
    (∀ k : Fin 2048, e.unmask.pba.getLsbD k = (e.pba.getLsbD k && e.unmask.masks (BitVec.ofNat 11 k))) ∧
    e.unmask.sent = (((List.range 2048).filter (fun k => e.pba.getLsbD k && !e.unmask.masks (BitVec.ofNat 11 k))).map
      (BitVec.ofNat 11)).reverse ++ e.sent := by
  obtain ⟨only, pba, sent⟩ := Evc.unmask_spec e
  have masks : e.unmask.masks = e.masks := by rw [only]; rfl
  rw [masks]
  exact ⟨by rw [only], by rw [only], by rw [only], by rw [only], by rw [only], by rw [only], by rw [only], by rw [only], pba, sent⟩

theorem Evc.unmask_entry (e : Evc) (m : Nat) : e.unmask.entry m = e.entry m := by
  rw [Evc.entry, (Evc.unmask_parts e).1]
  rfl

/-- Settles O40: each offset names its register, whose write is then one of the rules above. -/
theorem deviceRegisters : Obligations.DeviceRegisters := by
  intro s v awake bus
  have reaches {o : Nat} {t : State} {q : State → Prop} (h : s.writeBar o v = t) (k : q t) : Completes (.deviceRegisterWrite o v) s q :=
    deviceRegisterWrite_completes awake bus h k
  refine ⟨fun n i => ?_, ?_, reaches State.writeConfig_sizes rfl, fun i => reaches (State.writeEvc_pend i) rfl, fun i => ?_,
    fun g => reaches (State.writeEvc_hold g) rfl, fun n => ?_, reaches rfl rfl, fun n => reaches (State.writeBar_sluice n) rfl,
    fun i => reaches (State.writeBoot_cmd i) rfl, fun i => reaches (State.writeBoot_cpl i) rfl, fun o listed => ?_⟩
  · obtain ⟨e, written, ⟨table, rfl⟩, others, bits⟩ := State.writeMsix_entry (s := s) (v := v) n i
    obtain ⟨-, on, held, messages⟩ := Evc.unmask_parts { s.evc with table := table }
    exact reaches written ⟨rfl, messages, on, held, fun m other => (Evc.unmask_entry _ m).trans (others m other),
      fun k => (congrArg (fun x : BitVec 128 => x.getLsbD k) (Evc.unmask_entry _ n)).trans (bits k)⟩
  · obtain ⟨table, on, held, messages⟩ := Evc.unmask_parts { s.evc with msixOn := v.getLsbD 31, msixHeld := v.getLsbD 30 }
    exact reaches State.writeConfig_msix ⟨rfl, messages, table, on, held⟩
  · obtain ⟨e, written, en, ready⟩ := State.writeEvc_en (s := s) (v := v) i
    exact reaches written ⟨rfl, en, ready⟩
  · obtain ⟨l, written, vector⟩ := State.writeEvc_vector (s := s) (v := v) n
    exact reaches written ⟨rfl, (vector n).trans (if_pos rfl), fun k other => (vector k).trans (if_neg fun same => other (Fin.ext same))⟩
  · simp only [List.mem_cons, List.not_mem_nil, or_false] at listed
    refine reaches (t := s) ?_ rfl
    by_cases aligned : o % 4 = 0
    · exact State.writeBar_other (by omega) (by omega) (by omega) (by omega) (by omega)
    · exact State.writeBar_misaligned aligned

end Sys2Proof.Machine
end

section
/-!
SUPPORT. Reception (R306, R311 to R313, R325, R326): what the counters of a port and of a flow entry leave alone, and each way a frame goes.
-/
namespace Sys2Proof.Machine

/-! ### Ports and flow entries -/

section ports
variable (e : Fin 2) (f g : PortCtr → PortCtr) (s : State)

theorem State.countPort_countPort : (s.countPort e f).countPort e g = s.countPort e (fun k => g (f k)) := by
  simp [State.countPort, State.modPort, vmod]

/-- The settings of every port are as they were. -/
theorem State.countPort_ports (j : Fin 2) : ∃ k, (s.countPort e f).ports[j] = { s.ports[j] with ctr := k } := by
  refine ⟨if j = e then f s.ports[j].ctr else s.ports[j].ctr, ?_⟩
  have h : (s.countPort e f).ports[j] = if j = e then { s.ports[j] with ctr := f s.ports[j].ctr } else s.ports[j] := vmod_get _ _ _ _
  rw [h]
  split <;> rfl

theorem State.countPort_settings (j : Fin 2) :
    (s.countPort e f).ports[j].rxRing = s.ports[j].rxRing ∧ (s.countPort e f).ports[j].mac = s.ports[j].mac := by
  obtain ⟨k, ports⟩ := State.countPort_ports e f s j
  rw [ports]
  exact ⟨rfl, rfl⟩

theorem State.flow_countPort : (s.countPort e f).flow = s.flow := rfl
theorem State.ring_countPort : (s.countPort e f).ring = s.ring := rfl
theorem State.site_countPort : (s.countPort e f).site = s.site := rfl

/-- What is neither a port nor the flow table stands. -/
theorem State.countPort_others : (s.countPort e f).tb = s.tb ∧ (s.countPort e f).host = s.host ∧ (s.countPort e f).sites = s.sites ∧
    (s.countPort e f).flows = s.flows ∧ (s.countPort e f).bitternWritten = s.bitternWritten ∧
    (s.countPort e f).bitternCounted = s.bitternCounted := ⟨rfl, rfl, rfl, rfl, rfl, rfl⟩

theorem State.countPort_ports_congr {s u : State} (h : u.ports = s.ports) (e : Fin 2) (f : PortCtr → PortCtr) :
    (u.countPort e f).ports = (s.countPort e f).ports := by
  simp only [State.countPort, State.modPort, h]

/-- The entry a datagram belongs to does not depend on counters. -/
theorem State.entryOf_countPort : (s.countPort e f).entryOf = s.entryOf := by
  funext j d
  obtain ⟨k, ports⟩ := State.countPort_ports e f s j
  simp only [State.entryOf, State.matchesEntry, ports]
  rfl

end ports

@[simp] theorem State.flow_putFlow_same (n : Nat) (f : Flow) (s : State) : (s.putFlow n f).flow n = f := by
  simp [State.flow, State.putFlow]

theorem State.flow_putFlow_other {n m : Nat} (h : m ≠ n) (f : Flow) (s : State) : (s.putFlow n f).flow m = s.flow m := by
  simp [State.flow, State.putFlow, Table.get_put_other f h]

theorem State.flow_countFlow (n : Nat) (f : FlowCtr → FlowCtr) (s : State) :
    (s.countFlow n f).flow n = { s.flow n with ctr := f (s.flow n).ctr } := State.flow_putFlow_same _ _ _

theorem Eventful.flow {s t : State} (h : Eventful s t) (n : Nat) : t.flow n = s.flow n := by rw [h.only.eq]; rfl

theorem Eventful.flows {s t : State} (h : Eventful s t) : t.flows = s.flows := (congrArg State.flows h.only.eq).trans rfl

theorem Eventful.ports {s t : State} (h : Eventful s t) : t.ports = s.ports := (congrArg State.ports h.only.eq).trans rfl

/-! ### Discarded, or handed on -/

section receive
variable {e : Fin 2} {f : List Byte} {s : State}

/-- What a frame that is not discarded for its FCS or size counts: itself, and its bytes with the FCS (R326). -/
def PortCtr.seen (n : Nat) (k : PortCtr) : PortCtr := { k with rxFrames := inc32 k.rxFrames, rxBytes := (k.rxBytes + n + 4) % 2 ^ 64 }

theorem PortCtr.seen_others (n : Nat) (k : PortCtr) : (k.seen n).macCtl = k.macCtl ∧ (k.seen n).foreign = k.foreign ∧
    (k.seen n).ringFull = k.ringFull ∧ (k.seen n).toRing = k.toRing := ⟨rfl, rfl, rfl, rfl⟩

/-- A frame seen, and then counted under what becomes of it. -/
theorem State.countPort_seen (e : Fin 2) (n : Nat) (s : State) :
    (s.countPort e (PortCtr.seen n)).countPort e (fun k => { k with macCtl := inc32 k.macCtl }) =
      s.countPort e (fun k => { k.seen n with macCtl := inc32 k.macCtl }) ∧
    (s.countPort e (PortCtr.seen n)).countPort e (fun k => { k with foreign := inc32 k.foreign }) =
      s.countPort e (fun k => { k.seen n with foreign := inc32 k.foreign }) ∧
    (s.countPort e (PortCtr.seen n)).countPort e (fun k => { k with ringFull := inc32 k.ringFull }) =
      s.countPort e (fun k => { k.seen n with ringFull := inc32 k.ringFull }) ∧
    (s.countPort e (PortCtr.seen n)).countPort e (fun k => { k with toRing := inc32 k.toRing }) =
      s.countPort e (fun k => { k.seen n with toRing := inc32 k.toRing }) := by
  have counts {g h : PortCtr → PortCtr} (k : ∀ c, g (c.seen n) = h c) :
      (s.countPort e (PortCtr.seen n)).countPort e g = s.countPort e h :=
    (State.countPort_countPort _ _ _ _).trans (congrArg (fun f => s.countPort e f) (funext k))
  refine ⟨counts fun k => ?_, counts fun k => ?_, counts fun k => ?_, counts fun k => ?_⟩
  · rw [(PortCtr.seen_others n k).1]
  · rw [(PortCtr.seen_others n k).2.1]
  · rw [(PortCtr.seen_others n k).2.2.1]
  · rw [(PortCtr.seen_others n k).2.2.2]

theorem State.receive_badSize (h : ¬ (60 ≤ f.length ∧ f.length ≤ 9212)) :
    s.receive e f true = s.countPort e (fun k => { k with size := inc32 k.size }) := by
  rw [State.receive, if_neg (by decide), if_pos (by omega)]

theorem State.receive_sized (h : 60 ≤ f.length ∧ f.length ≤ 9212) : s.receive e f true =
    if etherType f = 0x8808 then (s.countPort e (PortCtr.seen f.length)).countPort e (fun k => { k with macCtl := inc32 k.macCtl })
    else if !((slice f 0 6).headD 0).getLsbD 0 && slice f 0 6 != s.ports[e].mac then
      (s.countPort e (PortCtr.seen f.length)).countPort e (fun k => { k with foreign := inc32 k.foreign })
    else (s.countPort e (PortCtr.seen f.length)).classify e f := by
  have counts : PortCtr.seen f.length =
      fun k => { k with rxFrames := inc32 k.rxFrames, rxBytes := (k.rxBytes + (f.length + 4)) % 2 ^ 64 } := by
    funext k
    rw [← Nat.add_assoc]
    rfl
  have mac : (s.countPort e (PortCtr.seen f.length)).ports[e].mac = s.ports[e].mac := (State.countPort_settings _ _ _ _).2
  rw [← mac, counts, State.receive, if_neg (by decide), if_neg (by omega)]

/-- The first byte of a frame's destination. -/
theorem headD_slice (h : 60 ≤ f.length) : (slice f 0 6).headD 0 = f.headD 0 := by
  cases f with
  | nil => simp at h
  | cons b f => simp [slice]

/-- A frame whose destination is the port's, or a group's, and that is no MAC control frame, is classified (R306). -/
theorem State.receive_mine (h : 60 ≤ f.length ∧ f.length ≤ 9212) (type : etherType f ≠ 0x8808)
    (mine : ((f.headD 0).getLsbD 0 || slice f 0 6 == s.ports[e].mac) = true) :
    s.receive e f true = (s.countPort e (PortCtr.seen f.length)).classify e f := by
  have here : (!(f.headD 0).getLsbD 0 && slice f 0 6 != s.ports[e].mac) = false := by
    rw [← Bool.not_inj_iff, Bool.not_and, Bool.not_not, bne, Bool.not_not, mine]
    rfl
  rw [State.receive_sized h, if_neg type, headD_slice h.1, here, if_neg Bool.false_ne_true]

theorem State.receive_foreign (h : 60 ≤ f.length ∧ f.length ≤ 9212) (type : etherType f ≠ 0x8808)
    (foreign : ((f.headD 0).getLsbD 0 || slice f 0 6 == s.ports[e].mac) = false) : s.receive e f true =
    (s.countPort e (PortCtr.seen f.length)).countPort e (fun k => { k with foreign := inc32 k.foreign }) := by
  have elsewhere : (!(f.headD 0).getLsbD 0 && slice f 0 6 != s.ports[e].mac) = true := by
    rw [← Bool.not_inj_iff, Bool.not_and, Bool.not_not, bne, Bool.not_not, foreign]
    rfl
  rw [State.receive_sized h, if_neg type, headD_slice h.1, elsewhere, if_pos rfl]

/-- A frame that belongs to no entry goes to the host (R311). -/
theorem State.classify_unmatched (h : (datagramOf f).bind (s.entryOf e) = none) : s.classify e f = s.toHost e none f := by
  unfold State.classify
  cases d : datagramOf f with
  | none => rfl
  | some d' =>
    rw [d] at h
    simp only [Option.bind_some] at h
    simp only [h]

/-- A datagram of an entry that takes input records, and that is no RTP packet, is one (R311). -/
theorem State.classify_record {d : Datagram} {n : Nat} (hd : datagramOf f = some d) (hn : s.entryOf e d = some n)
    (h : (!(bits (d.payload.headD 0) 7 6 == 2 && !d.payload.isEmpty) && (s.flow n).rx) = true) :
    s.classify e f = s.inputRecord e n d.payload := by
  obtain ⟨other, rx⟩ := Bool.and_eq_true_iff.mp h
  rw [Bool.and_comm, Bool.not_eq_true'] at other
  simp only [State.classify, hd, hn, other, rx, Bool.false_eq_true, Bool.not_true, if_false]

theorem State.toHost_noRing {o : Option Nat} (h : s.ring s.ports[e].rxRing = none) :
    s.toHost e o f = s.countPort e (fun k => { k with ringFull := inc32 k.ringFull }) := by
  simp only [State.toHost, h]

/-- The 32 bytes of a `PKT_RX` entry of a frame that belongs to no entry (R345). -/
def rxEntry (e : Fin 2) (len off now : Nat) : List Byte :=
  leBytes 2 len ++ [BitVec.ofNat 8 e.val, 0, 0, 0, 0, 0] ++ leBytes 8 off ++ leBytes 8 now ++ List.replicate 8 0

/-- Where the ring has room, the frame stands in its data area, then the entry, then the index (R338, R345). -/
theorem State.toHost_taken {r : Ring} {o : Nat} (h : s.ring s.ports[e].rxRing = some r) (room : r.full = false)
    (place : r.dataPlace f.length = some o) : ∃ u, Eventful s u ∧
      u.host = ((s.host.writeBytes (r.dataBase + o) f).writeBytes (r.entryAddr r.dev) (rxEntry e f.length o s.now)).writeBytes r.idxAddr
        (leBytes 4 (r.dev + 1).toNat) ∧
      s.toHost e none f = u.countPort e (fun k => { k with toRing := inc32 k.toRing }) := by
  have placed : Eventful s ((s.hostWrite (r.dataBase + o) f).putRing s.ports[e].rxRing (r.dataTaken o f.length)) :=
    (State.hostWrite_eventful _ _ s).trans (Eventful.putRing (by exact h) _)
  have ring : ((s.hostWrite (r.dataBase + o) f).putRing s.ports[e].rxRing (r.dataTaken o f.length)).ring s.ports[e].rxRing =
      some (r.dataTaken o f.length) := Table.get_put_same _ _ _
  refine ⟨_, placed.trans (State.pushEntry_eventful _ (rxEntry e f.length o s.now) _), State.pushEntry_host ring _, ?_⟩
  have entry : leBytes 2 f.length ++ [BitVec.ofNat 8 e.val, 0] ++ leBytes 2 0 ++ [0, 0] ++ leBytes 8 o ++ leBytes 8 s.now ++
      List.replicate 8 0 = rxEntry e f.length o s.now := by
    simp [rxEntry, leBytes]
  simp only [State.toHost, h, place, room, Bool.false_eq_true, if_false]
  rw [← entry]
  rfl

end receive

/-! ### Input records (R222, R312, R313) -/

/-- The causes are numbered 1 to 8, and the last is a full queue of a pan that is there (R313). -/
theorem rejectCause_range {f : Flow} {slot : Nat} {x : Option Site} {b : List Byte} {c : Nat} (h : rejectCause f slot x b = some c) :
    (1 ≤ c ∧ c ≤ 8) ∧ (c = 8 → x.isSome = true) := by
  have numbered {k : Nat} (h : some k = some c) (hk : 1 ≤ k ∧ k ≤ 7) : (1 ≤ c ∧ c ≤ 8) ∧ (c = 8 → x.isSome = true) := by
    cases h
    exact ⟨by omega, fun e => absurd e (by omega)⟩
  unfold rejectCause at h
  iterate 7
    split at h
    · exact numbered h (by decide)
  split at h
  · next full =>
    refine ⟨by cases h; decide, fun _ => ?_⟩
    obtain ⟨y, hy, -⟩ := Option.any_eq_true _ _ |>.mp full
    exact Option.isSome_of_mem hy
  · cases h

section records
variable {s : State} {e : Fin 2} {n : Nat} {b : List Byte}

theorem State.inputRecord_rejected {c : Nat} (h : rejectCause (s.flow n) (n % 16) (s.site (n / 16)) b = some c) :
    s.inputRecord e n b = s.rejectRecord e n c b := by
  simp only [State.inputRecord, h]

theorem State.inputRecord_accepted {x : Site} (hx : s.site (n / 16) = some x)
    (h : rejectCause (s.flow n) (n % 16) (some x) b = none) :
    s.inputRecord e n b = s.acceptRecord (n / 16) n (Fin.ofNat 16 n) b x := by
  rw [← hx] at h
  simp only [State.inputRecord, h]
  rw [hx]
  rfl

theorem State.moderate_bitternCounted (k : Nat) (s : State) : (s.moderate k).bitternCounted = s.bitternCounted := by
  unfold State.moderate
  split
  · split <;> rfl
  · rfl

theorem State.pushEntry_bitternCounted (k : Nat) (entry : List Byte) (s : State) :
    (s.pushEntry k entry).bitternCounted = s.bitternCounted := by
  unfold State.pushEntry
  split
  · rfl
  · exact State.moderate_bitternCounted k _

/-- A record goes to the bittern ring or is counted (R325). -/
theorem State.bitternWrite_counts (entry : List Byte) (s : State) :
    (s.bitternWrite entry).bitternWritten + (s.bitternWrite entry).bitternCounted = s.bitternWritten + s.bitternCounted + 1 := by
  unfold State.bitternWrite
  split
  · next k _ =>
    split
    · show s.bitternWritten + 1 + (s.pushEntry k entry).bitternCounted = _
      rw [State.pushEntry_bitternCounted]
      omega
    · exact (Nat.add_assoc _ _ _).symm
  · exact (Nat.add_assoc _ _ _).symm

/-- One cause of a record's rejection counted. -/
def FlowCtr.reject (c : Nat) (k : FlowCtr) : FlowCtr :=
  { k with rejects := if h : c - 1 < 8 then k.rejects.set (c - 1) (inc32 k.rejects[c - 1]) else k.rejects }

theorem FlowCtr.reject_getD {c : Nat} (range : c - 1 < 8) (k : FlowCtr) :
    (k.reject c).rejects.toList.getD (c - 1) 0 = inc32 (k.rejects.toList.getD (c - 1) 0) := by
  simp [FlowCtr.reject, range]

/-- What a rejected record does before its copy goes to the bittern ring. -/
def State.countReject (n c : Nat) (s : State) : State :=
  if c = 8 then (s.countFlow n (FlowCtr.reject c)).modSite (n / 16) (fun x => { x with ctr := { x.ctr with rejects := x.ctr.rejects + 1 } })
  else s.countFlow n (FlowCtr.reject c)

theorem State.rejectRecord_eq (e : Fin 2) (n c : Nat) (b : List Byte) (s : State) : s.rejectRecord e n c b =
    (s.countReject n c).bitternWrite (bitternRecord c e.val n b.length s.now b) := rfl

theorem State.modSite_parts (p : Nat) (f : Site → Site) (s : State) : (s.modSite p f).flows = s.flows ∧
    (s.modSite p f).bitternWritten = s.bitternWritten ∧ (s.modSite p f).bitternCounted = s.bitternCounted := by
  unfold State.modSite
  split <;> exact ⟨rfl, rfl, rfl⟩

theorem State.countReject_flow (n c : Nat) (s : State) :
    (s.countReject n c).flow n = { s.flow n with ctr := (s.flow n).ctr.reject c } ∧
    (s.countReject n c).bitternWritten = s.bitternWritten ∧ (s.countReject n c).bitternCounted = s.bitternCounted := by
  unfold State.countReject
  split
  · obtain ⟨flows, counts⟩ := State.modSite_parts (n / 16)
      (fun x : Site => { x with ctr := { x.ctr with rejects := x.ctr.rejects + 1 } }) (s.countFlow n (FlowCtr.reject c))
    exact ⟨by rw [State.flow, flows]; exact State.flow_countFlow n _ s, counts⟩
  · exact ⟨State.flow_countFlow n _ s, rfl, rfl⟩

/-- A record rejected: its cause counts, a full queue at its pan too, and it is copied to the bittern ring (R313, R325). -/
theorem State.rejectRecord_spec {c : Nat} (range : 1 ≤ c ∧ c ≤ 8) (full : c = 8 → (s.site (n / 16)).isSome = true) :
    (c ≠ 8 → (s.rejectRecord e n c b).sites = s.sites) ∧
    (c = 8 → SiteThat (s.rejectRecord e n c b) (n / 16) (fun y => ∃ x, s.site (n / 16) = some x ∧
      y = { x with ctr := { x.ctr with rejects := x.ctr.rejects + 1 } })) ∧
    ((s.rejectRecord e n c b).flow n).last = (s.flow n).last ∧
    ((s.rejectRecord e n c b).flow n).ctr.rejects.toList.getD (c - 1) 0 = inc32 ((s.flow n).ctr.rejects.toList.getD (c - 1) 0) ∧
    (s.rejectRecord e n c b).bitternWritten + (s.rejectRecord e n c b).bitternCounted = s.bitternWritten + s.bitternCounted + 1 := by
  obtain ⟨flow, written, counted⟩ := State.countReject_flow n c s
  have copied := State.bitternWrite_eventful (bitternRecord c e.val n b.length s.now b) (s.countReject n c)
  rw [State.rejectRecord_eq, copied.flow, flow, State.bitternWrite_counts, written, counted, copied.sites]
  refine ⟨fun other => ?_, fun cause => ?_, rfl, FlowCtr.reject_getD (by omega) _, rfl⟩
  · rw [State.countReject, if_neg other]
    rfl
  · obtain ⟨x, hx⟩ := Option.isSome_iff_exists.mp (full cause)
    refine ⟨{ x with ctr := { x.ctr with rejects := x.ctr.rejects + 1 } }, ?_, x, hx, rfl⟩
    have there : (s.countFlow n (FlowCtr.reject c)).site (n / 16) = some x := hx
    rw [State.site, copied.sites, State.countReject, if_pos cause, State.modSite, there]
    exact State.site_putSite_same _ _ _

/-- A free-run pan queues a record it accepts as its last input, at pan-cycle 0 of the next frame it begins (R94, R223). -/
theorem Site.accept_freeRun {x : Site} (h : x.freeRun = true) (arrival place : Nat) (slot : Fin 16) (v : Vector Byte 7) :
    ∃ q, q.arrival = arrival ∧ q.kind = .input slot v ∧
      x.accept arrival place (.input slot v) = { x with inQ := x.inQ ++ [q], order := x.order + 1 } := by
  have untimed : x.realTime = false := by
    cases m : x.mode <;> simp [Site.freeRun, Site.realTime, m] at h ⊢
  refine ⟨{
    arrival := arrival, place := place, order := x.order, atFrame := some x.freshFrame, atCyc := 0, late := false,
    bracketed := false, logged := false, kind := .input slot v }, rfl, rfl, ?_⟩
  simp only [Site.accept, untimed, h, Bool.false_eq_true, if_false, if_true]
  rfl

/-- An accepted record: queued at its pan, its alive counter remembered, and counted (R222, R313, R326). -/
theorem State.acceptRecord_freeRun {p : Nat} {slot : Fin 16} {x : Site} (h : x.freeRun = true)
    (below : (s.flow n).ctr.accepted < 2 ^ 32 - 1) :
    (s.acceptRecord p n slot b x).tb = s.tb ∧ ((s.acceptRecord p n slot b x).flow n).last = some (recAlive b) ∧
    ((s.acceptRecord p n slot b x).flow n).ctr.accepted = (s.flow n).ctr.accepted + 1 ∧
    ∃ q : Placement, q.arrival = s.tb.time ∧ q.kind = .input slot (recData b) ∧
      (s.acceptRecord p n slot b x).site p = some { x with inQ := x.inQ ++ [q], order := x.order + 1 } := by
  obtain ⟨q, arrival, kind, accepted⟩ := Site.accept_freeRun h s.now
    (x.afterAttach slot (((x.slotPlace[slot]).mapped s.now (recTime b)).1 + x.inputDelay).toNat) slot (recData b)
  refine ⟨rfl, ?_, ?_, q, arrival, kind, ?_⟩
  · simp only [State.acceptRecord, State.flow_countFlow, State.flow_putFlow_same]
  · simp only [State.acceptRecord, State.flow_countFlow, State.flow_putFlow_same]
    exact Nat.mod_eq_of_lt (show (s.flow n).ctr.accepted + 1 < 2 ^ 32 by omega)
  · rw [← accepted]
    exact Table.get_put_same _ _ _

end records

/-! ### Links (R305) -/

/-- A link that changes raises its source and posts an event. -/
theorem State.linkChange_does (e : Fin 2) (data : List Byte) (s : State) :
    Raised (4 + e.val) ((s.raise (4 + e.val)).postDev 0x000C data) ∧ OnlyEvents s ((s.raise (4 + e.val)).postDev 0x000C data) := by
  have raisable : evcRaisable (4 + e.val) = true := by revert e; decide
  exact ⟨(State.post_holds _ _ _ _ _).raised (State.raise_raised raisable s),
    ((State.raise_eventful _ s).trans (State.post_eventful _ _ _ _ _)).only⟩

theorem linkUp_rises {b : State} {e : Fin 2} (awake : b.awake = true) (running : b.fatal = false)
    (ready : b.dev.ready.getLsbD (15 + e.val) = true) (down : b.ports[e].up = false) : exec (.linkUp e) b =
      .next (((b.modPort e (fun p => { p with up := true, ctr := { p.ctr with ups := inc32 p.ctr.ups } })).raise (4 + e.val)).postDev 0x000C
        [BitVec.ofNat 8 e.val, 1]) := by
  show execLinkUp e b = _
  simp only [execLinkUp, rdyEth, awake, running, ready, down, Bool.not_false, Bool.and_self, if_true]

theorem linkDown_falls {b : State} {e : Fin 2} (up : b.ports[e].up = true) : exec (.linkDown e) b =
    .next (((b.modPort e (fun p => { p with up := false, ctr := { p.ctr with downs := (p.ctr.downs + 1) % 2 ^ 32 } })).raise
      (4 + e.val)).postDev 0x000C [BitVec.ofNat 8 e.val, 0]) := by
  show execLinkDown e b = _
  rw [execLinkDown, State.dropLink, if_pos up]

/-- Settles O46: settings in force and FEC counters apart, each frame goes one of the ways above. -/
theorem framesReceived : Obligations.FramesReceived := by
  intro b e f s port old up sized mine withPort seen one record
  have runs (h : up = true) (ok : Bool) : exec (.rxFrame e f ok) b = .next (s.receive e f ok) := if_pos h
  clear_value s
  have lengths (h : sized = true) : 60 ≤ f.length ∧ f.length ≤ 9212 := of_decide_eq_true h
  obtain ⟨macCtl, foreign, ringFull, toRing⟩ := State.countPort_seen e f.length s
  have classified (hs : sized = true) (type : beNat (slice f 12 2) ≠ 0x8808) (hm : mine = true) :=
    State.receive_mine (lengths hs) type hm
  have entries := State.entryOf_countPort e (PortCtr.seen f.length) s
  have rxRing : (s.countPort e (PortCtr.seen f.length)).ports[e].rxRing = port.rxRing := (State.countPort_settings _ _ _ _).1
  have flow := State.flow_countPort e (PortCtr.seen f.length) s
  have ring_ := State.ring_countPort e (PortCtr.seen f.length) s
  have site := State.site_countPort e (PortCtr.seen f.length) s
  obtain ⟨tb, host, sites, flows, written, counted⟩ := State.countPort_others e (PortCtr.seen f.length) s
  refine ⟨fun h => ⟨_, runs h _, rfl⟩, fun h hs => ⟨_, runs h _, State.receive_badSize (of_decide_eq_false hs)⟩,
    fun h hs type => ⟨_, runs h _, ?_⟩, fun h hs type hm => ⟨_, runs h _, ?_⟩,
    fun h hs type hm unmatched noRing => ⟨_, runs h _, ?_⟩, fun r o h hs type hm unmatched ring room place => ⟨_, runs h _, ?_⟩,
    fun d n x h hs type hm hd hn hr hx passes free below => ⟨_, runs h _, ?_⟩, fun d n c h hs type hm hd hn hr fails => ⟨_, runs h _, ?_⟩,
    fun awake running ready down => ⟨_, linkUp_rises awake running ready down, State.linkChange_does e _ _⟩,
    fun link => ⟨_, linkDown_falls link, State.linkChange_does e _ _⟩⟩
  · rw [State.receive_sized (lengths hs), if_pos (by exact type)]
    exact macCtl
  · rw [State.receive_foreign (lengths hs) type hm]
    exact foreign
  · rw [classified hs type hm, State.classify_unmatched (by rw [entries]; exact unmatched),
      State.toHost_noRing (by rw [rxRing, ring_]; exact noRing)]
    exact ringFull
  · rw [classified hs type hm, State.classify_unmatched (by rw [entries]; exact unmatched)]
    obtain ⟨u, only, placed, taken⟩ := State.toHost_taken (s := s.countPort e (PortCtr.seen f.length)) (e := e)
      (by rw [rxRing, ring_]; exact ring) room place
    rw [taken]
    refine ⟨(State.countPort_ports_congr only.ports e _).trans (congrArg State.ports toRing), ?_, only.sites.trans sites,
      only.flows.trans flows⟩
    rw [host, State.now, tb] at placed
    exact placed
  · rw [← flow] at below passes
    rw [← site] at hx
    rw [classified hs type hm, State.classify_record hd (by rw [entries]; exact hn) (by rw [flow]; exact hr), State.inputRecord_accepted hx passes]
    obtain ⟨time, last, accepted, q, arrival, kind, queued⟩ := State.acceptRecord_freeRun (p := n / 16) (slot := Fin.ofNat 16 n)
      (b := d.payload) free below
    rw [tb] at arrival time
    rw [flow] at accepted
    exact ⟨time, last, accepted, _, queued, List.length_append, rfl,
      List.any_eq_true.mpr ⟨q, List.mem_append_right _ (List.mem_singleton.mpr rfl),
        Bool.and_eq_true_iff.mpr ⟨beq_iff_eq.mpr arrival, beq_iff_eq.mpr kind⟩⟩⟩
  · obtain ⟨range, full⟩ := rejectCause_range fails
    rw [← flow] at fails
    rw [← site] at fails full
    rw [classified hs type hm, State.classify_record hd (by rw [entries]; exact hn) (by rw [flow]; exact hr), State.inputRecord_rejected fails]
    have rejected := State.rejectRecord_spec (e := e) (b := d.payload) range full
    rw [sites, site, flow, written, counted] at rejected
    exact rejected

end Sys2Proof.Machine
end

section
/-!
SUPPORT. Departures (R213, R214, R228, R229, R310, R323, R324, R326, R346): what the copy of a packet for one entry does, which entries of
a pan take one, and the write-back of a host packet's descriptor.
-/
namespace Sys2Proof.Machine

/-! ### Frames on the wire -/

theorem ceilDiv_hundred (a : Nat) : ceilDiv a 100 = (a + 99) / 100 := rfl

theorem Port.wireTime_eq (e n : Nat) (p : Port) : p.wireTime e n = ((n + 24) * (if p.fast e then 128 else 512) + 99) / 100 :=
  ceilDiv_hundred _

/-- The port after a frame has left it. -/
def Port.sentFrame (e t : Nat) (frame : List Byte) (p : Port) : Port :=
  { p with busyUntil := t + p.wireTime e frame.length, sent := (t, frame) :: p.sent,
           ctr := { p.ctr with txFrames := inc32 p.ctr.txFrames, txBytes := (p.ctr.txBytes + frame.length + 4) % 2 ^ 64 } }

/-! ### The copy of a packet for one entry (R323) -/

section copies
variable {k : NetPacket} {t : Nat} {late : Bool} {e : Fin 2} {s : State} {n : Nat}

/-- An entry takes copies of a packet on a port. -/
def State.takesOn (s : State) (k : NetPacket) (e : Fin 2) (n : Nat) : Bool := (s.flow n).takes k && (s.flow n).port == e

theorem State.copyTo_skipped (h : s.takesOn k e n = false) : State.copyTo k t late e s n = s := by
  simp only [State.takesOn] at h
  simp only [State.copyTo, h, Bool.not_false, if_true]

theorem State.copyTo_down (h : s.takesOn k e n = true) (down : s.ports[e].up = false) :
    State.copyTo k t late e s n = s.countFlow n (fun c => { c with linkDown := inc32 c.linkDown }) := by
  simp only [State.takesOn] at h
  simp only [State.copyTo, h, down, Bool.not_true, Bool.not_false, Bool.false_eq_true, if_false, if_true]

theorem State.copyTo_idle (h : s.takesOn k e n = true) (up : s.ports[e].up = true) (idle : s.portIdle e t = true) :
    State.copyTo k t late e s n = ((s.putFlow n ((s.flow n).copied k late)).sendFrame e t (s.copyFrame k (s.flow n))).countFlow n
      (FlowCtr.sentCopy k.video ((s.copyFrame k (s.flow n)).length + 4)) := by
  simp only [State.takesOn] at h
  simp only [State.copyTo, h, up, idle, Bool.not_true, Bool.false_eq_true, if_false, if_true]

/-- The copy of a packet that waits for its port. -/
def NetPacket.copyOf (k : NetPacket) (e : Fin 2) (n : Nat) (frame : List Byte) : Copy :=
  { port := e, entry := n, video := k.video, dep := k.dep, index := k.index, frame := frame }

theorem State.copyTo_busy (h : s.takesOn k e n = true) (up : s.ports[e].up = true) (busy : s.portIdle e t = false) :
    State.copyTo k t late e s n = { s.putFlow n ((s.flow n).copied k late) with
      copies := insertCopy (k.copyOf e n (s.copyFrame k (s.flow n))) s.copies } := by
  simp only [State.takesOn] at h
  simp only [State.copyTo, h, up, busy, Bool.not_true, Bool.false_eq_true, if_false]
  rfl

/-- The flow table changed for one entry leaves the others. -/
theorem State.flow_countFlow_other {m : Nat} (h : m ≠ n) (f : FlowCtr → FlowCtr) (s : State) : (s.countFlow n f).flow m = s.flow m :=
  State.flow_putFlow_other h _ s

/-- A copy changes no other entry, and neither time, pans nor packets. -/
theorem State.copyTo_frame (k : NetPacket) (t : Nat) (late : Bool) (e : Fin 2) (s : State) (n : Nat) :
    (∀ m, m ≠ n → (State.copyTo k t late e s n).flow m = s.flow m) ∧ (State.copyTo k t late e s n).tb = s.tb ∧
    (State.copyTo k t late e s n).sites = s.sites ∧ (State.copyTo k t late e s n).packets = s.packets := by
  cases takes : s.takesOn k e n with
  | false => rw [State.copyTo_skipped takes]; exact ⟨fun _ _ => rfl, rfl, rfl, rfl⟩
  | true =>
    cases up : s.ports[e].up with
    | false => rw [State.copyTo_down takes up]; exact ⟨fun m h => State.flow_countFlow_other h _ s, rfl, rfl, rfl⟩
    | true =>
      cases idle : s.portIdle e t with
      | false => rw [State.copyTo_busy takes up idle]; exact ⟨fun m h => State.flow_putFlow_other h _ s, rfl, rfl, rfl⟩
      | true =>
        rw [State.copyTo_idle takes up idle]
        exact ⟨fun m h => (State.flow_countFlow_other h _ _).trans (State.flow_putFlow_other h _ s), rfl, rfl, rfl⟩

theorem insertCopy_perm (c : Copy) : ∀ l, (insertCopy c l).Perm (c :: l)
  | [] => .refl _
  | d :: l => by
    unfold insertCopy
    split
    · exact .refl _
    · exact ((insertCopy_perm c l).cons d).trans (List.Perm.swap c d l)

/-! ### The entries of a pan that take one (R229) -/

/-- Entries none of which takes a copy. -/
theorem State.foldl_copyTo_none {l : List Nat} (h : l.filter (s.takesOn k e) = []) : l.foldl (State.copyTo k t late e) s = s := by
  induction l with
  | nil => rfl
  | cons a l ih =>
    obtain ⟨skipped, rest⟩ := List.forall_mem_cons.mp (List.filter_eq_nil_iff.mp h)
    rw [List.foldl_cons, State.copyTo_skipped (Bool.not_eq_true _ ▸ skipped), ih (List.filter_eq_nil_iff.mpr rest)]

/-- Entries of which exactly one takes a copy. -/
theorem State.foldl_copyTo_one {l : List Nat} (distinct : l.Nodup) (h : l.filter (s.takesOn k e) = [n]) :
    l.foldl (State.copyTo k t late e) s = State.copyTo k t late e s n := by
  obtain ⟨before, after, rfl, skipped, -, rest⟩ := List.filter_eq_cons_iff.mp h
  have fresh : n ∉ after := (List.nodup_cons.mp (List.nodup_append.mp distinct).2.1).1
  have still : after.filter ((State.copyTo k t late e s n).takesOn k e) = [] := by
    rw [← rest]
    refine List.filter_congr fun m hm => ?_
    rw [State.takesOn, State.takesOn, (State.copyTo_frame k t late e s n).1 m (by rintro rfl; exact fresh hm)]
  rw [List.foldl_append, State.foldl_copyTo_none (List.filter_eq_nil_iff.mpr skipped), List.foldl_cons, State.foldl_copyTo_none still]

/-- The entries of a packet's pan. -/
def NetPacket.entries (k : NetPacket) : List Nat := (List.range 16).map (fun i => 16 * k.pan + i)

theorem NetPacket.entries_nodup (k : NetPacket) : k.entries.Nodup := List.nodup_range.map (fun _ _ h => by simpa using h)

theorem State.depart_eq (k : NetPacket) (e : Fin 2) (late : Bool) (s : State) : s.depart k e late =
    (k.entries.foldl (State.copyTo k (max s.now k.leaves) late e) s).departed k e := by
  rw [NetPacket.entries, List.foldl_map]
  rfl

theorem State.foldl_copyTo_frame (l : List Nat) (s : State) : (l.foldl (State.copyTo k t late e) s).tb = s.tb ∧
    (l.foldl (State.copyTo k t late e) s).sites = s.sites ∧ (l.foldl (State.copyTo k t late e) s).packets = s.packets := by
  induction l generalizing s with
  | nil => exact ⟨rfl, rfl, rfl⟩
  | cons a l ih =>
    obtain ⟨-, tb, sites, packets⟩ := State.copyTo_frame k t late e s a
    obtain ⟨tb', sites', packets'⟩ := ih (State.copyTo k t late e s a)
    exact ⟨tb'.trans tb, sites'.trans sites, packets'.trans packets⟩

/-- An entry's counters with a late departure counted (R229). -/
def FlowCtr.lateDeparture (late : Bool) (c : FlowCtr) : FlowCtr := { c with lateDep := if late then inc32 c.lateDep else c.lateDep }

theorem Flow.copied_video {k : NetPacket} (h : k.video = true) (late : Bool) (f : Flow) : f.copied k late = { f with
    sentV := (f.sentV + 1) % 65536, rocV := (f.rocV + (if f.seq k.video = 65535 then 1 else 0)) % 2 ^ 32,
    ctr := f.ctr.lateDeparture late } := if_pos h

theorem Flow.copied_audio {k : NetPacket} (h : k.video = false) (late : Bool) (f : Flow) : f.copied k late = { f with
    sentA := (f.sentA + 1) % 65536, rocA := (f.rocA + (if f.seq k.video = 65535 then 1 else 0)) % 2 ^ 32,
    ctr := f.ctr.lateDeparture late } := if_neg (Bool.eq_false_iff.mp h)

theorem Flow.copied_parts (k : NetPacket) (late : Bool) (f : Flow) :
    (f.copied k late).bytes = f.bytes ∧ (f.copied k late).ctr = f.ctr.lateDeparture late ∧
    (k.video = true → (f.copied k late).sentV = (f.sentV + 1) % 65536) ∧
    (k.video = false → (f.copied k late).sentA = (f.sentA + 1) % 65536) := by
  cases video : k.video with
  | true =>
    rw [Flow.copied_video video]
    exact ⟨rfl, rfl, fun _ => rfl, fun h => Bool.noConfusion h⟩
  | false =>
    rw [Flow.copied_audio video]
    exact ⟨rfl, rfl, fun h => Bool.noConfusion h, fun _ => rfl⟩

/-- With the link up: the copy is numbered and counted, and leaves at once where the port is idle, or waits in its order. -/
theorem State.copyTo_up (takes : s.takesOn k e n = true) (up : s.ports[e].up = true) :
    ((State.copyTo k t late e s n).flow n).bytes = (s.flow n).bytes ∧
    ((State.copyTo k t late e s n).flow n).ctr = (if s.portIdle e t then
      ((s.flow n).ctr.lateDeparture late).sentCopy k.video ((s.copyFrame k (s.flow n)).length + 4) else (s.flow n).ctr.lateDeparture late) ∧
    (k.video = true → ((State.copyTo k t late e s n).flow n).sentV = ((s.flow n).sentV + 1) % 65536) ∧
    (k.video = false → ((State.copyTo k t late e s n).flow n).sentA = ((s.flow n).sentA + 1) % 65536) ∧
    (s.portIdle e t = true → (State.copyTo k t late e s n).copies = s.copies ∧ (State.copyTo k t late e s n).ports =
      s.ports.set e (s.ports[e].sentFrame e t (s.copyFrame k (s.flow n)))) ∧
    (s.portIdle e t = false → (State.copyTo k t late e s n).ports = s.ports ∧
      (State.copyTo k t late e s n).copies.Perm (k.copyOf e n (s.copyFrame k (s.flow n)) :: s.copies)) := by
  obtain ⟨bytes, ctr, sentV, sentA⟩ := Flow.copied_parts k late (s.flow n)
  cases idle : s.portIdle e t with
  | false =>
    have flow : (State.copyTo k t late e s n).flow n = (s.flow n).copied k late := by
      rw [State.copyTo_busy takes up idle]
      exact State.flow_putFlow_same n _ s
    rw [flow]
    refine ⟨bytes, ctr, sentV, sentA, fun h => Bool.noConfusion h, fun _ => ?_⟩
    rw [State.copyTo_busy takes up idle]
    exact ⟨rfl, insertCopy_perm _ _⟩
  | true =>
    have flow : (State.copyTo k t late e s n).flow n = { (s.flow n).copied k late with
        ctr := FlowCtr.sentCopy k.video ((s.copyFrame k (s.flow n)).length + 4) ((s.flow n).copied k late).ctr } := by
      have numbered : ((s.putFlow n ((s.flow n).copied k late)).sendFrame e t (s.copyFrame k (s.flow n))).flow n =
          (s.flow n).copied k late := State.flow_putFlow_same n _ s
      rw [State.copyTo_idle takes up idle, State.flow_countFlow, numbered]
    rw [flow, ← ctr]
    refine ⟨bytes, rfl, sentV, sentA, fun _ => ?_, fun h => Bool.noConfusion h⟩
    rw [State.copyTo_idle takes up idle]
    exact ⟨rfl, rfl⟩

end copies

/-- A copy that waited leaves a port whose link is up, and counts as displaced (R229). -/
theorem State.sendCopy_up {c : Copy} {s : State} (up : s.ports[c.port].up = true) : s.sendCopy c =
    (({ s with copies := s.copies.erase c } : State).sendFrame c.port (max s.now s.ports[c.port].busyUntil) c.frame).countFlow c.entry
      (fun k => { k.sentCopy c.video (c.frame.length + 4) with displaced := inc32 k.displaced }) := by
  simp only [State.sendCopy, up, Bool.not_true, Bool.false_eq_true, if_false]

theorem packetDisplaced_eq {c : Copy} {e : Fin 2} {s : State} (works : s.works = true) (counting : s.tb.counting = true)
    (found : s.copies.find? (fun q => q.port == e) = some c) :
    exec (.packetDisplaced e) s = .next ((s.reach s.ports[e].busyUntil).sendCopy c) := by
  show execPacketDisplaced e s = _
  simp only [execPacketDisplaced, found, works, if_true]
  exact State.atTime_counting counting _ _

/-! ### Host packets (R324, R346) -/

section host
variable {n : Nat} {r : Ring} {s : State}

/-- A ring that moderation looks at keeps its index. -/
theorem State.ring_moderate (h : s.ring n = some r) : ∃ q, (s.moderate n).ring n = some q ∧ q.dev = r.dev := by
  unfold State.moderate
  rw [h]
  dsimp only
  split
  · exact ⟨{ r with unsig := 0 }, Table.get_put_same _ _ _, rfl⟩
  · exact ⟨r, h, rfl⟩

/-- The descriptor a `PKT_TX` ring offers next. -/
theorem Ring.entryAddr_tx (kind : r.kind = 5) : r.entryAddr r.dev = r.base + (r.dev.toNat % 2 ^ r.log2) * 32 := by
  rw [Ring.entryAddr, kind]
  rfl

/-- A descriptor written back: status, stamp, and then the index (R346). -/
theorem State.txDone_spec (h : s.ring n = some r) (kind : r.kind = 5) (status stamp : Nat) :
    (s.txDone n status stamp).ports = s.ports ∧ (s.txDone n status stamp).tb = s.tb ∧
    (s.txDone n status stamp).host = ((s.host.writeBytes (r.base + (r.dev.toNat % 2 ^ r.log2) * 32 + 12) (leBytes 2 status)).writeBytes
      (r.base + (r.dev.toNat % 2 ^ r.log2) * 32 + 16) (leBytes 8 stamp)).writeBytes r.idxAddr (leBytes 4 (r.dev + 1).toNat) ∧
    ((s.txDone n status stamp).ring n).any (fun q => q.dev == r.dev + 1) = true := by
  rw [← Ring.entryAddr_tx kind]
  simp only [State.txDone, h]
  generalize written : State.putRing n _ _ = u
  have moderated := State.moderate_eventful n u
  obtain ⟨q, there, dev⟩ := State.ring_moderate (s := u) (n := n) (r := ({ r with dev := r.dev + 1 } : Ring).visible s.now)
    (by rw [← written]; exact Table.get_put_same _ _ _)
  rw [moderated.ports, moderated.tb, State.moderate_host, there, Option.any_some, dev, ← written]
  simp only [State.putRing_others, State.hostWrite_others, State.hostWrite_host, true_and]
  exact beq_self_eq_true _

theorem pktTxSend_eq (works : s.works = true) (h : s.ring n = some r) (kind : r.kind = 5) (offered : r.hst ≠ r.dev) :
    exec (.pktTxSend n) s = s.sendHost n r := by
  show execPktTxSend n s = _
  have due : (s.works && r.kind == 5 && r.hst != r.dev) = true := by
    rw [works, kind, bne_iff_ne.mpr offered]
    rfl
  simp only [execPktTxSend, h, due, if_true]

/-- A descriptor of a bad form is refused (R346). -/
theorem State.sendHost_bad (bad : txBad (s.host.readBytes (r.entryAddr r.dev) 32) = true) :
    s.sendHost n r = .next (s.txDone n 0x0030 0) := by
  simp only [State.sendHost, bad, if_true]
  rfl

theorem Ring.port_of_owner {e : Fin 2} (owner : r.owner = e.val) : 
    (⟨r.owner % 2, Nat.mod_lt _ (by decide)⟩ : Fin 2) = e := Fin.ext (by simp only; omega)

/-- A port whose link is down sends no host packet. -/
theorem State.sendHost_down {e : Fin 2} (good : txBad (s.host.readBytes (r.entryAddr r.dev) 32) = false)
    (down : s.ports[e].up = false) (owner : r.owner = e.val) : s.sendHost n r = .next (s.txDone n 0x0010 0) := by
  simp only [State.sendHost, good, Ring.port_of_owner owner, down, Bool.not_false, Bool.false_eq_true, if_false, if_true]
  rfl

/-- A host packet that ends before the next departure of its port leaves once the port is idle (R324, R346). -/
theorem State.sendHost_sent {e : Fin 2} (counting : s.tb.counting = true)
    (good : txBad (s.host.readBytes (r.entryAddr r.dev) 32) = false) (up : s.ports[e].up = true)
    (free : s.copies.all (fun c => c.port != e) = true) (before : (s.nextDeparture e).all (fun t => decide
      (max s.now s.ports[e].busyUntil + s.ports[e].wireTime e.val (leNat (slice (s.host.readBytes (r.entryAddr r.dev) 32) 8 2)) ≤ t)) = true) :
    r.owner = e.val → s.sendHost n r = .next
      (State.txDone n 0 (if ((s.host.readBytes (r.entryAddr r.dev) 32).getD 10 0).getLsbD 0 then
          max s.now s.ports[e].busyUntil + s.ports[e].sfdTime e.val else 0)
        ((s.reach (max s.now s.ports[e].busyUntil)).sendFrame e (max s.now s.ports[e].busyUntil)
          (s.host.readBytes (leNat (slice (s.host.readBytes (r.entryAddr r.dev) 32) 0 8))
            (leNat (slice (s.host.readBytes (r.entryAddr r.dev) 32) 8 2))))) := by
  have none : s.copies.any (fun c => c.port == e) = false := by
    simpa using free
  have fits : (s.nextDeparture e).any (fun t => decide (t < max s.now s.ports[e].busyUntil +
      s.ports[e].wireTime e.val (leNat (slice (s.host.readBytes (r.entryAddr r.dev) 32) 8 2)))) = false := by
    cases next : s.nextDeparture e with
    | none => rfl
    | some t =>
      rw [next] at before
      simpa using before
  have leaves : (s.copies.any (fun c => c.port == e) || (s.nextDeparture e).any (fun t => decide (t < max s.now s.ports[e].busyUntil +
      s.ports[e].wireTime e.val (leNat (slice (s.host.readBytes (r.entryAddr r.dev) 32) 8 2))))) = false := by
    rw [none, fits]
    rfl
  have sendable : (!s.ports[e].up) = false := by
    rw [up]
    rfl
  intro owner
  have same := Ring.port_of_owner owner
  clear owner
  subst same
  exact (if_neg (Bool.eq_false_iff.mp good)).trans ((if_neg (Bool.eq_false_iff.mp sendable)).trans
    ((if_neg (Bool.eq_false_iff.mp leaves)).trans (State.atTime_counting counting _ _)))

theorem Port.sfdTime_eq (e : Nat) (p : Port) : p.sfdTime e = if p.fast e then 11 else 41 := by
  unfold Port.sfdTime
  split <;> rfl

end host

/-- The ports a packet has departed on, with one more. -/
theorem gone_on (g : BitVec 2) (e : Fin 2) : setBit g e.val true = g ||| ((1 <<< e.val : Nat) : BitVec 2) := by
  have one : 1#2 <<< e.val = ((1 <<< e.val : Nat) : BitVec 2) := by
    revert e
    decide
  rw [← one]
  rfl

theorem State.departed_packets (k : NetPacket) (e : Fin 2) (s : State) : (s.departed k e).packets =
    if k.gone ||| (1 <<< e.val) = 3 then s.packets.erase k
    else s.packets.map (fun q => if q = k then { q with gone := q.gone ||| (1 <<< e.val) } else q) := by
  have marked : (fun q : NetPacket => if q = k then { q with gone := setBit k.gone e.val true } else q) =
      fun q => if q = k then { q with gone := q.gone ||| (1 <<< e.val) } else q := by
    funext q
    split
    · next same => rw [same, gone_on]
    · rfl
  rw [← marked, ← gone_on]
  rfl

/-- Settles O47: a departure is the copies of its packet, for one entry the copy above; a host packet goes as its descriptor says. -/
theorem packetsLeave : Obligations.PacketsLeave := by
  intro s e port one wire takers out counted leaves then_ desc len start sfd back built copies departs
  have sent (q : Port) (t : Nat) (b : List Byte) : q.sentFrame e.val t b = out q t b := by
    have time : q.wireTime e.val b.length =
        (if q.fast e.val then (b.length + 24) * 128 + 99 else (b.length + 24) * 512 + 99) / 100 := by
      rw [Port.wireTime_eq]
      split <;> rfl
    rw [Port.sentFrame, time]
    rfl
  have takersOf (z : State) (k : NetPacket) : takers z k = k.entries.filter (z.takesOn k e) := rfl
  have departed (k : NetPacket) (late : Bool) (z : State) : departs z k late (z.depart k e late) := by
    rw [State.depart_eq]
    obtain ⟨tb, sites, packets⟩ := State.foldl_copyTo_frame (k := k) (t := max z.now k.leaves) (late := late) (e := e) k.entries z
    refine ⟨tb, sites, ?_, fun none => ?_, fun n only => ?_⟩
    · rw [← packets]
      exact State.departed_packets k e _
    · rw [State.foldl_copyTo_none ((takersOf z k).symm.trans none)]
      exact ⟨rfl, rfl, rfl⟩
    · have found := (takersOf z k).symm.trans only
      have takes : z.takesOn k e n = true := List.of_mem_filter (found ▸ List.mem_singleton_self n)
      rw [State.foldl_copyTo_one k.entries_nodup found]
      refine ⟨fun up => ?_, fun down => ?_⟩
      · obtain ⟨bytes, ctr, sentV, sentA, atOnce, queued⟩ := State.copyTo_up (t := max z.now k.leaves) (late := late) takes up
        refine ⟨bytes, ctr, sentV, sentA, fun go => ?_, fun wait => ?_⟩
        · obtain ⟨copies, ports⟩ := atOnce go
          exact ⟨ports.trans (congrArg (fun q => z.ports.set e q) (sent _ _ _)), copies⟩
        · obtain ⟨ports, waiting⟩ := queued wait
          exact ⟨ports, waiting.length_eq, List.any_eq_true.mpr ⟨_, waiting.mem_iff.mpr List.mem_cons_self, by
            simp [NetPacket.copyOf, built]⟩⟩
      · rw [State.copyTo_down takes down]
        exact ⟨rfl, rfl, congrArg Flow.ctr (State.flow_countFlow n (fun c => { c with linkDown := inc32 c.linkDown }) z)⟩
  have runs (k : NetPacket) (late : Bool) (works : s.works = true) (counting : s.tb.counting = true) (next : s.nextPacket e = some k)
      (when_ : decide (k.dep < k.ready) = late) : s.departIf e late = .next ((then_ k).depart k e late) := by
    have due : (s.works && (decide (k.dep < k.ready) == late)) = true := by
      rw [works, when_]
      exact beq_self_eq_true late
    simp only [State.departIf, next, due, if_true]
    exact State.atTime_counting counting _ _
  refine ⟨fun k works counting next ready => ⟨_, runs k false works counting next (decide_eq_false (Nat.not_lt.mpr ready)), departed k _ _⟩,
    fun k works counting next unready => ⟨_, runs k true works counting next (decide_eq_true unready), departed k _ _⟩,
    fun c works counting found up => ?_, fun n r works there kind offered bad => ?_,
    fun n r works there kind offered owner good down => ?_, fun n r works counting there kind offered owner good up free before => ?_⟩
  · obtain rfl : c.port = e := by simpa using List.find?_some found
    refine ⟨_, packetDisplaced_eq works counting found, ?_⟩
    have time : max (s.reach port.busyUntil).now port.busyUntil = max s.tb.time port.busyUntil := Nat.max_eq_left (Nat.le_max_right _ _)
    rw [State.sendCopy_up (by exact up), ← sent, ← time]
    refine ⟨Eq.trans rfl time.symm, rfl, rfl, congrArg Flow.ctr (State.flow_countFlow _ _ _)⟩
  · obtain ⟨ports, -, host, ring⟩ := State.txDone_spec there kind 0x0030 0
    refine ⟨_, ?_, ports, host, ring⟩
    rw [pktTxSend_eq works there kind offered]
    exact State.sendHost_bad (by rw [Ring.entryAddr_tx kind]; exact bad)
  · obtain ⟨ports, -, host, ring⟩ := State.txDone_spec there kind 0x0010 0
    refine ⟨_, ?_, ports, host, ring⟩
    rw [pktTxSend_eq works there kind offered]
    exact State.sendHost_down (by rw [Ring.entryAddr_tx kind]; exact good) down owner
  · have leaves := State.sendHost_sent (n := n) counting (by rw [Ring.entryAddr_tx kind]; exact good) up free
      (by rw [Ring.entryAddr_tx kind, Port.wireTime_eq]; exact before) owner
    rw [← pktTxSend_eq works there kind offered, Ring.entryAddr_tx kind, Port.sfdTime_eq] at leaves
    have still : ((s.reach start).sendFrame e start (s.host.readBytes (leNat (slice (desc r) 0 8)) (len r))).ring n = some r := there
    obtain ⟨ports, time, host, ring⟩ := State.txDone_spec still kind 0 (if ((desc r).getD 10 0).getLsbD 0 then start + sfd else 0)
    refine ⟨_, leaves, (congrArg Timebase.time time).trans (Nat.max_eq_right (Nat.le_max_left _ _)), host, ports.trans ?_, ring⟩
    exact congrArg (fun q => s.ports.set e q) (sent _ _ _)

end Sys2Proof.Machine
end

section
/-!
SUPPORT. The harvester (R228, R268, R271 to R278, R281, R283, R284): the frame a pan offers with no command waiting, what is decided of it
and coded, and what an encoded frame leaves.
-/
namespace Sys2Proof.Machine

/-! ### Kinds (R275 to R277, R281) -/

section kinds
variable {t : StreamSt} {m : List Nat}

/-- Nothing makes the frame a key frame: none is due or requested, and the interval has not passed (R276). -/
structure StreamSt.NoKey (t : StreamSt) : Prop where
  due : t.keyDue = false
  slot1 : t.slot1 ≠ none
  requests : t.keyReqs = []
  interval : t.cfg.keyInterval = 0 ∨ t.sinceKey < t.cfg.keyInterval

theorem StreamSt.isKey_of (h : t.keyDue = true ∨ t.slot1 = none ∨ t.keyReqs ≠ []) : t.isKey = true := by
  rcases h with h | h | h <;> simp [StreamSt.isKey, h]

theorem StreamSt.NoKey.isKey (h : t.NoKey) (answer : t.lossAnswer ≠ some .key) : t.isKey = false := by
  obtain ⟨due, slot1, requests, interval⟩ := h
  have elapsed : t.keyByInterval = false := by
    simp only [StreamSt.keyByInterval, Bool.and_eq_false_iff, decide_eq_false_iff_not]
    omega
  obtain ⟨r, there⟩ := Option.ne_none_iff_exists'.mp slot1
  simp [StreamSt.isKey, due, there, requests, elapsed, answer]

theorem StreamSt.lossAnswer_none (h : t.losses = []) : t.lossAnswer = none := by simp [StreamSt.lossAnswer, StreamSt.lost, h]

theorem StreamSt.lossAnswer_one {l : Nat × Nat} (h : t.losses = [l]) : t.lossAnswer = some (t.answer l.2) := by
  simp [StreamSt.lossAnswer, StreamSt.lost, h]

theorem StreamSt.answer_ignored {l : Nat} {a b : RefSlot} (h1 : t.slot1 = some a) (h2 : t.slot2 = some b) (older : l < a.frame) :
    t.answer l = .ignore := by
  simp [StreamSt.answer, h1, h2, older]

theorem StreamSt.answer_recovered {l : Nat} {a b : RefSlot} (h1 : t.slot1 = some a) (h2 : t.slot2 = some b) (covered : b.frame < l)
    (since : a.frame ≤ l) : t.answer l = .recover 2 := by
  simp [StreamSt.answer, h1, h2, covered, Nat.not_lt.mpr since]

theorem StreamSt.decide_key (h : t.isKey = true) : t.decide_ m = some (kindKey, 0) := if_pos h

/-- A report the second slot covers gets a recovery frame from it (R277). -/
theorem StreamSt.decide_recovered (key : t.isKey = false) {n : Nat} (answer : t.lossAnswer = some (.recover n)) :
    t.decide_ m = some (kindRecovery, n) := by
  simp [StreamSt.decide_, key, StreamSt.recoverySlot, answer]

/-- Without a report to answer by a recovery frame, changes, the hold count and the interval decide (R275, R281). -/
theorem StreamSt.decide_unanswered (key : t.isKey = false) (none : t.recoverySlot = none) : t.decide_ m =
    if m.isEmpty then (if t.cfg.holdRefresh ≤ t.held + 1 then some (kindKeepAlive, 0) else Option.none)
    else if t.recoveryByInterval then some (kindRecovery, 2) else some (kindOrdinary, 0) := by
  simp [StreamSt.decide_, key, none]

theorem StreamSt.recoverySlot_none (h : t.lossAnswer = none ∨ t.lossAnswer = some .ignore) : t.recoverySlot = none := by
  rcases h with h | h <;> simp [StreamSt.recoverySlot, h]

theorem StreamSt.NoKey.held (h : t.NoKey) (answer : t.lossAnswer = none ∨ t.lossAnswer = some .ignore) (few : t.held + 1 < t.cfg.holdRefresh) :
    t.decide_ [] = none := by
  rw [StreamSt.decide_unanswered (h.isKey (by rcases answer with h | h <;> simp [h])) (StreamSt.recoverySlot_none answer)]
  simp [few]

theorem StreamSt.NoKey.keepAlive (h : t.NoKey) (none : t.losses = []) (many : t.cfg.holdRefresh ≤ t.held + 1) :
    t.decide_ [] = some (kindKeepAlive, 0) := by
  have answer := StreamSt.lossAnswer_none none
  rw [StreamSt.decide_unanswered (h.isKey (by simp [answer])) (StreamSt.recoverySlot_none (.inl answer))]
  simp [many]

theorem StreamSt.NoKey.changed (h : t.NoKey) (none : t.losses = []) (change : m ≠ []) :
    t.decide_ m = if t.recoveryByInterval then some (kindRecovery, 2) else some (kindOrdinary, 0) := by
  have answer := StreamSt.lossAnswer_none none
  rw [StreamSt.decide_unanswered (h.isKey (by simp [answer])) (StreamSt.recoverySlot_none (.inl answer))]
  simp [change]

end kinds

/-! ### The change map (R271, R283) -/

/-- Nothing has changed since the last frame encoded, and no rewind has marked the frame. -/
def StreamSt.Same (t : StreamSt) (pic : Picture) : Prop := t.changedFor ≠ some pic.frame ∧
  t.lastEnc.any (fun q => q.w == pic.w && q.h == pic.h && q.pixels == pic.pixels) = true

theorem StreamSt.changeMap_same {t : StreamSt} {pic : Picture} (h : t.Same pic) : t.changeMap pic = [] := by
  obtain ⟨unmarked, same⟩ := h
  obtain ⟨q, hq, alike⟩ := Option.any_eq_true _ _ |>.mp same
  simp only [Bool.and_eq_true, beq_iff_eq] at alike
  obtain ⟨⟨w, h⟩, pixels⟩ := alike
  have blocks : ∀ b, pic.block8 b = q.block8 b := fun b => by
    simp only [Picture.block8, Picture.box, Picture.at, w, h, pixels]
  simp [StreamSt.changeMap, changedBlocks, show t.lastEnc = some q from hq, unmarked, w, h, blocks]

theorem StreamSt.changeMap_marked {t : StreamSt} {pic : Picture} (h : t.changedFor = some pic.frame) :
    t.changeMap pic = List.range pic.blockCount := by
  unfold StreamSt.changeMap changedBlocks
  cases t.lastEnc <;> simp [h]

/-! ### The encoding of a frame (R273 to R275) -/

/-- The blocks a frame of a kind counts as changed. -/
def StreamSt.marks (pic : Picture) (kind : Nat) (t : StreamSt) : List Nat :=
  if kind = kindKey ∨ (t.recoverySlot.isSome ∧ (t.changeMap pic).isEmpty) then List.range pic.blockCount else t.changeMap pic

/-- The encoding the harvester begins. -/
def StreamSt.coding (pic : Picture) (e kind slot draw : Nat) (t : StreamSt) : Encoding :=
  t.encode pic e kind slot (t.cfg.qIdx kind draw) (t.marks pic kind)

theorem StreamSt.encode_codes_length (pic : Picture) (e kind slot q : Nat) (changed : List Nat) (t : StreamSt) :
    (t.encode pic e kind slot q changed).codes.length = pic.blockCount := by
  simp [StreamSt.encode]

/-- Every block of a key frame is intra. -/
theorem StreamSt.encode_key (pic : Picture) (e slot q : Nat) (changed : List Nat) (t : StreamSt) :
    (t.encode pic e kindKey slot q changed).codes.all (fun k => k == .intra) = true := by
  simp only [StreamSt.encode, if_true, List.all_map, List.all_eq_true]
  intro b _
  rfl

/-- Of a frame that has a reference, exactly the blocks outside the change map are skipped. -/
theorem FrameInput.blockCode_skip {n : FrameInput} (ref : n.ref.isSome = true) (new old : Hints) (b : Nat) :
    n.blockCode new old b = .skip ↔ n.changed.contains b = false := by
  obtain ⟨r, hr⟩ := Option.isSome_iff_exists.mp ref
  unfold FrameInput.blockCode
  rw [hr]
  cases h : n.changed.contains b with
  | false => simp
  | true =>
    simp only [Bool.not_true, Bool.false_eq_true, if_false, Bool.true_eq_false, iff_false]
    split <;> simp

theorem StreamSt.encode_skips {pic : Picture} {e q : Nat} {changed : List Nat} {t : StreamSt} (ref : t.slot0.isSome = true) {b : Nat}
    (hb : b < pic.blockCount) :
    decide ((t.encode pic e kindOrdinary 0 q changed).codes[b]? = some .skip) = !changed.contains b := by
  have code : (t.encode pic e kindOrdinary 0 q changed).codes[b]? = some (FrameInput.blockCode
      { seq := t.cfg.seqHeader pic.w pic.h, head := t.cfg.frameHeader kindOrdinary q, src := pic.yuv t.cfg.bt601, changed := changed,
        ref := t.slot0 } pic.hints
      ((t.lastEnc.map (fun p => p.hints)).getD { blocks := [], ctl := Vector.replicate 4 0, sprites := [] }) b) := by
    simp only [StreamSt.encode, List.getElem?_map, List.getElem?_range hb, Option.map_some]
    rfl
  rw [Bool.eq_iff_iff, decide_eq_true_iff, code, Option.some_inj, FrameInput.blockCode_skip ref, Bool.not_eq_true']

/-! ### A frame begins (R268, R277, R278, R281) -/

section begins
variable {t : StreamSt} {pic : Picture} {e draw : Nat}

/-- A frame begins with the requests and reports taken; one decided is encoded. -/
theorem StreamSt.begin_decided {kind slot : Nat} (h : t.decide_ (t.changeMap pic) = some (kind, slot)) :
    (t.begin_ pic e draw).keyReqs = [] ∧ (t.begin_ pic e draw).losses = [] ∧ (t.begin_ pic e draw).seen = some pic.frame ∧
    (t.begin_ pic e draw).held = 0 ∧ (t.begin_ pic e draw).enc = some (t.coding pic e kind slot draw) := by
  cases answer : t.lossAnswer with
  | none => simp [StreamSt.begin_, h, answer, StreamSt.coding, StreamSt.marks]
  | some a => cases a <;> simp [StreamSt.begin_, h, answer, StreamSt.coding, StreamSt.marks]

/-- One that is held counts, and leaves encoder and references alone. -/
theorem StreamSt.begin_held (h : t.decide_ (t.changeMap pic) = none) :
    (t.begin_ pic e draw).keyReqs = [] ∧ (t.begin_ pic e draw).losses = [] ∧ (t.begin_ pic e draw).seen = some pic.frame ∧
    (t.begin_ pic e draw).held = t.held + 1 ∧ (t.begin_ pic e draw).heldCnt = (t.heldCnt + 1) % 2 ^ 32 ∧
    (t.begin_ pic e draw).enc = t.enc ∧ (t.begin_ pic e draw).slot0 = t.slot0 ∧
    (t.lossAnswer = some .ignore → (t.begin_ pic e draw).ignored = (t.ignored + 1) % 2 ^ 32) := by
  cases answer : t.lossAnswer with
  | none => simp [StreamSt.begin_, h, answer]
  | some a => cases a <;> simp [StreamSt.begin_, h, answer]

end begins

section harvest
variable {s : State} {p : PanNo} {x : Site} {g : StreamSt} {pic : Picture}

theorem State.modStream_putSite (p : Nat) (y : Site) (f : StreamSt → StreamSt) (s : State) :
    (s.putSite p y).modStream p f = s.putSite p (y.onStream f) := by
  rw [State.modStream_eq (State.site_putSite_same p y s), State.putSite_putSite]

/-- The frame on offer begins with what has landed (R267, R268). -/
theorem State.harvest_eq {t : State} {y : Site} (landed : State.landParts (Waiting.atHarvest p) s.waiting.length
    (s.modStream p (StreamSt.drain s.now)) = t) (hy : t.site p = some y) (hp : y.lastFrame = some pic) : s.harvest p =
      ((t.putSite p { y with lastEnd := y.offerEnd }).modStream p (StreamSt.begin_ pic y.offerEnd t.free)).drawn := by
  unfold State.harvest
  rw [landed]
  dsimp only
  split
  · next none => rw [hy] at none; cases none
  · next z hz =>
    obtain rfl : y = z := Option.some.inj (hy.symm.trans hz)
    split
    · next none => rw [hp] at none; cases none
    · next q hq =>
      obtain rfl : pic = q := Option.some.inj (hp.symm.trans hq)
      rfl

/-- With no command waiting, nothing lands before. -/
theorem State.harvest_idle (hx : s.site p = some x) (idle : s.waiting = []) (hg : x.stream = some g) (hp : x.lastFrame = some pic) :
    s.harvest p = (s.putSite p { x with stream := some ((g.drain s.now).begin_ pic x.offerEnd s.free), lastEnd := x.offerEnd }).drawn := by
  have endsAt := Site.onStream_offerEnd (StreamSt.drain_offers s.now) x
  have landed : State.landParts (Waiting.atHarvest p) s.waiting.length (s.modStream p (StreamSt.drain s.now)) =
      s.putSite p (x.onStream (StreamSt.drain s.now)) := by
    rw [State.modStream_eq hx]
    exact State.landParts_idle (s := s.putSite p (x.onStream (StreamSt.drain s.now))) idle
  rw [State.harvest_eq landed (State.site_putSite_same _ _ _) hp, State.modStream_putSite, State.putSite_putSite, endsAt]
  simp only [Site.onStream, hg, Option.map_some]
  rfl

/-- The frame on offer is the first one: the encoder is free. -/
theorem State.harvestable_enc (h : s.harvestable p = some x) (hg : x.stream = some g) : g.enc = none := by
  simp only [State.harvestable, Option.ite_none_right_eq_some, Option.filter_eq_some_iff, Bool.and_eq_true, Site.offers, hg,
    Option.any_some] at h
  obtain ⟨-, -, ⟨free, -⟩, -⟩ := h
  exact Option.isNone_iff_eq_none.mp free

/-- What the harvester would decide with no command waiting. -/
theorem State.wouldBe_idle {f : StreamSt → List Nat → Bool} (h : s.harvestable p = some x) (idle : s.waiting = []) (hg : x.stream = some g)
    (hp : x.lastFrame = some pic) (decided : f g (g.changeMap pic) = true) : s.wouldBe p f = true := by
  have landed : s.landParts (Waiting.atHarvest p) s.waiting.length = s := State.landParts_idle idle
  simp only [State.wouldBe, landed, h, (State.harvestable_site h).1, hg, hp, decided, Option.isSome_some, Option.any_some, Bool.and_self]

/-- A frame of which a kind is decided begins: requests and reports are taken, and the encoder holds it (R268). -/
theorem State.harvest_decided (h : s.harvestable p = some x) (idle : s.waiting = []) (hg : x.stream = some g)
    (hp : x.lastFrame = some pic) {kind slot : Nat} (decided : g.decide_ (g.changeMap pic) = some (kind, slot)) :
    (s.harvest p).tb = s.tb ∧ SiteThat (s.harvest p) p (fun y => y.pan = x.pan ∧ ∃ t, y.stream = some t ∧ t.keyReqs = [] ∧
      t.losses = [] ∧ t.seen = some pic.frame ∧ t.held = 0 ∧ t.enc = some (g.coding pic x.offerEnd kind slot s.free)) := by
  rw [State.harvest_idle (State.harvestable_site h).1 idle hg hp]
  exact ⟨rfl, _, State.site_putSite_same p _ s, rfl, _, rfl, StreamSt.begin_decided (t := g.drain s.now) decided⟩

/-- A frame that is held leaves the encoder free (R281). -/
theorem State.harvest_held (h : s.harvestable p = some x) (idle : s.waiting = []) (hg : x.stream = some g)
    (hp : x.lastFrame = some pic) (decided : g.decide_ (g.changeMap pic) = none) :
    SiteThat (s.harvest p) p (fun y => y.pan = x.pan ∧ ∃ t, y.stream = some t ∧ t.keyReqs = [] ∧
      t.losses = [] ∧ t.seen = some pic.frame ∧ t.held = g.held + 1 ∧ t.heldCnt = (g.heldCnt + 1) % 2 ^ 32 ∧ t.enc = none ∧
      t.slot0 = g.slot0 ∧ (g.lossAnswer = some .ignore → t.ignored = (g.ignored + 1) % 2 ^ 32)) := by
  rw [State.harvest_idle (State.harvestable_site h).1 idle hg hp, ← State.harvestable_enc h hg]
  exact ⟨_, State.site_putSite_same p _ s, rfl, _, rfl, StreamSt.begin_held (t := g.drain s.now) decided⟩

end harvest

/-! ### An encoded frame (R228, R275, R284) -/

section encoded
variable {n : Encoding} {t : StreamSt} {now : Nat} {os : List Obu}

/-- The encoder is free again, the frame is the last one encoded, and it counts under its kind. -/
theorem StreamSt.encoded_parts (kind : n.kind < 4) : (t.encoded n now os).enc = none ∧ (t.encoded n now os).lastEnc = some n.pic ∧
    (t.encoded n now os).header = some n.head ∧ (t.encoded n now os).keyDue = false ∧
    (t.encoded n now os).emitted.toList.getD n.kind 0 = (t.emitted.toList.getD n.kind 0 + 1) % 2 ^ 32 := by
  unfold StreamSt.encoded
  have counted : (t.emitted.set n.kind ((t.emitted[n.kind] + 1) % 2 ^ 32)).toList.getD n.kind 0 =
      (t.emitted.toList.getD n.kind 0 + 1) % 2 ^ 32 := by simp [kind]
  rw [← counted]
  split_ifs <;> exact ⟨rfl, rfl, rfl, rfl, rfl⟩

/-- What a frame leaves as a reference. -/
def Encoding.left (n : Encoding) : RefSlot := { frame := n.pic.frame, recon := n.recon, context := n.context }

theorem StreamSt.filled_slots (now bytes : Nat) (t : StreamSt) : ((t.drain now).fill bytes).slot0 = t.slot0 ∧
    ((t.drain now).fill bytes).slot1 = t.slot1 ∧ ((t.drain now).fill bytes).slot2 = t.slot2 := by
  cases t
  exact ⟨rfl, rfl, rfl⟩

/-- A frame of each kind moves the reference slots of its kind (R275). -/
theorem StreamSt.encoded_slots (kind : n.kind < 4) :
    (t.encoded n now os).slot0 = (if n.kind = 3 then t.slot0 else some n.left) ∧
    (t.encoded n now os).slot1 = (if n.kind = 0 then some n.left else t.slot1) ∧
    (t.encoded n now os).slot2 = (if n.kind ≤ 1 then some n.left else t.slot2) ∧
    (t.encoded n now os).sinceKey = (if n.kind = 0 then 0 else t.sinceKey + 1) := by
  obtain ⟨slot0, slot1, slot2⟩ := StreamSt.filled_slots now (unitBytes os) t
  have kinds : n.kind = 0 ∨ n.kind = 1 ∨ n.kind = 2 ∨ n.kind = 3 := by omega
  rcases kinds with k | k | k | k <;> rw [StreamSt.encoded] <;>
    simp [k, kindKey, kindRecovery, kindOrdinary, slot0, slot1, slot2, Encoding.left]

/-- There is a packet for whatever is carried. -/
theorem fillPackets_pos (space n : Nat) {l : List (Option Byte × Nat)} (h : l ≠ []) : 0 < (fillPackets space (n + 1) l).length := by
  simp [fillPackets, h]

theorem Encoding.packets_pos (n : Encoding) (p now seqLen frameLen : Nat) (g : Stream) :
    0 < (n.packets p now seqLen frameLen g).length := by
  have carried : carriedObus (n.kind == kindKey) seqLen frameLen ≠ [] := by simp [carriedObus]
  simpa [Encoding.packets] using fillPackets_pos g.space (seqLen + frameLen) carried

/-- Packet i of a frame departs at E + EMIT_DELAY + i × GAP (R228). -/
theorem Encoding.packets_spaced (n : Encoding) (p now seqLen frameLen : Nat) (g : Stream) :
    ∀ k ∈ (n.packets p now seqLen frameLen g).zipIdx, k.1.pan = p ∧ k.1.video = true ∧ k.1.index = k.2 ∧ k.1.frame = n.pic.frame ∧
      k.1.dep = n.e + g.emitDelay * 16000 + k.2 * g.gap * 16 ∧ k.1.ts = BitVec.ofNat 32 (n.e * 9 / 1600000) := by
  rintro ⟨k, i⟩ hk
  rw [List.mk_mem_zipIdx_iff_getElem?] at hk
  simp only [Encoding.packets, List.getElem?_map, List.getElem?_zipIdx, Option.map_eq_some_iff] at hk
  obtain ⟨⟨f, j⟩, ⟨a, ha, hj⟩, rfl⟩ := hk
  cases hj
  simp [Config.usUnits]

end encoded

/-! ### The statement -/

/-- An encoded frame is finished: its references stand, and its packets queue behind those that wait. -/
theorem harvesterFrameDone_completes {s : State} {p : PanNo} {x : Site} {g : StreamSt} {n : Encoding} (works : s.works = true)
    (hx : s.site p = some x) (hg : x.stream = some g) (henc : g.enc = some n) : ∃ os ks, exec (.harvesterFrameDone p) s =
      .next { s.putSite p { x with stream := some (g.encoded n s.now os) } with packets := s.packets ++ ks } ∧
    ∃ seqLen frameLen, ks = n.packets p s.now seqLen frameLen g.cfg := by
  let seqLen := max 2 (Config.seqHeaderBytes (g.cfg.seqHeader n.pic.w n.pic.h))
  let frameLen := max 2 (Config.frameObuBytes n.unit)
  refine ⟨unitObus (n.kind == kindKey) seqLen frameLen, n.packets p s.now seqLen frameLen g.cfg, ?_, seqLen, frameLen, rfl⟩
  show execHarvesterFrameDone p s = _
  simp only [execHarvesterFrameDone, hx, hg, henc, works, if_true, State.finishFrame, State.modStream_eq hx, Site.onStream, Option.map_some]
  rfl

/-- Settles O48: the kind decided says what the harvester encodes. -/
theorem harvesterFrames : Obligations.HarvesterFrames := by
  intro s p x noKey same noRecovery left quiet begun qIs coded
  have key {g : StreamSt} (h : noKey g) : g.NoKey := ⟨h.1, h.2.1, h.2.2.1, h.2.2.2⟩
  have begins {g : StreamSt} {pic : Picture} {kind slot : Nat} (h : s.harvestable p = some x) (idle : s.waiting = [])
      (hg : x.stream = some g) (hp : x.lastFrame = some pic) (decided : g.decide_ (g.changeMap pic) = some (kind, slot)) :
      begun pic kind slot (s.harvest p) ∧ (s.harvest p).tb = s.tb ∧
        ∀ c : Encoding → Bool, c (g.coding pic x.offerEnd kind slot s.free) = true → coded c (s.harvest p) := by
    obtain ⟨tb, y, there, pan, t, stream, requests, losses, seen, held, enc⟩ := State.harvest_decided h idle hg hp decided
    refine ⟨⟨y, there, pan, ?_⟩, tb, fun c hc => ⟨y, there, ?_⟩⟩
    · rw [stream, Option.any_some, enc, Option.any_some]
      simp [quiet, requests, losses, seen, held, StreamSt.coding, StreamSt.encode]
    · show y.stream.any _ = true
      rw [stream, Option.any_some, enc, Option.any_some]
      exact hc
  have frame (h : s.harvestable p = some x) : exec (.harvesterFrame p) s = .next (s.harvest p) := exec_harvesterFrame (by rw [h]; rfl)
  refine ⟨?_, ?_, ?_, ?_, ?_, ?_, ?_, ?_, ?_, ?_, ?_⟩
  · intro g pic h idle hg hp why
    obtain ⟨begun, tb, coded⟩ := begins h idle hg hp (StreamSt.decide_key (StreamSt.isKey_of why))
    refine ⟨_, frame h, begun, tb, coded _ ?_, fun cqp => coded _ ?_⟩
    · simp only [StreamSt.coding, StreamSt.encode_codes_length, StreamSt.encode_key, beq_self_eq_true, Bool.true_and, Bool.and_true]
      rfl
    · exact beq_iff_eq.mpr (by rw [StreamSt.coding, StreamSt.encode, Stream.qIdx, if_pos cqp, if_pos rfl])
  · intro g pic h idle hg hp some_ elapsed
    have due : g.keyByInterval = true := by simp [StreamSt.keyByInterval, some_, elapsed]
    obtain ⟨begun, -, -⟩ := begins h idle hg hp (StreamSt.decide_key (by simp [StreamSt.isKey, due]))
    exact ⟨_, if_pos (State.wouldBe_idle h idle hg hp due), begun⟩
  · intro g pic h idle hg hp hk none hs few
    have held := (key hk).held (.inl (StreamSt.lossAnswer_none none)) few
    rw [← StreamSt.changeMap_same hs] at held
    obtain ⟨y, there, pan, t, stream, requests, losses, seen, held, count, enc, slot0, -⟩ := State.harvest_held h idle hg hp held
    refine ⟨_, frame h, y, there, pan, ?_⟩
    rw [stream, Option.any_some]
    simp [quiet, requests, losses, seen, held, count, enc, slot0]
  · intro g pic h idle hg hp hk none hs many
    have decided := (key hk).keepAlive none many
    rw [← StreamSt.changeMap_same hs] at decided
    obtain ⟨begun, -, -⟩ := begins h idle hg hp decided
    exact ⟨_, if_pos (State.wouldBe_idle h idle hg hp (by rw [decided]; rfl)), begun⟩
  · intro g pic h idle hg hp hk none change recovery
    have ordinary : g.recoveryByInterval = false := by
      obtain ⟨due, interval⟩ := recovery
      simp only [StreamSt.recoveryByInterval, due, Bool.false_or, Bool.and_eq_false_iff, decide_eq_false_iff_not]
      omega
    have marked : g.marks pic kindOrdinary = g.changeMap pic := by
      simp [StreamSt.marks, kindOrdinary, kindKey, StreamSt.recoverySlot_none (.inl (StreamSt.lossAnswer_none none))]
    have decided := (key hk).changed none change
    rw [ordinary, if_neg Bool.false_ne_true] at decided
    obtain ⟨begun, -, coded⟩ := begins h idle hg hp decided
    refine ⟨_, frame h, begun, fun cqp => coded _ ?_, coded _ ?_, fun ref b hb => coded _ ?_⟩
    · exact beq_iff_eq.mpr (by rw [StreamSt.coding, StreamSt.encode, Stream.qIdx, if_pos cqp, if_neg (by decide)])
    · rw [StreamSt.coding, marked]
      simp only [StreamSt.encode, Stream.frameHeader, beq_self_eq_true, Bool.true_and]
      rfl
    · rw [StreamSt.coding, marked, beq_iff_eq]
      exact StreamSt.encode_skips ref hb
  · exact fun g pic marked => StreamSt.changeMap_marked marked
  · intro g pic h idle hg hp hk none change due
    have decided := (key hk).changed none change
    rw [if_pos (by simp [StreamSt.recoveryByInterval, due])] at decided
    exact ⟨_, frame h, (begins h idle hg hp decided).1⟩
  · intro g pic a b l h idle hg hp hk report h1 h2 covered since
    have answer := StreamSt.lossAnswer_one report
    rw [StreamSt.answer_recovered h1 h2 covered since] at answer
    exact ⟨_, frame h, (begins h idle hg hp (StreamSt.decide_recovered ((key hk).isKey (by simp [answer])) answer)).1⟩
  · intro g pic a b l h idle hg hp hk report h1 h2 older hs few
    have answer := StreamSt.lossAnswer_one report
    rw [StreamSt.answer_ignored h1 h2 older] at answer
    have held := (key hk).held (.inr answer) few
    rw [← StreamSt.changeMap_same hs] at held
    obtain ⟨y, there, -, t, stream, -, -, -, -, -, enc, -, ignored⟩ := State.harvest_held h idle hg hp held
    refine ⟨_, frame h, y, there, ?_⟩
    show y.stream.any _ = true
    rw [stream, Option.any_some]
    simp [enc, ignored answer]
  · intro r works hx hr slot1 interval elapsed
    refine ⟨_, if_pos works, ?_⟩
    have due : (r.recoveryByInterval && r.slot1.isSome) = true := by
      simp [StreamSt.recoveryByInterval, interval, elapsed, Option.isSome_iff_ne_none, slot1]
    rw [State.modStream_eq hx, Site.onStream, hr, Option.map_some, if_pos due]
  · intro g n works hx hg henc kind
    obtain ⟨os, ks, runs, seqLen, frameLen, rfl⟩ := harvesterFrameDone_completes works hx hg henc
    refine ⟨_, runs, ⟨_, State.site_putSite_same p _ s, rfl, ?_⟩, List.take_left, ?_, ?_⟩
    · obtain ⟨enc, last, header, due, count⟩ := StreamSt.encoded_parts (t := g) (now := s.now) (os := os) kind
      obtain ⟨slot0, slot1, slot2, since⟩ := StreamSt.encoded_slots (t := g) (now := s.now) (os := os) kind
      rw [Option.any_some]
      simp only [enc, last, header, due, count, slot0, slot1, slot2, since, left, Encoding.left, beq_self_eq_true, Option.isNone_none,
        Bool.not_false, Bool.and_self]
    · simpa using n.packets_pos p s.now seqLen frameLen g.cfg
    · rw [List.drop_left, List.all_eq_true]
      intro k hk
      obtain ⟨pan, video, index, frame, dep, ts⟩ := n.packets_spaced p s.now seqLen frameLen g.cfg k hk
      simp [pan, video, index, frame, dep, ts]

end Sys2Proof.Machine
end

section
/-!
SUPPORT. A pending gain step whose timeout sample comes before its own first sample (R295): a `GAIN_TIMEOUT` of 0, which R290 does not
allow but a state may hold.
-/
namespace Sys2Proof.Machine

theorem exec_gainTimeout {s : State} {p : PanNo} {x : Site} {right : Bool} (ready : s.chainReady p = true) (hx : s.site p = some x)
    (due : x.audio.timesOut right = true) : exec (.gainTimeout p right) s = .next (s.block p) := by
  show execGainTimeout p right s = _
  rw [execGainTimeout, ready, hx, Option.any_some, due]
  exact if_pos rfl

/-- The chain of a pan with a `GAIN_TIMEOUT` of 0 ms, and a step of the left channel pending from the first sample of the next block on. -/
def untimedAudio (a : Audio) : Audio :=
  { a with queue := List.replicate 48 (0, 0, 0, 0), cfg := { a.cfg with gainTimeout := 0 }, left := { a.left with step := some (-12, 48) } }

def untimedSite : Site := { Site.create poppingPan 0 0 0 with mode := .free, audio := untimedAudio Audio.reset }

/-- The device out of reset, every function ready, with that pan. -/
def untimedState : State :=
  { State.reset with
    pwr := { State.reset.pwr with sysRst := false }, dev := { State.reset.dev with ready := 0xFFFFFFFF }, sites := [(0, untimedSite)] }

theorem untimedState_ready : untimedState.chainReady 0 = true := by decide +kernel

/-- The timeout sample is the last one of the block, one before the step's first. -/
theorem untimedSite_timesOut : untimedSite.audio.timesOut false = true := by decide +kernel

/-- After the block the step is still pending. -/
theorem untimedState_pending : ((untimedState.block 0).site 0).map (fun y => y.audio.left.step) = some (some (-12, 48)) := by
  decide +kernel

/-- Refutes O49: in `untimedState` the timeout sample s0 + 48 × 0 - 1 lies in the block that `GAIN_TIMEOUT` processes but the step's first
sample s0 after it, so the step stays pending, where the statement has it taken. -/
theorem not_audioDelivered : ¬ Obligations.AudioDelivered := by
  unfold Obligations.AudioDelivered
  intro h
  obtain ⟨-, timeouts, -⟩ := h untimedState 0 untimedSite
  obtain ⟨t, runs, y, there, -, taken, -⟩ := timeouts false untimedState_ready rfl rfl untimedSite_timesOut
  have block : exec (.gainTimeout 0 false) untimedState = .next (untimedState.block 0) :=
    exec_gainTimeout untimedState_ready rfl untimedSite_timesOut
  have pending := untimedState_pending
  generalize untimedState.block 0 = after at block pending
  obtain rfl : t = after := Host.Outcome.next.inj (runs.symm.trans block)
  rw [there, Option.map_some] at pending
  exact absurd ((Option.some.inj pending).symm.trans taken) (by decide)

end Sys2Proof.Machine
end

section
/-!
SUPPORT. Observation records, the records of a replay, and rewinds (R225, R234 to R236, R242, R243, R251, R253, R255 to R258).
-/
namespace Sys2Proof.Machine

/-! ### An observation record (R242, R255, R256, R339) -/

section records
variable {s : State} {p n : Nat} {x : Site} {r : Ring} {i : ObsItem}

theorem State.ring_pushEntry (h : s.ring n = some r) (entry : List Byte) :
    ∃ q, (s.pushEntry n entry).ring n = some q ∧ q.dev = r.dev + 1 := by
  simp only [State.pushEntry, h]
  generalize written : State.putRing n _ _ = u
  exact State.ring_moderate (s := u) (r := ({ r with dev := r.dev + 1 } : Ring).visible s.now)
    (by rw [← written]; exact Table.get_put_same _ _ _)

/-- A record without a payload does not depend on a place in the data area. -/
theorem ObsItem.bytes_plain (plain : i.dataAt = 0) (off now : Nat) : i.bytes off now =
    slice i.pre 0 12 ++ slice i.mid 0 8 ++ slice i.low 0 4 ++ leBytes 8 (i.stamp.getD now) := by
  simp [ObsItem.bytes, plain]

/-- A record without a payload is an entry of its ring. -/
theorem State.writeItem_plain (h : s.ring n = some r) (plain : i.dataAt = 0) : s.writeItem n i = s.pushEntry n (i.bytes 0 s.now) := by
  simp only [State.writeItem, h, plain, if_true, ObsItem.bytes_plain plain]

/-- The oldest frame of a pan that owes one record without a payload, in a ring with room. -/
theorem State.writeFrame_plain (hx : s.site p = some x) (named : x.obs.ring = some n) (held : x.ringLost = false)
    (hr : s.ring n = some r) (room : r.full = false) (frames : x.obsQ ≠ []) (owed : x.owedItems = [i]) (plain : i.dataAt = 0) :
    s.writeFrame p = (s.pushEntry n (i.bytes 0 s.now)).putSite p x.recordsDone := by
  have obsRing : s.obsRing x = some r := by simp [State.obsRing, held, named, hr]
  have fits : s.oldestFits x = true := by simp [State.oldestFits, obsRing, owed, Ring.takesAll, Ring.takes, room, plain]
  have waits : (x.obsQ.isEmpty || !s.oldestFits x) = false := by simp [fits, frames]
  simp only [State.writeFrame, hx, named, waits, owed, State.writeItems, List.foldl_cons, List.foldl_nil, State.writeItem_plain hr plain,
    Bool.false_eq_true, if_false]

/-- What the writer leaves of such a frame. -/
theorem obsRecordWrite_plain (writes : s.engines = true ∧ s.obsNext = some p) (hx : s.site p = some x) (named : x.obs.ring = some n)
    (held : x.ringLost = false) (hr : s.ring n = some r) (kind : r.kind = 3) (room : r.full = false) (frames : x.obsQ ≠ [])
    (owed : x.owedItems = [i]) (plain : i.dataAt = 0) :
    Completes (.obsRecordWrite p) s (fun t => t.site p = some x.recordsDone ∧ t.rrObs = p ∧
      (t.ring n).any (fun k => k.dev == r.dev + 1) = true ∧
      t.host = (s.host.writeBytes (r.base + (r.dev.toNat % 2 ^ r.log2) * 32) (i.bytes 0 s.now)).writeBytes r.idxAddr
        (leBytes 4 (r.dev + 1).toNat)) := by
  obtain ⟨engines, next⟩ := writes
  have serves : (s.engines && s.obsNext == some p) = true := by rw [engines, next]; exact beq_self_eq_true _
  obtain ⟨q, there, dev⟩ := State.ring_pushEntry hr (i.bytes 0 s.now)
  have address : r.entryAddr r.dev = r.base + (r.dev.toNat % 2 ^ r.log2) * 32 := by rw [Ring.entryAddr, kind]; rfl
  refine ⟨_, if_pos serves, ?_⟩
  rw [State.writeFrame_plain hx named held hr room frames owed plain]
  refine ⟨State.site_putSite_same _ _ _, rfl, ?_, ?_⟩
  · have ring : ((s.pushEntry n (i.bytes 0 s.now)).putSite p x.recordsDone).ring n = some q := there
    refine (congrArg (Option.any fun k => k.dev == r.dev + 1) ring).trans ?_
    rw [Option.any_some, dev]
    exact beq_self_eq_true _
  · rw [← address]
    exact State.pushEntry_host hr _

/-- A log record without bytes. -/
theorem LogRec.item_bytes {l : LogRec} (h : l.kind ≠ 0x0A) (now : Nat) : l.item.dataAt = 0 ∧ l.item.bytes 0 now =
    leBytes 4 l.frame ++ leBytes 4 l.cyc ++ [l.kind, l.arg, l.flags, l.conf] ++ slice l.payload 0 8 ++ leBytes 4 l.seq ++
      leBytes 8 l.stamp := by
  have plain : l.item.dataAt = 0 := if_neg h
  refine ⟨plain, ?_⟩
  rw [ObsItem.bytes_plain plain]
  simp [LogRec.item, slice, leBytes]

/-- The record of a frame's hash. -/
def FrameRecords.hashItem (f : FrameRecords) (conf gap : Bool) (h : BitVec 64) : ObsItem :=
  { obsItem f.frame 0 0x12 0 (obsFlags f.redo conf f.late gap) [] with mid := leBytes 8 h.toNat, dataAt := 0 }

/-- A frame that leaves nothing but its hash. -/
theorem FrameRecords.items_hash {f : FrameRecords} {h : BitVec 64} (logs : f.logs = []) (picture : f.picture = none)
    (audio : f.audio = []) (hash : f.hash = some h) (conf gap : Bool) : f.items conf gap = [f.hashItem conf gap h] := by
  simp [FrameRecords.items, FrameRecords.bodyItems, FrameRecords.hashItem, logs, picture, audio, hash]

theorem FrameRecords.hashItem_bytes (f : FrameRecords) (conf gap : Bool) (h : BitVec 64) (now : Nat) :
    (f.hashItem conf gap h).bytes 0 now =
      leBytes 4 f.frame ++ [0, 0, 0, 0, 0x12, 0, withFlags 0 [(0, f.redo), (1, conf), (2, f.late), (3, gap)], 0] ++ leBytes 8 h.toNat ++
        [0, 0, 0, 0] ++ leBytes 8 now := by
  rw [ObsItem.bytes_plain rfl]
  simp [FrameRecords.hashItem, obsItem, slice, leBytes, obsFlags, withFlags]

/-- A pan without a ring, or whose ring has been destroyed, gets no record (R251). -/
theorem State.writeFrame_unserved (hx : s.site p = some x) (unserved : x.obs.ring = none ∨ x.ringLost = true) : s.writeFrame p = s := by
  unfold State.writeFrame
  rw [hx]
  dsimp only
  split
  · rfl
  · next n named =>
    have lost : x.ringLost = true := unserved.resolve_left (by simp [named])
    have none_ : s.oldestFits x = false := by simp [State.oldestFits, State.obsRing, lost]
    simp [none_]

/-- Of two pans whose records fit, the writer serves the first above the one it served last, else the lowest (R258). -/
theorem State.obsNext_two {a b : Nat} {y z : Site} (sites : s.sites = [(a, y), (b, z)]) (hy : y.recordsReady = true)
    (fy : s.oldestFits y = true) (hz : z.recordsReady = true) (fz : s.oldestFits z = true) :
    s.obsNext = some (if s.rrObs < a then a else if s.rrObs < b then b else a) := by
  have queue : s.obsQueue = [a, b] := by simp [State.obsQueue, sites, hy, fy, hz, fz]
  rw [State.obsNext, queue]
  by_cases ha : s.rrObs < a
  · simp [ha]
  · by_cases hb : s.rrObs < b <;> simp [ha, hb]

end records

/-! ### A replay (R243) -/

section replay
variable {s : State} {p : PanNo} {x y : Site} {r : LogRec} {l : List LogRec}

theorem State.replays_mode (h : s.replays x = true) : x.mode = .replay := by
  simp only [State.replays, Bool.and_eq_true, beq_iff_eq] at h
  obtain ⟨⟨⟨⟨⟨-, mode⟩, -⟩, -⟩, -⟩, -⟩ := h
  exact mode

theorem exec_logRecordApply_ends (hx : s.site p = some x) (replays : s.replays x = true) (log : x.heap.replay = []) :
    exec (.logRecordApply p) s =
      .next ((s.putSite p { x with heap := { x.heap with replay := [] } }).park p x.pan.frame 1 false) := by
  have ended : x.logEnded = true := by rw [Site.logEnded, log]
  show execLogRecordApply p s = _
  simp only [execLogRecordApply, hx, replays, ended, Bool.not_true, Bool.false_eq_true, if_false, if_true, State.modSite_eq hx]

/-- A record of the log that hands nothing on leaves the pan's record and nothing else. -/
theorem exec_logRecordApply (hx : s.site p = some x) (replays : s.replays x = true) (log : x.heap.replay = r :: l) (kind : r.kind ≠ 9)
    (dealt : x.replayRecord r = some y) (quiet : Pan.Quiet x.pan y.pan) :
    exec (.logRecordApply p) s = .next (s.withPan p y y.pan) := by
  have other : (r.kind == 9) = false := beq_false_of_ne kind
  have goes : x.logEnded = false := by
    rw [Site.logEnded, log]
    dsimp only
    rw [other, Bool.false_and, Bool.false_and]
  show execLogRecordApply p s = _
  simp only [execLogRecordApply, hx, replays, goes, log, dealt, Bool.not_true, Bool.false_eq_true, if_false]
  exact congrArg _ (State.afterPan_quiet quiet)

/-- A record out of order. -/
theorem Site.replayRecord_order (before : r.frame < x.pan.frame) :
    x.replayRecord r = some ((x.nextRecord (r.frame, r.cyc)).logError 2) := if_pos (.inl before)

/-- A media record with a wrong CRC-32. -/
theorem Site.replayRecord_corrupt (frame : r.frame = x.pan.frame) (order : posBefore (r.frame, r.cyc) x.heap.replayPos = false)
    (kind : r.kind = 0x0A) (crc : leNat (slice r.payload 4 4) ≠ (crc32 r.bytes).toNat) :
    x.replayRecord r = some ((x.nextRecord (r.frame, r.cyc)).logError 4) := by
  have corrupt : r.corrupt = true := by simp [LogRec.corrupt, kind, crc]
  simp [Site.replayRecord, frame.symm ▸ order, frame, corrupt]

/-- A record whose pan-cycle has run, and that ends no wait, is applied there. -/
theorem Site.replayAt_ran {k : PlaceKind} (frame : r.frame = x.pan.frame) (free : x.pan.core.hcWait = false)
    (ran : x.pan.frameStart + r.cyc < x.pan.clk) : ∃ pl : Placement, pl.kind = k ∧ pl.late = r.flags.getLsbD 0 ∧
      x.replayAt r k = some { x.noted (x.pan.frameStart + r.cyc) pl with pan := x.pan.place pl.kind pl.late } := by
  have here : x.pan.reach (x.pan.frameStart + r.cyc + 1) = x.pan := by
    simp [Pan.reach, Nat.not_lt.mpr (Nat.succ_le_of_lt ran)]
  have awaits : x.awaits k = false := by rw [Site.awaits, free, Bool.false_and]
  have come : x.pan.frameStart + r.cyc + 1 ≤ x.pan.clk := ran
  have now : ¬ x.pan.frame < r.frame := by omega
  simp only [Site.replayAt, here, awaits, come, now, if_false, if_true, Bool.false_eq_true]
  exact ⟨_, rfl, rfl, congrArg some (Site.apply_noted (x.pan.frameStart + r.cyc) _ x rfl rfl)⟩

/-- What a placement leaves of the log. -/
theorem Site.noted_input {pl : Placement} {k : Fin 16} {d : Vector Byte 7} (kind : pl.kind = .input k d) (c : Nat) :
    (x.noted c pl).heap.replay = x.heap.replay ∧ (x.noted c pl).heap.replayPos = x.heap.replayPos := by
  obtain ⟨logs, n, e⟩ := Site.log_eq (if pl.logged then [] else pl.logRecs x.pan.frame (c - x.pan.frameStart)) (x.unqueue pl)
  have noted : x.noted c pl = ((x.unqueue pl).log (if pl.logged then [] else pl.logRecs x.pan.frame (c - x.pan.frameStart))).remember
      { frame := x.pan.frame, cyc := c - x.pan.frameStart, p := pl } := by
    have ends : (x.unqueue pl).endsCall pl.kind = x.unqueue pl := by rw [kind]; rfl
    rw [← ends]
    rfl
  rw [noted, e]
  exact ⟨rfl, rfl⟩

/-- What an input record does to the image (R91). -/
theorem Pan.place_input (k : Fin 16) (d : Vector Byte 7) (late : Bool) (q : Pan) : q.place (.input k d) late =
    (({ q with slots := q.slots.set k { q.slots[k] with
      data := d, new := true, upd := q.slots[k].upd + 1, late := q.slots[k].late || late } } : Pan).captureAll 3).raising [(17, true)] := by
  rw [Pan.raising_source (by decide)]
  rfl

/-- An input record applied at its pan-cycle, which has run: it loads its slot (R91), and the log moves on. -/
theorem Site.replayRecord_input (kind : r.kind = 1) (frame : r.frame = x.pan.frame)
    (order : posBefore (r.frame, r.cyc) x.heap.replayPos = false) (free : x.pan.core.hcWait = false)
    (ran : x.pan.frameStart + r.cyc < x.pan.clk) : ∃ z : Site, x.replayRecord r =
        some { z with pan := x.pan.place (.input r.slot (byteVec 7 r.payload)) (r.flags.getLsbD 0) } ∧
      z.heap.replay = x.heap.replay.tail ∧ z.heap.replayPos = (r.frame, r.cyc) := by
  have sound : r.corrupt = false := by simp [LogRec.corrupt, kind]
  have places : r.places = some (.input r.slot (byteVec 7 r.payload)) := by simp [LogRec.places, kind]
  have dealt : x.replayRecord r = (x.nextRecord (r.frame, r.cyc)).replayAt r (.input r.slot (byteVec 7 r.payload)) := by
    rw [Site.replayRecord, if_neg (by simp [frame, ← frame ▸ order]), sound, if_neg Bool.false_ne_true, places]
  obtain ⟨pl, input, late, applied⟩ := Site.replayAt_ran (x := x.nextRecord (r.frame, r.cyc))
    (k := .input r.slot (byteVec 7 r.payload)) frame free ran
  rw [input, late] at applied
  exact ⟨_, dealt.trans applied, Site.noted_input input _⟩

end replay

/-! ### What a re-run counts (R234)

A frame that is run again moves no device time, and counts no rewind. -/

theorem State.sendCall_tb (p : Nat) (entry : List Byte) (s : State) : (s.sendCall p entry).tb = s.tb := by
  unfold State.sendCall
  cases s.serving 2 (some p) with
  | none => rfl
  | some n =>
    refine (apply_ite State.tb _ _ _).trans ?_
    rw [(State.pushCall_eventful n entry s).tb]
    exact ite_self _

theorem State.dropWaiting_tb (f : Waiting → Bool) (status : Nat) (s : State) : (s.dropWaiting f status).tb = s.tb :=
  State.foldl_tb (fun t w => State.finish_tb w status [] t) _ _

/-- Device time is `tb`, and pan `p` has counted `n` rewinds. -/
structure State.Counts (p n : Nat) (tb : Timebase) (s : State) : Prop where
  time : s.tb = tb
  site : SiteThat s p (fun y => y.ctr.rewinds = n)

theorem Site.ite_ctr {c : Prop} {_ : Decidable c} {x y : Site} {k : PanCounters} (h : x.ctr = k) (h' : y.ctr = k) :
    (if c then x else y).ctr = k := by
  split
  · exact h
  · exact h'

theorem Site.snapshot_ctr (kpa conf : Byte) (x : Site) : (x.snapshot kpa conf).ctr = x.ctr := Site.ite_ctr rfl rfl

theorem Site.queueRecords_ctr (k : Nat) (pic : Picture) (ss : List (Nat × Int × Int)) (h : Option (BitVec 64)) (redo : Bool) (x : Site) :
    (x.queueRecords k pic ss h redo).ctr = x.ctr := Site.ite_ctr rfl (Site.ite_ctr rfl rfl)

/-- The end of a frame run again counts nothing. -/
theorem Site.endFrame_ctr (kpa conf : Byte) (old : Pan) (x : Site) : (x.endFrame kpa conf old true).ctr = x.ctr := by
  have queued : ∀ (y : Site) k pic ss h, (((y.snapshot kpa conf).prune).queueRecords k pic ss h true).ctr = y.ctr :=
    fun y k pic ss h => (Site.queueRecords_ctr k pic ss h true _).trans (Site.snapshot_ctr kpa conf y)
  rw [Site.endFrame]
  dsimp only
  rw [if_pos rfl]
  exact (queued _ _ _ _ _).trans (Site.ite_ctr rfl rfl)

theorem Site.noteApplied_ctr (x : Site) (e : Nat × Placement) : (x.noteApplied e).ctr = x.ctr := by
  have ends : ∀ (k : PlaceKind) (y : Site), (y.endsCall k).ctr = y.ctr := by
    intro k y
    cases k
    case hcReply => exact Site.ite_ctr rfl rfl
    case hcTimeout => exact Site.ite_ctr rfl rfl
    all_goals rfl
  have logs : ∀ (l : List LogRec) (y : Site), (y.log l).ctr = y.ctr := fun l y => Site.ite_ctr rfl rfl
  exact (logs _ _).trans (ends _ _)

theorem Site.foldl_noteApplied_ctr (l : List (Nat × Placement)) (x : Site) : (l.foldl Site.noteApplied x).ctr = x.ctr :=
  List.foldlRecOn (motive := fun y : Site => y.ctr = x.ctr) l _ rfl (fun y h e _ => (Site.noteApplied_ctr y e).trans h)

namespace State.Counts

variable {p n : Nat} {tb : Timebase} {s t : State}

theorem same (h : State.Counts p n tb s) (time : t.tb = s.tb) (sites : t.sites = s.sites) : State.Counts p n tb t := by
  obtain ⟨before, y, there, count⟩ := h
  exact ⟨time.trans before, y, by rwa [State.site, sites], count⟩

theorem events (h : State.Counts p n tb s) (e : Eventful s t) : State.Counts p n tb t := h.same e.tb e.sites

theorem post (h : State.Counts p n tb s) (code : Nat) (pan : Option Nat) (flags : Byte) (data : List Byte) :
    State.Counts p n tb (s.post code pan flags data) := h.events (State.post_eventful ..)

theorem put {x : Site} (h : State.Counts p n tb s) (count : x.ctr.rewinds = n) : State.Counts p n tb (s.putSite p x) :=
  ⟨h.time, SiteThat.putSite count⟩

theorem modSite {f : Site → Site} (h : State.Counts p n tb s) (k : ∀ y, (f y).ctr.rewinds = y.ctr.rewinds) :
    State.Counts p n tb (s.modSite p f) := by
  obtain ⟨y, there, count⟩ := h.site
  rw [State.modSite_eq there]
  exact h.put ((k y).trans count)

theorem ite {c : Prop} {_ : Decidable c} (h : State.Counts p n tb s) (k : State.Counts p n tb t) :
    State.Counts p n tb (if c then s else t) := by
  split
  · exact h
  · exact k

theorem foldl {α : Type} {f : State → α → State} (hf : ∀ s a, State.Counts p n tb s → State.Counts p n tb (f s a)) (l : List α)
    (h : State.Counts p n tb s) : State.Counts p n tb (l.foldl f s) :=
  List.foldlRecOn l f h (fun t k a _ => hf t a k)

theorem abortHalts (h : State.Counts p n tb s) : State.Counts p n tb (s.abortHalts p) := by
  obtain ⟨y, there, count⟩ := id h.site
  rw [State.abortHalts, there]
  exact (foldl (fun t pl k => k.same (State.finishHalt_tb ..) (State.finishHalt_sites ..)) y.halts h).put count

theorem abortWaiting (h : State.Counts p n tb s) : State.Counts p n tb (s.abortWaiting p) := by
  have dropped : State.Counts p n tb (s.dropWaiting (Waiting.onPan p) stAborted) :=
    h.same (State.dropWaiting_tb ..) (State.dropWaiting_sites ..)
  exact dropped.abortHalts

theorem park (h : State.Counts p n tb s) (frame reason : Nat) (redo : Bool) : State.Counts p n tb (s.park p frame reason redo) := by
  obtain ⟨y, there, -⟩ := id h.site
  rw [State.park, there]
  refine State.Counts.post (State.Counts.modSite h.abortHalts ?_) ..
  exact fun _ => rfl

theorem fault (h : State.Counts p n tb s) (cause : Byte) (pc : Word) (redo : Bool) : State.Counts p n tb (s.faultPan p cause pc redo) := by
  obtain ⟨y, there, -⟩ := id h.site
  have saved : State.Counts p n tb (s.finishSaves p) := h.same (State.finishSaves_tb ..) (State.finishSaves_sites ..)
  have dropped : State.Counts p n tb (((s.finishSaves p).abortWaiting p).dropCalls p) := saved.abortWaiting.same rfl rfl
  rw [State.faultPan, there]
  refine State.Counts.post (State.Counts.modSite dropped ?_) ..
  intro z
  obtain ⟨logs, k, ended⟩ := Site.endCall_eq s.now z
  show (Site.endCall s.now z).ctr.rewinds = _
  rw [ended]

/-- What a host-call request does to the pan's record. -/
theorem takeCall (h : State.Counts p n tb s) (redo : Bool) (call seq : Byte) (request : List Byte) (frame cyc fcount : Nat) :
    State.Counts p n tb (s.takeCall p redo call seq request frame cyc fcount) := by
  obtain ⟨y, there, count⟩ := id h.site
  rw [State.takeCall, there]
  dsimp only
  split
  · exact h.put count
  · split
    · exact h.put count
    · split
      · exact h.put count
      · refine State.Counts.same (State.Counts.put h ?_) (State.sendCall_tb ..) (State.sendCall_sites ..)
        exact count

theorem takeOut (h : State.Counts p n tb s) (redo : Bool) (o : PanOut) : State.Counts p n tb (s.takeOut p redo o) := by
  cases o with
  | event code data => exact .ite h (h.post ..)
  | hostCall => exact h.takeCall ..
  | fault cause pc => exact h.fault ..

theorem flush (h : State.Counts p n tb s) (redo : Bool) : State.Counts p n tb (s.flush p redo) := by
  obtain ⟨y, there, count⟩ := id h.site
  rw [State.flush, there]
  exact foldl (fun t o k => k.takeOut redo o) _ (h.put count)

theorem crystallize (h : State.Counts p n tb s) : State.Counts p n tb (s.crystallize p) := by
  obtain ⟨y, there, count⟩ := id h.site
  rw [State.crystallize, there]
  exact .ite h (State.Counts.same (h.put (x := y.modPan (fun q => { q with crust := { q.crust with served := 0 } })) count) rfl rfl)

theorem compareHash (h : State.Counts p n tb s) (frame : Nat) (v : BitVec 64) (redo : Bool) :
    State.Counts p n tb (s.compareHash p frame v redo) := by
  obtain ⟨y, there, -⟩ := id h.site
  have spent : ∀ (t : State) (b : Bool) (f : Site → Site) flags data, (∀ y, (f y).ctr.rewinds = y.ctr.rewinds) → State.Counts p n tb t →
      State.Counts p n tb (if b then (t.modSite p f).post 0x0007 (some p) flags data else t) :=
    fun _ _ _ _ _ hf ht => .ite ((ht.modSite hf).post ..) ht
  rw [State.compareHash, there]
  refine spent _ _ _ _ _ (fun _ => rfl) ?_
  split
  · exact .ite h (.ite ((h.post ..).park ..) (h.post ..))
  · exact h

theorem frameDone (h : State.Counts p n tb s) (old : Pan) : State.Counts p n tb (s.frameDone p old true) := by
  obtain ⟨y, there, count⟩ := id h.site
  have ended : State.Counts p n tb (s.putSite p (y.endFrame s.kpa s.conf old true)) :=
    h.put ((congrArg PanCounters.rewinds (Site.endFrame_ctr ..)).trans count)
  rw [State.frameDone, there]
  dsimp only
  rw [if_pos rfl, if_pos rfl]
  split
  · exact .ite ended (ended.compareHash ..)
  · exact ended

theorem afterPan (h : State.Counts p n tb s) (old : Pan) : State.Counts p n tb (s.afterPan p old true) :=
  .ite ((h.crystallize.flush true).frameDone old) (h.crystallize.flush true)

theorem panCycle (h : State.Counts p n tb s) : State.Counts p n tb (s.panCycle p true) := by
  obtain ⟨y, there, count⟩ := id h.site
  rw [State.panCycle, there]
  refine State.Counts.afterPan (h.put ?_) _
  exact (congrArg PanCounters.rewinds (Site.foldl_noteApplied_ctr _ y)).trans count

theorem rerunTo (frame : Nat) : ∀ (fuel : Nat) {s : State}, State.Counts p n tb s → State.Counts p n tb (s.rerunTo p frame fuel)
  | 0, _, h => h
  | fuel + 1, s, h => by
    obtain ⟨y, there, -⟩ := id h.site
    rw [State.rerunTo, there]
    exact .ite h (State.Counts.rerunTo frame fuel h.panCycle)

end State.Counts

/-! ### A rewind (R225, R234 to R236) -/

section rewind
variable {s : State} {p : PanNo} {x : Site}

theorem State.countLate_same (p : Nat) (r : Placement) (s : State) : (s.countLate p r).tb = s.tb ∧ (s.countLate p r).sites = s.sites := by
  unfold State.countLate
  split
  · split <;> exact ⟨rfl, rfl⟩
  · exact ⟨rfl, rfl⟩

theorem State.foldl_countLate_same (p : Nat) (rs : List Placement) (s : State) :
    (rs.foldl (State.countLate p) s).tb = s.tb ∧ (rs.foldl (State.countLate p) s).sites = s.sites :=
  ⟨State.foldl_tb (fun t r => (State.countLate_same p r t).1) rs s, State.foldl_sites (fun t r => (State.countLate_same p r t).2) rs s⟩

theorem exec_rewind (hx : s.site p = some x) (engines : s.engines = true) (runs : x.boiler.isSome = true) (owed : x.rewindOwed = true) :
    exec (.rewind p) s = .next (s.rewind p x) := by
  show execRewind p s = _
  simp only [execRewind, hx, engines, runs, owed, Bool.and_self, if_true]

/-- The pan with records placed at pan-cycle 0 of its frame, out of those that wait for a rewind (R225). -/
def Site.placedLate (rs : List Placement) (x : Site) : Site :=
  { x.placeLate rs with lateRecords := x.lateRecords.filter (fun r => !rs.contains r) }

/-- Each record placed late is queued, as an input record or another. -/
theorem Site.placeLate_queued (rs : List Placement) (x : Site) :
    (x.placeLate rs).inQ.length + (x.placeLate rs).plQ.length = x.inQ.length + x.plQ.length + rs.length := by
  have parts := List.length_eq_length_filter_add (fun r : Placement => r.kind.isInput) (l := rs)
  simp only [Site.placeLate, List.length_append, List.length_map]
  omega

/-- What is left of the late records came after the burst's cutoff. -/
theorem Site.placedLate_left (x : Site) : (x.placedLate x.joining).lateRecords.all (fun r => decide (x.cutoff < r.arrival)) = true := by
  simp only [Site.placedLate, Site.joining, List.all_filter, List.all_eq_true]
  intro r waits
  by_cases early : r.arrival ≤ x.cutoff
  · simp [waits, early]
  · simp [Nat.lt_of_not_le early]

/-- With no record within the depth, the late ones are placed and nothing is run again (R225). -/
theorem State.rewind_placed (outside : x.joining.filter x.joins = []) :
    s.rewind p x = (x.joining.foldl (State.countLate p) s).putSite p (x.placedLate x.joining) := by
  have out : x.joining.filter (fun r => !x.joins r) = x.joining := by
    rw [List.filter_eq_self]
    intro r hr
    have := List.filter_eq_nil_iff.mp outside r hr
    simpa using this
  unfold State.rewind
  rw [outside, out]
  dsimp only
  split
  · have all : ∀ l : List Placement, l.filter (fun r => !([] : List Placement).contains r) = l := by simp
    rw [all]
    rfl
  · exact if_pos rfl

/-- The earliest of the frames that late records fall in is one of them. -/
theorem foldl_min_mem {l : List Nat} {a : Nat} (some_ : l ≠ []) (le : ∀ b ∈ l, b ≤ a) : l.foldl min a ∈ l := by
  cases l with
  | nil => exact absurd rfl some_
  | cons b t =>
    rw [List.foldl_cons, Nat.min_eq_right (le b List.mem_cons_self)]
    exact List.min?_mem List.min?_cons'

/-- What a rewind leaves in the pan's record, `old` the one before it and `late` the records it took (R235 to R238). -/
theorem Site.afterRewind_leaves (old : Site) (late : List Placement) (x : Site) :
    let z := Site.afterRewind old late x
    z.ctr.rewinds = x.ctr.rewinds + 1 ∧ z.audio.fade = 48 ∧ z.resFrames = 0 ∧
      z.lateRecords.all (fun r => decide (old.cutoff < r.arrival)) = true ∧
      z.stream.all (fun g => g.changedFor == some z.pan.frame) = true := by
  intro z
  have left : (old.lateRecords.filter (fun r => !late.contains r && decide (old.cutoff < r.arrival))).all
      (fun r => decide (old.cutoff < r.arrival)) = true := by
    simp only [List.all_filter, List.all_eq_true]
    intro r _
    cases late.contains r <;> simp
  have marked : (x.stream.map (fun g => { g with changedFor := some x.pan.frame })).all (fun g => g.changedFor == some x.pan.frame) = true := by
    cases x.stream <;> simp
  simp only [z, Site.afterRewind]
  split
  · exact ⟨rfl, rfl, rfl, left, marked⟩
  · exact ⟨rfl, rfl, rfl, left, marked⟩

/-- With records within the depth, the snapshot of the earliest frame is restored and the frames since are run again (R234). -/
theorem State.rewind_joins (joins : x.joining.any x.joins = true) (past : ∀ r ∈ x.joining, r.lateAt ≤ x.pan.frame) :
    ∃ old late t, old.cutoff = x.cutoff ∧ State.Counts p x.ctr.rewinds s.tb t ∧ s.rewind p x = t.modSite p (Site.afterRewind old late) := by
  let out := x.joining.filter (fun r => !x.joins r)
  let late := x.joining.filter x.joins
  let fp := (late.map Placement.lateAt).foldl min x.pan.frame
  have some_ : late ≠ [] := by
    obtain ⟨r, hr, joins⟩ := List.any_eq_true.mp joins
    exact List.ne_nil_of_mem (List.mem_filter.mpr ⟨hr, joins⟩)
  have earliest : fp ∈ late.map Placement.lateAt := by
    refine foldl_min_mem (by simpa using some_) (fun b hb => ?_)
    obtain ⟨r, hr, rfl⟩ := List.mem_map.mp hb
    exact past r (List.mem_of_mem_filter hr)
  obtain ⟨r, hr, frame⟩ := List.mem_map.mp earliest
  have held : x.heap.snaps.any (fun q => q.frame == fp) = true := by
    have joins := List.of_mem_filter hr
    simp only [Site.joins, Bool.and_eq_true, frame] at joins
    exact joins.2
  obtain ⟨q, found⟩ := Option.isSome_iff_exists.mp (List.find?_isSome.mpr (List.any_eq_true.mp held))
  have counted := State.foldl_countLate_same p out s
  let old := x.placedLate out
  have restarted : State.Counts p x.ctr.rewinds s.tb ((out.foldl (State.countLate p) s).putSite p (old.restart fp q.pan late)) :=
    ⟨counted.1, SiteThat.putSite rfl⟩
  have begun := restarted.post 0x0004 (some p) (x.eventFlags false)
    (leBytes 4 fp ++ leBytes 4 x.pan.frame ++ leBytes 2 late.length)
  refine ⟨old, late, _, rfl, begun.rerunTo x.pan.frame (rerunFuel (x.pan.frame - fp)), ?_⟩
  unfold State.rewind
  dsimp only
  rw [found]
  exact if_neg (mt List.isEmpty_iff.mp some_)

end rewind

/-! ### The statement -/

/-- Settles O51: a record without a payload is one entry of its ring, a log record leaves the pan's record alone, and a re-run counts nothing. -/
theorem recordsAndRewinds : Obligations.RecordsAndRewinds := by
  unfold Obligations.RecordsAndRewinds
  intro s p x written writes replays
  refine ⟨?_, ?_, ?_, ?_, ?_, ?_, ?_, ?_, ?_, ?_⟩
  · intro f q n r l hx next frames named held hr kind room logs code picture audio hash
    obtain ⟨plain, bytes⟩ := LogRec.item_bytes code s.now
    have owed : x.owedItems = [l.item] := by
      simp [Site.owedItems, frames, FrameRecords.items, FrameRecords.bodyItems, logs, picture, audio, hash]
    have done : x.recordsDone = { x with obsQ := q, gap := x.gap } := by
      simp [Site.recordsDone, frames, picture, audio, hash]
    obtain ⟨t, runs, there, served, ring, host⟩ :=
      obsRecordWrite_plain next hx named held hr kind room (by simp [frames]) owed plain
    rw [bytes] at host
    rw [done] at there
    exact ⟨t, runs, ⟨_, there, rfl, rfl⟩, served, ring, host⟩
  · intro f q n r h hx next frames named held hr kind room logs picture audio hash
    have owed : x.owedItems = [f.hashItem x.heap.confDiff (x.gap || f.gap) h] := by
      rw [Site.owedItems, frames]
      exact FrameRecords.items_hash logs picture audio hash _ _
    have done : x.recordsDone = { x with obsQ := q, gap := false } := by
      simp [Site.recordsDone, frames, picture, audio, hash]
    obtain ⟨t, runs, there, -, -, host⟩ := obsRecordWrite_plain next hx named held hr kind room (by simp [frames]) owed rfl
    rw [FrameRecords.hashItem_bytes] at host
    rw [done] at there
    exact ⟨t, runs, ⟨_, there, rfl, rfl⟩, host⟩
  · intro hx unserved
    by_cases serves : (s.engines && s.obsNext == some p) = true
    · exact ⟨_, if_pos serves, by rw [State.writeFrame_unserved hx unserved]⟩
    · exact ⟨_, if_neg serves, rfl⟩
  · intro a b y z sites _ hy fy hz fz
    exact State.obsNext_two sites hy fy hz fz
  · intro hx ⟨replay, _⟩ log
    obtain ⟨y, there, parked, mode, boiler, slot, pan, -⟩ := State.park_site (State.site_putSite_same p
      { x with heap := { x.heap with replay := [] } } s) x.pan.frame 1 false
    have ends := exec_logRecordApply_ends hx replay log
    have running : x.mode = .replay := State.replays_mode replay
    exact ⟨_, ends, y, there, parked, mode.trans running, boiler, slot, pan⟩
  · intro r l hx ⟨replay, still⟩ log kind before
    have applies := exec_logRecordApply hx replay log kind (Site.replayRecord_order before) ⟨still.out, Nat.le_refl _, still.served⟩
    exact ⟨_, applies, _, State.site_withPan .., rfl, congrArg List.tail log, rfl⟩
  · intro r l hx ⟨replay, still⟩ log kind frame order crc
    have applies := exec_logRecordApply hx replay log (by rw [kind]; decide) (Site.replayRecord_corrupt frame order kind crc)
      ⟨still.out, Nat.le_refl _, still.served⟩
    exact ⟨_, applies, _, State.site_withPan .., rfl, congrArg List.tail log, rfl⟩
  · intro r l hx ⟨replay, still⟩ log kind frame order free ran
    obtain ⟨z, dealt, tail, pos⟩ := Site.replayRecord_input kind frame order free ran
    have quiet : Pan.Quiet x.pan (x.pan.place (.input r.slot (byteVec 7 r.payload)) (r.flags.getLsbD 0)) :=
      (Pan.place_hushes (.input r.slot (byteVec 7 r.payload)) (r.flags.getLsbD 0) x.pan).quiet still.out rfl still.served
    have applies := exec_logRecordApply hx replay log (by rw [kind]; decide) dealt quiet
    refine ⟨_, applies, _, State.site_withPan .., tail.trans (congrArg List.tail log), pos, ?_⟩
    exact Pan.place_input r.slot (byteVec 7 r.payload) (r.flags.getLsbD 0) x.pan
  · intro hx engines runs owed outside
    have none_ : x.joining.filter x.joins = [] := by
      rw [List.filter_eq_nil_iff]
      intro r hr
      have out : (!x.joins r) = true := List.all_eq_true.mp outside r hr
      simpa using out
    obtain ⟨time, -⟩ := State.foldl_countLate_same p x.joining s
    refine ⟨_, exec_rewind hx engines runs owed, ?_⟩
    rw [State.rewind_placed none_]
    exact ⟨time, SiteThat.putSite ⟨rfl, rfl, Site.placeLate_queued x.joining x, Site.placedLate_left x⟩⟩
  · intro hx engines runs owed joins past
    obtain ⟨old, late, t, cutoff, counts, rewound⟩ := State.rewind_joins (s := s) (p := p) joins past
    obtain ⟨y, there, count⟩ := counts.site
    obtain ⟨rewinds, fade, frames, left, marked⟩ := Site.afterRewind_leaves old late y
    refine ⟨_, exec_rewind hx engines runs owed, ?_⟩
    rw [rewound, State.modSite_eq there]
    rw [cutoff] at left
    exact ⟨counts.time, SiteThat.putSite ⟨rewinds.trans (congrArg (· + 1) count), fade, frames, left, marked⟩⟩

end Sys2Proof.Machine
end

section
/-!
SUPPORT. The heads: hot plug, the frame that ends and the one that starts at a vertical blank, and a dot of a mosaic (R260 to R262, R264,
R265).
-/
namespace Sys2Proof.Machine

/-! ### Hot plug (R260) -/

/-- A change of HPD raises the head's source and changes nothing else but events. -/
theorem State.hpdEvent_does (h : Fin 2) (level : Byte) (s : State) :
    Raised (6 + h.val) (s.hpdEvent h level) ∧ OnlyEvents s (s.hpdEvent h level) := by
  have raisable : evcRaisable (6 + h.val) = true := by revert h; decide
  exact ⟨(State.post_holds _ _ _ _ _).raised (State.raise_raised raisable s),
    ((State.raise_eventful _ s).trans (State.post_eventful _ _ _ _ _)).only⟩

/-- A link with at least one lane trains to 1, 2 or 4 of them. -/
theorem laneCount_of_pos {n : Nat} (h : 1 ≤ n) : laneCount n = if 4 ≤ n then 4 else if 2 ≤ n then 2 else 1 := by
  rw [laneCount, if_pos h]

theorem laneCount_pos {n : Nat} (h : 1 ≤ n) : 0 < laneCount n := by
  rw [laneCount_of_pos h]
  split_ifs <;> decide

/-- A head whose settings and sink share a lane trains to the lower of the two, in lanes and in rate. -/
theorem Head.train_linked {k : Head} (hpd : k.hpd = true) (enabled : k.cfg.enable = true) (linked : 1 ≤ min k.cfg.maxLanes k.sinkLanes) :
    k.train = { k with trained := true, lanes := laneCount (min k.cfg.maxLanes k.sinkLanes), rate := min k.cfg.maxRate k.sinkRate } :=
  if_pos ⟨hpd, enabled, laneCount_pos linked⟩

/-! ### The frame that ends (R265) -/

theorem State.modHead_same (h : Fin 2) (f : Head → Head) (s : State) : (s.modHead h f).heads[h] = f s.heads[h] :=
  (vmod_get s.heads h h f).trans (if_pos rfl)

theorem State.modHead_modHead (h : Fin 2) (f g : Head → Head) (s : State) :
    (s.modHead h f).modHead h g = s.modHead h (fun k => g (f k)) := by
  simp [State.modHead, vmod]

@[simp] theorem Head.complete_cfg (k : Head) : k.complete.cfg = k.cfg := by rw [k.complete_like.eq]
@[simp] theorem Head.complete_trained (k : Head) : k.complete.trained = k.trained := by rw [k.complete_like.eq]
@[simp] theorem Head.complete_shown (k : Head) : k.complete.shown = k.shown := by rw [k.complete_like.eq]
@[simp] theorem Head.complete_readErr (k : Head) : k.complete.readErr = k.readErr := by rw [k.complete_like.eq]

/-- A frame counts and gives its CRC where one was being sent. -/
theorem Head.complete_eq (k : Head) : k.complete = { k with
    crc := if k.driving then crc32 (pixelBytes k.pixels) else k.crc,
    frames := if k.driving then (k.frames + 1) % 2 ^ 32 else k.frames } := by
  unfold Head.complete
  split <;> rfl

/-! ### The frame that starts (R262, R264) -/

section tiles
variable {s : State} {h : Fin 2}

/-- The head sends a frame of which no tile has been taken yet. -/
def Head.begin (k : Head) : Head := { k with shown := [], driving := true }

theorem State.startFrame_trained (trained : s.heads[h].trained = true) : s.startFrame h =
    (s.heads[h].cfg.tiles.filter (fun e => s.heads[h].cfg.inLayout e.1)).foldl (State.takeTile h) (s.modHead h Head.begin) :=
  if_pos trained

theorem State.startFrame_untrained (untrained : s.heads[h].trained = false) :
    s.startFrame h = s.modHead h (fun k => { k with driving := false }) :=
  if_neg (by rw [untrained]; decide)

/-- At a vertical blank for which no command waits, one frame ends and the next starts. -/
theorem headVblank_idle (up : s.headUp h = true) (hot : s.pwr.d3hot = false) (hpd : s.heads[h].hpd = true) (idle : s.waiting = []) :
    exec (.headVblank h) s = .next ((s.modHead h Head.complete).startFrame h) := by
  have landed : (s.modHead h Head.complete).landParts (Waiting.atBlank h) s.waiting.length = s.modHead h Head.complete :=
    State.landParts_idle (s := s.modHead h Head.complete) idle
  change execHeadVblank h s = _
  simp only [execHeadVblank, up, hot, hpd, Bool.not_false, Bool.and_self, if_true]
  exact congrArg (fun t => Host.Outcome.next (State.startFrame h t)) landed

/-- A trained head's next frame starts without tiles; what the layout shows is then taken. -/
theorem State.startFrame_complete (trained : s.heads[h].trained = true) : (s.modHead h Head.complete).startFrame h =
    (s.heads[h].cfg.tiles.filter (fun e => s.heads[h].cfg.inLayout e.1)).foldl (State.takeTile h)
      (s.modHead h (fun k => k.complete.begin)) := by
  rw [State.startFrame_trained, State.modHead_same, State.modHead_modHead, Head.complete_cfg]
  rw [State.modHead_same, Head.complete_trained, trained]

variable {e : Nat × Nat × Byte} {x : Site} {pic : Picture} {older : List Picture}

/-- A tile takes its pan's newest whole frame where its CRC is right. -/
theorem State.takeTile_intact (hx : s.site e.2.1 = some x) (whole : x.wholeFrames = pic :: older) (intact : pic.intact = true) :
    State.takeTile h s e = s.modHead h (fun k => { k with shown := Table.put k.shown e.1 pic }) := by
  simp only [State.takeTile, hx, Option.elim_some, whole, intact, if_true]

/-- A frame whose CRC is wrong is counted, and the whole frame before it, if there is one, is shown. -/
theorem State.takeTile_corrupt (hx : s.site e.2.1 = some x) (whole : x.wholeFrames = pic :: older) (corrupt : pic.intact = false) :
    (State.takeTile h s e).heads[h] = { s.heads[h] with
      readErr := (s.heads[h].readErr + 1) % 2 ^ 32
      shown := older.head?.elim s.heads[h].shown (fun q => Table.put s.heads[h].shown e.1 q) } := by
  cases older <;> simp only [State.takeTile, hx, whole, corrupt, Bool.false_eq_true, if_false, List.head?_nil, List.head?_cons,
    Option.elim_none, Option.elim_some, (State.post_eventful ..).heads, State.modHead_same]

/-- The vertical blank of a trained head whose layout shows one tile. -/
theorem headVblank_oneTile {i : Nat} {e : Nat × Byte} (up : s.headUp h = true) (hot : s.pwr.d3hot = false) (hpd : s.heads[h].hpd = true)
    (idle : s.waiting = []) (trained : s.heads[h].trained = true) (tiles : s.heads[h].cfg.tiles = [(i, e)])
    (inLayout : s.heads[h].cfg.inLayout i = true) :
    exec (.headVblank h) s = .next (State.takeTile h (s.modHead h (fun k => k.complete.begin)) (i, e)) := by
  have shown : [(i, e)].filter (fun d => s.heads[h].cfg.inLayout d.1) = [(i, e)] := List.filter_cons_of_pos (by exact inLayout)
  rw [headVblank_idle up hot hpd idle, State.startFrame_complete trained, tiles, shown, List.foldl_cons, List.foldl_nil]

end tiles

theorem Picture.intact_iff {pic : Picture} : pic.intact = true ↔ pic.crc = crc32 (pixelBytes pic.pixels) := beq_iff_eq

/-! ### A dot of a mosaic (R261) -/

theorem HeadCfg.tileAt_mosaic {g : HeadCfg} {x y : Nat} (mosaic : g.mosaic = true) (wide : 0 < g.pitchX) (high : 0 < g.pitchY)
    (column : x / g.pitchX < g.c) (row : y / g.pitchY < g.r) :
    g.tileAt x y = some (y / g.pitchY * g.c + x / g.pitchX, x % g.pitchX, y % g.pitchY) := by
  rw [HeadCfg.tileAt, if_pos mosaic]
  exact if_pos ⟨wide, high, column, row⟩

/-- A SCALE byte of 1 to 8 replicates each pixel of the picture so often both ways. -/
theorem Picture.scaledAt_replicated {n : Nat} (pos : 1 ≤ n) (le : n ≤ 8) (pic : Picture) (x y : Nat) :
    pic.scaledAt (BitVec.ofNat 8 n) x y = if x < pic.w * n ∧ y < pic.h * n then some (pic.at (x / n) (y / n)) else none := by
  have factor : max 1 (bits (BitVec.ofNat 8 n) 6 0) = n := by
    simp only [bits, BitVec.toNat_ofNat]
    omega
  have enlarges : (BitVec.ofNat 8 n).getLsbD 7 = false := by
    rw [BitVec.getLsbD_ofNat, Nat.testBit_lt_two_pow (by omega), Bool.and_false]
  rw [Picture.scaledAt, factor, enlarges]
  rfl

theorem Head.pixel_shown {k : Head} {x y t dx dy : Nat} {e : Nat × Byte} {pic : Picture} (holds : k.cfg.tileAt x y = some (t, dx, dy))
    (tile : Table.get k.cfg.tiles t = some e) (shown : Table.get k.shown t = some pic) :
    k.pixel x y = (pic.scaledAt e.2 dx dy).getD k.cfg.border := by
  simp only [Head.pixel, holds, tile, shown]

/-- Settles O50: hot plug changes the head and events only; a blank for which nothing waits ends one frame and starts the next, in which
the one tile takes its pan's newest whole frame or the one before; a dot of a mosaic is its tile's. -/
theorem headsShow : Obligations.HeadsShow := by
  intro s h k ready
  refine ⟨fun n r up low enabled linked => ?_, fun high => ⟨_, if_pos high, State.hpdEvent_does h 0 _⟩,
    fun up hot hpd idle trained tiles => ?_, fun up hot hpd idle untrained => ?_, fun x => ?_,
    fun i e pic older x up hot hpd idle trained tiles inLayout hx whole intact => ?_,
    fun i e pic older x up hot hpd idle trained tiles inLayout hx whole corrupt => ?_,
    fun x y n q pic mosaic wide high column row pos le tile shown => ?_⟩
  · have rises : (s.headUp h && !s.heads[h].hpd) = true := Bool.and_eq_true_iff.mpr ⟨up, congrArg not low⟩
    have trains : ({ k with hpd := true, sinkLanes := n, sinkRate := r.val } : Head).train = _ := Head.train_linked rfl enabled linked
    rw [laneCount_of_pos linked] at trains
    rw [← trains]
    exact ⟨_, if_pos rises, State.hpdEvent_does h 1 _⟩
  · refine ⟨_, headVblank_idle up hot hpd idle, ?_⟩
    rw [State.startFrame_complete trained, tiles]
    exact congrArg (fun c => { s with heads := s.heads.set h (Head.begin c) }) k.complete_eq
  · refine ⟨_, headVblank_idle up hot hpd idle, ?_⟩
    have ended : (s.modHead h Head.complete).heads[h] = k.complete := State.modHead_same ..
    rw [State.startFrame_untrained (by rw [ended, Head.complete_trained]; exact untrained)]
    simp only [State.modHead_same, Head.complete_shown]
    exact ⟨trivial, rfl⟩
  · rw [Site.wholeFrames]
    split <;> rfl
  · refine ⟨_, headVblank_oneTile up hot hpd idle trained tiles inLayout, ?_⟩
    rw [State.takeTile_intact (by exact hx) whole (Picture.intact_iff.mpr intact)]
    simp only [State.modHead_same]
    exact ⟨rfl, rfl, k.complete_readErr⟩
  · refine ⟨_, headVblank_oneTile up hot hpd idle trained tiles inLayout, ?_⟩
    have begun : (s.modHead h (fun k => k.complete.begin)).heads[h] = k.complete.begin := State.modHead_same ..
    have taken := State.takeTile_corrupt (s := s.modHead h (fun k => k.complete.begin)) (h := h) (e := (i, e)) hx whole
      (Bool.eq_false_iff.mpr (mt Picture.intact_iff.mp corrupt))
    rw [begun] at taken
    simp only [taken]
    refine ⟨?_, congrArg (fun m => (m + 1) % 2 ^ 32) k.complete_readErr⟩
    cases older with
    | nil => rfl
    | cons q l => exact Table.get_put_same i q []
  · rw [Head.pixel_shown (HeadCfg.tileAt_mosaic mosaic wide high column row) tile shown, Picture.scaledAt_replicated pos le]
    split <;> rfl

end Sys2Proof.Machine
end

section
/-!
SUPPORT. Host commands that a check refuses (R342, R357, R359, R366): the check that fails first decides the status, and the command
completes with it on the state that its entry's consumption leaves.
-/
namespace Sys2Proof.Machine

/-- The row of a host command is the command's. -/
theorem HostRow.row {i : Packet → Instr} {k : CmdSpec} (h : HostRow i k) (c : Packet) (s : State) : exec (i c) s = s.command k c := by
  cases h <;> rfl

section refusals
variable {i : Packet → Instr} {k : CmdSpec} {s u : State} {c d : Packet} {r : Ring} {e : Nat}

/-- A command the control core cannot take stays in its ring. -/
theorem State.command_untaken (h : s.takes c = none) : s.command k c = .next s := by
  rw [State.command, State.takeWith, h]

/-- While a ring that comes first in the round offers a command, no other is taken (R342). -/
theorem State.takes_notTurn {f : Nat × Ring} (ring : f ∈ s.rings) (other : f.1 ≠ c.ring) (first : turnBefore s.rrCmd f.1 c.ring = true)
    (offers : s.offers f.2 = true) (idle : f.2.open_ = 0) : s.takes c = none := by
  have blocked : s.turnOf c.ring = false := by
    refine List.all_eq_false.mpr ⟨f, ring, ?_⟩
    simp [other, first, offers, idle]
  rw [State.takes, Option.filter_eq_none_iff]
  intro _ _
  rw [blocked]
  decide

/-- A refused command is answered with its status and changes nothing else. -/
theorem HostRow.refuses (row : HostRow i k) (taken : s.takes c = some r) (refused : k.run (packetRead c) r.owner (s.consume c.ring r) =
    (s.consume c.ring r).complete (packetRead c) r.owner k.opcode e []) :
    Completes (i c) s (fun t => Answered c r.owner k.opcode e [] (s.consume c.ring r) t) := by
  refine ⟨_, ?_, answered_complete (packetRead c) r.owner k.opcode e [] _⟩
  rw [row.row, State.command, State.takeWith, taken]
  exact congrArg Host.Outcome.next refused

/-- One of the first three checks fails. -/
theorem HostRow.refuses_early (row : HostRow i k) (taken : s.takes c = some r)
    (early : k.early (s.consume c.ring r) (packetRead c) = some e) :
    Completes (i c) s (fun t => Answered c r.owner k.opcode e [] (s.consume c.ring r) t) :=
  row.refuses taken (by rw [CmdSpec.run, early])

/-- One of the last two checks fails. -/
theorem HostRow.refuses_judged (row : HostRow i k) (taken : s.takes c = some r) (alone : isStaged (packetRead c) = false)
    (early : k.early (s.consume c.ring r) (packetRead c) = none) (judged : k.judged (s.consume c.ring r) (packetRead c) = some e) :
    Completes (i c) s (fun t => Answered c r.owner k.opcode e [] (s.consume c.ring r) t) :=
  row.refuses taken (by rw [CmdSpec.run, early, if_neg (ne_true_of_eq_false alone), judged])

/-- The first three checks on a command that is not staged, in their order. -/
theorem CmdSpec.early_alone (alone : isStaged d = false) : k.early u d =
    if u.fatal then some 0x60
    else if k.formed u d = false then some 0x30
    else if (u.readyFor (k.needs u d) && k.up u d) = false then some 0x10
    else if k.range u d = false then some 0x30
    else if k.orders u.projected d = false then some 0x30
    else none := by
  simp only [CmdSpec.early, alone, Bool.false_eq_true, if_false, Bool.not_eq_true', stFault, stBadParam, stNotReady]

/-- Check 1 on a command that is not staged. -/
theorem CmdSpec.formed_alone (alone : isStaged d = false) : k.formed u d =
    (decide (d.flags.toNat < 8) && decide (d.plen.toNat ≤ 7) && decide (d.txid = 0) && k.tidy d && reservedZero k.fields d) := by
  simp only [CmdSpec.formed, formatOk, State.txidOk, alone, Bool.false_eq_true, if_false, Bool.not_false, Bool.true_or, Bool.and_true,
    beq_eq_decide]

/-- Checks 4 and 5, where the state forbids the command: as it stands, of one that acts at once, or with all accepted before counted. -/
theorem CmdSpec.judged_forbidden (h : k.allows u.projected d = false ∨ (k.boundary u d = none ∧ k.allows u d = false)) :
    k.judged u d = some 0x31 := by
  unfold CmdSpec.judged
  split
  · rfl
  · next now =>
    have later : k.allows u.projected d = false := h.resolve_right fun ⟨prompt, forbidden⟩ => now (by simp [prompt, forbidden])
    simp only [CmdSpec.late, later, Bool.not_false, if_true, stBadState]

/-- Check 5, where what the command needs is not left. -/
theorem CmdSpec.judged_full (allowed : k.allows u.projected d = true) (now : k.boundary u d = none → k.allows u d = true)
    (full : k.fits u.projected d = false ∨ (k.loads d = true ∧ (k.counts d u.projected).admits = false)) : k.judged u d = some 0x20 := by
  have stands : ((k.boundary u d).isNone && !k.allows u d) = false := by
    cases prompt : k.boundary u d with
    | none => rw [now prompt]; rfl
    | some _ => rfl
  have lacking : (!k.fits u.projected d || (k.loads d && !(k.counts d u.projected).admits)) = true := by
    rcases full with fits | ⟨loads, admits⟩
    · rw [fits]; rfl
    · rw [loads, admits]; exact Bool.or_true _
  simp only [CmdSpec.judged, CmdSpec.late, stands, allowed, lacking, Bool.not_true, Bool.false_eq_true, if_false, if_true, stNoCapacity]

end refusals

/-- Settles O52: each status is that of the check that fails, the checks before it having held. -/
theorem commandsRefused : Obligations.CommandsRefused := by
  intro i k s c r u d settled said formed ready running row
  have stopped : u.fatal = s.dev.status.getLsbD 31 := rfl
  have checks : c.flags.getLsbD 0 = false → running = true → k.early u d =
      if formed = false then some 0x30 else if ready = false then some 0x10 else if k.range u d = false then some 0x30
      else if k.orders settled d = false then some 0x30 else none := fun alone on => by
    have form : k.formed u d = formed := CmdSpec.formed_alone (d := d) alone
    have timely : (u.readyFor (k.needs u d) && k.up u d) = ready := rfl
    rw [CmdSpec.early_alone (d := d) alone, form, timely, stopped, beq_iff_eq.mp on]
    exact if_neg Bool.false_ne_true
  have passed : c.flags.getLsbD 0 = false → running = true → formed = true → ready = true → k.range u d = true →
      k.orders settled d = true → k.early u d = none := fun alone on good timely inside order => by
    rw [checks alone on, good, timely, inside, order]
    rfl
  refine ⟨fun untaken => (row.row c s).trans (State.command_untaken untaken),
    fun e ring other first offers idle => (row.row c s).trans (State.command_untaken (State.takes_notTurn ring other first offers idle)),
    fun taken off => row.refuses_early taken (if_pos (stopped.trans ?_)),
    fun taken alone on bad => row.refuses_early taken ((checks alone on).trans ?_),
    fun taken alone on good late => row.refuses_early taken ((checks alone on).trans ?_),
    fun taken alone on good timely outside => row.refuses_early taken ((checks alone on).trans ?_),
    fun taken alone on good timely inside order => row.refuses_early taken ((checks alone on).trans ?_),
    fun taken alone on good timely inside order forbidden =>
      row.refuses_judged taken alone (passed alone on good timely inside order) (CmdSpec.judged_forbidden forbidden),
    fun taken alone on good timely inside order allowed now full =>
      row.refuses_judged taken alone (passed alone on good timely inside order) (CmdSpec.judged_full allowed now full)⟩
  · exact Bool.not_eq_false _ ▸ beq_eq_false_iff_ne.mp off
  · rw [bad]
    rfl
  · rw [good, late]
    rfl
  · rw [good, timely, outside]
    rfl
  · rw [good, timely, inside, order]
    rfl

end Sys2Proof.Machine
end

section
/-!
SUPPORT. Commands that end (R341, R357, R372): beside what completions change, only the commits in progress do.
-/
namespace Sys2Proof.Machine

theorem OnlyEvents.withCommits {s t : State} (h : OnlyEvents s t) (l : Table Commit) :
    OnlyEvents { s with commits := l } { t with commits := l } := by
  have same := congrArg (fun v : State => { v with commits := l }) h.eq
  exact same

/-- Commands have ended: completions apart, nothing but the commits in progress differs, and masked sources that were pending still are. -/
structure State.Ends (s t : State) : Prop where
  only : Eventful { s with commits := t.commits } t
  holds : State.Holds s t

namespace State.Ends

variable {s t u : State}

theorem refl (s : State) : State.Ends s s := ⟨.refl s, .refl s⟩

theorem trans (h : State.Ends s t) (k : State.Ends t u) : State.Ends s u :=
  ⟨⟨(h.only.only.withCommits u.commits).trans k.only.only, fun n => (k.only.rings n).trans (h.only.rings n)⟩, h.holds.trans k.holds⟩

theorem ite {c : Prop} [Decidable c] (h : State.Ends s t) (k : State.Ends s u) : State.Ends s (if c then t else u) := by
  split
  · exact h
  · exact k

theorem ofEventful (h : Eventful s t) (k : State.Holds s t) : State.Ends s t := by
  have commits : t.commits = s.commits := (congrArg State.commits h.only.eq).trans rfl
  exact ⟨by rw [commits]; exact h, k⟩

theorem foldl {α : Type} {f : State → α → State} (h : ∀ v a, State.Ends v (f v a)) (l : List α) (s : State) :
    State.Ends s (l.foldl f s) :=
  List.foldlRecOn (motive := State.Ends s) l f (refl s) (fun v k a _ => k.trans (h v a))

theorem eq (h : State.Ends s t) : t = { s with
    commits := t.commits, host := t.host, rings := t.rings, evc := t.evc, held := t.held, evtLost := t.evtLost,
    bitternWritten := t.bitternWritten, bitternCounted := t.bitternCounted } := h.only.only.eq

theorem dram (h : State.Ends s t) : t.dram = s.dram := (congrArg State.dram h.eq).trans rfl
theorem sluice (h : State.Ends s t) : t.sluice = s.sluice := (congrArg State.sluice h.eq).trans rfl
theorem waiting (h : State.Ends s t) : t.waiting = s.waiting := (congrArg State.waiting h.eq).trans rfl

end State.Ends

theorem State.complete_ends (c : Packet) (cpl op st : Nat) (res : List Byte) (s : State) : State.Ends s (s.complete c cpl op st res) :=
  .ofEventful (State.complete_eventful c cpl op st res s) (State.complete_holds c cpl op st res s)

theorem State.partDone_ends (t status : Nat) (s : State) : State.Ends s (s.partDone t status) := by
  have counted : ∀ l, State.Ends s { s with commits := l } := fun l => ⟨.refl _, .of_evc rfl⟩
  unfold State.partDone
  cases Table.get s.commits t with
  | none => exact .refl s
  | some m => exact .ite ((counted _).trans (State.complete_ends _ _ _ _ _ _)) (counted _)

theorem State.finish_ends (w : Waiting) (status : Nat) (res : List Byte) (s : State) : State.Ends s (s.finish w status res) := by
  unfold State.finish
  split
  · exact State.partDone_ends _ status s
  · exact State.complete_ends _ _ _ _ _ s

theorem State.raise_ends (n : Nat) (s : State) : State.Ends s (s.raise n) :=
  .ofEventful (State.raise_eventful n s) (State.raise_holds n s)

/-- A channel idle, and the command that started its chain waiting no longer (R351, R353). -/
def State.chainEnded (n : Fin 64) (f : Sluice → Sluice) (s : State) : State :=
  { s with sluice := s.sluice.set n { f s.sluice[n] with busy := false }, waiting := s.waiting.filter (fun w => w.at_ != .chain n) }

theorem State.endChain_ends (n : Fin 64) (status : Nat) (f : Sluice → Sluice) (s : State) :
    State.Ends (s.chainEnded n f) (s.endChain n status f) :=
  State.Ends.foldl (fun v w => State.finish_ends w status _ v) _ _

end Sys2Proof.Machine
end

section
/-!
The sluice (R348 to R353): a chain that runs takes its next descriptor, and stops at it where the descriptor is bad.
-/
namespace Sys2Proof.Machine

theorem chainFuel_succ : chainFuel = 576460752303423487 + 1 := rfl

theorem Eventful.dram {s t : State} (h : Eventful s t) : t.dram = s.dram := (congrArg State.dram h.only.eq).trans rfl
theorem Eventful.sluice {s t : State} (h : Eventful s t) : t.sluice = s.sluice := (congrArg State.sluice h.only.eq).trans rfl

/-- A write into a space changes host memory or DRAM. -/
theorem State.spaceWrite_eq (space a : Nat) (bs : List Byte) (s : State) :
    s.spaceWrite space a bs = { s with host := (s.spaceWrite space a bs).host, dram := (s.spaceWrite space a bs).dram } := by
  unfold State.spaceWrite
  split <;> rfl

section chain
variable {s : State} {n : Fin 64} {a m : Nat} {stop bar : Desc → Bool}

/-- The channels of higher priority are idle, as R348 orders them. -/
theorem State.sluiceFirst_iff : s.sluiceFirst n =
    (List.finRange 64).all (fun m => decide (8 ≤ m.val) || decide (n ≤ m) || !(s.sluice[m]).busy) := by
  refine congrArg (List.all _) (funext fun m => ?_)
  by_cases low : m.val < 8 <;> by_cases before : m < n <;> simp [low, before, Nat.not_le.mpr, Nat.not_lt.mp, not_le.mpr, not_lt.mp]

/-- The next descriptor is sound and the one looked for: the chain runs it. -/
theorem State.runUntil_found (next : s.sluice[n].next = some a) (sound : (s.descAt a).bad a = false) (found : stop (s.descAt a) = true) :
    s.runUntil n stop bar chainFuel = some (s.runDesc n (s.descAt a)) := by
  rw [chainFuel_succ, State.runUntil, next]
  simp only [sound, found, Bool.false_eq_true, if_false, if_true]

/-- The next descriptor is bad: the chain stands before it. -/
theorem State.runBytes_bad (next : s.sluice[n].next = some a) (bad : (s.descAt a).bad a = true) : s.runBytes n chainFuel m = some s := by
  rw [chainFuel_succ, State.runBytes, next]
  simp only [bad, if_true]

/-- The state in which the first `m` bytes of the next descriptor are written and counted. -/
def State.movedPart (n : Fin 64) (d : Desc) (m : Nat) (s : State) : State :=
  (s.spaceWrite d.to_ d.dst (s.descBytes d m)).modSluice n (fun q => { q with done := (q.done + m) % 2 ^ 64 })

/-- The next descriptor is sound and longer than what the chain runs on for. -/
theorem State.runBytes_part (next : s.sluice[n].next = some a) (sound : (s.descAt a).bad a = false) (part : m < (s.descAt a).len) :
    s.runBytes n chainFuel m = some (s.movedPart n (s.descAt a) m) := by
  rw [chainFuel_succ, State.runBytes, next]
  simp only [sound, part, Bool.false_eq_true, if_false, if_true]
  rfl

/-- Counters of a channel once a descriptor has run. -/
def Sluice.ran (d : Desc) (k : Sluice) : Sluice :=
  { k with descs := k.descs + 1, done := (k.done + d.len) % 2 ^ 64, next := if d.last then none else some d.next }

theorem State.runDesc_eq (d : Desc) : s.runDesc n d = { s with
    host := (s.spaceWrite d.to_ d.dst (s.descBytes d d.len)).host, dram := (s.spaceWrite d.to_ d.dst (s.descBytes d d.len)).dram,
    sluice := s.sluice.set n (s.sluice[n].ran d) } := by
  rw [State.runDesc, State.spaceWrite_eq]
  rfl

theorem State.movedPart_eq (d : Desc) : s.movedPart n d m = { s with
    host := (s.spaceWrite d.to_ d.dst (s.descBytes d m)).host, dram := (s.spaceWrite d.to_ d.dst (s.descBytes d m)).dram,
    sluice := s.sluice.set n { s.sluice[n] with done := (s.sluice[n].done + m) % 2 ^ 64 } } := by
  rw [State.movedPart, State.spaceWrite_eq]
  rfl

theorem State.modSluice_same (f : Sluice → Sluice) : (s.modSluice n f).sluice[n] = f s.sluice[n] :=
  (vmod_get s.sluice n n f).trans (if_pos rfl)

theorem State.chainEnded_same (f : Sluice → Sluice) : (s.chainEnded n f).sluice[n] = { f s.sluice[n] with busy := false } :=
  State.modSluice_same (fun k => { f k with busy := false })

theorem State.runDesc_dram (d : Desc) : (s.runDesc n d).dram = (s.spaceWrite d.to_ d.dst (s.descBytes d d.len)).dram := rfl

theorem State.runDesc_waiting (d : Desc) : (s.runDesc n d).waiting = s.waiting := by rw [State.runDesc_eq]

theorem State.movedPart_dram (d : Desc) : (s.movedPart n d m).dram = (s.spaceWrite d.to_ d.dst (s.descBytes d m)).dram := rfl

theorem State.runDesc_same (d : Desc) : (s.runDesc n d).sluice[n] = s.sluice[n].ran d := by
  rw [State.runDesc_eq]
  exact State.modSluice_same (Sluice.ran d)

theorem State.movedPart_same (d : Desc) : (s.movedPart n d m).sluice[n] = { s.sluice[n] with done := (s.sluice[n].done + m) % 2 ^ 64 } := by
  rw [State.movedPart_eq]
  exact State.modSluice_same (fun k => { k with done := (k.done + m) % 2 ^ 64 })

/-- The source of a channel may be raised (R332). -/
theorem evcRaisable_channel (n : Fin 64) : evcRaisable (16 + n.val) = true := by
  have below : n.val < 64 := n.isLt
  simp only [evcRaisable, Bool.and_eq_true, Bool.not_eq_true', Bool.and_eq_false_iff, decide_eq_true_eq, decide_eq_false_iff_not]
  omega

/-- A half completion sets HALF and raises the channel's source (R351). -/
theorem sluiceHalf_completes (runs : s.chainRuns n = true) (next : s.sluice[n].next = some a) (sound : (s.descAt a).bad a = false)
    (half : (s.descAt a).half = true) : Completes (.sluiceHalf n) s (fun t => Raised (16 + n.val) t ∧ Eventful
      ((s.runDesc n (s.descAt a)).modSluice n (fun k => { k with half := true })) t) := by
  have found := State.runUntil_found (bar := fun _ => false) next sound half
  refine ⟨_, (if_pos runs).trans (by rw [found]), ?_, ?_⟩
  · exact (State.post_holds _ _ _ _ _).raised (State.raise_raised (evcRaisable_channel n) _)
  · exact (State.raise_eventful _ _).trans (State.post_eventful _ _ _ _ _)

/-- The last descriptor ends the chain: FULL, and the channel's source (R351). -/
theorem sluiceChainDone_completes (runs : s.chainRuns n = true) (next : s.sluice[n].next = some a)
    (sound : (s.descAt a).bad a = false) (last : ((s.descAt a).last && !(s.descAt a).half) = true) :
    Completes (.sluiceChainDone n) s (fun t => Raised (16 + n.val) t ∧
      State.Ends ((s.runDesc n (s.descAt a)).chainEnded n (fun k => { k with full := true })) t) := by
  have found := State.runUntil_found (stop := fun d => d.last && !d.half) (bar := Desc.half) next sound last
  have more : ¬ s.sluice[n].next.isNone = true := by rw [next]; exact Bool.false_ne_true
  have row : exec (.sluiceChainDone n) s = .next ((s.runDesc n (s.descAt a)).finishChain n) :=
    (if_pos runs).trans ((if_neg more).trans (by rw [found]))
  exact ⟨_, row, State.raise_raised (evcRaisable_channel n) _, (State.endChain_ends n stOk _ _).trans (State.raise_ends _ _)⟩

/-- A chain that stops ends with ERR; a DRAM request that failed raises source 8 (R332, R353). -/
theorem sluiceFault_completes {v : State} (runs : s.chainRuns n = true) (stands : s.runBytes n chainFuel m = some v) :
    Completes (.sluiceFault n m) s (fun t => (v.dramFault n = true → Raised 8 t) ∧ t.dram = v.dram ∧
      t.sluice[n] = { v.sluice[n] with err := true, busy := false } ∧ t.waiting = v.waiting.filter (fun w => w.at_ != .chain n)) := by
  let stopped : Sluice → Sluice := fun k => { k with err := true }
  have ends : State.Ends (v.drawn.chainEnded n stopped) ((if v.dramFault n then v.drawn.raise 8 else v.drawn).endChain n stFault stopped) := by
    split
    · exact (State.raise_ends 8 (v.drawn.chainEnded n stopped)).trans (State.endChain_ends n stFault stopped (v.drawn.raise 8))
    · exact State.endChain_ends n stFault stopped v.drawn
  refine ⟨_, (if_pos runs).trans (by rw [stands]), fun failed => ?_, ends.dram, ?_, ends.waiting⟩
  · rw [if_pos failed]
    exact (State.endChain_ends n stFault stopped _).holds.raised (State.raise_raised rfl v.drawn)
  · rw [ends.sluice, State.chainEnded_same]
    rfl

theorem State.descAt_congr {t : State} (h : t.host = s.host) : t.descAt a = s.descAt a := by
  simp only [State.descAt, h]

/-- A request within DRAM that fails after part of a descriptor is an uncorrectable error of DRAM. -/
theorem State.movedPart_dramFault (next : s.sluice[n].next = some a) (sound : (s.descAt a).bad a = false)
    (dram : (s.descAt a).to_ = 1) (source : (s.descAt a).from_ ≠ 0) : (s.movedPart n (s.descAt a) m).dramFault n = true := by
  have host : (s.movedPart n (s.descAt a) m).host = s.host := by rw [State.movedPart_eq, dram]; rfl
  have desc : (s.movedPart n (s.descAt a) m).descAt a = s.descAt a := State.descAt_congr host
  rw [State.dramFault, State.movedPart_same]
  change Option.any _ s.sluice[n].next = true
  rw [next, Option.any_some]
  dsimp only
  rw [desc]
  simp [sound, dram, source]

theorem slcDoneRead_reads (awake : s.awake = true) (bus : s.pwr.perst = false) : exec (.slcDoneRead n) s = .next { s with
    sluice := s.sluice.set n { s.sluice[n] with doneLatch := BitVec.ofNat 32 (s.sluice[n].done / 2 ^ 32) },
    barRead := BitVec.ofNat 32 s.sluice[n].done } :=
  State.onBar_awake awake bus (fun t =>
    { t with sluice := vmod t.sluice n (fun k => { k with doneLatch := (words t.sluice[n].done).2 }), barRead := (words t.sluice[n].done).1 })

end chain

/-- Settles O45: a completion runs the next descriptor and sets its flag, the last one ends the chain, and a fault ends it where it stands. -/
theorem chainsRun : Obligations.ChainsRun := by
  intro s n k d moved counted runs
  have go : runs = true → s.chainRuns n = true ∧ s.sluice[n].next = some (k.next.getD 0) := by
    intro h
    simp only [runs, Bool.and_eq_true] at h
    obtain ⟨⟨⟨⟨⟨⟨awake, cold⟩, live⟩, steady⟩, busy⟩, next⟩, first⟩ := h
    rw [← State.sluiceFirst_iff] at first
    refine ⟨?_, (Option.some_get next).symm.trans (congrArg some (Option.get_eq_getD ..))⟩
    simp only [State.chainRuns, State.works, awake, cold, live, steady, first, Bool.and_true, Bool.true_and]
    exact busy
  refine ⟨fun awake bus => ⟨_, slcDoneRead_reads awake bus, rfl⟩, fun h sound half => ?_, fun h sound whole last => ?_,
    fun h bad => ?_, fun m h sound part => ?_⟩
  · obtain ⟨runs, next⟩ := go h
    obtain ⟨t, row, raised, events⟩ := sluiceHalf_completes runs next sound half
    refine ⟨t, row, raised, ?_, ?_, ?_⟩
    · rw [events.sluice, State.modSluice_same, State.runDesc_same]
      rfl
    · exact events.dram.trans (State.runDesc_dram (n := n) d)
    · refine events.only.eq.trans ?_
      rw [events.sluice, events.dram, State.runDesc_eq]
      rfl
  · obtain ⟨runs, next⟩ := go h
    obtain ⟨t, row, raised, ends⟩ := sluiceChainDone_completes runs next sound (by rw [last, whole]; rfl)
    refine ⟨t, row, raised, ?_, ?_, ?_⟩
    · exact ends.dram.trans (State.runDesc_dram (n := n) d)
    · rw [ends.sluice, State.chainEnded_same, State.runDesc_same]
      rfl
    · rw [ends.waiting, State.chainEnded, State.runDesc_waiting]
  · obtain ⟨runs, next⟩ := go h
    obtain ⟨t, row, -, stands⟩ := sluiceFault_completes runs (State.runBytes_bad next bad)
    exact ⟨t, row, stands⟩
  · obtain ⟨runs, next⟩ := go h
    obtain ⟨t, row, failed, dram, channel, -⟩ := sluiceFault_completes runs (State.runBytes_part next sound part)
    refine ⟨t, row, dram.trans (State.movedPart_dram _), ?_, fun source space => failed (State.movedPart_dramFault next sound space source)⟩
    rw [channel, State.movedPart_same]

end Sys2Proof.Machine
end

section
/-!
Rings that waited (R338 to R341, R344): what one entry written into a ring leaves, and the entry of an `EVT_LOST` record and of a
completion held.
-/
namespace Sys2Proof.Machine

/-- A byte string padded with zeros to a length it does not exceed. -/
theorem slice_padded {bs : List Byte} {n : Nat} (h : bs.length ≤ n) : slice bs 0 n = bs ++ List.replicate (n - bs.length) 0 := by
  rw [slice, List.drop_zero, List.take_of_length_le h]

section rings
variable {s : State} {n : Nat} {r : Ring}

/-- One entry written: it stands at the ring's index, which has moved on, and nothing but events has changed (R338, R339). -/
theorem State.pushEntry_writes {m : Nat} (ring : s.ring n = some r) (size : ringEntrySize r.kind = m) (entry : List Byte) :
    (s.pushEntry n entry).host = (s.host.writeBytes (r.base + (r.dev.toNat % 2 ^ r.log2) * m) entry).writeBytes r.idxAddr
      (leBytes 4 (r.dev + 1).toNat) ∧ ((s.pushEntry n entry).ring n).any (fun q => q.dev == r.dev + 1) = true := by
  obtain ⟨q, there, dev⟩ := State.ring_pushEntry ring entry
  refine ⟨?_, ?_⟩
  · rw [State.pushEntry_host ring, Ring.entryAddr, size]
    rfl
  · rw [there, Option.any_some, dev]
    exact beq_self_eq_true _

theorem State.moderate_keeps (n : Nat) (s : State) : (s.moderate n).held = s.held ∧ (s.moderate n).evtLost = s.evtLost := by
  unfold State.moderate
  split
  · split <;> exact ⟨rfl, rfl⟩
  · exact ⟨rfl, rfl⟩

/-- An entry written is neither a completion held nor a lost event. -/
theorem State.pushEntry_keeps (n : Nat) (entry : List Byte) (s : State) :
    (s.pushEntry n entry).held = s.held ∧ (s.pushEntry n entry).evtLost = s.evtLost := by
  unfold State.pushEntry
  split
  · exact ⟨rfl, rfl⟩
  · exact State.moderate_keeps n _

/-- A ring with entries the host has returned has room. -/
theorem State.room_of_held (ring : s.ring n = some r) (device : r.kind = 1 ∨ r.kind = 6) (room : (r.dev - r.hst).toNat < 2 ^ r.log2) :
    s.room n = true := by
  have written : r.held = (r.dev - r.hst).toNat := if_neg (by omega)
  have free : r.full = false := decide_eq_false (by rw [written]; exact Nat.not_le.mpr room)
  rw [State.room, ring, Option.any_some, free]
  rfl

/-- An `EVT_LOST` record (R341, R344). -/
theorem eventRecord_lost (now lost : Nat) : eventRecord 0x000F none 0 now (leBytes 4 lost) =
    [0x0F, 0, 0xFF, 0xFF, 0, 0, 0, 0] ++ leBytes 8 now ++ leBytes 4 lost ++ List.replicate 44 0 := by
  rw [eventRecord, slice_padded (Nat.le_add_left 4 44)]
  exact (List.append_assoc _ _ _).symm

theorem evcRaisable_of {k : Nat} (range : k < 256) (h : k < 11 ∨ 15 < k) : evcRaisable k = true := by
  simp only [evcRaisable, Bool.and_eq_true, Bool.not_eq_true', Bool.and_eq_false_iff, decide_eq_true_eq, decide_eq_false_iff_not]
  omega

/-- A ring that has lost events and has room takes the record. -/
theorem State.writeLost_room (some_ : 0 < s.lostFor n) (room : s.room n = true) : s.writeLost n =
    ({ s with evtLost := Table.drop (Table.drop s.evtLost n) noRing }).pushEntry n
      (eventRecord 0x000F none 0 s.now (leBytes 4 (s.lostFor n))) := if_pos ⟨some_, room⟩

/-- The counts of lost events that the record carries restart (R341). -/
theorem State.writeLost_restarts (some_ : 0 < s.lostFor n) (room : s.room n = true) :
    Table.get (s.writeLost n).evtLost n = none ∧ Table.get (s.writeLost n).evtLost noRing = none := by
  have left : (s.writeLost n).evtLost = Table.drop (Table.drop s.evtLost n) noRing := by
    rw [State.writeLost_room some_ room]
    exact (State.pushEntry_keeps _ _ _).2
  rw [left]
  refine ⟨?_, Table.get_drop_same _ _⟩
  by_cases same : n = noRing
  · rw [same, Table.get_drop_same]
  · rw [Table.get_drop_other same, Table.get_drop_same]

/-- A completion record of at most 16 bytes of result (R357). -/
theorem completionRecord_padded {res : List Byte} (short : res.length ≤ 16) (tag : Word) (op st ring now : Nat) :
    completionRecord tag op st ring res now = leBytes 2 tag.toNat ++ leBytes 2 op ++ leBytes 2 st ++ leBytes 2 ring ++ res ++
      List.replicate (16 - res.length) 0 ++ leBytes 8 now := by
  simp only [completionRecord, slice_padded short, List.append_assoc]

end rings

/-- Settles O44: a time-out signals the ring, and a record of lost events and a completion held are one entry each of a ring with room. -/
theorem ringsCatchUp : Obligations.RingsCatchUp := by
  intro s n r ring awake entry written lost
  refine ⟨fun enabled kind waits counting => ?_, fun kind room some_ => ?_, fun h first kind room short => ?_⟩
  · have due : (s.awake && r.intEn && r.kind != 0 && decide (0 < r.unsig)) = true := by
      simp [awake, Ring.intEn, enabled, kind, waits]
    have row : exec (.moderationTimeout n) s = .next ((s.reach (r.oldest + r.time * 16000)).signal n r) := by
      change execModerationTimeout n s = _
      rw [execModerationTimeout, ring]
      exact (if_pos due).trans (State.atTime_counting counting _ _)
    have source : r.source = r.int.toNat % 256 := by simp [Ring.source, bits]
    refine ⟨_, row, fun raised => ?_, rfl⟩
    rw [← source] at raised ⊢
    exact State.raise_raised (evcRaisable_of (by omega) raised) _
  · have serves : (s.awake && (s.ring n).any (fun q => q.kind == 6)) = true := by simp [awake, ring, kind]
    have takes := State.writeLost_room some_ (State.room_of_held ring (.inr kind) room)
    have row : exec (.evtLostWrite n) s = .next (s.writeLost n) := if_pos serves
    obtain ⟨host, index⟩ := State.pushEntry_writes (s := { s with evtLost := Table.drop (Table.drop s.evtLost n) noRing }) ring
      (m := 64) (by rw [kind]; rfl) (eventRecord 0x000F none 0 s.now (leBytes 4 (s.lostFor n)))
    rw [← takes] at host index
    rw [eventRecord_lost] at host
    obtain ⟨own, other⟩ := State.writeLost_restarts some_ (State.room_of_held ring (.inr kind) room)
    exact ⟨_, row, (State.writeLost_eventful n s).only, own, other, host, index⟩
  · have takes : (s.awake && s.room n) = true := by rw [awake, State.room_of_held ring (.inl kind) room]; rfl
    let record := completionRecord h.tag h.opcode h.status h.ring h.result s.now
    have row : exec (.cplHeldWrite n) s = .next (State.pushEntry n record { s with held := s.held.erase h }) := by
      change execCplHeldWrite n s = _
      rw [execCplHeldWrite, first]
      exact if_pos takes
    obtain ⟨host, index⟩ := State.pushEntry_writes (s := { s with held := s.held.erase h }) ring (m := 32) (by rw [kind]; rfl) record
    have events := State.pushEntry_eventful n record { s with held := s.held.erase h }
    have taken : OnlyEvents s { s with held := s.held.erase h } := rfl
    refine ⟨_, row, taken.trans events.only, (State.pushEntry_keeps n record _).1, index, host.trans ?_⟩
    exact congrArg (written 32) (completionRecord_padded short ..)

end Sys2Proof.Machine
end

section
/-!
SUPPORT. What the event controller delivers (R333, R334): the sources of a list that are pending and enabled, in the list's order; the
message of each is sent, or pending where its vector is masked.
-/
namespace Sys2Proof.Machine

/-- The sources of a list that are pending and enabled. -/
def Evc.dueOf (e : Evc) (l : List Nat) : List Nat := l.filter (fun k => e.pend.getLsbD k && e.en.getLsbD k)

/-- What is left once the sources of a list have been delivered. -/
structure Evc.Delivered (e : Evc) (l : List Nat) (f : Evc) : Prop where
  rest : f = { e with pend := f.pend, pba := f.pba, sent := f.sent }
  pend : ∀ k, f.pend.getLsbD k = (e.pend.getLsbD k && !(decide (k ∈ l) && e.en.getLsbD k))
  sent : f.sent = (((e.dueOf l).map e.vector).filter (fun v => !e.masks v)).reverse ++ e.sent
  pba : ∀ v : BitVec 11, f.pba.getLsbD v.toNat = (e.pba.getLsbD v.toNat || (e.masks v && ((e.dueOf l).map e.vector).contains v))

namespace Evc.Delivered

variable {e f g : Evc} {l : List Nat} {a : Nat}

theorem en (h : Evc.Delivered e l f) : f.en = e.en := (congrArg Evc.en h.rest).trans rfl
theorem vector (h : Evc.Delivered e l f) : f.vector = e.vector := by rw [h.rest]; rfl
theorem masks (h : Evc.Delivered e l f) : f.masks = e.masks := by rw [h.rest]; rfl

theorem nil (e : Evc) : Evc.Delivered e [] e := ⟨rfl, fun _ => by simp, rfl, fun _ => by simp [Evc.dueOf]⟩

/-- Another source delivered first. -/
theorem cons (h : Evc.Delivered e [a] f) (k : Evc.Delivered f l g) (fresh : a ∉ l) : Evc.Delivered e (a :: l) g := by
  have later : f.dueOf l = e.dueOf l := by
    refine List.filter_congr fun j hj => ?_
    have other : j ≠ a := by rintro rfl; exact fresh hj
    rw [h.pend, h.en]
    simp [other]
  have due : e.dueOf (a :: l) = e.dueOf [a] ++ e.dueOf l := List.filter_append [a] l
  refine ⟨k.rest.trans ?_, fun j => ?_, ?_, fun v => ?_⟩
  · rw [h.rest]
  · have among : decide (j ∈ a :: l) = (decide (j ∈ [a]) || decide (j ∈ l)) := by simp
    rw [k.pend, h.pend, h.en, among, Bool.and_or_distrib_right, Bool.not_or, Bool.and_assoc]
  · rw [k.sent, h.sent, later, h.vector, h.masks, due, List.map_append, List.filter_append, List.reverse_append, List.append_assoc]
  · rw [k.pba, h.pba, later, h.vector, h.masks, due, List.map_append, List.contains_append, Bool.and_or_distrib_left, Bool.or_assoc]

end Evc.Delivered

theorem Evc.deliverOne_delivers (a : Nat) (e : Evc) : Evc.Delivered e [a] (e.deliverOne a) := by
  cases due : e.pend.getLsbD a && e.en.getLsbD a with
  | false =>
    have idle : e.deliverOne a = e := if_neg (by rw [due]; exact Bool.false_ne_true)
    have none : e.dueOf [a] = [] := by simp [Evc.dueOf, due]
    rw [idle]
    refine ⟨rfl, fun j => ?_, by rw [none]; rfl, fun v => by rw [none]; simp⟩
    by_cases same : j = a
    · subst same
      cases h : e.pend.getLsbD j <;> simp_all
    · simp [same]
  | true =>
    have one : e.dueOf [a] = [a] := by simp [Evc.dueOf, due]
    have goes : e.deliverOne a = ({ e with pend := setBit e.pend a false } : Evc).message (e.vector a) := if_pos due
    have alike : ({ e with pend := setBit e.pend a false } : Evc).masks (e.vector a) = e.masks (e.vector a) := rfl
    have pend : ∀ j, (setBit e.pend a false).getLsbD j = (e.pend.getLsbD j && !(decide (j ∈ [a]) && e.en.getLsbD j)) := fun j => by
      by_cases same : j = a
      · subst same
        rw [setBit_clear_same, (Bool.and_eq_true_iff.mp due).2]
        simp
      · rw [setBit_other _ _ same]
        simp [same]
    cases masked : e.masks (e.vector a) with
    | false =>
      have sent : e.deliverOne a = { e with pend := setBit e.pend a false, sent := e.vector a :: e.sent } := by
        rw [goes, Evc.message, alike, masked]
        rfl
      rw [sent]
      refine ⟨rfl, pend, by rw [one]; simp [masked], fun v => ?_⟩
      by_cases same : v = e.vector a
      · simp [one, same, masked]
      · simp [one, same]
    | true =>
      have waits : e.deliverOne a = { e with pend := setBit e.pend a false, pba := setBit e.pba (e.vector a).toNat true } := by
        rw [goes, Evc.message, alike, masked]
        rfl
      rw [waits]
      refine ⟨rfl, pend, by rw [one]; simp [masked], fun v => ?_⟩
      by_cases same : v = e.vector a
      · rw [one, same, setBit_same _ (e.vector a).isLt]
        simp [masked]
      · have apart : v.toNat ≠ (e.vector a).toNat := fun h => same (BitVec.eq_of_toNat_eq h)
        rw [one, setBit_other _ _ apart]
        simp [same]

theorem Evc.foldl_delivers (l : List Nat) (distinct : l.Nodup) (e : Evc) : Evc.Delivered e l (l.foldl Evc.deliverOne e) := by
  induction l generalizing e with
  | nil => exact .nil e
  | cons a l ih =>
    obtain ⟨fresh, rest⟩ := List.nodup_cons.mp distinct
    exact (Evc.deliverOne_delivers a e).cons (ih rest _) fresh

/-- The sources of a group. -/
def groupSources (g : Fin 16) : List Nat := (List.range 16).map (fun k => 16 * g.val + k)

theorem groupSources_nodup (g : Fin 16) : (groupSources g).Nodup := List.nodup_range.map (fun _ _ h => by simpa using h)

theorem mem_groupSources {g : Fin 16} {k : Nat} : k ∈ groupSources g ↔ k / 16 = g.val := by
  simp only [groupSources, List.mem_map, List.mem_range]
  exact ⟨fun ⟨j, small, sum⟩ => by omega, fun h => ⟨k % 16, by omega, by omega⟩⟩

/-- A group is ready where one of its sources is pending and enabled. -/
theorem Evc.ready_iff {e : Evc} {g : Fin 16} : e.ready g = true ↔ e.dueOf (groupSources g) ≠ [] := by
  rw [← Bool.not_eq_false, Evc.ready_eq_false, not_iff_not, Evc.dueOf, List.filter_eq_nil_iff]
  simp [groupSources]

/-- A ready group whose hold-off is over delivers its sources, and the hold-off is loaded (R334). -/
theorem Evc.deliver_ready {e : Evc} {g : Fin 16} {now : Nat} (ready : e.ready g = true) (free : e.holdUntil[g] ≤ now) :
    ∃ f, Evc.Delivered e (groupSources g) f ∧
      e.deliver now g = { f with holdUntil := e.holdUntil.set g (now + (e.hold[g]).toNat * 16000) } := by
  have delivered := Evc.foldl_delivers (groupSources g) (groupSources_nodup g) e
  refine ⟨_, delivered, ?_⟩
  have hold : ((groupSources g).foldl Evc.deliverOne e).hold = e.hold := (congrArg Evc.hold delivered.rest).trans rfl
  have until_ : ((groupSources g).foldl Evc.deliverOne e).holdUntil = e.holdUntil := (congrArg Evc.holdUntil delivered.rest).trans rfl
  rw [← hold, ← until_, groupSources, List.foldl_map]
  exact if_pos (by rw [ready, Bool.true_and]; exact decide_eq_true free)

end Sys2Proof.Machine
end

section
/-!
Doorbells, boot rings and raises (R333, R334, R336 to R338, R347).
-/
namespace Sys2Proof.Machine

/-! ### Doorbells (R338, R347) -/

/-- The host index of a ring. -/
def State.hostIndex (s : State) (n : Nat) : Option (BitVec 32) := (s.ring n).map Ring.hst

section indices
variable {s : State} {k : Nat} {r q : Ring}

theorem State.hostIndex_putRing (h : s.ring k = some r) (same : q.hst = r.hst) (n : Nat) : (s.putRing k q).hostIndex n = s.hostIndex n := by
  simp only [State.hostIndex, State.ring, State.putRing, Table.get_put] at h ⊢
  split
  · next here => rw [here, h, Option.map_some, Option.map_some, same]
  · rfl

theorem State.hostIndex_moderate (k : Nat) (s : State) (n : Nat) : (s.moderate k).hostIndex n = s.hostIndex n := by
  unfold State.moderate
  split
  · next r h =>
    split
    · exact State.hostIndex_putRing (q := { r with unsig := 0 }) h rfl n
    · rfl
  · rfl

theorem State.hostIndex_pushEntry (k : Nat) (entry : List Byte) (s : State) (n : Nat) :
    (s.pushEntry k entry).hostIndex n = s.hostIndex n := by
  unfold State.pushEntry
  split
  · rfl
  · next r h =>
    exact (State.hostIndex_moderate k _ n).trans
      (State.hostIndex_putRing (s := (s.hostWrite _ entry).hostWrite _ _) (q := { r with dev := r.dev + 1 }.visible s.now) h rfl n)

/-- A record written into the bittern ring moves no host index. -/
theorem State.hostIndex_bitternWrite (entry : List Byte) (s : State) (n : Nat) : (s.bitternWrite entry).hostIndex n = s.hostIndex n := by
  unfold State.bitternWrite
  split
  · split
    · exact State.hostIndex_pushEntry _ entry s n
    · rfl
  · rfl

end indices

section doorbells
variable {s : State} {n : RingNo} {r : Ring} {z : BitVec 64} {v : BitVec 32}

/-- A doorbell that the other index allows. -/
theorem doorbell_moves (awake : s.awake = true) (bus : s.pwr.perst = false) (ring : s.ring n = some r) (low : v = z.setWidth 32)
    (within : (v - r.hst).toNat ≤ r.mayMove) : exec (.doorbell n z) s = .next (s.putRing n (r.returned v)) := by
  subst low
  refine (State.onBar_awake awake bus (State.doorbell n z)).trans ?_
  rw [State.doorbell, ring]
  exact congrArg Host.Outcome.next (if_pos within)

/-- A doorbell that moves the index too far. -/
theorem doorbell_beyond (awake : s.awake = true) (bus : s.pwr.perst = false) (ring : s.ring n = some r) (low : v = z.setWidth 32)
    (beyond : r.mayMove < (v - r.hst).toNat) : exec (.doorbell n z) s = .next (s.badDoorbell n z) := by
  subst low
  refine (State.onBar_awake awake bus (State.doorbell n z)).trans ?_
  rw [State.doorbell, ring]
  exact congrArg Host.Outcome.next (if_neg (Nat.not_le.mpr beyond))

/-- A doorbell of no ring. -/
theorem doorbell_noRing (awake : s.awake = true) (bus : s.pwr.perst = false) (none : s.ring n = none) :
    exec (.doorbell n z) s = .next (s.badDoorbell n z) := by
  refine (State.onBar_awake awake bus (State.doorbell n z)).trans ?_
  rw [State.doorbell, none]

/-- A wrong doorbell is one record of the bittern ring. -/
theorem State.badDoorbell_does (n : Nat) (z : BitVec 64) (s : State) : OnlyEvents s (s.badDoorbell n z) ∧
    (s.badDoorbell n z).bitternWritten + (s.badDoorbell n z).bitternCounted = s.bitternWritten + s.bitternCounted + 1 :=
  ⟨(State.bitternWrite_eventful _ s).only, State.bitternWrite_counts _ s⟩

end doorbells

/-! ### Boot rings (R337) -/

/-- GO on a ready device creates the two rings of the contexts the boot registers hold, or sets ERR. -/
theorem State.bootRings_ready {s : State} (ready : s.dev.ready.getLsbD 1 = true) (down : s.boot.up = false) : s.bootRings =
    let a := bootContext s.boot.cmd
    let b := bootContext s.boot.cpl
    let ok := bootContextOk 0 a && (ringOf a).owner == 1 && bootContextOk 1 b
    { s with rings := if ok then Table.put (Table.put s.rings 0 (ringOf a)) 1 (ringOf b) else s.rings,
             boot := { s.boot with up := ok, err := !ok } } := by
  have go : ¬ (!s.dev.ready.getLsbD 1 || s.boot.up) = true := by rw [ready, down]; decide
  have still : { s.boot with up := false, err := true } = { s.boot with err := true } := by rw [← down]
  refine (if_neg go).trans ?_
  dsimp only
  cases bootContextOk 0 (bootContext s.boot.cmd) && (ringOf (bootContext s.boot.cmd)).owner == 1 &&
      bootContextOk 1 (bootContext s.boot.cpl) with
  | true => rfl
  | false => exact congrArg (fun b => { s with boot := b }) still.symm

/-- GO anywhere else does nothing. -/
theorem bootGo_stays {s : State} (h : s.dev.ready.getLsbD 1 = false ∨ s.boot.up = true) : exec .bootGo s = .next s := by
  have same : s.bootRings = s := if_pos (by cases h <;> simp_all)
  have row : exec .bootGo s = s.onBar State.bootRings := rfl
  rw [row, State.onBar, same, ite_self]

/-! ### Raises and deliveries (R332 to R334) -/

section raises
variable {e f : Evc} {i now : Nat} {s : State}

/-- A source from 11 to 15 is never raised (R332). -/
theorem State.raise_reserved (low : 11 ≤ i) (high : i ≤ 15) (s : State) : s.raise i = s := by
  have never : ¬ evcRaisable i = true := by simp [evcRaisable, low, high]
  exact congrArg (fun e => { s with evc := e }) (if_neg never)

/-- A raise that the hold-off of its group holds back sets PEND and nothing else (R333). -/
theorem Evc.raise_held (raisable : evcRaisable i = true) (held : now < e.holdUntil[evcGroup i]) :
    e.raise now i = { e with pend := setBit e.pend i true } := by
  refine (if_pos raisable).trans (if_neg ?_)
  rw [Bool.and_eq_true]
  exact fun h => Nat.not_le.mpr held (of_decide_eq_true h.2)

theorem mem_groupSources_evcGroup (small : i < 256) : i ∈ groupSources (evcGroup i) := by
  rw [mem_groupSources]
  exact (Nat.mod_eq_of_lt (by omega)).symm

/-- An enabled source raised with the hold-off of its group over is delivered (R334). -/
theorem Evc.raise_free (raisable : evcRaisable i = true) (small : i < 256) (en : e.en.getLsbD i = true)
    (free : e.holdUntil[evcGroup i] ≤ now) : ∃ f, Evc.Delivered { e with pend := setBit e.pend i true } (groupSources (evcGroup i)) f ∧
      e.raise now i = { f with holdUntil := e.holdUntil.set (evcGroup i) (now + (e.hold[evcGroup i]).toNat * 16000) } := by
  have pending : (setBit e.pend i true).getLsbD i = true := setBit_same _ small
  have ready : ({ e with pend := setBit e.pend i true } : Evc).ready (evcGroup i) = true := by
    refine Evc.ready_iff.mpr (List.ne_nil_of_mem (a := i) (List.mem_filter.mpr ⟨mem_groupSources_evcGroup small, ?_⟩))
    rw [pending, en]
    rfl
  obtain ⟨f, delivered, all⟩ := Evc.deliver_ready ready free
  exact ⟨f, delivered, (if_pos raisable).trans all⟩

/-- A source delivered is pending no longer; its message is sent, or pending where its vector is masked. -/
theorem Evc.Delivered.source {g : Fin 16} (h : Evc.Delivered { e with pend := setBit e.pend i true } (groupSources g) f) (small : i < 256)
    (mem : i ∈ groupSources g) (en : e.en.getLsbD i = true) : f.pend.getLsbD i = false ∧
      (if e.masks (e.vector i) then f.pba.getLsbD (e.vector i).toNat = true else e.vector i ∈ f.sent) := by
  have due : e.vector i ∈ (({ e with pend := setBit e.pend i true } : Evc).dueOf (groupSources g)).map e.vector := by
    refine List.mem_map_of_mem (List.mem_filter.mpr ⟨mem, ?_⟩)
    rw [Bool.and_eq_true]
    exact ⟨setBit_same _ small, en⟩
  refine ⟨by rw [h.pend]; simp [mem, en], ?_⟩
  cases masked : e.masks (e.vector i) with
  | true =>
    rw [if_pos rfl, h.pba, Bool.or_eq_true, Bool.and_eq_true]
    exact .inr ⟨masked, List.elem_eq_true_of_mem due⟩
  | false =>
    rw [if_neg Bool.false_ne_true, h.sent, List.mem_append, List.mem_reverse, List.mem_filter]
    exact .inl ⟨due, congrArg not masked⟩

end raises

/-- A group and its hold-off are those of the source's number over 16. -/
theorem getElem_evcGroup {α : Type} (v : Vector α 16) {i : Nat} (h : i / 16 < 16) : v[evcGroup i] = v[i / 16] := by
  have same : (evcGroup i).val = i / 16 := Nat.mod_eq_of_lt h
  simp only [Fin.getElem_fin, same]

theorem setElem_evcGroup {α : Type} (v : Vector α 16) {i : Nat} (h : i / 16 < 16) (x : α) : (v.set (evcGroup i) x)[i / 16] = x := by
  rw [← getElem_evcGroup _ h, Fin.getElem_fin, Vector.getElem_set_self]

/-- Settles O43: a doorbell is its ring's record or one bittern record, GO its two contexts, and a raise what its group delivers with
the source pending. -/
theorem doorbellsAndSources : Obligations.DoorbellsAndSources := by
  intro s e a b ok room group
  refine ⟨fun n r z v awake bus ring low within => ⟨_, doorbell_moves awake bus ring low within, ?_⟩,
    fun n r z v awake bus ring low beyond => ?_, fun n z awake bus none => ⟨_, doorbell_noRing awake bus none, State.badDoorbell_does n z s⟩,
    fun awake bus ready down => ⟨_, State.onBar_awake awake bus State.bootRings, State.bootRings_ready ready down⟩,
    fun stays => ⟨s, bootGo_stays stays, rfl⟩, fun i awake bus range => ⟨_, State.onBar_awake awake bus (State.raise i.toNat), ?_⟩,
    fun i low high => ?_, fun g awake counting due => ?_⟩
  · refine congrArg (fun l => { s with rings := Table.put s.rings n { r with hst := v, dataUse := l } }) (List.filter_congr fun u _ => ?_)
    rw [BitVec.msb_eq_decide, ← decide_not, decide_eq_decide]
    omega
  · obtain ⟨only, counted⟩ := State.badDoorbell_does n z s
    refine ⟨_, doorbell_beyond awake bus ring low beyond, only, ?_, counted⟩
    have index : (s.badDoorbell n z).hostIndex n = some r.hst := by
      rw [State.badDoorbell, State.hostIndex_bitternWrite, State.hostIndex, ring, Option.map_some]
    obtain ⟨q, there, same⟩ := Option.map_eq_some_iff.mp index
    rw [there, Option.any_some, same]
    exact beq_self_eq_true _
  · have small : i.toNat < 256 := i.isLt
    have inGroup : i.toNat / 16 < 16 := by omega
    have raisable : evcRaisable i.toNat = true := evcRaisable_of small range
    refine ⟨rfl, fun masked => ?_, fun _ held => ?_, fun en free => ?_⟩
    · exact State.raise_raised raisable s ((State.raise_holds i.toNat s).en ▸ masked)
    · exact Evc.raise_held raisable (by rw [getElem_evcGroup _ inGroup]; exact held)
    · obtain ⟨f, delivered, after⟩ := Evc.raise_free (now := s.tb.time) raisable small en (by rw [getElem_evcGroup _ inGroup]; exact free)
      have done : (s.raise i.toNat).evc = _ := after
      rw [done]
      obtain ⟨pend, message⟩ := delivered.source small (mem_groupSources_evcGroup small) en
      refine ⟨pend, message, ?_⟩
      rw [setElem_evcGroup _ inGroup, getElem_evcGroup _ inGroup]
  · have row : exec (.evcRaise i) s = s.onBar (State.raise i.toNat) := rfl
    refine ⟨s, ?_, rfl⟩
    rw [row, State.onBar, State.raise_reserved low high, ite_self]
  · have ready : s.evc.ready g = true := Evc.ready_iff.mpr due
    have goes : (s.awake && s.evc.ready g) = true := by rw [awake, ready]; rfl
    obtain ⟨f, delivered, all⟩ := Evc.deliver_ready ready (Nat.le_max_right s.tb.time s.evc.holdUntil[g])
    refine ⟨_, (if_pos goes).trans (State.atTime_counting counting _ _), rfl, ?_⟩
    have after : (s.reach s.evc.holdUntil[g]).evc.deliver (s.reach s.evc.holdUntil[g]).now g = _ := all
    dsimp only
    rw [after]
    refine ⟨delivered.sent, delivered.pba, rfl, fun k => ?_⟩
    have among : decide (k.val ∈ groupSources g) = (k.val / 16 == g.val) := by
      rw [decide_eq_decide.mpr mem_groupSources]
      rfl
    exact (delivered.pend k).trans (by rw [among])

end Sys2Proof.Machine
end

section
/-!
SUPPORT. All work stopped (R374): what an abort of everything changes, and what it leaves of pans, chains and rings.
-/
namespace Sys2Proof.Machine

/-- A fold over a list in which each step makes something true of its own element and no step undoes it. -/
theorem foldl_reaches {α : Type} {f : State → α → State} {I : State → Prop} {P : α → State → Prop} (stays : ∀ s a, I s → I (f s a))
    (here : ∀ s a, I s → P a (f s a)) (kept : ∀ s a b, I s → P b s → P b (f s a)) (l : List α) {s : State} (h : I s) :
    ∀ b ∈ l, P b (l.foldl f s) := by
  induction l generalizing s with
  | nil => exact fun b mem => absurd mem List.not_mem_nil
  | cons a l ih =>
    intro b mem
    rcases List.mem_cons.mp mem with rfl | later
    · have both : I (f s b) ∧ P b (f s b) := ⟨stays s b h, here s b h⟩
      exact (List.foldlRecOn (motive := fun t => I t ∧ P b t) l f both (fun t k c _ => ⟨stays t c k.1, kept t c b k.1 k.2⟩)).2
    · exact ih (stays s a h) b later

theorem Table.mem_keys {α : Type} {k : Nat} : ∀ {t : Table α}, (Table.get t k).isSome = true → k ∈ t.map (fun e => e.1)
  | c :: t, h => by
    by_cases same : k = c.1
    · exact List.mem_cons.mpr (.inl same)
    · simp only [Table.get, same, if_false] at h
      exact List.mem_cons_of_mem _ (Table.mem_keys h)

/-! ### What a stop changes -/

/-- The state differs in nothing but the work in hand: pans, sessions, chains, commands open and waiting, and what events change. -/
def State.OnlyWork (s t : State) : Prop :=
  t = { s with sites := t.sites, packets := t.packets, copies := t.copies, i2s := t.i2s, sluice := t.sluice, waiting := t.waiting,
               waitCalls := t.waitCalls, txns := t.txns, commits := t.commits, versions := t.versions, bittern := t.bittern,
               host := t.host, rings := t.rings, evc := t.evc, held := t.held, evtLost := t.evtLost,
               bitternWritten := t.bitternWritten, bitternCounted := t.bitternCounted }

namespace State.OnlyWork

variable {s t u : State}

theorem refl (s : State) : State.OnlyWork s s := rfl
theorem trans (h : State.OnlyWork s t) (k : State.OnlyWork t u) : State.OnlyWork s u := Eq.trans k (by rw [h])

theorem ofEnds (h : State.Ends s t) : State.OnlyWork s t := by
  refine h.eq.trans ?_
  rw [h.eq]

theorem foldl {α : Type} {f : State → α → State} (h : ∀ v a, State.OnlyWork v (f v a)) (l : List α) (s : State) :
    State.OnlyWork s (l.foldl f s) :=
  List.foldlRecOn (motive := State.OnlyWork s) l f (refl s) (fun v k a _ => k.trans (h v a))

theorem dram (h : State.OnlyWork s t) : t.dram = s.dram := (congrArg State.dram h).trans rfl
theorem flash (h : State.OnlyWork s t) : t.flash = s.flash := (congrArg State.flash h).trans rfl
theorem dev (h : State.OnlyWork s t) : t.dev = s.dev := (congrArg State.dev h).trans rfl
theorem pins (h : State.OnlyWork s t) : t.pins = s.pins := (congrArg State.pins h).trans rfl
theorem tb (h : State.OnlyWork s t) : t.tb = s.tb := (congrArg State.tb h).trans rfl
theorem pwr (h : State.OnlyWork s t) : t.pwr = s.pwr := (congrArg State.pwr h).trans rfl

end State.OnlyWork

/-- A stop: work only, and every ring that stood still stands. -/
structure State.Stops (s t : State) : Prop where
  work : State.OnlyWork s t
  rings : ∀ k, (t.ring k).isSome = (s.ring k).isSome

namespace State.Stops

variable {s t u : State}

theorem refl (s : State) : State.Stops s s := ⟨.refl s, fun _ => rfl⟩
theorem trans (h : State.Stops s t) (k : State.Stops t u) : State.Stops s u :=
  ⟨h.work.trans k.work, fun n => (k.rings n).trans (h.rings n)⟩

/-- A change of the work in hand that leaves the rings alone. -/
theorem fields (h : State.OnlyWork s t) (k : t.rings = s.rings) : State.Stops s t := ⟨h, fun n => by simp only [State.ring, k]⟩

theorem ofEnds (h : State.Ends s t) : State.Stops s t := ⟨.ofEnds h, h.only.rings⟩

theorem ite {c : Prop} [Decidable c] (h : State.Stops s t) (k : State.Stops s u) : State.Stops s (if c then t else u) := by
  split
  · exact h
  · exact k

theorem foldl {α : Type} {f : State → α → State} (h : ∀ v a, State.Stops v (f v a)) (l : List α) (s : State) :
    State.Stops s (l.foldl f s) :=
  List.foldlRecOn (motive := State.Stops s) l f (refl s) (fun v k a _ => k.trans (h v a))

end State.Stops

theorem State.putSite_stops (p : Nat) (x : Site) (s : State) : State.Stops s (s.putSite p x) := .fields rfl rfl

theorem State.modSite_stops (p : Nat) (f : Site → Site) (s : State) : State.Stops s (s.modSite p f) := by
  unfold State.modSite
  split
  · exact State.putSite_stops p _ s
  · exact .refl s

theorem State.dropWaiting_stops (f : Waiting → Bool) (status : Nat) (s : State) : State.Stops s (s.dropWaiting f status) := by
  have taken : State.Stops s { s with waiting := s.waiting.filter (fun w => !f w) } := .fields rfl rfl
  exact taken.trans (.foldl (fun t w => .ofEnds (State.finish_ends w status [] t)) _ _)

theorem State.finishHalt_stops (q : Pan) (status : Nat) (met : Bool) (pl : Placement) (s : State) :
    State.Stops s (s.finishHalt q status met pl) := by
  unfold State.finishHalt
  split
  · exact .ofEnds (State.complete_ends _ _ _ _ _ s)
  · exact .refl s

theorem State.abortWaiting_stops (p : Nat) (s : State) : State.Stops s (s.abortWaiting p) := by
  have dropped := State.dropWaiting_stops (Waiting.onPan p) stAborted s
  unfold State.abortWaiting State.abortHalts
  split
  · exact dropped
  · refine dropped.trans (State.Stops.trans ?_ (State.putSite_stops p _ _))
    exact .foldl (fun t pl => State.finishHalt_stops _ stAborted false pl t) _ _

theorem State.idlePan_stops (p : Nat) (s : State) : State.Stops s (s.idlePan p) := by
  have dropped : State.Stops (s.abortWaiting p) ((s.abortWaiting p).dropCalls p) := .fields rfl rfl
  exact ((State.abortWaiting_stops p s).trans dropped).trans (State.modSite_stops p _ _)

theorem State.touchObject_stops (o : Option Nat) (s : State) : State.Stops s (s.touchObject o) := by
  cases o with
  | none => exact .refl s
  | some k => exact .fields rfl rfl

theorem State.stopSession_stops (p : Nat) (s : State) : State.Stops s (s.stopSession p) := by
  have stopped : State.Stops s (s.stopPan p) := by
    unfold State.stopPan
    split
    · exact .refl s
    · exact (State.Stops.ite ((State.abortWaiting_stops p s).trans (State.modSite_stops p _ _)) (State.idlePan_stops p s)).trans
        (State.touchObject_stops (some p) _)
  have cleared : ∀ t : State, State.Stops t (t.clearSession p) := fun t =>
    (State.modSite_stops p (fun x => { x with stream := none, audio := x.audio.unrouted }) t).trans (.fields rfl rfl)
  exact .ite (stopped.trans (cleared _)) (.refl s)

theorem State.stopChain_stops (n : Fin 64) (s : State) : State.Stops s (s.stopChain n) := by
  have ended : State.Stops s (s.chainEnded n (fun k => { k with aborted := true })) := .fields rfl rfl
  exact .ite (ended.trans (.ofEnds (State.endChain_ends n stAborted _ s))) (.refl s)

/-- Pans, chains and commands stopped. -/
def State.quiet (s : State) : State := ((s.stopSessions).stopChains).dropWaiting (fun w => !w.isRemoval) stAborted

/-- Open transactions discarded. -/
def State.noTxns (s : State) : State := { s with txns := [] }

theorem State.noTxns_stops (s : State) : State.Stops s s.noTxns := .fields rfl rfl
theorem State.noTxns_parts (s : State) : s.noTxns.sites = s.sites ∧ s.noTxns.sluice = s.sluice ∧ s.noTxns.txns = [] := ⟨rfl, rfl, rfl⟩

/-- All work stopped but the rings' (R374). -/
def State.stopWork (s : State) : State := s.quiet.noTxns

theorem State.stopWork_stops (s : State) : State.Stops s s.stopWork := by
  have sessions : State.Stops s s.stopSessions := .foldl (fun t p => State.stopSession_stops p t) _ s
  have chains : State.Stops s.stopSessions s.stopSessions.stopChains := .foldl (fun t n => State.stopChain_stops n t) _ _
  have quiet : State.Stops s s.quiet := (sessions.trans chains).trans (State.dropWaiting_stops _ stAborted _)
  exact quiet.trans (State.noTxns_stops _)

/-! ### Pans -/

section pans
variable {s : State} {p q : Nat} {x y z : Site}

/-- The record of a pan stopped with its session: in `IDLE`, without a stream, and off the boiler where it ran. -/
structure Site.Stopped (x y : Site) : Prop where
  mode : y.mode = .idle
  stream : y.stream = none
  boiler : y.boiler = if x.mode = .idle then x.boiler else none

theorem Site.Stopped.again (h : Site.Stopped x y) (k : Site.Stopped y z) : Site.Stopped x z :=
  ⟨k.mode, k.stream, by rw [k.boiler, if_pos h.mode, h.boiler]⟩

theorem State.site_foldl {α : Type} {f : State → α → State} (h : ∀ t a, (f t a).sites = t.sites) (l : List α) (s : State) :
    (l.foldl f s).site q = s.site q := congrArg (Table.get · q) (State.foldl_sites h l s)

theorem State.site_modSite_other (h : q ≠ p) (f : Site → Site) (s : State) : (s.modSite p f).site q = s.site q := by
  unfold State.modSite
  split
  · exact State.site_putSite_other h _ s
  · rfl

theorem State.site_touchObject (o : Option Nat) (s : State) : (s.touchObject o).site q = s.site q := by
  cases o <;> rfl

theorem State.site_abortWaiting_other (h : q ≠ p) (s : State) : (s.abortWaiting p).site q = s.site q := by
  have dropped : (s.dropWaiting (Waiting.onPan p) stAborted).site q = s.site q := congrArg (Table.get · q) (State.dropWaiting_sites _ _ s)
  refine Eq.trans ?_ dropped
  unfold State.abortWaiting State.abortHalts
  split
  · rfl
  · rw [State.site_putSite_other h]
    exact State.site_foldl (fun t pl => State.finishHalt_sites _ _ _ pl t) _ _

theorem State.site_idlePan_other (h : q ≠ p) (s : State) : (s.idlePan p).site q = s.site q :=
  (State.site_modSite_other h _ _).trans (State.site_abortWaiting_other h s)

theorem State.site_stopSession_other (h : q ≠ p) (s : State) : (s.stopSession p).site q = s.site q := by
  have stopped : (s.stopPan p).site q = s.site q := by
    unfold State.stopPan
    split
    · rfl
    · rw [State.site_touchObject]
      split
      · exact (State.site_modSite_other h _ _).trans (State.site_abortWaiting_other h s)
      · exact State.site_idlePan_other h s
  unfold State.stopSession
  split
  · exact (State.site_modSite_other h _ _).trans stopped
  · rfl

theorem State.stopPan_site (h : s.site p = some x) :
    SiteThat (s.stopPan p) p (fun y => y.mode = .idle ∧ y.boiler = if x.mode = .idle then x.boiler else none) := by
  rw [State.stopPan, h]
  dsimp only
  by_cases idle : x.mode = .idle
  · rw [if_pos idle, SiteThat, State.site_touchObject, State.modSite_eq (State.abortWaiting_site h)]
    exact ⟨_, State.site_putSite_same .., idle, (if_pos idle).symm⟩
  · obtain ⟨y, there, idled⟩ := State.idlePan_site h
    rw [if_neg idle, SiteThat, State.site_touchObject]
    exact ⟨y, there, idled.mode, by rw [idled.engines.1, if_neg idle]⟩

theorem State.stopSession_site (h : s.site p = some x) : SiteThat (s.stopSession p) p (Site.Stopped x) := by
  obtain ⟨y, there, mode, boiler⟩ := State.stopPan_site h
  have exists_ : (s.site p).isSome = true := by rw [h]; rfl
  have cleared : (s.stopSession p).site p = some { y with stream := none, audio := y.audio.unrouted } := by
    rw [State.stopSession, if_pos exists_, State.clearSession, State.modSite_eq there]
    exact State.site_putSite_same ..
  exact ⟨_, cleared, mode, rfl, boiler⟩

/-- Every pan is stopped with its session. -/
theorem State.stopSessions_site (h : s.site q = some x) : SiteThat s.stopSessions q (Site.Stopped x) := by
  have step : ∀ (t : State) p, (∃ y, t.site q = some y ∧ (y = x ∨ Site.Stopped x y)) → p = q →
      SiteThat (t.stopSession p) q (Site.Stopped x) := by
    rintro t p ⟨y, there, rfl | stopped⟩ rfl
    · exact State.stopSession_site there
    · obtain ⟨z, now, again⟩ := State.stopSession_site there
      exact ⟨z, now, stopped.again again⟩
  have mem : q ∈ s.sites.map (fun e => e.1) := Table.mem_keys (Option.isSome_of_mem h)
  refine foldl_reaches (f := fun t p => t.stopSession p) (I := fun t => ∃ y, t.site q = some y ∧ (y = x ∨ Site.Stopped x y))
    (P := fun p t => p = q → SiteThat t q (Site.Stopped x)) (fun t p h => ?_) (fun t p h => step t p h) (fun t p b h k same => ?_)
    _ ⟨x, h, .inl rfl⟩ q mem rfl
  · by_cases same : p = q
    · obtain ⟨y, there, stopped⟩ := step t p h same
      exact ⟨y, there, .inr stopped⟩
    · rw [State.site_stopSession_other (Ne.symm same)]
      exact h
  · by_cases own : p = q
    · exact step t p h own
    · rw [SiteThat, State.site_stopSession_other (Ne.symm own)]
      exact k same

theorem State.stopWork_sites (s : State) : s.stopWork.sites = s.stopSessions.sites := by
  have chain : ∀ (t : State) n, (t.stopChain n).sites = t.sites := fun t n => by
    unfold State.stopChain
    split
    · exact State.foldl_sites (fun u w => State.finish_sites w _ _ u) _ _
    · rfl
  have quiet : s.quiet.sites = s.stopSessions.stopChains.sites := State.dropWaiting_sites _ _ _
  rw [State.stopWork, s.quiet.noTxns_parts.1, quiet]
  exact State.foldl_sites chain _ _

theorem State.stopWork_site (h : s.site q = some x) : SiteThat s.stopWork q (Site.Stopped x) := by
  rw [SiteThat, State.site, State.stopWork_sites]
  exact State.stopSessions_site h

end pans

/-! ### Chains -/

theorem State.stopChain_busy (n m : Fin 64) (s : State) :
    ((s.stopChain n).sluice[m]).busy = (!decide (m = n) && (s.sluice[m]).busy) := by
  by_cases busy : (s.sluice[n]).busy = true
  · have stops : s.stopChain n = s.endChain n stAborted (fun k => { k with aborted := true }) := if_pos busy
    have ended : (s.stopChain n).sluice = _ := (congrArg State.sluice stops).trans (State.endChain_ends n stAborted _ s).sluice
    refine (congrArg (fun v : Vector Sluice 64 => v[m].busy) ended).trans ?_
    have after : (vmod s.sluice n (fun k => { k with aborted := true, busy := false }))[m] = _ := vmod_get s.sluice n m _
    refine (congrArg Sluice.busy after).trans ?_
    by_cases same : m = n <;> simp [same]
  · rw [show s.stopChain n = s from if_neg busy]
    by_cases same : m = n
    · subst same; simpa using busy
    · simp [same]

theorem State.dropWaiting_sluice (f : Waiting → Bool) (status : Nat) (s : State) : (s.dropWaiting f status).sluice = s.sluice :=
  (State.Ends.foldl (f := fun t w => State.finish w status [] t) (fun t w => State.finish_ends w status [] t) (s.waiting.filter f)
    { s with waiting := s.waiting.filter (fun w => !f w) }).sluice

theorem State.stopWork_busy (s : State) (n : Fin 64) : (s.stopWork.sluice[n]).busy = false := by
  have chains : (s.stopSessions.stopChains.sluice[n]).busy = false :=
    foldl_reaches (f := fun t m => t.stopChain m) (I := fun _ => True) (P := fun m t => (t.sluice[m]).busy = false)
      (fun _ _ _ => trivial) (fun t m _ => by rw [State.stopChain_busy]; simp)
      (fun t m b _ k => by rw [State.stopChain_busy, k, Bool.and_false])
      (List.finRange 64) trivial n (List.mem_finRange n)
  have quiet : s.quiet.sluice = s.stopSessions.stopChains.sluice := State.dropWaiting_sluice _ _ _
  have same : s.stopWork.sluice = s.stopSessions.stopChains.sluice := s.quiet.noTxns_parts.2.1.trans quiet
  exact (congrArg (fun v : Vector Sluice 64 => v[n].busy) same).trans chains

/-! ### Rings -/

theorem State.destroyRing_work (n : Nat) (s : State) : State.OnlyWork s (s.destroyRing n) := rfl

theorem State.dropRings_work (keep : Nat → Bool) (s : State) : State.OnlyWork s (s.dropRings keep) :=
  .foldl (fun t n => State.destroyRing_work n t) _ s

theorem State.dropRings_keepAll (s : State) : s.dropRings (fun _ => true) = s := by
  simp [State.dropRings]

/-- No ring stands once all are destroyed. -/
theorem State.dropRings_ring (s : State) (n : Nat) : (s.dropRings (fun _ => false)).ring n = none := by
  have kept : ∀ (t : State) m, t.ring n = none → (t.destroyRing m).ring n = none := fun t m h => by
    by_cases same : n = m
    · subst same; exact Table.get_drop_same n t.rings
    · exact (Table.get_drop_other same t.rings).trans h
  by_cases mem : n ∈ (s.rings.map (fun e => e.1)).filter (fun k => !(fun _ => false) k)
  · exact foldl_reaches (f := fun t m => t.destroyRing m) (I := fun _ => True) (P := fun m t => m = n → t.ring n = none)
      (fun _ _ _ => trivial) (fun t m _ same => same ▸ Table.get_drop_same m t.rings) (fun t m b _ k same => kept t m (k same))
      _ trivial n mem rfl
  · have absent : s.ring n = none := by
      by_contra present
      exact mem (List.mem_filter.mpr ⟨Table.mem_keys (Option.isSome_iff_ne_none.mpr present), rfl⟩)
    exact List.foldlRecOn (motive := fun t => t.ring n = none) _ _ absent (fun t h m _ => kept t m h)

/-- A pan stopped stays so while rings are destroyed. -/
theorem State.dropRings_site {s : State} {keep : Nat → Bool} {q : Nat} {x : Site} (h : SiteThat s q (Site.Stopped x)) :
    SiteThat (s.dropRings keep) q (Site.Stopped x) := by
  refine List.foldlRecOn (motive := fun t => SiteThat t q (Site.Stopped x)) _ _ h (fun t k n _ => ?_)
  obtain ⟨y, there, stopped⟩ := k
  refine ⟨{ y with ringLost := y.ringLost || y.obs.ring == some n }, ?_, stopped.mode, stopped.stream, stopped.boiler⟩
  exact (Table.get_map (fun x => { x with ringLost := x.ringLost || x.obs.ring == some n }) q t.sites).trans (congrArg (Option.map _) there)

theorem State.dropRings_txns (keep : Nat → Bool) (s : State) : (s.dropRings keep).txns = s.txns :=
  List.foldlRecOn (motive := fun t : State => t.txns = s.txns) _ _ rfl (fun _ h _ _ => h)

end Sys2Proof.Machine
end

section
/-!
Low power and limits (R330, R332, R382, R383, R385, R387): an event source raised over a change of the power state, the throttle that
follows its causes, and the device as it enters D3hot.
-/
namespace Sys2Proof.Machine

/-- The power state and `DEV_STATUS` changed. -/
def State.limited (f : Power → Power) (m : BitVec 32) (s : State) : State := { s with pwr := f s.pwr, dev := { s.dev with status := m } }

/-- Source `n` raised over a state: events apart, nothing has changed. -/
structure Signals (n : Nat) (s t : State) : Prop where
  raised : Raised n t
  only : OnlyEvents s t

section events
variable {n : Nat} {s t u : State}

theorem OnlyEvents.limited (h : OnlyEvents s t) (f : Power → Power) (m : BitVec 32) : OnlyEvents (s.limited f m) (t.limited f m) := by
  have same := congrArg (State.limited f m) h.eq
  exact same

theorem OnlyEvents.modPwr (h : OnlyEvents s t) (f : Power → Power) : OnlyEvents (s.modPwr f) (t.modPwr f) := by
  have same := congrArg (State.modPwr f) h.eq
  exact same

theorem OnlyEvents.pwr (h : OnlyEvents s t) : t.pwr = s.pwr := (congrArg State.pwr h.eq).trans rfl
theorem OnlyEvents.dev (h : OnlyEvents s t) : t.dev = s.dev := (congrArg State.dev h.eq).trans rfl

theorem State.raise_signals (h : evcRaisable n = true) (s : State) : Signals n s (s.raise n) :=
  ⟨(State.raise_does h s).1, (State.raise_does h s).2⟩

theorem Signals.powerEvent (h : Signals n s t) (kind : Byte) : Signals n s (t.powerEvent kind) :=
  ⟨(State.post_holds _ _ _ _ t).raised h.raised, h.only.trans (State.post_eventful _ _ _ _ t).only⟩

end events

/-! ### The throttle (R385, R387) -/

section throttle
variable {a b : State} {m : BitVec 32}

/-- A throttle has a cause. -/
def Power.throttles (p : Power) : Bool := p.railAlert || decide (0 < p.thermal)

/-- Another episode counted. -/
def Power.episode (p : Power) : Power := { p with episodes := (p.episodes + 1) % 2 ^ 32 }

theorem State.settleThrottle_same (h : OnlyEvents a b) (settled : a.pwr.throttles = a.dev.status.getLsbD 0) : b.settleThrottle = b :=
  if_pos (by rw [h.pwr, h.dev]; exact settled)

/-- A cause without `THROTTLE`: an episode starts. -/
theorem State.settleThrottle_starts (h : OnlyEvents a b) (cause : a.pwr.throttles = true) (clear : a.dev.status.getLsbD 0 = false)
    (status : a.dev.status ||| 1 = m) : Signals 2 (a.limited Power.episode m) b.settleThrottle := by
  subst status
  have cause' : b.pwr.throttles = true := h.pwr ▸ cause
  have differs : ¬ b.pwr.throttles = b.dev.status.getLsbD 0 := by rw [cause', h.dev, clear]; decide
  have starts : b.settleThrottle = ((b.limited Power.episode (b.dev.status ||| 1)).raise 2).powerEvent 0 :=
    (if_neg differs).trans (if_pos cause')
  obtain ⟨raised, only⟩ := (State.raise_signals (n := 2) rfl (b.limited Power.episode (b.dev.status ||| 1))).powerEvent 0
  rw [starts]
  refine ⟨raised, OnlyEvents.trans ?_ only⟩
  rw [h.dev]
  exact h.limited _ _

/-- `THROTTLE` without a cause: the episode ends. -/
theorem State.settleThrottle_ends (h : OnlyEvents a b) (cause : a.pwr.throttles = false) (set : a.dev.status.getLsbD 0 = true)
    (status : a.dev.status &&& ~~~1 = m) : Signals 2 (a.limited id m) b.settleThrottle := by
  subst status
  have cause' : b.pwr.throttles = false := h.pwr ▸ cause
  have differs : ¬ b.pwr.throttles = b.dev.status.getLsbD 0 := by rw [cause', h.dev, set]; decide
  have none : ¬ b.pwr.throttles = true := by rw [cause']; decide
  have ends : b.settleThrottle = ((b.limited id (b.dev.status &&& ~~~1)).raise 2).powerEvent 1 := (if_neg differs).trans (if_neg none)
  obtain ⟨raised, only⟩ := (State.raise_signals (n := 2) rfl (b.limited id (b.dev.status &&& ~~~1))).powerEvent 1
  rw [ends]
  refine ⟨raised, OnlyEvents.trans ?_ only⟩
  rw [h.dev]
  exact h.limited _ _

end throttle

theorem status_or_two (st : BitVec 32) : st ||| 2 ||| 1 = st ||| 3 := BitVec.or_assoc ..
theorem status_clear_two (st : BitVec 32) : st &&& ~~~2 &&& ~~~1 = st &&& ~~~3 := BitVec.and_assoc ..

/-- A change of bit 1 leaves `THROTTLE`. -/
theorem status_two_throttle (st : BitVec 32) : (st ||| 2).getLsbD 0 = st.getLsbD 0 ∧ (st &&& ~~~2).getLsbD 0 = st.getLsbD 0 :=
  ⟨setBit_other st true (i := 1) (by decide), setBit_other st false (i := 1) (by decide)⟩

/-- A bit that is clear may as well be cleared. -/
theorem setBit_clear_of_clear {w : Nat} {x : BitVec w} {i : Nat} (h : x.getLsbD i = false) : setBit x i false = x := by
  refine BitVec.eq_of_getLsbD_eq fun j _ => ?_
  by_cases same : j = i
  · rw [same, setBit_clear_same, h]
  · exact setBit_other x false same

/-! ### D3hot (R383) -/

/-- The removal of all flow entries that a stop of all work asks for (R374). -/
def removalOfAll : Packet := { ring := 0, flags := 0, plen := 0, tag := 0, txid := 0, target := 0xFFFFFFFF, params := [] }

/-- In D3hot, with that removal waiting. -/
def State.asleep (s : State) : State := (s.dropAtEpoch 0x0B05 removalOfAll 0).modPwr (fun p => { p with d3hot := true })

theorem State.asleep_parts (s : State) : s.asleep.pwr = { s.pwr with d3hot := true } ∧ s.asleep.txns = s.txns ∧
    (∀ q, s.asleep.site q = s.site q) ∧ s.asleep.sluice = s.sluice ∧ (∀ n, s.asleep.ring n = s.ring n) ∧ s.asleep.dram = s.dram ∧
    s.asleep.tb = s.tb ∧ s.asleep.dev = s.dev :=
  ⟨rfl, rfl, fun _ => rfl, rfl, fun _ => rfl, rfl, rfl, rfl⟩

/-- A junction temperature measured. -/
def Power.measured (j : Int) (p : Power) : Power := { p with tj := j }
/-- One at which the throttle takes a step. -/
def Power.hotter (j : Int) (p : Power) : Power := { p with tj := j, thermal := min 7 (p.thermal + 1) }
/-- One at which the throttle ends. -/
def Power.cool (j : Int) (p : Power) : Power := { p with tj := j, thermal := 0 }

section rows
variable {s : State} {j : Int} {v : Nat}

theorem d3hotEntry_eq (awake : s.awake = true) (bus : s.pwr.perst = false) (up : s.pwr.d3hot = false)
    (ready : s.dev.ready.getLsbD 0 = true) : exec .d3hotEntry s = .next s.stopWork.asleep := by
  have goes : (s.awake && !s.pwr.perst && !s.pwr.d3hot && s.dev.ready.getLsbD 0) = true := by rw [awake, bus, up, ready]; rfl
  have all : s.stopAll (fun _ => true) = s.stopWork := State.dropRings_keepAll _
  refine (if_pos goes).trans ?_
  rw [all]
  rfl

/-! ### Core supply (R382) -/

theorem State.maySetCore_iff : s.maySetCore v = true ↔ 6500 ≤ v ∧ v ≤ 8500 ∧ v ≤ s.pwr.vddCore + 50 ∧ s.pwr.vddCore ≤ v + 50 ∧
    ∀ a ∈ s.pwr.vddAt, a + 16000000 ≤ (s.tb.time : Int) := by
  have paced : s.pwr.vddAt.all (fun (t : Int) => decide (t + (1000 * Config.usUnits : Nat) ≤ s.now)) = true ↔
      ∀ a ∈ s.pwr.vddAt, a + 16000000 ≤ (s.tb.time : Int) := by
    simp only [Option.all_eq_true, decide_eq_true_eq]
    exact Iff.rfl
  simp only [State.maySetCore, Bool.and_eq_true, decide_eq_true_eq, paced, and_assoc]

/-! ### Rail alert (R385) -/

theorem railAlertAssert_eq (awake : s.awake = true) (none : s.pwr.railAlert = false) : exec .railAlertAssert s =
    .next ((((s.limited (fun p => { p with railAlert := true }) (s.dev.status ||| 2)).raise 2).powerEvent 2).settleThrottle) :=
  if_pos (by rw [awake, none]; rfl)

theorem railAlertRelease_eq (awake : s.awake = true) (alert : s.pwr.railAlert = true) : exec .railAlertRelease s =
    .next (((s.limited (fun p => { p with railAlert := false }) (s.dev.status &&& ~~~2)).raise 2).settleThrottle) :=
  if_pos (by rw [awake, alert]; rfl)

/-! ### Thermal limits (R387) -/

theorem thermalWarning_eq (awake : s.awake = true) (hot : (100 * s.pwr.twarn : Nat) ≤ j) (clear : s.dev.status.getLsbD 2 = false) :
    exec (.thermalWarning j) s = .next (((s.limited (Power.measured j) (s.dev.status ||| 4)).raise 2).powerEvent 3) :=
  if_pos (by rw [awake, clear, decide_eq_true hot]; rfl)

theorem thermWarnClear_eq (awake : s.awake = true) (cool : j < (100 * s.pwr.twarn : Nat)) (set : s.dev.status.getLsbD 2 = true) :
    exec (.thermWarnClear j) s = .next ((s.limited (Power.measured j) (s.dev.status &&& ~~~4)).raise 2) :=
  if_pos (by rw [awake, set, decide_eq_true cool]; rfl)

theorem thermalThrottle_eq (awake : s.awake = true) (hot : 10500 ≤ j ∨ 10300 ≤ j ∧ 0 < s.pwr.thermal) : exec (.thermalThrottle j) s =
    .next (s.limited (Power.hotter j) s.dev.status).settleThrottle :=
  if_pos (by simp [awake, hot])

theorem thermalThrottleEnd_eq (awake : s.awake = true) (cool : j < 10300) (was : 0 < s.pwr.thermal) : exec (.thermalThrottleEnd j) s =
    .next (s.limited (Power.cool j) s.dev.status).settleThrottle :=
  if_pos (by simp [awake, cool, was])

theorem thermtrip_eq (awake : s.awake = true) (hot : 12500 ≤ j) :
    exec (.thermtrip j) s = .next ((s.setTj j).fail.modPwr (fun p => { p with tripped := true })) :=
  if_pos (by simp [awake, hot])

/-- A device not stopped that fails: `FATAL` sets, and source 1 is raised. -/
theorem State.fail_signals (runs : s.fatal = false) : Signals 1 (s.limited id (s.dev.status ||| 0x80000000)) s.fail := by
  have fails : s.fail = (s.limited id (s.dev.status ||| 0x80000000)).raise 1 := if_neg (by rw [runs]; decide)
  rw [fails]
  exact State.raise_signals rfl _

end rows

/-- Settles O42: a stop of all work keeps the rings, each limit is its row's change of power state and status with source 2 raised over
it, and `THROTTLE` is settled by its causes. -/
theorem lowPowerAndLimits : Obligations.LowPowerAndLimits := by
  intro s w st pd off
  have alerted := (State.raise_signals (n := 2) rfl (s.limited (fun p => { p with railAlert := true }) (st ||| 2))).powerEvent 2
  have released := State.raise_signals (n := 2) rfl (s.limited (fun p => { p with railAlert := false }) (st &&& ~~~2))
  refine ⟨fun awake bus up ready => ⟨_, d3hotEntry_eq awake bus up ready, ?_⟩, ⟨_, rfl, rfl⟩,
    fun v booting ready low high rise fall late => ?_, fun v bad => ?_,
    fun awake none clear => ⟨_, railAlertAssert_eq awake none, ?_⟩, fun awake none set => ⟨_, railAlertAssert_eq awake none, ?_⟩,
    fun awake alert cool => ⟨_, railAlertRelease_eq awake alert, ?_⟩, fun awake alert hot set => ⟨_, railAlertRelease_eq awake alert, ?_⟩,
    fun j awake hot clear => ?_, fun j awake cool set => ?_,
    fun j awake hot clear => ⟨_, thermalThrottle_eq awake hot, ?_⟩, fun j awake hot set => ⟨_, thermalThrottle_eq awake hot, ?_⟩,
    fun j awake cool was none set => ⟨_, thermalThrottleEnd_eq awake cool was, ?_⟩,
    fun j awake cool was alert set => ⟨_, thermalThrottleEnd_eq awake cool was, ?_⟩,
    fun j awake hot runs => ⟨_, thermtrip_eq awake hot, ?_⟩, fun j awake hot stopped => ⟨_, thermtrip_eq awake hot, ?_⟩⟩
  · obtain ⟨pwr, txns, site, sluice, ring, dram, tb, dev⟩ := s.stopWork.asleep_parts
    obtain ⟨work, rings⟩ := s.stopWork_stops
    refine ⟨by rw [pwr, work.pwr], txns.trans s.quiet.noTxns_parts.2.2, fun q x there => ?_, fun n => ?_, fun e mem => ?_,
      dram.trans work.dram, tb.trans work.tb, dev.trans work.dev⟩
    · obtain ⟨y, now, stopped⟩ := State.stopWork_site there
      exact ⟨y, (site q).trans now, stopped.mode, stopped.stream⟩
    · rw [sluice]
      exact State.stopWork_busy s n
    · rw [ring, rings]
      exact Table.get_isSome_of_mem mem
  · have may : s.maySetCore v = true := State.maySetCore_iff.mpr ⟨low, high, rise, fall, late⟩
    exact ⟨_, if_pos (by rw [booting, ready, may]; rfl), rfl⟩
  · have mayNot : ¬ s.maySetCore v = true := fun may => by
      obtain ⟨low, high, rise, fall, late⟩ := State.maySetCore_iff.mp may
      rcases bad with h | h | h | h | ⟨a, at_, early⟩
      · exact absurd low (Nat.not_le.mpr h)
      · exact absurd high (Nat.not_le.mpr h)
      · exact absurd rise (Nat.not_le.mpr h)
      · exact absurd fall (Nat.not_le.mpr h)
      · exact absurd (late a at_) (Int.not_le.mpr early)
    exact ⟨s, if_neg (by rw [Bool.and_eq_true]; exact fun h => mayNot h.2), rfl⟩
  · obtain ⟨raised, only⟩ := State.settleThrottle_starts alerted.only (Bool.true_or _) ((status_two_throttle st).1.trans clear)
      (status_or_two st)
    exact ⟨raised, only⟩
  · rw [State.settleThrottle_same alerted.only ((Bool.true_or _).trans ((status_two_throttle st).1.trans set).symm)]
    exact ⟨alerted.raised, alerted.only⟩
  · have cause : ({ w with railAlert := false } : Power).throttles = false := decide_eq_false (by rw [cool]; decide)
    cases throttle : st.getLsbD 0 with
    | true =>
      obtain ⟨raised, only⟩ := State.settleThrottle_ends released.only cause ((status_two_throttle st).2.trans throttle)
        (status_clear_two st)
      exact ⟨raised, only⟩
    | false =>
      have clear := (status_two_throttle st).2.trans throttle
      have still : st &&& ~~~2 = st &&& ~~~3 := by rw [← status_clear_two]; exact (setBit_clear_of_clear clear).symm
      rw [State.settleThrottle_same released.only (cause.trans clear.symm)]
      refine ⟨released.raised, ?_⟩
      change OnlyEvents (s.limited (fun p => { p with railAlert := false }) (st &&& ~~~3)) _
      rw [← still]
      exact released.only
  · have cause : ({ w with railAlert := false } : Power).throttles = true := decide_eq_true hot
    rw [State.settleThrottle_same released.only (cause.trans ((status_two_throttle st).2.trans set).symm)]
    exact ⟨released.raised, released.only⟩
  · obtain ⟨raised, only⟩ := (State.raise_signals (n := 2) rfl (s.limited (Power.measured j) (st ||| 4))).powerEvent 3
    exact ⟨_, thermalWarning_eq awake hot clear, raised, only⟩
  · obtain ⟨raised, only⟩ := State.raise_signals (n := 2) rfl (s.limited (Power.measured j) (st &&& ~~~4))
    exact ⟨_, thermWarnClear_eq awake cool set, raised, only⟩
  · have cause : (w.hotter j).throttles = true := by simp [Power.throttles, Power.hotter]
    obtain ⟨raised, only⟩ := State.settleThrottle_starts (.refl (s.limited (Power.hotter j) st)) cause clear rfl
    exact ⟨raised, only⟩
  · have cause : (w.hotter j).throttles = true := by simp [Power.throttles, Power.hotter]
    exact State.settleThrottle_same (.refl (s.limited (Power.hotter j) st)) (cause.trans set.symm)
  · have cause : (w.cool j).throttles = false := (Bool.or_false _).trans none
    obtain ⟨raised, only⟩ := State.settleThrottle_ends (.refl (s.limited (Power.cool j) st)) cause set rfl
    exact ⟨raised, only⟩
  · have cause : (w.cool j).throttles = true := (Bool.or_false _).trans alert
    exact State.settleThrottle_same (.refl (s.limited (Power.cool j) st)) (cause.trans set.symm)
  · obtain ⟨raised, only⟩ := State.fail_signals (s := s.setTj j) runs
    exact ⟨raised, only.modPwr (fun p => { p with tripped := true })⟩
  · have still : (s.setTj j).fail = s.setTj j := if_pos stopped
    rw [still]
    rfl

end Sys2Proof.Machine
end

section
/-!
Bring-up and resets (R327, R374, R376, R377, R379, R380): the bits of `DEV_READY` that a row sets, the CONFIG block in force, and a
device whose functions are reset.
-/
namespace Sys2Proof.Machine

/-! ### `DEV_READY` (R331) -/

theorem setBit_of_set {w : Nat} {x : BitVec w} {i : Nat} (h : x.getLsbD i = true) : setBit x i true = x := by
  refine BitVec.eq_of_getLsbD_eq fun j hj => ?_
  by_cases same : j = i
  · rw [same, setBit_same _ (same ▸ hj), h]
  · exact setBit_other x true same

/-- The bits of a list. -/
def readyMask : List Nat → BitVec 32
  | [] => 0
  | i :: l => (1#32 <<< i) ||| readyMask l

/-- Bits of `DEV_READY` set. -/
def State.madeReady (m : BitVec 32) (s : State) : State := { s with dev := { s.dev with ready := s.dev.ready ||| m } }

theorem OnlyEvents.madeReady {s t : State} (h : OnlyEvents s t) (m : BitVec 32) : OnlyEvents (s.madeReady m) (t.madeReady m) := by
  have same := congrArg (State.madeReady m) h.eq
  exact same

/-- The bits of a mask set: source 0 is raised, or all of them stood and nothing happens. -/
structure ReadySet (m : BitVec 32) (s t : State) : Prop where
  only : OnlyEvents (s.madeReady m) t
  raised : Raised 0 t ∨ s.dev.ready &&& m = m ∧ t = s
  holds : State.Holds s t

/-- Bits that stand, set again. -/
theorem ReadySet.still {m : BitVec 32} {s : State} (h : s.dev.ready ||| m = s.dev.ready) : ReadySet m s s := by
  have set : s.dev.ready &&& m = m := by
    rw [← h]
    exact BitVec.eq_of_getLsbD_eq fun j _ => by
      rw [BitVec.getLsbD_and, BitVec.getLsbD_or]
      cases m.getLsbD j <;> simp
  exact ⟨by rw [State.madeReady, h]; exact .refl s, .inr ⟨set, rfl⟩, .refl s⟩

theorem ReadySet.raise (m : BitVec 32) (s : State) : ReadySet m s ((s.madeReady m).raise 0) :=
  ⟨(State.raise_eventful 0 _).only, .inl (State.raise_raised rfl _), State.raise_holds 0 (s.madeReady m)⟩

theorem ReadySet.trans {m k : BitVec 32} {s t u : State} (h : ReadySet m s t) (g : ReadySet k t u) : ReadySet (m ||| k) s u := by
  have both : (s.madeReady m).madeReady k = s.madeReady (m ||| k) := by
    rw [State.madeReady, State.madeReady, State.madeReady, ← BitVec.or_assoc]
  refine ⟨both ▸ (h.only.madeReady k).trans g.only, ?_, h.holds.trans g.holds⟩
  rcases h.raised with now | ⟨first, rfl⟩
  · exact .inl (g.holds.raised now)
  · exact g.raised.imp_right fun ⟨then_, same⟩ => ⟨by rw [BitVec.and_or_distrib_left, first, then_], same⟩

theorem State.setReady_sets (l : List Nat) (s : State) : ReadySet (readyMask l) s (s.setReady l) := by
  induction l generalizing s with
  | nil => exact .still BitVec.or_zero
  | cons i l ih =>
    cases set : s.dev.ready.getLsbD i with
    | false =>
      have step : s.setReady (i :: l) = ((s.madeReady (1#32 <<< i)).raise 0).setReady l := by
        rw [State.setReady, List.foldl_cons, set]
        rfl
      rw [step]
      exact (ReadySet.raise (1#32 <<< i) s).trans (ih _)
    | true =>
      have step : s.setReady (i :: l) = s.setReady l := by
        rw [State.setReady, List.foldl_cons, set]
        rfl
      rw [step]
      exact (ReadySet.still (setBit_of_set set)).trans (ih s)

/-- What a row that sets bits of `DEV_READY` leaves. -/
theorem State.setReady_ready {l : List Nat} {m : BitVec 32} (mask : readyMask l = m) (s : State) :
    OnlyEvents (s.madeReady m) (s.setReady l) ∧ (s.dev.ready &&& m ≠ m → Raised 0 (s.setReady l)) := by
  subst mask
  obtain ⟨only, raised, -⟩ := s.setReady_sets l
  exact ⟨only, fun clear => raised.resolve_right fun all => clear all.1⟩

theorem readyMask_dram : ∀ n : Fin 4, readyMask [3 + n.val] = 8 <<< n.val := by decide

theorem readyMask_engines : readyMask ((List.range 8).map rdyBay ++ [rdySluice]) = 0x87F80 := by decide

/-- The DRAM bits are set where all four stand. -/
theorem State.readyFor_dram {s : State} (h : s.dev.ready &&& 0x78 = 0x78) : s.readyFor rdyDram = true := by
  refine List.all_eq_true.mpr fun i mem => ?_
  have set : (s.dev.ready &&& 0x78).getLsbD i = (0x78 : BitVec 32).getLsbD i := congrArg (·.getLsbD i) h
  have dram : ∀ i ∈ rdyDram, (0x78 : BitVec 32).getLsbD i = true := by decide
  rw [BitVec.getLsbD_and, dram i mem] at set
  exact (Bool.and_true _).symm.trans set

/-! ### The CONFIG block (R380) -/

/-- A CONFIG block with its MAGIC and CRC. -/
def configGood (b : List Byte) : Bool :=
  slice b 0 4 == [0x4B, 0x43, 0x46, 0x47] && crc32 (slice b 0 60) == BitVec.ofNat 32 (leNat (slice b 60 4))

/-- The settings of a good block are those it holds; of another one the defaults are in force. -/
theorem Power.configure_configBlock (b : List Byte) (p : Power) : p.configure (configBlock b) =
    if configGood b then p.configure b else { p with subsys := 0, heapPct := 50, slew := 40, iccMax := 220, twarn := 100 } := by
  by_cases good : configGood b = true
  · have block : configBlock b = slice b 0 64 := if_pos (by simpa [configGood] using good)
    rw [block, if_pos good]
    simp only [Power.configure]
    rw [slice_slice (by decide), slice_getD (by decide), slice_getD (by decide), slice_getD (by decide), slice_getD (by decide)]
  · have block : configBlock b = [0x4B, 0x43, 0x46, 0x47, 0, 0, 0, 0, 50, 40, 220, 100] := if_neg (by simpa [configGood] using good)
    rw [block, if_neg good]
    rfl

/-! ### Resets (R327, R376) -/

/-- All work has stopped, rings and the state of the host's interface are at reset, and firmware and DRAM stand. -/
structure State.FunctionsReset (s t : State) : Prop where
  rings : ∀ n, t.ring n = none
  interface : t.txns = [] ∧ t.sluice = Vector.replicate 64 Sluice.reset ∧ t.boot = Boot.reset ∧ t.pcie = Pcie.reset ∧ t.held = [] ∧
    t.waitCalls = []
  sites : ∀ q x, s.site q = some x → SiteThat t q (Site.Stopped x)
  stands : t.dram = s.dram ∧ t.flash = s.flash ∧ t.dev.status = s.dev.status ∧ t.pins = s.pins ∧ t.tb = s.tb

theorem State.FunctionsReset.modPwr {s t : State} (h : State.FunctionsReset s t) (f : Power → Power) :
    State.FunctionsReset s (t.modPwr f) := ⟨h.rings, h.interface, h.sites, h.stands⟩

theorem State.FunctionsReset.withReady {s t : State} (h : State.FunctionsReset s t) (m : BitVec 32) (e : Evc) :
    State.FunctionsReset s { t with dev := { t.dev with ready := m }, evc := e } := ⟨h.rings, h.interface, h.sites, h.stands⟩

/-- The function's own state put to reset, once all work has stopped. -/
def State.interfaceReset (u : State) : State :=
  { (u.dropAtEpoch 0x0B05 removalOfAll 0).modDev (fun d => { d with ready := 0 }) with
    evc := Evc.reset, pcie := Pcie.reset, sluice := Vector.replicate 64 Sluice.reset, boot := Boot.reset, held := [], waitCalls := [],
    evtLost := [] }

theorem State.functionReset_eq (s : State) : s.functionReset = (s.stopWork.dropRings (fun _ => false)).interfaceReset := rfl

theorem State.interfaceReset_parts (u : State) : u.interfaceReset.dram = u.dram ∧ u.interfaceReset.flash = u.flash ∧
    u.interfaceReset.dev = { u.dev with ready := 0 } ∧ u.interfaceReset.pins = u.pins ∧ u.interfaceReset.tb = u.tb ∧
    u.interfaceReset.pwr = u.pwr ∧ u.interfaceReset.txns = u.txns ∧ u.interfaceReset.rings = u.rings ∧ u.interfaceReset.sites = u.sites :=
  ⟨rfl, rfl, rfl, rfl, rfl, rfl, rfl, rfl, rfl⟩

theorem State.functionReset_resets (s : State) : State.FunctionsReset s s.functionReset ∧ s.functionReset.dev.ready = 0 ∧
    s.functionReset.evc = Evc.reset ∧ s.functionReset.pwr = s.pwr := by
  have work : State.OnlyWork s (s.stopWork.dropRings (fun _ => false)) := s.stopWork_stops.work.trans (State.dropRings_work _ _)
  have txns : (s.stopWork.dropRings (fun _ => false)).txns = [] := (State.dropRings_txns _ _).trans s.quiet.noTxns_parts.2.2
  have gone : ∀ n, (s.stopWork.dropRings (fun _ => false)).ring n = none := State.dropRings_ring s.stopWork
  have stopped : ∀ q x, s.site q = some x → SiteThat (s.stopWork.dropRings (fun _ => false)) q (Site.Stopped x) :=
    fun q x there => State.dropRings_site (State.stopWork_site there)
  rw [State.functionReset_eq]
  generalize s.stopWork.dropRings (fun _ => false) = u at work txns gone stopped
  obtain ⟨dram, flash, dev, pins, tb, pwr, open_, rings, sites⟩ := u.interfaceReset_parts
  refine ⟨⟨fun n => ?_, ⟨open_.trans txns, rfl, rfl, rfl, rfl, rfl⟩, fun q x there => ?_,
    dram.trans work.dram, flash.trans work.flash, ?_, pins.trans work.pins, tb.trans work.tb⟩, ?_, rfl, pwr.trans work.pwr⟩
  · rw [State.ring, rings]
    exact gone n
  · rw [SiteThat, State.site, sites]
    exact stopped q x there
  · rw [dev, work.dev]
  · rw [dev]

/-- The event controller just reset, with source 0 raised: it is pending, and no source is enabled. -/
theorem Evc.reset_raise (now : Nat) : Evc.reset.raise now 0 = { Evc.reset with pend := 1 } := by
  have raised : setBit Evc.reset.pend 0 true = 1 := by decide
  have idle : ({ Evc.reset with pend := 1 } : Evc).ready (evcGroup 0) = false := by decide
  rw [Evc.raise, if_pos (by decide), raised, Evc.deliver, idle]
  rfl

/-- CTRL set just after a reset. -/
theorem State.setReady_ctrl {t : State} (clear : t.dev.ready = 0) (fresh : t.evc = Evc.reset) :
    t.setReady [0] = { t with dev := { t.dev with ready := 1 }, evc := { Evc.reset with pend := 1 } } := by
  have unset : t.dev.ready.getLsbD 0 = false := by rw [clear]; rfl
  have ctrl : setBit t.dev.ready 0 true = 1 := by rw [clear]; decide
  rw [State.setReady_unset unset, ← Evc.reset_raise t.now, ← ctrl, ← fresh]
  rfl

/-! ### Bring-up (R376, R377, R379) -/

/-- The device with the flash's CONFIG block in force and an image running, before CTRL sets. -/
def State.imageLoaded (bank : Nat) (img : List Byte) (s : State) : State := { s with
  dev := { s.dev with fwBuild := Config.fwBuild img, status := setBit s.dev.status 3 (bank == 1) }, flash := { s.flash with running := bank },
  pins := { s.pins with func := (s.pins.func ||| 0x10) &&& 0xFFFFFFBF },
  pwr := if configGood s.flash.config then s.pwr.configure s.flash.config
    else { s.pwr with subsys := 0, heapPct := 50, slew := 40, iccMax := 220, twarn := 100 } }

theorem State.runImage_eq (bank : Nat) (img : List Byte) (s : State) : s.runImage bank img = (s.imageLoaded bank img).setReady [0] := by
  rw [State.imageLoaded, ← Power.configure_configBlock]
  rfl

/-- The state in which channel `n`'s training is done and DRAM is zeroed. -/
def State.zeroed (n : Fin 4) (s : State) : State :=
  { s with dram := [], pwr := { s.pwr with trained := s.pwr.trained ||| (1 <<< n.val) } }

/-- One more training of channel `n` has failed. -/
def State.untrained (n : Fin 4) (s : State) : State :=
  s.modPwr (fun p => { p with trainFails := vmod p.trainFails n (fun k => k + 1) })

theorem State.untrained_fails (n : Fin 4) (s : State) : (s.untrained n).pwr.trainFails[n] = s.pwr.trainFails[n] + 1 :=
  (vmod_get s.pwr.trainFails n n _).trans (if_pos rfl)

section bringUp
variable {s : State} {n : Fin 4} {ok : Bool}

theorem State.fatal_of_booting (h : s.booting = true) : s.fatal = false := by
  simp only [State.booting, Bool.and_eq_true, Bool.not_eq_true'] at h
  exact h.2

theorem functionLevelReset_eq (awake : s.awake = true) (bus : s.pwr.perst = false) (ctrl : s.dev.ready.getLsbD 0 = true) :
    exec .functionLevelReset s = .next (s.functionReset.setReady [0]) :=
  if_pos (by rw [awake, bus, ctrl]; rfl)

theorem perstAssert_eq (awake : s.awake = true) (bus : s.pwr.perst = false) :
    exec .perstAssert s = .next (s.functionReset.modPwr (fun p => { p with perst := true })) :=
  if_pos (by rw [awake, bus]; rfl)

/-- Training failed less than twice before: nothing but the count changes. The third time the device goes FATAL. -/
theorem State.untrained_end (booting : s.booting = true) (fails : s.pwr.trainFails[n] < 3) :
    let t := if (s.untrained n).pwr.trainFails[n] < 3 then s.untrained n else (s.untrained n).fail
    t.dev.ready = s.dev.ready ∧ t.pwr.trainFails[n] = s.pwr.trainFails[n] + 1 ∧
      (s.pwr.trainFails[n] = 2 → t.fatal = true ∧ Raised 1 t) ∧ (s.pwr.trainFails[n] < 2 → t.dev = s.dev ∧ t.evc = s.evc) := by
  have count := State.untrained_fails n s
  by_cases again : s.pwr.trainFails[n] < 2
  · rw [if_pos (by rw [count]; omega)]
    exact ⟨rfl, count, fun third => by omega, fun _ => ⟨rfl, rfl⟩⟩
  · rw [if_neg (by rw [count]; omega)]
    have runs : (s.untrained n).fatal = false := State.fatal_of_booting booting
    obtain ⟨raised, only⟩ := State.fail_signals runs
    have dev : (s.untrained n).fail.dev = _ := only.dev
    have pwr : (s.untrained n).fail.pwr = _ := only.pwr
    refine ⟨(congrArg DevRegs.ready dev).trans rfl, ?_, fun _ => ⟨?_, raised⟩, fun early => absurd early again⟩
    · rw [pwr]
      exact count
    · rw [State.fatal, dev]
      exact setBit_same s.dev.status (i := 31) (by decide)

theorem firmwareAccept_eq (booting : s.booting = true) (off : s.pins.func.getLsbD 4 = false) : exec .firmwareAccept s = .next
    (if fwAccepted s.flash.bank0 then s.runImage 0 s.flash.bank0
     else if fwAccepted s.flash.bank1 then s.runImage 1 s.flash.bank1 else s.fail) := by
  refine (if_pos (by rw [booting, off]; rfl)).trans ?_
  split
  · rfl
  · split <;> rfl

/-- A channel not yet ready, in a device that boots. -/
theorem dramTrained_eq (booting : s.booting = true) (ctrl : s.dev.ready.getLsbD 0 = true) (clear : s.dev.ready.getLsbD (3 + n) = false)
    (fails : s.pwr.trainFails[n] < 3) : exec (.dramTrained n ok) s =
    if s.pwr.trained.getLsbD n.val then (if s.dev.ready.getLsbD 2 then .next (s.setReady [3 + n.val]) else .next s)
    else if ok then .next ((s.zeroed n).setReady [3 + n.val])
    else .next (if (s.untrained n).pwr.trainFails[n] < 3 then s.untrained n else (s.untrained n).fail) :=
  if_pos (by rw [booting, ctrl, clear, decide_eq_true fails]; rfl)

theorem State.loadUcode_fresh (unloaded : s.dev.status.getLsbD 7 = false) : s.loadUcode = { s with
    stores := Stores.load s.flash.image,
    dev := { s.dev with ucode := 0x02#8 ++ Config.fwUcodeBuild s.flash.image,
                        heapBytes := 17179869184 * s.pwr.heapPct / 100 / 1073741824 * 1073741824, status := s.dev.status ||| 0x80 } } :=
  if_neg (by rw [unloaded]; decide)

theorem ucodeLoaded_eq (booting : s.booting = true) (dram : s.dev.ready &&& 0x78 = 0x78) : exec .ucodeLoaded s =
    .next (s.loadUcode.setReady ((List.range 8).map rdyBay ++ [rdySluice])) :=
  if_pos (by rw [booting, State.readyFor_dram dram]; rfl)

end bringUp

/-- Settles O41: a reset of functions is a stop of all work with the interface put to reset, and each row of the bring-up sets its bits of
`DEV_READY` over the change it makes. -/
theorem bringUpAndResets : Obligations.BringUpAndResets := by
  intro s kept functional config good running image ready
  obtain ⟨reset, cleared, fresh, pwr⟩ := s.functionReset_resets
  have functional_of : ∀ t, State.FunctionsReset s t → functional t := fun t h => by
    obtain ⟨rings, ⟨txns, sluice, boot, pcie, held, calls⟩, sites, dram, flash, status, pins, tb⟩ := h
    refine ⟨rings, txns, sluice, boot, pcie, held, calls, fun q x there => ?_, dram, flash, status, pins, tb⟩
    obtain ⟨y, now, mode, stream, boiler⟩ := sites q x there
    exact ⟨y, now, mode, stream, fun ran => by rw [boiler, if_neg ran]⟩
  refine ⟨fun asserted cold => ⟨_, if_pos (by rw [asserted, cold]; rfl), rfl⟩, ⟨_, rfl, rfl⟩, ⟨_, rfl, rfl⟩,
    fun awake bus ctrl => ?_, fun awake bus => ?_, fun awake bus => ?_, fun booting off first => ⟨_, firmwareAccept_eq booting off, ?_⟩,
    fun booting off bad second => ⟨_, firmwareAccept_eq booting off, ?_⟩,
    fun booting off bad worse => ⟨_, firmwareAccept_eq booting off, ?_⟩, fun booting ctrl => ?_,
    fun n booting ctrl clear fails fresh => ?_,
    fun n trained booting ctrl tb clear fails stands => ?_, fun n booting ctrl clear fails fresh => ?_,
    fun booting dram unloaded => ?_, fun booting dram loaded => ?_⟩
  · refine ⟨_, functionLevelReset_eq awake bus ctrl, ?_⟩
    rw [State.setReady_ctrl cleared fresh]
    generalize s.functionReset = t at reset pwr
    exact ⟨functional_of _ (reset.withReady 1 _), rfl, rfl, pwr⟩
  · refine ⟨_, perstAssert_eq awake bus, functional_of _ (reset.modPwr (fun p => { p with perst := true })), cleared, fresh, ?_⟩
    exact congrArg (fun p : Power => { p with perst := true }) pwr
  · cases runs : s.pins.func.getLsbD 4 with
    | true =>
      refine ⟨_, if_pos (by rw [awake, bus]; rfl), ?_⟩
      rw [runs]
      exact State.setReady_ready (l := [0]) rfl _
    | false =>
      refine ⟨_, if_pos (by rw [awake, bus]; rfl), ?_⟩
      rw [runs]
      exact State.setReady_ready (l := []) rfl _
  · rw [if_pos first, State.runImage_eq]
    exact (State.setReady_ready (l := [0]) (m := 1) rfl (s.imageLoaded 0 s.flash.bank0)).1
  · rw [if_neg (by rw [bad]; decide), if_pos second, State.runImage_eq]
    exact (State.setReady_ready (l := [0]) (m := 1) rfl (s.imageLoaded 1 s.flash.bank1)).1
  · rw [if_neg (by rw [bad]; decide), if_neg (by rw [worse]; decide)]
    obtain ⟨raised, only⟩ := State.fail_signals (State.fatal_of_booting booting)
    exact ⟨raised, only⟩
  · exact ⟨_, if_pos (by rw [booting, ctrl]; rfl), State.setReady_ready (by decide) s⟩
  · refine ⟨_, (dramTrained_eq booting ctrl clear fails).trans (if_neg (by rw [fresh]; decide)), ?_⟩
    exact State.setReady_ready (readyMask_dram n) (s.zeroed n)
  · refine ⟨_, (dramTrained_eq booting ctrl clear fails).trans ((if_pos stands).trans (if_pos tb)), ?_⟩
    exact State.setReady_ready (readyMask_dram n) s
  · refine ⟨_, (dramTrained_eq booting ctrl clear fails).trans (if_neg (by rw [fresh]; decide)), ?_⟩
    exact State.untrained_end booting fails
  · refine ⟨_, ucodeLoaded_eq booting dram, ?_⟩
    rw [State.loadUcode_fresh unloaded]
    exact State.setReady_ready readyMask_engines _
  · refine ⟨_, ucodeLoaded_eq booting dram, ?_⟩
    rw [show s.loadUcode = s from if_pos loaded]
    exact State.setReady_ready readyMask_engines s

end Sys2Proof.Machine
end
